-- ==== Sys2Proof/Word.lean ====
section
/-! DEFINITION. The word types of the Ciwell model: bytes, register words, and the sparse map used for every
table of the block. -/
namespace Sys2Proof

/-- One byte. -/
abbrev Byte := BitVec 8
/-- A byte string, byte 0 first. -/
abbrev Bytes := List (BitVec 8)
/-- A 32-bit register word. -/
abbrev W32 := BitVec 32
/-- A 64-bit value. -/
abbrev W64 := BitVec 64
/-- A 128-bit value: an AES block, a seed word. -/
abbrev W128 := BitVec 128
/-- A sparse table: keys strictly rising, no entry equal to the table's default (see `Tab.wf`). -/
abbrev Tab (α : Type) := List (Nat × α)
/-- A set of small numbers. -/
abbrev NatSet := List Nat

end Sys2Proof
end

