-- ==== Sys2Proof/Syntax.lean ====
section
/-! DEFINITION. The commands of Ciwell: one constructor for each row of the table of operations and events. An
operand is what the world brings to the step (bus bytes, register data, a response). -/
namespace Sys2Proof

/-- A direction of traffic: egress (RSE to BSE) or ingress (BSI to RSI). -/
inductive Dir where
  | egress | ingress
  deriving DecidableEq, Repr

/-- The code of a Lane control message (R10). -/
inductive LaneCode where
  | drain | reset
  deriving DecidableEq, Repr

/-- A partition of R23. -/
inductive Part where
  | port (n : Fin 32) | slice (n : Fin 40) | pager | store | march | lease | pair | sec | ao | glob
  deriving DecidableEq, Repr

/-- The contents of a word that meets an uncorrectable error (R298, R386). -/
inductive UeLoc where
  | kek (n : BitVec 6) | rootKey
  | pnTx (vslot : BitVec 17) | rxState (vslot : BitVec 17) (bitmap : Bool)
  | chanRecord (entry : BitVec 16)
  | counterWord (entry : BitVec 16) (word : BitVec 4)
  | frameBuffer (frame : Nat)
  | residencyWord (word : BitVec 19) | groupWord (word : BitVec 18)
  | bypass (entry : BitVec 8) | calendar (entry : BitVec 8)
  | leaseDir | storeSeed (sel : BitVec 12) | storeMaster
  | wcb (line : BitVec 34)
  | eventCounter (n : BitVec 9) | portCounter (port : Fin 32) (idx : BitVec 7)
  deriving DecidableEq, Repr

/-- The mirror message kinds of R326. -/
inductive MirKind where
  | lease | slot | sched | floor
  deriving DecidableEq, Repr

/-- The captured time registers of R371. -/
inductive TimeReg where
  | tmL | tmA | step
  deriving DecidableEq, Repr

/-- A read of the CP bus: CP_ADDR and CP_SIZE (R38). -/
structure ReadAt where
  addr : BitVec 21
  size : BitVec 2
  deriving DecidableEq, Repr

/-- A command of the block. `frame` operands are the frame numbers the model gives at admission. -/
inductive Instr where
  | rstN (tamperSeen : Bool)
  | seqPhaseEnd
  | tamper (filter : Fin 2)
  | zeroise (data : W32)
  | zeroiseComplete (badBanks : List (BitVec 8))
  | klBeat (beat : BitVec 3) (data : W32)
  | klFail
  | rnFault
  | maskReseed (gen : Fin 47)
  | maskReseedRetry (gen : Fin 47)
  | timeSample (copyA vld : Bool) (sec : BitVec 48) (ns : W32) (elapsed : W32)
  | clkFreqWindow (line ctl sec : W32)
  | egressFrameAdmit (port : Fin 32) (cls : Bool) (desc : W64) (bytes : Bytes) (dpBad upErr eof : Bool)
  | busFraming (dir : Dir) (port : Fin 32)
  | ingressFrameAdmit (port : Fin 32) (cls : Bool) (desc : W64) (bytes : Bytes) (dpBad upErr eof : Bool)
  | catchEntryExpiry (sci : W64) (port : Fin 32)
  | sliceDispatch (frame : Nat)
  | bulkResume (slice : Fin 40)
  | egressIcvWritten (frame : Nat)
  | ingressIcvCompare (frame : Nat)
  | bseSofRelease (port : Fin 32) (cls : Bool)
  | rsiSofRelease (port : Fin 32) (cls : Bool)
  | eofRelease (dir : Dir) (port : Fin 32) (cls : Bool)
  | bseUnderrun (port : Fin 32) (cls : Bool)
  | rsiUnderrun (port : Fin 32) (cls : Bool)
  | recordTimeout (frame : Nat)
  | creditReturn (dir : Dir) (port : Fin 32) (cls init : Bool) (cnt : BitVec 10)
  | laneControl (lane : Fin 32) (code : LaneCode) (fmtOk : Bool)
  | linkStatus (lane : Fin 32) (up macFault expCap fmtOk : Bool)
  | bufferLevel (lane : Fin 32) (cls : Bool) (free : BitVec 16) (fmtOk : Bool)
  | blackCounterIncrement (lane : Fin 32) (ctr : BitVec 7) (inc : BitVec 16) (fmtOk : Bool)
  | blackFaultEvent (lane : Fin 32) (det : BitVec 8) (fmtOk : Bool)
  | missQueueRelease (dir : Dir) (chix : BitVec 20)
  | pageInStart
  | storeReadResponse (id : BitVec 8) (err : Bool) (data side : Bytes) (slow : Bool)
  | storeWriteAck (id : BitVec 8) (err : Bool)
  | keyCacheFill (sel : BitVec 12)
  | keyxJobStart
  | keyxJobDone (core : Fin 4)
  | pageInTimeout (chix : BitVec 20)
  | pageOutStart (chix : BitVec 20)
  | groupJobStart
  | calendarFire
  | seasonFloorEnd
  | solsticeRetire (chix : BitVec 20)
  | eqxStall (chix : BitVec 20)
  | slotDrainDone (chix : BitVec 20) (slotB : Bool)
  | nvWriteResponse (err : Bool)
  | nvReadResponse (err : Bool) (data : Bytes)
  | leaseScanDone
  | wcbIdleFlush (line : BitVec 34)
  | marchKeygenDone
  | marchLineIssue
  | spillRetry (chix : BitVec 20) (line : Fin 4)
  | counterOutcome
  | evcUpdateSlot (ctr : BitVec 9)
  | bwWindowClose
  | govEvaluation
  | surge (port : Fin 32)
  | domainIdleExpiry (dom : Fin 54)
  | domainAutumnDrained (dom : Fin 54)
  | sliceDrained (slice : Fin 40)
  | pmAck (dom : Fin 54) (ok : Bool)
  | pmRetry (dom : Fin 54)
  | pmTimeout (dom : Fin 54)
  | domainThawDone (dom : Fin 54) (pass late : Bool)
  | sliceSelfTestDone (slice : Fin 40) (pass : Bool)
  | rotationTestDue (slice : Fin 40)
  | testLate (slice : Fin 40)
  | sliceAutoRepair (slice : Fin 40)
  | sliceFault (slice : Fin 40) (det : BitVec 8)
  | maskFault (slice : Fin 40)
  | sramCe (dom : Fin 54) (addr : W32) (ctEntry : Bool)
  | sramUe (loc : UeLoc)
  | vaultUe (vslot : BitVec 17)
  | cfgPar (page : BitVec 8) (off : BitVec 12)
  | outPar (dir : Dir) (port : Fin 32) (cls : Bool)
  | unitFaultHold (part : Part)
  | keyxFault (core : Fin 4)
  | maskHltX (gen : Fin 7) (second : Bool)
  | latentTest (test : Fin 8) (inst : BitVec 9) (pass : Bool)
  | latentLate (test : Fin 8)
  | aoLock (pair : Fin 5)
  | faultEvent
  | autoPartitionReset (part : Part)
  | partitionResetDone (part : Part)
  | ppLinkDown
  | peerLost
  | hello (msg : Bytes)
  | helloTimer
  | beat (msg : Bytes)
  | beatTimer
  | health (msg : Bytes)
  | healthTimer
  | healthStale
  | ack (msg : Bytes)
  | syncReq (msg : Bytes)
  | lease (msg : Bytes)
  | slot (msg : Bytes)
  | sched (msg : Bytes)
  | floor (msg : Bytes)
  | syncEnd (msg : Bytes)
  | mirrorFlush (kind : MirKind)
  | floorTimer
  | statusTimer
  | grant (msg : Bytes)
  | arbLost
  | requestHoldExpiry
  | yield
  | request
  | resync
  | chWrite (cmd : W32)
  | chRead (cmd : W32)
  | chEvict (cmd : W32)
  | chEvictDiscard (cmd : W32)
  | chPin (cmd : W32)
  | chUnpin (cmd : W32)
  | eqxScheduleTime (cmd : W32)
  | eqxSchedulePn (cmd : W32)
  | eqxScheduleNow (cmd : W32)
  | eqxScheduleCancel (cmd : W32)
  | eqxScheduleQuery (cmd : W32)
  | solScheduleTime (cmd : W32)
  | solScheduleFirstValid (cmd : W32)
  | solScheduleNow (cmd : W32)
  | solScheduleCancel (cmd : W32)
  | solScheduleQuery (cmd : W32)
  | statRead (cmd : W32)
  | statClear (cmd : W32)
  | bucketDigest (cmd : W32)
  | slotInstall (cmd : W32)
  | slotErase (cmd : W32)
  | jnlRead (cmd : W32)
  | jnlDrop (cmd : W32)
  | hswRead (cmd : W32)
  | hswWrite (cmd : W32)
  | keyNew (cmd : W32)
  | keyErase (cmd : W32)
  | wcbFlush (cmd : W32)
  | keyQuery (cmd : W32)
  | marchStart
  | marchPause
  | marchResume
  | marchRetry
  | marchZero
  | marchStop
  | kekDerive (data : W32)
  | kekDerived
  | kekCheck (data : W32)
  | svcOut (slice : Fin 40) (data : W32)
  | testRun (slice : Fin 40) (data : W32)
  | pcntClrSelected (port : Fin 32)
  | pcntClrAll (port : Fin 32)
  | grpGo
  | calWr
  | calSel (data : W32)
  | fltRecSel (data : W32)
  | fltRecClrOne
  | fltRecClrAll
  | fltInject (data : W32)
  | bypSel (data : W32)
  | bypWr
  | evcPreset (ctr : BitVec 9) (data : W32)
  | eqxLogRead
  | loRegisterRead (addr : ReadAt)
  | timeCaptureRead (which : TimeReg)
  | pgCommit (page : BitVec 8)
  | commitApply (page : BitVec 8)
  | pgUnlock (page : BitVec 8) (data : W32)
  | unlockExpiry (page : BitVec 8)
  | pgReset (page : BitVec 8)
  | registerWrite (addr : BitVec 21) (size : BitVec 2) (data : W64)
  | glbDigestRecompute
  | seedWordTaken (word : W128)
  | pairRxBad (arbiter seqOnly : Bool)
  | residencyMapRebuildDone (word : BitVec 19)
  deriving DecidableEq, Repr

end Sys2Proof
end

