-- ==== Sys2Proof/Decode.lean ====
section
/-! DEFINITION. Command words. The table of operations gives no row any bits, so no word spells a command. -/
namespace Sys2Proof

/-- The command that a word spells: none, since no row of the table has an encoding. [DESIGN CHOICE: log 105] -/
def decodeTableWord (_nbits _w : Nat) : Option Instr := none

end Sys2Proof
end

