-- ==== Sys2Proof/Machine/Bits.lean ====
section
/-! DEFINITION. Sparse tables, bit fields and byte order. -/
namespace Sys2Proof.Machine

/-! ### Sparse tables -/

/-- The entry of a key, or the default. -/
def Tab.get {α : Type} (d : α) : Tab α → Nat → α
  | [], _ => d
  | (a, v) :: m, k => if k = a then v else Tab.get d m k

/-- Take a key out of a table. -/
def Tab.del {α : Type} : Tab α → Nat → Tab α
  | [], _ => []
  | (a, v) :: m, k => if k = a then Tab.del m k else (a, v) :: Tab.del m k

/-- Put an entry at its place in a rising table, over any entry of the same key. -/
def Tab.ins {α : Type} : Tab α → Nat → α → Tab α
  | [], k, x => [(k, x)]
  | (a, v) :: m, k, x =>
    if k < a then (k, x) :: (a, v) :: m
    else if k = a then (a, x) :: m
    else (a, v) :: Tab.ins m k x

/-- Set an entry; setting the default removes the entry. -/
def Tab.set {α : Type} [DecidableEq α] (d : α) (m : Tab α) (k : Nat) (x : α) : Tab α :=
  if x = d then Tab.del m k else Tab.ins m k x

/-- Keys strictly rising from `lo` on, and no entry equal to its default. -/
def Tab.wfFrom {α : Type} [DecidableEq α] (d : Nat → α) : Nat → Tab α → Bool
  | _, [] => true
  | lo, (a, v) :: m => decide (lo ≤ a) && !decide (v = d a) && Tab.wfFrom d (a + 1) m

/-- The canonical form of a table with a default for each key. -/
def Tab.wf {α : Type} [DecidableEq α] (d : Nat → α) (m : Tab α) : Bool := Tab.wfFrom d 0 m

/-- Change one entry by a function. -/
def Tab.modify {α : Type} [DecidableEq α] (d : α) (m : Tab α) (k : Nat) (f : α → α) : Tab α :=
  Tab.set d m k (f (Tab.get d m k))

/-- A set of numbers, with one more. -/
def insNat (l : NatSet) (k : Nat) : NatSet := if k ∈ l then l else l ++ [k]
/-- A set of numbers, with one fewer. -/
def delNat (l : NatSet) (k : Nat) : NatSet := l.filter (· ≠ k)

/-! ### Bit fields -/

/-- Bits [hi:lo] of a register word, as a number. -/
def fld (w : W32) (hi lo : Nat) : Nat := (w.toNat >>> lo) % 2 ^ (hi + 1 - lo)
/-- Bit n of a register word. -/
def bit (w : W32) (n : Nat) : Bool := w.getLsbD n
/-- A Boolean at bit n of a register word. -/
def atBit (b : Bool) (n : Nat) : W32 := if b then (1#32) <<< n else 0
/-- A number placed at bit n of a register word. -/
def atPos (v n : Nat) : W32 := BitVec.ofNat 32 (v <<< n)
/-- Bits of `x` where the mask is 1, bits of `y` elsewhere. -/
def mergeBits (mask x y : W32) : W32 := (x &&& mask) ||| (y &&& ~~~mask)
/-- The OR of a list of words. -/
def orAll (l : List W32) : W32 := l.foldl (· ||| ·) 0
/-- A number held within limits: a value outside acts as the nearer limit. -/
def clamp (lo hi v : Nat) : Nat := max lo (min hi v)
/-- Low word of a 64-bit number. -/
def lo32 (n : Nat) : W32 := BitVec.ofNat 32 n
/-- High word of a 64-bit number. -/
def hi32 (n : Nat) : W32 := BitVec.ofNat 32 (n / 2 ^ 32)
/-- One for true. -/
def b2n (b : Bool) : Nat := if b then 1 else 0

/-! ### Byte order -/

/-- `n` bytes of a number, least significant first. -/
def leBytes : Nat → Nat → Bytes
  | 0, _ => []
  | k + 1, v => BitVec.ofNat 8 v :: leBytes k (v / 256)
/-- `n` bytes of a number, most significant first. -/
def beBytes (n v : Nat) : Bytes := (leBytes n v).reverse
/-- A number from bytes, least significant first. -/
def ofLe : Bytes → Nat
  | [] => 0
  | b :: t => b.toNat + 256 * ofLe t
/-- A number from bytes, most significant first. -/
def ofBe (b : Bytes) : Nat := b.foldl (fun a x => a * 256 + x.toNat) 0
/-- Bytes `off` to `off + n - 1` of a string; bytes beyond its end are left out. -/
def slice (b : Bytes) (off n : Nat) : Bytes := (b.drop off).take n
/-- The byte at an offset, 0 beyond the end. -/
def byteAt (b : Bytes) (off : Nat) : Byte := b.getD off 0
/-- Zero bytes. -/
def zeros (n : Nat) : Bytes := List.replicate n 0
/-- A string extended with zeros to a length, or cut to it. [DESIGN CHOICE: log 9] -/
def padTo (n : Nat) (b : Bytes) : Bytes := (b ++ zeros n).take n
/-- Byte-wise exclusive-OR of two strings, as long as the shorter. -/
def xorBytes (a b : Bytes) : Bytes := List.zipWith (· ^^^ ·) a b
/-- Put a string over another at an offset. -/
def splice (b : Bytes) (off : Nat) (x : Bytes) : Bytes := b.take off ++ x ++ b.drop (off + x.length)
/-- A 128-bit block from 16 bytes, byte 0 most significant. -/
def blockOf (b : Bytes) : W128 := BitVec.ofNat 128 (ofBe (padTo 16 b))
/-- The 16 bytes of a block. -/
def ofBlock (w : W128) : Bytes := beBytes 16 w.toNat
/-- A string cut into pieces of 16 bytes; the fuel is the string's length. -/
def chunks16Aux : Nat → Bytes → List Bytes
  | 0, _ => []
  | k + 1, b => if b.isEmpty then [] else b.take 16 :: chunks16Aux k (b.drop 16)
/-- A string cut into pieces of 16 bytes, the last as short as it is. -/
def chunks16 (b : Bytes) : List Bytes := chunks16Aux b.length b
/-- Ceiling of a division. -/
def ceilDiv (a b : Nat) : Nat := (a + b - 1) / b

end Sys2Proof.Machine
end

