-- ==== Sys2Proof/Machine/Crypto.lean ====
section
/-! DEFINITION. The ciphers and codes of the block, as the standards that R1, R4, R154, R161, R246 to R248, R270 and
R357 name define them. The two-share masking of R117 does not change any result, so values stand here whole. -/
namespace Sys2Proof.Machine

/-- The AES substitution box, entry n in byte n. -/
def sboxTab : Nat := 0x16bb54b00f2d99416842e6bf0d89a18cdf2855cee9871e9b948ed9691198f8e19e1dc186b95735610ef6034866b53e708a8bbd4b1f74dde8c6b4a61c2e2578ba08ae7a65eaf4566ca94ed58d6d37c8e779e4959162acd3c25c2406490a3a32e0db0b5ede14b8ee4688902a22dc4f816073195d643d7ea7c41744975fec130ccdd2f3ff1021dab6bcf5389d928f40a351a89f3c507f02f94585334d43fbaaefd0cf584c4a39becb6a5bb1fc20ed00d153842fe329b3d63b52a05a6e1b1a2c830975b227ebe28012079a059618c323c7041531d871f1e5a534ccf73f362693fdb7c072a49cafa2d4adf04759fa7dc982ca76abd7fe2b670130c56f6bf27b777c63
/-- The inverse substitution box, entry n in byte n. -/
def invSboxTab : Nat := 0x7d0c2155631469e126d677ba7e042b17619953833cbbebc8b0f52aae4d3be0a0ef9cc9939f7ae52d0d4ab519a97f51605fec8027591012b131c7078833a8dd1ff45acd78fec0db9a2079d2c64b3e56fc1bbe18aa0e62b76f89c5291d711af1476edf751ce837f9e28535ade72274ac9673e6b4f0cecff297eadc674f4111913a6b8a130103bdafc1020f3fca8f1e2cd00645b3b80558e4f70ad3bc8c00abd890849d8da75746155edab9edfd5048706c92b6655dcc5ca4d41698688664f6f87225d18b6d49a25b76b224d92866a12e084ec3fa420b954cee3d23c2a632947b54cbe9dec444438e3487ff2f9b8239e37cfbd7f3819ea340bf38a53630d56a0952
/-- SubBytes of one byte. -/
def sbox (b : Byte) : Byte := BitVec.ofNat 8 (sboxTab >>> (8 * b.toNat))
/-- The inverse of `sbox`. -/
def invSbox (b : Byte) : Byte := BitVec.ofNat 8 (invSboxTab >>> (8 * b.toNat))
/-- Multiplication by x in the AES field. -/
def xtime (b : Byte) : Byte := (b <<< 1) ^^^ (if b.getLsbD 7 then 0x1B else 0)
/-- Multiplication in the AES field by a small constant. -/
def gmul (c : Nat) (b : Byte) : Byte :=
  (if c.testBit 0 then b else 0) ^^^ (if c.testBit 1 then xtime b else 0) ^^^
  (if c.testBit 2 then xtime (xtime b) else 0) ^^^ (if c.testBit 3 then xtime (xtime (xtime b)) else 0)

/-- Round constants of the key schedule. -/
def rcon (i : Nat) : Byte :=
  ([0x01, 0x02, 0x04, 0x08, 0x10, 0x20, 0x40, 0x80, 0x1B, 0x36] : Bytes).getD (i - 1) 0

/-- The next word of the key schedule: `i` its index, `nk` the key's words, `ws` the words so far, newest first. -/
def nextWord (nk i : Nat) (ws : List Bytes) : Bytes :=
  let prev := ws.getD 0 []
  let far := ws.getD (nk - 1) []
  let t :=
    if i % nk = 0 then
      let r := (prev.drop 1 ++ prev.take 1).map sbox
      xorBytes r [rcon (i / nk), 0, 0, 0]
    else if nk = 8 ∧ i % nk = 4 then prev.map sbox
    else prev
  xorBytes far t

/-- Expand a key: `fuel` further words from index `i`. -/
def expandAux (nk : Nat) : Nat → Nat → List Bytes → List Bytes
  | 0, _, ws => ws
  | fuel + 1, i, ws => expandAux nk fuel (i + 1) (nextWord nk i ws :: ws)

/-- A string cut into pieces of 4 bytes. -/
def words4 : Nat → Bytes → List Bytes
  | 0, _ => []
  | k + 1, b => b.take 4 :: words4 k (b.drop 4)

/-- The round keys of a 16-byte or 32-byte key, 16 bytes each, in order. -/
def roundKeys (key : Bytes) : List Bytes :=
  let nk := key.length / 4
  let total := 4 * (nk + 7)
  let ws := (expandAux nk (total - nk) nk (words4 nk key).reverse).reverse
  chunks16 ws.flatten

/-- ShiftRows as a choice of source positions (column-major state). -/
def shiftRows (b : Bytes) : Bytes :=
  [0, 5, 10, 15, 4, 9, 14, 3, 8, 13, 2, 7, 12, 1, 6, 11].map (fun i => byteAt b i)
/-- The inverse of `shiftRows`. -/
def invShiftRows (b : Bytes) : Bytes :=
  [0, 13, 10, 7, 4, 1, 14, 11, 8, 5, 2, 15, 12, 9, 6, 3].map (fun i => byteAt b i)
/-- One column of MixColumns, with the four coefficients of its first row. -/
def mixCol (k : Nat × Nat × Nat × Nat) (c : Bytes) : Bytes :=
  let a := byteAt c 0; let b := byteAt c 1; let d := byteAt c 2; let e := byteAt c 3
  let (p, q, r, t) := k
  [ gmul p a ^^^ gmul q b ^^^ gmul r d ^^^ gmul t e, gmul t a ^^^ gmul p b ^^^ gmul q d ^^^ gmul r e,
    gmul r a ^^^ gmul t b ^^^ gmul p d ^^^ gmul q e, gmul q a ^^^ gmul r b ^^^ gmul t d ^^^ gmul p e ]
/-- MixColumns, or its inverse by the coefficients. -/
def mixCols (k : Nat × Nat × Nat × Nat) (b : Bytes) : Bytes := ((words4 4 b).map (mixCol k)).flatten

/-- Encryption rounds over the remaining round keys. -/
def aesRounds : List Bytes → Bytes → Bytes
  | [], st => st
  | [rk], st => xorBytes (shiftRows (st.map sbox)) rk
  | rk :: rks, st => aesRounds rks (xorBytes (mixCols (2, 3, 1, 1) (shiftRows (st.map sbox))) rk)
/-- AES of one 16-byte block under expanded keys (FIPS 197). -/
def aesWith (rks : List Bytes) (blk : Bytes) : Bytes :=
  match rks with
  | [] => blk
  | rk :: t => aesRounds t (xorBytes blk rk)
/-- AES-128 or AES-256 of one block, by the key's length. [DEDUCED: log 10] -/
def aes (key blk : Bytes) : Bytes := aesWith (roundKeys key) blk

/-- Decryption rounds over the remaining round keys, last first. -/
def aesInvRounds : List Bytes → Bytes → Bytes
  | [], st => st
  | [rk], st => xorBytes ((invShiftRows st).map invSbox) rk
  | rk :: rks, st => aesInvRounds rks (mixCols (14, 11, 13, 9) (xorBytes ((invShiftRows st).map invSbox) rk))
/-- The inverse cipher of one block. -/
def aesInv (key blk : Bytes) : Bytes :=
  match (roundKeys key).reverse with
  | [] => blk
  | rk :: t => aesInvRounds t (xorBytes blk rk)

/-! ### CMAC and the KDF of R154 -/

/-- Doubling in the field of CMAC. -/
def cmacDbl (w : W128) : W128 := (w <<< 1) ^^^ (if w.getLsbD 127 then 0x87 else 0)
/-- CBC-MAC chaining of whole blocks. -/
def cbcMac (key : Bytes) (bs : List Bytes) : Bytes :=
  let rks := roundKeys key
  bs.foldl (fun x b => aesWith rks (xorBytes x (padTo 16 b))) (zeros 16)
/-- AES-CMAC of a string of whole blocks (NIST SP 800-38B). -/
def cmacWhole (key m : Bytes) : Bytes :=
  let k1 := cmacDbl (blockOf (aes key (zeros 16)))
  let bs := chunks16 m
  cbcMac key (bs.dropLast ++ [xorBytes (bs.getLastD []) (ofBlock k1)])
/-- The 32-byte KDF input of R154 with the fields of R315. -/
def kdfInput (i : Nat) (label : Bytes) (ix : Nat) (epoch : Nat) : Bytes :=
  beBytes 1 i ++ label ++ [0] ++ beBytes 1 ix ++ beBytes 8 epoch ++ [0, 0, 1, 0]
/-- The KDF in counter mode with AES-CMAC, two iterations (R154). -/
def kdf (prf label : Bytes) (ix epoch : Nat) : Bytes :=
  cmacWhole prf (kdfInput 1 label ix epoch) ++ cmacWhole prf (kdfInput 2 label ix epoch)
/-- "VYSTAD CIWELL KEK". -/
def labelKek : Bytes :=
  [0x56, 0x59, 0x53, 0x54, 0x41, 0x44, 0x20, 0x43, 0x49, 0x57, 0x45, 0x4C, 0x4C, 0x20, 0x4B, 0x45, 0x4B]
/-- "VYSTAD CIWELL PAR". -/
def labelPar : Bytes :=
  [0x56, 0x59, 0x53, 0x54, 0x41, 0x44, 0x20, 0x43, 0x49, 0x57, 0x45, 0x4C, 0x4C, 0x20, 0x50, 0x41, 0x52]
/-- "VYSTAD CIWELL ARB". -/
def labelArb : Bytes :=
  [0x56, 0x59, 0x53, 0x54, 0x41, 0x44, 0x20, 0x43, 0x49, 0x57, 0x45, 0x4C, 0x4C, 0x20, 0x41, 0x52, 0x42]

/-! ### GCM -/

/-- One step of multiplication in GF(2^128), in GCM's bit order. -/
def gfStep (x : W128) (zv : W128 × W128) (i : Nat) : W128 × W128 :=
  let (z, v) := zv
  (if x.getLsbD (127 - i) then z ^^^ v else z,
   if v.getLsbD 0 then (v >>> 1) ^^^ (0xE1#128 <<< 120) else v >>> 1)
/-- Multiplication in GF(2^128) (NIST SP 800-38D). -/
def gfMul (x y : W128) : W128 := ((List.range 128).foldl (gfStep x) (0, y)).1
/-- GHASH over 16-byte blocks. [DEDUCED: log 10] -/
def ghash (h : W128) (bs : List Bytes) : W128 := bs.foldl (fun y b => gfMul (y ^^^ blockOf b) h) 0
/-- H^1 to H^4 (R117). -/
def hPowers (h : W128) : List W128 :=
  let h2 := gfMul h h
  let h3 := gfMul h2 h
  [h, h2, h3, gfMul h3 h]
/-- Increment the low 32 bits of a counter block. -/
def inc32 (b : Bytes) : Bytes := b.take 12 ++ beBytes 4 (ofBe (b.drop 12) + 1)
/-- Exclusive-OR data with the keystream that starts at counter block `ctr`, block by block. -/
def ctrXor (rks : List Bytes) : Nat → Bytes → Bytes → Bytes
  | 0, _, _ => []
  | k + 1, ctr, d =>
    if d.isEmpty then [] else xorBytes (d.take 16) (aesWith rks ctr) ++ ctrXor rks k (inc32 ctr) (d.drop 16)
/-- The GCM tag over A and C (R70, R119). -/
def gcmTag (key iv a c : Bytes) : Bytes :=
  let rks := roundKeys key
  let h := blockOf (aesWith rks (zeros 16))
  let len := beBytes 8 (8 * a.length) ++ beBytes 8 (8 * c.length)
  let s := ghash h (chunks16 a ++ chunks16 c ++ [len])
  xorBytes (ofBlock s) (aesWith rks (iv ++ [0, 0, 0, 1]))
/-- GCM encryption or decryption of data, from counter block 2. -/
def gcmCrypt (key iv d : Bytes) : Bytes := ctrXor (roundKeys key) d.length (iv ++ [0, 0, 0, 2]) d
/-- GMAC over a string (R316). -/
def gmac (key iv a : Bytes) : Bytes := gcmTag key iv a []

/-! ### Key wrap with padding (RFC 5649, R161) -/

/-- The registers R_1 to R_n and A after one wrapping step t. -/
def kwStep (rks : List Bytes) (n : Nat) (ar : Bytes × List Bytes) (t : Nat) : Bytes × List Bytes :=
  let (a, r) := ar
  let i := (t - 1) % n
  let b := aesWith rks (a ++ r.getD i [])
  (xorBytes (b.take 8) (beBytes 8 t), r.set i (b.drop 8))
/-- A string cut into pieces of 8 bytes. -/
def words8 : Nat → Bytes → List Bytes
  | 0, _ => []
  | k + 1, b => b.take 8 :: words8 k (b.drop 8)
/-- KWP wrap of a plaintext of more than 8 bytes. -/
def kwpWrap (kek p : Bytes) : Bytes :=
  let n := ceilDiv p.length 8
  let iv := ([0xA6, 0x59, 0x59, 0xA6] : Bytes) ++ beBytes 4 p.length
  let (a, r) := ((List.range (6 * n)).map (· + 1)).foldl (kwStep (roundKeys kek) n) (iv, words8 n (padTo (8 * n) p))
  a ++ r.flatten
/-- One unwrapping step t. -/
def kwInvStep (kek : Bytes) (n : Nat) (ar : Bytes × List Bytes) (t : Nat) : Bytes × List Bytes :=
  let (a, r) := ar
  let i := (t - 1) % n
  let b := aesInv kek (xorBytes a (beBytes 8 t) ++ r.getD i [])
  (b.take 8, r.set i (b.drop 8))
/-- KWP unwrap to a plaintext of the stated length; none when the IV, the length or the padding is wrong (R161). -/
def kwpUnwrap (kek c : Bytes) (len : Nat) : Option Bytes :=
  let n := c.length / 8 - 1
  let (a, r) := ((List.range (6 * n)).map (· + 1)).reverse.foldl (kwInvStep kek n)
    (c.take 8, words8 n (c.drop 8))
  let p := r.flatten
  if a = ([0xA6, 0x59, 0x59, 0xA6] : Bytes) ++ beBytes 4 len ∧ ceilDiv len 8 = n ∧ (p.drop len).all (· = 0)
  then some (p.take len) else none

/-! ### T10 modes (R270) -/

/-- CBC encryption of whole blocks. -/
def cbcEnc (rks : List Bytes) : Bytes → List Bytes → Bytes
  | _, [] => []
  | c, p :: ps => let x := aesWith rks (xorBytes p c); x ++ cbcEnc rks x ps
/-- CFB-128; `dec` chains on the input instead of the output. -/
def cfb (dec : Bool) (rks : List Bytes) : Bytes → List Bytes → Bytes
  | _, [] => []
  | c, p :: ps => let x := xorBytes p (aesWith rks c); x ++ cfb dec rks (if dec then p else x) ps
/-- CBC padding: E - LEN bytes, each of value E - LEN. -/
def cbcPad (p : Bytes) : Bytes :=
  let k := 16 - p.length % 16
  p ++ List.replicate k (BitVec.ofNat 8 k)
/-- The integrity value over M under Km (R270). -/
def t10Mac (key m : Bytes) : Bytes :=
  let km := aes key ([0x54, 0x31, 0x30, 0x2D, 0x4D, 0x41, 0x43] ++ zeros 9)
  (cbcMac km (chunks16 m)).take 8
/-- T10 ciphertext of P: mode 0 CBC, 1 CTR, 2 CFB-128 (the OFFSET code of R266). -/
def t10Enc (mode : Nat) (key : Bytes) (sci seq : Nat) (p : Bytes) : Bytes :=
  let rks := roundKeys key
  let iv := aesWith rks (beBytes 8 sci ++ beBytes 4 seq ++ zeros 4)
  if mode = 0 then cbcEnc rks iv (chunks16 (cbcPad p))
  else if mode = 1 then ctrXor rks p.length iv p
  else cfb false rks iv (chunks16 p)
/-- T10 plaintext of a CTR or CFB-128 container. -/
def t10Dec (mode : Nat) (key : Bytes) (sci seq : Nat) (c : Bytes) : Bytes :=
  let rks := roundKeys key
  let iv := aesWith rks (beBytes 8 sci ++ beBytes 4 seq ++ zeros 4)
  if mode = 1 then ctrXor rks c.length iv c else cfb true rks iv (chunks16 c)

/-! ### The store's line cipher, tag and code (R245 to R248) -/

/-- The key set of a seed under the master key: K1, K2, KT, HT (R245). -/
def keySet (master : BitVec 256) (seed : W128) : Bytes × Bytes × Bytes × W128 :=
  let rks := roundKeys (beBytes 32 master.toNat)
  let b := fun j => aesWith rks (ofBlock (seed ^^^ BitVec.ofNat 128 j))
  (b 0 ++ b 1, b 2 ++ b 3, b 4 ++ b 5, blockOf (b 6))
/-- Multiplication of a tweak by α, bytes least significant first (IEEE 1619). -/
def xtsDbl (t : Bytes) : Bytes :=
  let v := ofLe t
  leBytes 16 (if v < 2 ^ 127 then 2 * v else (2 * v) % 2 ^ 128 ^^^ 0x87)
/-- XTS over blocks with a block operation. -/
def xtsAux (f : Bytes → Bytes) : Bytes → List Bytes → Bytes
  | _, [] => []
  | t, b :: bs => xorBytes (f (xorBytes b t)) t ++ xtsAux f (xtsDbl t) bs
/-- XTS-AES-256 encryption of a line (R246). -/
def xtsEnc (k1 k2 : Bytes) (line : Nat) (d : Bytes) : Bytes :=
  let rks := roundKeys k1
  xtsAux (aesWith rks) (aes k2 (leBytes 16 line)) (chunks16 d)
/-- XTS-AES-256 decryption of a line. -/
def xtsDec (k1 k2 : Bytes) (line : Nat) (d : Bytes) : Bytes :=
  xtsAux (aesInv k1) (aes k2 (leBytes 16 line)) (chunks16 d)
/-- The tag of a line (R247). -/
def lineTag (kt : Bytes) (ht : W128) (line sel : Nat) (c : Bytes) : Bytes :=
  let x0 := beBytes 5 line ++ beBytes 2 sel ++ [0x01] ++ zeros 8
  (aes kt (ofBlock (ghash ht (x0 :: chunks16 c)))).take 6

/-- Multiplication by α in the code's field (R248). -/
def rsDbl (b : Byte) : Byte := (b <<< 1) ^^^ (if b.getLsbD 7 then 0x1D else 0)
/-- The two syndromes c(1) and c(α) of a codeword (R248). -/
def rsSyn (c : Bytes) : Byte × Byte := c.foldl (fun (p : Byte × Byte) x => (p.1 ^^^ x, rsDbl p.2 ^^^ x)) (0, 0)
/-- Product in the code's field. -/
def rsMul (a b : Byte) : Byte :=
  ((List.range 8).foldl (fun (p : Byte × Byte) i => (if a.getLsbD i then p.1 ^^^ p.2 else p.1, rsDbl p.2)) (0, b)).1
/-- The inverse of α + 1 in the code's field. -/
def rsInv3 : Byte := ((List.range 256).map (BitVec.ofNat 8)).foldl (fun a x => if rsMul 3 x = 1 then x else a) 0
/-- The two check bytes of the 70 bytes before them (R248). -/
def rsCheck (c : Bytes) : Bytes :=
  let (a, b) := rsSyn (c ++ [0, 0])
  let p := rsMul (a ^^^ b) rsInv3
  [p, a ^^^ p]
/-- Powers of α times a byte: e, e·α, e·α², … -/
def rsPowers : Nat → Byte → List Byte
  | 0, _ => []
  | k + 1, e => e :: rsPowers k (rsDbl e)
/-- Correct a codeword of 72 bytes: the word and whether a byte was corrected; none when uncorrectable (R248). -/
def rsFix (c : Bytes) : Option (Bytes × Bool) :=
  let (e, s) := rsSyn c
  if e = 0 ∧ s = 0 then some (c, false)
  else if e = 0 then none
  else
    match (rsPowers 72 e).findIdx? (· = s) with
    | none => none
    | some j => let k := 71 - j; some (c.set k (byteAt c k ^^^ e), true)

/-! ### Cyclic codes -/

/-- One bit of the CRC of IEEE 802.3 (reflected). -/
def crc32Bit (c : W32) : W32 := (c >>> 1) ^^^ (if c.getLsbD 0 then 0xEDB88320 else 0)
/-- The CRC of IEEE 802.3 over a string. -/
def crc32 (b : Bytes) : W32 :=
  ~~~ (b.foldl (fun c x => (List.range 8).foldl (fun c _ => crc32Bit c) (c ^^^ BitVec.setWidth 32 x)) 0xFFFFFFFF)
/-- One bit of CRC-64/ECMA-182. -/
def crc64Bit (c : W64) : W64 := (c <<< 1) ^^^ (if c.getLsbD 63 then 0x42F0E1EBA9EA3693 else 0)
/-- CRC-64/ECMA-182: initial value 0, no reflection, no final exclusive-OR (R357). -/
def crc64 (b : Bytes) : W64 :=
  b.foldl (fun c x => (List.range 8).foldl (fun c _ => crc64Bit c) (c ^^^ (BitVec.setWidth 64 x <<< 56))) 0

end Sys2Proof.Machine
end

