-- ==== Sys2Proof/Config.lean ====
section
/-! DEFINITION. What one implementation fixes and the values the specification leaves open. Every constant here is
opaque: nothing can be proved of its value. -/
namespace Sys2Proof.Config

/-- The 16-bit number the lease unit gives a new live entry (R186 gives no order of allocation); the argument is the
free-value counter of the state. The number is not used as a key by the model. [DESIGN CHOICE: log 1, 11] -/
opaque freeHandle : Nat → BitVec 16
/-- Which frame a sampling capture names (R385 bounds it to the overflowing one and at most 32 later ones of its lane
and direction, and does not fix it). The argument is the free-value counter; the choice is taken modulo the frames
that the bound admits. [DESIGN CHOICE: log 1] -/
opaque freeSkid : Nat → Nat

/-- Word address, in 8 B units, at which a region of an SRAM domain begins: the specification gives the packing of the
residency map (region 0) and of the group map (region 1), and not where the regions stand (R298, R301).
[DESIGN CHOICE: log 1, 14] -/
opaque sramBase : Nat → BitVec 32
/-- Word address, in 8 B units, of an item of an SRAM region whose packing the specification does not give (R301): region,
item. [DESIGN CHOICE: log 1, 14] -/
opaque sramWord : Nat → Nat → BitVec 32

/-- How many segments of a frame had left when its output was cut short, which depends on the cycle (R17, R33). The argument is
the free-value counter; the value is taken modulo the credit that the frame was charged. [DESIGN CHOICE: log 1] -/
opaque freeSent : Nat → Nat

/-- What the keyed generator of the vault derives from the slot number, GEN and the vault mask key: 128-bit block `n` of the slot
mask (R153 gives its arguments and not its function). Blocks 0 and 1 mask the key, 2 the salt, 3 to 6 H^1 to H^4.
[DEDUCED, DESIGN CHOICE: log 1, 10] -/
opaque slotMask : Nat → BitVec 8 → BitVec 256 → Nat → BitVec 128
/-- The resident entry whose word lies at an address of an SRAM domain, if one does: the specification does not say where the
regions stand (R301). [DEDUCED, DESIGN CHOICE: log 1, 74] -/
opaque sramOwner : Nat → BitVec 32 → Option Nat
/-- The pipeline that a fault of the store engine's duplicated control names, taken modulo 2 (R297 gives INST 0 or 1 and does not say
which for the control). The argument is the free-value counter. [DEDUCED, DESIGN CHOICE: log 1, 76] -/
opaque freePipe : Nat → Nat
/-- Which register of a page the scrubber checks in latent test 7 (R305: one of each page), taken modulo the page's registers with
parity. The argument is the free-value counter. [DEDUCED, DESIGN CHOICE: log 1, 76] -/
opaque freeReg : Nat → Nat

end Sys2Proof.Config
end

