-- ==== Sys2Proof/Machine/State.lean ====
section
/-! DEFINITION. The state of the block as plain data: every register, table, queue, counter, mode and pin the
specification gives it, the queue of waiting commands, and the state after reset. -/
namespace Sys2Proof.Machine

/-- Why a step stops with a fault. No command of this specification ends in one; the constructor is there so that the
type has a name to give. -/
inductive Fault where
  /-- Raised by no command. Safe. -/
  | none
  deriving DecidableEq, Repr

/-- Why a step refuses a command. -/
inductive Refusal where
  /-- Raised by an arm of `exec` whose meaning is not written yet. Safe: it allows nothing. -/
  | notModelled (mnemonic : String)
  deriving DecidableEq, Repr

/-! ### Time, keys, boundary -/

/-- A sample of IEEE 1588 time: VLD, and the time in nanoseconds since second 0 (R46). -/
structure Stamp where
  vld : Bool := false
  ns : Nat := 0
  deriving DecidableEq, Repr

/-- Progress of zeroisation (R173). -/
inductive Zero where
  | no | running | done
  deriving DecidableEq, Repr

/-- The recovery sequencer, the security core, the time input, the random source and the clocks. -/
structure Sys where
  /-- Bring-up phases ended, 0 to 5; 5 is SEQ_DONE (R390). -/
  phase : Nat := 0
  /-- The PD_AO filter has seen a tamper while RST_N was low (R58). -/
  tamperHeld : Bool := false
  zero : Zero := .no
  rootKey : Option (BitVec 256) := none
  /-- Beats of the root key taken (R50), and the key bytes gathered. -/
  klTaken : Nat := 0
  klPartial : BitVec 256 := 0
  /-- No root key can be taken until RST_N (R51). -/
  klDead : Bool := false
  klAck : Bool := false
  /-- KEKs 0 to 62 that are available (R154). -/
  keks : Tab (BitVec 256) := []
  kek63 : Option (BitVec 256) := none
  /-- KEKs waiting to be derived, in order (R156). -/
  derive : NatSet := []
  /-- The derivation replaces KEKs lost to a memory error: KEK_READY stays, and jobs that need one wait (R298). -/
  rederive : Bool := false
  /-- The derivation in progress has not ended: KEK_READY is not set (R156). -/
  kekReady : Bool := false
  /-- KEK_CHK_IDX has been written and PD_SEC does not serve: the check value waits for it (R157, R281). -/
  chkWait : Bool := false
  vaultMask : Option (BitVec 256) := none
  tmL : Stamp := {}
  tmA : Stamp := {}
  /-- The sample that last raised TIME_STEP, and the copy (false TM_L, true TM_A) (R47, R371). -/
  stepTime : Nat := 0
  stepCopyA : Bool := false
  /-- Captures of R371: TM_L, TM_A, STEP, each seconds high word and nanoseconds word. -/
  capHi : Tab W32 := []
  capNs : Tab W32 := []
  clkMeas : Tab W32 := []
  rnErr : Bool := false
  /-- Seed words in the seed buffer, oldest first, at most 16 (R49). -/
  seeds : List W128 := []
  /-- Mask generators: seed state last taken in, by generator number (0 to 39 slices, 40 to 43 KEYX cores, 44 and 45
  store pipelines, 46 security core) (R118). -/
  maskSeed : Tab (BitVec 256) := []
  /-- Generators whose reseed is late and retried (R118). -/
  maskLate : NatSet := []
  /-- CK_AO cycles counted since RST_N, from which USE_MS follows (R235). -/
  aoClk : Nat := 0
  deriving DecidableEq, Repr

/-! ### Registers -/

/-- The header state of one page (R344). -/
structure Hdr where
  unlocked : Bool := false
  busy : Bool := false
  pending : Bool := false
  /-- An S field has been written since the last applied or refused commit (R349). -/
  dirty : Bool := false
  refused : Bool := false
  lockViol : Bool := false
  wrCollide : Bool := false
  accessErr : Bool := false
  poison : Bool := false
  epoch : W32 := 0
  /-- Frames that a pending commit of the page lets go first (R350, R365). -/
  waits : List Nat := []
  deriving DecidableEq, Repr

/-- Register files. Keys are byte addresses in the register window. -/
structure Regs where
  /-- Values in force of RW fields. -/
  cfg : Tab W32 := []
  /-- Staged copies of S fields (R349). -/
  staged : Tab W32 := []
  /-- Stored values of RO result registers. -/
  ro : Tab W32 := []
  /-- W1C flag bits that are set. -/
  sticky : Tab W32 := []
  /-- HI latches, keyed by the HI address (R347). -/
  latch : Tab W32 := []
  /-- Held LO writes, keyed by the LO address (R347, R384). -/
  held : Tab W32 := []
  /-- O registers whose one write is used up (R354). -/
  once : NatSet := []
  /-- Configuration registers whose parity has failed (R299, R355). -/
  parBad : NatSet := []
  hdr : Tab Hdr := []
  /-- Partitions whose reset is in progress (R308). -/
  resetting : List Part := []
  /-- Partition resets that wait for another to return (R311). -/
  resetWait : List Part := []
  glbDigest : W64 := 0
  glbDigCnt : W32 := 0
  /-- A PG_DIGEST has changed since GLB_DIGEST was computed (R358). -/
  digestStale : Bool := false
  deriving DecidableEq, Repr

/-! ### Frames -/

/-- The error codes of R28. -/
inductive Code where
  | none | authFail | replay | fault | upstream | length | abort | busErr
  deriving DecidableEq, Repr

/-- How an admitted frame is handled. -/
inductive FKind where
  | macsec | t10 | bypass | plain | report
  deriving DecidableEq, Repr

/-- Where a frame stands. -/
inductive FStage where
  /-- In the admission buffer, looked up, waiting for a slice (or for its EOF when it needs none). -/
  | waiting
  | missq
  /-- Holding a record of a slice; record 0 is the express record (R121). -/
  | inSlice (slice : Nat) (record : Nat)
  /-- Written whole; its work is over. -/
  | written
  deriving DecidableEq, Repr

/-- The outcome a frame is counted under when its EOF is released with NONE (R83, R107). -/
inductive Outc where
  | protected_ | bypassed
  | verified (delayed : Bool) | invalid | unchecked | unusedSA | untagged | unknownSci
  /-- Passed under CATCH_EXCESS PASS in place of an outcome that a port counter counts (R113). -/
  | catchPass (ctr : Nat)
  | report
  deriving DecidableEq, Repr

/-- A frame inside Ciwell. -/
structure Frame where
  id : Nat
  dir : Dir
  port : Nat
  express : Bool
  desc : W64
  stamp : Stamp
  /-- CK_AO cycle of its SOF. -/
  at_ : Nat
  /-- The whole frame, cut at the limit of its input bus. -/
  bytes : Bytes
  /-- Its length on the input bus, and how much of it has been admitted: all of it once its EOF has been taken (R17,
  R122). -/
  busLen : Nat := 0
  got : Nat := 0
  /-- The frame's EOF has been taken. -/
  eof : Bool
  dpBad : Bool := false
  upErr : Bool := false
  stage : FStage := .waiting
  kind : FKind := .plain
  chix : Nat := 0
  hasChan : Bool := false
  /-- Resident entry and vault slot of its lookup, the slot's GEN, and whether the frame holds them (R150). -/
  vslot : Nat := 0
  gen : BitVec 8 := 0
  holds : Bool := false
  an : BitVec 2 := 0
  pn : Nat := 0
  ticket : Option Nat := none
  /-- Channel values kept from lookup (R85, R114). -/
  cfg0 : W32 := 0
  window : Nat := 0
  sci : W64 := 0
  /-- Clear part of the Secure Data in bytes (R68, R69). -/
  clear : Nat := 0
  /-- Secure Data length L, or LEN of a T10 container. -/
  len : Nat := 0
  /-- Length of the header of a black frame, h (R91). -/
  hdr : Nat := 0
  /-- BLK_MTU, CT_DEPTH and the lane units in force at admission (R85). -/
  mtu : Nat := 0
  ctDepth : Nat := 0
  laneUnits : Nat := 1
  tooLong : Bool := false
  truncated : Bool := false
  verifyFirst : Bool := false
  /-- The ICV has been written or compared. -/
  icvDone : Bool := false
  /-- The compare failed; the final replay check failed; the release stage has judged the frame (R98). -/
  icvBad : Bool := false
  late : Bool := false
  checked : Bool := false
  outBytes : Bytes := []
  result : BitVec 3 := 0
  noch : Bool := true
  outcome : Outc := .untagged
  sofOut : Bool := false
  /-- The frame is dropped: its place in the order is skipped (a voided ticket on egress). -/
  void_ : Bool := false
  suspended : Bool := false
  /-- It has been counted as waiting in the express queue (R125). -/
  waited : Bool := false
  /-- RSE segments of it whose credit has been returned (R33). -/
  paid : Nat := 0
  /-- Segments of the egress reorder buffer reserved for it (R75), and output credit taken for it at its SOF (R33). -/
  resv : Nat := 0
  charged : Nat := 0
  /-- A report that takes its place behind the frame at the frame's EOF (R112). -/
  rep : Option Bytes := none
  key : Bytes := []
  salt : Bytes := []
  ssci : W32 := 0
  /-- The contents of its record (R121): the number of its dispatch, H^1 to H^4, E_K(J0), the counter blocks that have entered the
  pipeline (J0 the first), the AAD blocks absorbed, the data position in bytes, the GHASH accumulator, and the keystream that
  its region of the buffer holds. -/
  disp : Nat := 0
  h : List W128 := []
  ekj0 : W128 := 0
  issued : Nat := 0
  aadN : Nat := 0
  pos : Nat := 0
  acc : W128 := 0
  ks : Bytes := []
  deriving DecidableEq, Repr

/-- What the input bus still brings of a frame that has ended inside Ciwell (R27, R31): its port and class stay open until its
EOF, a commit that waits for the frame goes on waiting (R350), and a report waits for that EOF (R112). -/
structure Stub where
  id : Nat
  dir : Dir
  port : Nat
  express : Bool
  busLen : Nat
  got : Nat
  rep : Option Frame := none
  deriving DecidableEq, Repr

/-- A catch entry (R111). -/
structure CatchEnt where
  sci : W64
  port : Nat
  first : Stamp
  last : Stamp
  deriving DecidableEq, Repr

/-- The report bucket of a port (R113): fill in 10^-9 reports, the time of the last refill, suppressed reports. -/
structure Bucket where
  fill : Nat := 16000000000
  at_ : Nat := 0
  suppressed : Nat := 0
  deriving DecidableEq, Repr

/-- The datapath outside the slices. -/
structure Dp where
  nextFrame : Nat := 0
  /-- Frames in admission order. -/
  frames : List Frame := []
  /-- Frames that have ended inside and not yet on the input bus. -/
  stubs : List Stub := []
  /-- Number of the next dispatch (R123). -/
  nextDisp : Nat := 0
  /-- Next ticket of a direction, port and class (R74), keyed by `chanKey`. -/
  ticketNext : Tab Nat := []
  /-- Credit held on BSE and RSI, and segments sent and not yet returned (R33, R34), keyed by `chanKey`. -/
  credit : Tab Nat := []
  sent : Tab Nat := []
  /-- Keys whose credit a return with CR_INIT = 1 has set since reset (R34). -/
  crInit : NatSet := []
  /-- Free egress reorder space in segments last reported, less what was reserved since (R10, R75). -/
  bufFree : Tab Nat := []
  /-- Link status per lane unit (R10). -/
  linkUp : W32 := 0
  macFault : W32 := 0
  expCap : W32 := 0
  catchTab : List CatchEnt := []
  bucket : Tab Bucket := []
  /-- Bypass policy entries in force and staged (R109, R370). -/
  byp : Tab W128 := []
  bypStaged : Tab (Option W128) := []
  quiet : Bool := false
  deriving DecidableEq, Repr

/-! ### Slices -/

/-- The states of R133. -/
inductive SlState where
  | winter | thaw | summer | autumn | drain | held | test | faulted
  deriving DecidableEq, Repr

/-- The suspended-frame context: the frame, its counter, data position and accumulator (R126). -/
structure Susp where
  frame : Nat
  ctr : Nat
  pos : Nat
  acc : W128
  deriving DecidableEq, Repr

/-- One cipher slice. -/
structure Slice where
  st : SlState := .winter
  /-- SVC_OUT (R135). -/
  svcOut : Bool := false
  byTestRun : Bool := false
  /-- Woken only to be tested, under TEST_ALL of a standby (R333). -/
  testWake : Bool := false
  maskFault : Bool := false
  rotPending : Bool := false
  /-- CK_AO cycle at which a rotation test that is due was first postponed (R138). -/
  postponed : Option Nat := none
  katPass : Bool := false
  /-- CK_AO cycle of the last passed test, none before the first. -/
  testAt : Option Nat := none
  /-- CK_AO cycle at which the slice last entered WINTER (R284). -/
  winterAt : Nat := 0
  /-- The suspended-frame context, and the bulk frame of which the issue stage sent a block last (R126). -/
  susp : Option Susp := none
  last : Option Nat := none
  /-- SL_INFO as it stood when the slice last left SUMMER for AUTUMN (R282, R368). -/
  info : W32 := 0xFF
  deriving DecidableEq, Repr

/-- All slices and the express-reserve role. -/
structure Slices where
  sl : Tab Slice := []
  /-- Slices that hold the express-reserve role, egress and ingress (R136). -/
  rsvE : NatSet := [18, 19]
  rsvI : NatSet := [38, 39]
  /-- AES slots issued since the last governor evaluation, egress and ingress (R283). -/
  issuedE : Nat := 0
  issuedI : Nat := 0
  deriving DecidableEq, Repr

/-! ### Channels, slots, leases -/

/-- Slot states of R148. -/
inductive SlotSt where
  | empty | live | draining | erased
  deriving DecidableEq, Repr

/-- Lease states of R181. -/
inductive LState where
  | none | wait | run | last | hold
  deriving DecidableEq, Repr

/-- Causes of R182, and FAULT of R307. -/
inductive LCause where
  | none | full | nv | blind | exh | fault
  deriving DecidableEq, Repr

/-- Unwrapped key material of an install, as held by a KEYX core or the park register (R149, R163). -/
structure KeyMat where
  key : Bytes
  salt : Bytes
  an : BitVec 2
  ssci : W32
  klc : BitVec 8
  keyRef : BitVec 16
  /-- H^1 to H^4 (R117). -/
  h : List W128
  /-- Key tag of a transmit slot (R162). -/
  tag : W32
  /-- First PN or LPN of the install (R169). -/
  start : Nat
  deriving DecidableEq, Repr

/-- A key slot with its PN and replay state (R148, R177, R97). -/
structure Slot where
  st : SlotSt := .empty
  retired : Bool := false
  vaultErr : Bool := false
  an : BitVec 2 := 0
  gen : BitVec 8 := 0
  klc : BitVec 8 := 0
  ssci : W32 := 0
  keyRef : BitVec 16 := 0
  key : Bytes := []
  salt : Bytes := []
  h : List W128 := []
  tag : W32 := 0
  /-- Erased material still to be zeroed after the drain (R149, R150). -/
  clearing : Bool := false
  park : Option KeyMat := Option.none
  next : Nat := 0
  bnd : Nat := 0
  ceil : Nat := 0
  acked : Nat := 0
  lst : LState := .none
  cause : LCause := .none
  /-- The forced switch of R208 has been made, and EQX_NOKEY counted, for this key. -/
  forced : Bool := false
  nokey : Bool := false
  lpn : Nat := 0
  high : Option Nat := Option.none
  bitmap : BitVec 256 := 0
  /-- R of the retirement (R211). -/
  retAt : Nat := 0
  /-- The takeover found no half for its key, and it holds until it gets a new key (R334 step 4). -/
  promoHold : Bool := false
  /-- CK_AO cycle of the oldest change of LPN that no FLOOR item has carried (R331). -/
  floorAt : Option Nat := Option.none
  deriving DecidableEq, Repr

/-- MODE of a pending Equinox (R202). -/
inductive EqxMode where
  | time | pn | now
  deriving DecidableEq, Repr

/-- A pending Equinox (R202, R207). -/
structure Eqx where
  mode : EqxMode
  fromB : Bool
  defer : Bool
  deferred : Bool := false
  stalled : Bool := false
  /-- Time in nanoseconds, or the PN threshold. -/
  val : Nat
  deriving DecidableEq, Repr

/-- MODE of a pending Solstice (R210). -/
inductive SolMode where
  | time | firstValid | now
  deriving DecidableEq, Repr

/-- A pending Solstice (R210, R213). -/
structure Sol where
  mode : SolMode
  slotB : Bool
  /-- In WATCH for the first valid frame. -/
  watch : Bool
  /-- R in nanoseconds, or HOLDOFF in microseconds while in WATCH. -/
  val : Nat
  deriving DecidableEq, Repr

/-- A resident entry (R140, R143). -/
structure Entry where
  chix : Nat
  /-- Step 7 of R229 has been reached: lookups see the channel. -/
  live : Bool
  cfg0 : W32 := 0
  window : Nat := 0
  sci : W64 := 0
  lastUsed : W32 := 0
  pinned : Bool := false
  evicting : Bool := false
  eqx : Option Eqx := Option.none
  sol : Option Sol := Option.none
  /-- The 32 counter-tree fields (R376). -/
  ctr : Tab W32 := []
  deriving DecidableEq, Repr

/-- A residency-map field (R223): V and IDX, and whether a store record of the channel exists (STORED of SAW_ARG6). -/
structure Resi where
  v : Bool := false
  idx : BitVec 16 := 0xFFFF
  rec_ : Bool := false
  deriving DecidableEq, Repr

/-- A mirrored item waiting to be sent: its bytes, its slot, and for LEASE the key tag and the ceiling, 0 for an
invalidation. -/
structure MItem where
  bytes : Bytes
  chix : Nat
  slotB : Bool
  tag : W32 := 0
  ceil : Nat
  /-- CK_AO cycle of the change that a FLOOR item carries (R331). -/
  at_ : Option Nat := none
  deriving DecidableEq, Repr

/-- The channel tables and the key vault. -/
structure Chans where
  resi : Tab Resi := []
  group : Tab (BitVec 12) := []
  entries : Tab (Option Entry) := []
  slots : Tab Slot := []
  /-- Residency-map words being rebuilt (R298). -/
  rebuilding : NatSet := []
  /-- Equinox log, oldest first (R221). -/
  eqxLog : List (W32 × W32) := []
  /-- SCHED items of the pending schedules of channels paged out (R216, R328). -/
  awaySched : List MItem := []
  deriving DecidableEq, Repr

/-- A sector of the journal as the lease unit knows it (R183, R192). -/
structure Sector where
  valid : Bool := false
  retired : Bool := false
  openSeq : Nat := 0
  wcount : Nat := 0
  deriving DecidableEq, Repr

/-- A journal entry's content (R184). -/
structure JEnt where
  chix : Nat
  kind : BitVec 8
  av : Bool
  tagA : W32
  ceilA : Nat
  bv : Bool
  tagB : W32
  ceilB : Nat
  deriving DecidableEq, Repr

/-- A live entry of the directory (R186). -/
structure Live where
  ent : JEnt
  unit : Nat
  handle : BitVec 16
  restart : Bool := false
  deriving DecidableEq, Repr

/-- What a journal write does to the newest content of its channel. -/
inductive JWhy where
  /-- Requests (R177): slot B, vault slot, key tag and new ceiling of each requesting half. -/
  | request (raise : List (Bool × Nat × W32 × Nat))
  /-- An invalidation (R185): key tags of the erased halves, and whether JNL_DROP waits for it. -/
  | inval (a b : Option W32) (jnlDrop : Bool)
  /-- A copy (R188). -/
  | copy
  /-- A half mirrored from the active, with the SEQ of its message (R196, R327). -/
  | mirror (seq : Nat) (slotB valid : Bool) (tag : W32) (ceil : Nat)
  deriving DecidableEq, Repr

/-- An entry to be written for a channel. -/
structure JItem where
  chix : Nat
  why : JWhy
  /-- Its first write failed, and it is to be written again (R190). -/
  redo : Bool := false
  /-- Its place in the order of first writes, and the highest place whose content its entry carries. -/
  ser : Nat := 0
  top : Nat := 0
  /-- An entry written since carries its content. -/
  done : Bool := false
  deriving DecidableEq, Repr

/-- A journal write whose answer is awaited (R44): an entry, an open header or a retirement mark. -/
inductive NvW where
  | entry (unit : Nat) (ent : JEnt) (item : JItem)
  | opening (sector : Nat)
  | mark (sector : Nat)
  deriving DecidableEq, Repr

/-- A request not yet committed (R178). -/
structure LWait where
  vslot : Nat
  ceil : Nat
  written : Bool
  acked : Bool
  deriving DecidableEq, Repr

/-- The lease unit. -/
structure Lease where
  scanning : Bool := false
  scanDone : Bool := false
  /-- Reads the scan has issued, and answers it has taken (R192, R193). -/
  asked : Nat := 0
  got : Nat := 0
  /-- Sectors whose header the scan accepted, in order, and the newest accepted entry of each channel with its unit; the highest
  unit of each sector that holds an accepted entry (R192, R400). -/
  scanSecs : List Nat := []
  scanEnts : List (Nat × JEnt) := []
  scanTop : Tab Nat := []
  sectors : Tab Sector := []
  head : Option Nat := none
  /-- Next free unit of the head, 128 when full. -/
  headUnit : Nat := 128
  follower : Option Nat := none
  nextOpen : Nat := 0
  /-- The directory of live entries, by channel (R186). -/
  dir : Tab (Option Live) := []
  /-- Entries to be written, oldest first. -/
  todo : List JItem := []
  /-- The next position goes to a copy when one waits (R188). -/
  copyTurn : Bool := false
  /-- Writes outstanding, oldest first (at most 8). -/
  nvw : List NvW := []
  /-- Sectors being emptied for retirement (R189, R190). -/
  retiring : NatSet := []
  /-- Those of them that failed: their entries are copied ahead of new ones (R190). -/
  failed : NatSet := []
  waits : List LWait := []
  /-- Place of the next item written for the first time. -/
  nextSer : Nat := 1
  /-- Writes and reads that a scan has abandoned and whose answers are still to come (R44, R192). -/
  staleW : List NvW := []
  staleR : Nat := 0
  /-- Channels whose handle carried RESTART when the scan began (R334). -/
  keepRestart : NatSet := []
  /-- LEASE_CMD in progress (R200). -/
  cmd : Option W32 := none
  deriving DecidableEq, Repr

/-! ### Pager -/

/-- The class a page-in started under (R228). -/
inductive PClass where
  | demand | command | prewarm
  deriving DecidableEq, Repr

/-- A page-in (R229). -/
structure PageIn where
  chix : Nat
  /-- Its place in the order of arrival: of the request, or of the miss that raised it to demand (R228). -/
  ser : Nat := 0
  cls : PClass
  demand : Bool
  started : Bool := false
  /-- CK_AO cycle of its start, or of the miss that raised it to demand (R230). -/
  at_ : Nat := 0
  entry : Nat := 0
  /-- Lines received, by line number. -/
  lines : Tab Bytes := []
  /-- Slots whose unwrap has been queued, and slots whose unwrap has ended (false slot A, true slot B). -/
  queued : List Bool := []
  done : List Bool := []
  deriving DecidableEq, Repr

/-- A page-out (R233). -/
structure PageOut where
  chix : Nat
  ser : Nat := 0
  started : Bool := false
  /-- Slots whose wrap has been queued, and wrapped blobs. -/
  queued : List Bool := []
  blobs : List (Bool × Bytes) := []
  /-- The record has been formed and its lines requested; acknowledgements still awaited. -/
  writing : Bool := false
  left : Nat := 0
  err : Bool := false
  byCmd : Bool := false
  /-- CH_EVICT with DISCARD: nothing is written (R234). -/
  discard : Bool := false
  /-- Nothing is left but the drain of the slots (R233 step 4). -/
  draining : Bool := false
  deriving DecidableEq, Repr

/-- A group job (R236). -/
structure GroupJob where
  evict : Bool
  group : BitVec 12
  mask : BitVec 12
  deriving DecidableEq, Repr

/-- A season floor in force (R289). -/
structure Floor where
  ef : Nat
  ifl : Nat
  kx : Bool
  ends : Nat
  deriving DecidableEq, Repr

/-- The pager, its calendar and the windows' commands in progress. -/
structure Pager where
  /-- Number of the next request for a page-in or a page-out (R228). -/
  nextSer : Nat := 0
  ins : List PageIn := []
  outs : List PageOut := []
  /-- Failed CHIXs, newest first, with the reason and the CK_AO cycle (R229); at most 64. -/
  fails : List (Nat × Nat × Nat) := []
  failInfo : W32 := 0
  wseq : W32 := 0
  jobs : List GroupJob := []
  running : Bool := false
  cal : Tab W128 := []
  /-- CAL_SEL has been written, and writes of CAL_WR, while PD_SRAM7 does not serve: they wait for it (R237, R281). -/
  calRead : Bool := false
  calPut : List (Nat × W128) := []
  floors : List Floor := []
  /-- SAW and KEYW commands in progress. -/
  saw : Option W32 := none
  keyw : Option W32 := none
  /-- Lines read for a CH_READ, STAT_READ, STAT_CLEAR or BUCKET_DIGEST of stored channels. -/
  sawLines : Tab Bytes := []
  sawLeft : List Nat := []
  sawFail : Bool := false
  deriving DecidableEq, Repr

/-- A KEYX job (R162). -/
inductive KJob where
  /-- SLOT_INSTALL unwrap. -/
  | install
  /-- Unwrap of a slot of a page-in. -/
  | unwrap (chix : Nat) (slotB : Bool)
  /-- Wrap of a slot of a page-out. -/
  | wrap (chix : Nat) (slotB : Bool)
  deriving DecidableEq, Repr

/-- KEYX: four cores and the waiting jobs. -/
structure Keyx where
  cores : Tab (Option KJob) := []
  /-- The KEK whose round keys a core holds (R162). -/
  held : Tab Nat := []
  queue : List KJob := []
  /-- Cores removed until PD_KEYX next enters THAW (R297), and faults of a core since. -/
  removed : NatSet := []
  /-- CK_AO cycles of the faults of each core and of the firings of each generator outside the slices (R297). -/
  faults : Tab (List Nat) := []
  maskFires : Tab (List Nat) := []
  /-- Page-ins unwrapped ahead of a waiting install (R22). -/
  ahead : Nat := 0
  deriving DecidableEq, Repr

/-! ### Store -/

/-- Requesters of R242. -/
inductive Req where
  | pagerIn (chix line : Nat) | pageOut (chix line : Nat)
  /-- CH_READ, STAT_READ, STAT_CLEAR or BUCKET_DIGEST line: CHIX, line (0-7 record, 8-11 trunk). -/
  | sawLine (chix line : Nat)
  | spillRd (chix line : Nat) | spillWr (chix line : Nat)
  | zeroWr (chix line : Nat)
  | clearWr (chix line : Nat)
  /-- The trunks of fields that a memory error has restarted (R382). -/
  | restartWr (chix line : Nat)
  | host
  | wcbFill | wcbBack
  | march
  /-- A request that has been ended and whose response is still to come (R42). -/
  | gone
  deriving DecidableEq, Repr

/-- A store request. `ser` numbers requests in order of arrival; `id` is the ID on STQ, `seed` the key set and `seed2`
the second set of a dual check (R257), all given when it is issued. -/
structure SReq where
  ser : Nat
  wr : Bool
  line : Nat
  /-- Key index that the requester names (R242). -/
  kix : Nat
  who : Req
  data : Bytes := []
  mask : W64 := 0
  id : Nat := 0
  sel : Nat := 0
  seed : W128 := 0
  seed2 : Option W128 := none
  /-- MARCH_LOCK_WAIT and KEY_CACHE_MISS have been counted for it (R245, R259). -/
  lockCounted : Bool := false
  missCounted : Bool := false
  deriving DecidableEq, Repr

/-- How a store request ended (R243, R249). -/
inductive FinRes where
  /-- Done; a read brings its line. -/
  | ok (data : Bytes) (corrected : Bool)
  | integ | ue | bus | noRegion | noKey
  deriving DecidableEq, Repr

/-- The key of a selector (R245). -/
structure KeySel where
  seed : Option W128 := none
  zkeep : Bool := false
  deriving DecidableEq, Repr

/-- A write-combining entry (R251). -/
structure Wcb where
  line : Nat
  sel : Nat
  data : Bytes
  valid : W64
  dirty : W64
  filling : Bool
  writing : Bool := false
  /-- The key of its selector has been replaced or erased while its merge read was outstanding: the waiting writes finish under
  the old set, and the entry goes (R254, R262). -/
  drop : Bool := false
  /-- Host requests that wait for the entry. -/
  waiters : List SReq := []
  deriving DecidableEq, Repr

/-- States of MARCH (R261). -/
inductive MState where
  | idle | keygen | run | paused | halted | stopped
  deriving DecidableEq, Repr

/-- MARCH. -/
structure March where
  st : MState := .idle
  split : Bool := false
  tgt : Nat := 0
  first : Nat := 0
  last : Nat := 0
  bound : Nat := 0
  hwm : Nat := 0
  nextSeed : Option W128 := none
  /-- Lines at or above BOUND already re-keyed. -/
  rekeyed : NatSet := []
  /-- Lines of the walk in flight, and those of them that were issued before and may have been rewritten (R257). -/
  flight : NatSet := []
  redo : NatSet := []
  reason : Nat := 0
  failed : Option Nat := none
  /-- A PAUSE or a STOP waits for the lines in flight. -/
  pausing : Bool := false
  stopping : Bool := false
  deriving DecidableEq, Repr

/-- A spill (R378): CHIX, line, captured leaves, and whether it waits for a retry. -/
structure Spill where
  chix : Nat
  line : Nat
  cap : List W32 := []
  retry : Bool := false
  /-- One of the 16 outstanding; the others wait their turn. -/
  active : Bool := false
  /-- The line fails and is being written anew (R382). -/
  fail : Bool := false
  deriving DecidableEq, Repr

/-- The store engine, MARCH and the spill machinery. -/
structure Store where
  nextId : Nat := 0
  /-- Requests on STQ, oldest first, and requests that wait inside the engine. -/
  out : List SReq := []
  wait : List SReq := []
  sels : Tab KeySel := []
  master : BitVec 256 := 0
  /-- Requests served ahead of the waiting requests of a requester class, since its last was served (R21). -/
  passed : Tab Nat := []
  /-- Requests that have ended and are to be delivered. -/
  fin : List (SReq × FinRes) := []
  /-- Selectors whose expanded set is cached, most recent first, at most 64. -/
  cache : NatSet := []
  /-- Selectors that requests wait for (KEY_CACHE_MISS). -/
  missed : NatSet := []
  wcb : List Wcb := []
  march : March := {}
  /-- HSW or key command in progress. -/
  cmd : Option W32 := none
  spills : List Spill := []
  /-- Trunk lines whose zero write has not succeeded: CHIX × 4 + line; true when waiting for a retry (R378). -/
  zeros : Tab (Option Bool) := []
  failAddr : Nat := 0
  failInfo : W32 := 0
  /-- Pipelines removed until PD_STORE next enters THAW (R297). -/
  pipesOut : NatSet := []
  /-- WCB_USED as PD_STORE left SUMMER (R282). -/
  wcbHeld : W32 := 0
  /-- Requests numbered below this one end when the store partition's reset ends them (R253). -/
  rstMark : Nat := 0
  /-- The master key has been lost to a memory error, and its new value awaits two seed words (R298). -/
  masterLost : Bool := false
  deriving DecidableEq, Repr

/-! ### Counters -/

/-- A counted outcome on its way to the tree (R379): CHIX, and the fields with their increments. -/
structure Counted where
  chix : Nat
  incs : List (Nat × Nat)
  deriving DecidableEq, Repr

/-- Event counters, port counters and bandwidth windows. -/
structure Counts where
  queue : List Counted := []
  /-- Event counters, accumulators and presets waiting for their update slot (R383, R384). -/
  evc : Tab (BitVec 48) := []
  acc : Tab Nat := []
  preset : Tab (Option (BitVec 48)) := []
  /-- Occurrences tied to a frame that are gathered and not yet taken, oldest first: CHIX, lane and direction (R385). -/
  occs : Tab (List (Option Nat × Nat × Dir)) := []
  evcPoison : NatSet := []
  /-- Port counters, keyed port × 128 + index (R367). -/
  port : Tab (BitVec 48) := []
  portPoison : NatSet := []
  /-- Bytes of the open bandwidth window, keyed port × 2 + direction (R388). -/
  bw : Tab Nat := []
  /-- BW_WINDOW of the open window. -/
  bwWin : Nat := 1000
  deriving DecidableEq, Repr

/-! ### Power -/

/-- Seasons of R278. -/
inductive Season where
  | winter | thaw | summer | autumn
  deriving DecidableEq, Repr

/-- Operations of the power manager (R52). -/
inductive PmOp where
  | on | off | retain | wake
  deriving DecidableEq, Repr

/-- A switched domain. -/
structure Dom where
  season : Season := .winter
  unavail : Bool := false
  /-- Request outstanding. -/
  req : Option PmOp := none
  /-- A refused request waits for its 1 ms (R52). -/
  refused : Bool := false
  /-- Request wanted and not yet issued (8 outstanding, or seed words lacking). -/
  want : Option PmOp := none
  /-- The wanted wake waits for seed words (R286). -/
  seedWait : Bool := false
  deriving DecidableEq, Repr

/-- The season governor. -/
structure Pwr where
  dom : Tab Dom := []
  targetE : Nat := 0
  targetI : Nat := 0
  /-- CK_AO cycle since which A has been above T at every evaluation (R284). -/
  overE : Option Nat := none
  overI : Option Nat := none
  /-- Slices woken by the last surge that have not yet reached SUMMER (R285). -/
  surge : NatSet := []
  deriving DecidableEq, Repr

/-! ### Faults -/

/-- A fault event or record (R301). -/
structure FEvent where
  cls : BitVec 3
  alarm : Bool
  det : BitVec 8
  inst : BitVec 9
  inj : Bool
  infoA : W32
  infoB : W32
  /-- Page whose PG_FAULT_EN masks the record (R303). -/
  page : Nat
  /-- TM_A_ at the detection (R301). -/
  at_ : Stamp
  deriving DecidableEq, Repr

/-- A valid fault record. -/
structure FRec where
  ev : FEvent
  count : Nat
  /-- Order of writing, for the oldest record. -/
  serial : Nat
  deriving DecidableEq, Repr

/-- The fault aggregator. -/
structure Faults where
  recs : Tab (Option FRec) := []
  serial : Nat := 0
  queue : List FEvent := []
  held : List Part := []
  /-- Partitions reset automatically less than 1 s ago, with the CK_AO cycle (R307). -/
  autoAt : List (Part × Nat) := []
  /-- Partitions being reset automatically. -/
  autoNow : List Part := []
  /-- Partitions in which a UNIT fault met their own reset: its action follows the reset (R311). -/
  afterReset : List Part := []
  /-- Slices whose mask generator failed during their own reset (R311). -/
  afterMask : NatSet := []
  /-- ALARM_N held until RST_N, and held by REC_OVF (R57, R302). -/
  alarmHard : Bool := false
  alarmOvf : Bool := false
  silent : Bool := false
  /-- CK_AO cycle of the last passed latent test n (R305). -/
  latentAt : Tab (Option Nat) := []
  latentLate : NatSet := []
  deriving DecidableEq, Repr

/-! ### The pair -/

/-- Roles of R313. -/
inductive Role where
  | unpaired | seek | standby | active | silent
  deriving DecidableEq, Repr

/-- A pair session (R316). -/
structure Session where
  sid : W32
  keyTx : Bytes
  keyRx : Bytes
  txSeq : Nat
  rxSeq : Nat
  deriving DecidableEq, Repr

/-- The heartbeat and pair engine. -/
structure Pair where
  role : Role := .seek
  cfgSet : Bool := false
  /-- PAIR_CFG has been written and not yet committed: SET follows the commit (R340). -/
  cfgStaged : Bool := false
  granted : Bool := false
  linkAck : Bool := false
  prevBlind : BitVec 2 := 0
  holder : BitVec 2 := 0
  epoch : W32 := 0
  promoAdd : Nat := 0
  session : Option Session := none
  /-- The nonce that the unit last sent in HELLO, none until the next is drawn; and the nonce of the last HELLO it
  accepted, 0 for none (R318). -/
  nonce : Option W128 := none
  echo : W128 := 0
  /-- PK and AK (R315). -/
  pk : Option Bytes := none
  ak : Option Bytes := none
  peerLost : Bool := true
  /-- CHUNK_LOG and BLIND_CHUNKS when the link went down (R179). -/
  frzL : Nat := 26
  frzN : Nat := 64
  /-- JNL_FAIL of the peer's header (R325). -/
  peerJnlFail : Bool := false
  ready : Bool := false
  jnlFail : Bool := false
  arbLost : Bool := false
  /-- YIELD has closed the role gate; STATUS carries YIELD; REQUEST is in force (R336). -/
  yielding : Bool := false
  yieldFlag : Bool := false
  /-- The role gate stood open when the unit fell silent, and stays so (R306). -/
  silentOpen : Bool := false
  reqHold : Bool := false
  /-- A GRANT has been accepted since RST_N; the last one carried HOLDER none (R324, R339). -/
  heard : Bool := false
  holderNone : Bool := false
  /-- The leases of a promotion wait for the scan (R334). -/
  promoWait : Bool := false
  /-- Nonces of the last four STATUS messages, newest first (R320). -/
  nonces : List Bytes := []
  /-- Items waiting to be sent (R326). -/
  qLease : List MItem := []
  qSlot : List MItem := []
  qSched : List MItem := []
  qFloor : List MItem := []
  /-- LEASE items sent and not acknowledged, with their SEQ; and mirror messages sent and not acknowledged. -/
  sentLease : List (Nat × MItem) := []
  sentSeqs : List Nat := []
  /-- A sync in progress, with the halves and the channels it has sent (chix × 2 + slot, and chix) (R328). -/
  syncing : Bool := false
  synHalves : NatSet := []
  synChans : NatSet := []
  /-- Halves and channels received since the session or the last SYNC_REQ, and the SYNC_END to be judged: its SEQ and
  its two counts. -/
  gotHalves : NatSet := []
  gotChans : NatSet := []
  syncEnd : Option (Nat × Nat × Nat) := none
  /-- Items received and not yet applied, with their SEQ (0 for an earlier session's) (R327). -/
  inbox : List (Nat × MirKind × Bytes) := []
  /-- Mirrored halves that the journal cannot take yet (R327). -/
  jnlWait : List JItem := []
  /-- SEQs of halves that are not journalled yet, one for each; and of mirror messages that no ACK has covered. -/
  ackPend : List Nat := []
  ackOwed : List Nat := []
  /-- Skewed slots, chix × 2 + slot (R327). -/
  skewed : NatSet := []
  peerHealth : W32 := 0
  healthStale : Bool := false
  mirrorDrop : Nat := 0
  /-- Receive slots that were LIVE at the takeover and are exposed since, chix × 2 + slot; and channels that were stored then and
  have not been paged in since (R332). -/
  exposed : NatSet := []
  unseen : NatSet := []
  /-- The oldest unsent floor change is older than 2 ms (R331). -/
  floorLate : Bool := false
  /-- A global reset has taken the channels of a standby, which CH_WRITE is recreating (R339). -/
  resync : Bool := false
  deriving DecidableEq, Repr

/-! ### Outputs -/

/-- What the block drove on its outputs during the last command. -/
inductive Emit where
  /-- SOF of a frame on BSE or RSI: descriptor and the segments' bytes follow with the EOF. -/
  | sof (dir : Dir) (port : Nat) (express : Bool) (desc : W64)
  | eof (dir : Dir) (port : Nat) (express : Bool) (bytes : Bytes) (code : Code)
  | rseCredit (port : Nat) (express init : Bool) (cnt : Nat)
  | stq (wr : Bool) (line : Nat) (kix : Nat) (id : Nat) (data side : Bytes)
  | nvq (wr : Bool) (unit : Nat) (data : Bytes)
  | pm (dom : Nat) (op : PmOp)
  | pp (msg : Bytes)
  | ab (msg : Bytes)
  | cpData (err : Bool) (data : W32)
  | cpDone (err : Bool)
  | ticket (port : Nat) (express : Bool) (num : Nat) (src : Nat) (void_ : Bool)
  | laneCtl (lane : Nat) (code : LaneCode)
  deriving DecidableEq, Repr

/-! ### The machine -/

/-- The whole block. -/
structure State where
  sys : Sys := {}
  regs : Regs := {}
  dp : Dp := {}
  slices : Slices := {}
  ch : Chans := {}
  lease : Lease := {}
  pager : Pager := {}
  keyx : Keyx := {}
  store : Store := {}
  cnt : Counts := {}
  pwr : Pwr := {}
  flt : Faults := {}
  pair : Pair := {}
  /-- The model's own field: counts free values drawn from `Config`. -/
  freeCtr : Nat := 0
  /-- Outputs of the last command, in order. -/
  out : List Emit := []
  /-- Commands that wait, first in, first out. -/
  pending : List Instr := []
  deriving DecidableEq, Repr

/-- The block right after RST_N has risen, before the first bring-up phase ends (R59, R390): every register at the
reset value of its field map, every table empty, the role SEEK, no command waiting. [DESIGN CHOICE: log 15, 95] -/
def State.reset : State := {}

end Sys2Proof.Machine
end

