-- ==== Sys2Proof/Machine/RegTab.lean ====
section
/-! DEFINITION. The register map as data: pages, partitions, and each register's fields by access code and marker
(R342 to R345, R361 to R372, and the field maps of the pages' own chapters). -/
namespace Sys2Proof.Machine

/-- A register, or a row of like registers: offset, how many and how far apart, the masks of its fields by access
code (RW, W1C, W1S, WO) and marker (S, Q, L, O), its reset value, and the offset of its HI register. -/
structure RegRow where
  off : Nat
  n : Nat := 1
  step : Nat := 4
  rw : W32 := 0
  s : W32 := 0
  q : W32 := 0
  l : W32 := 0
  o : W32 := 0
  w1c : W32 := 0
  w1s : W32 := 0
  wo : W32 := 0
  rst : W32 := 0
  hi : Nat := 0
  deriving DecidableEq, Repr

/-- The kinds of page of R361. -/
inductive Page where
  | glb | ao | sec | pwr | time | flt | pair | lease | saw | keyw | pager | store | march | perf | byp | leg
  | port (n : Nat) | slice (n : Nat) | evc (n : Nat)
  deriving DecidableEq, Repr

/-- Registers of the common header (R282, R303, R308, R343, R344, R349, R350, R353, R357, R359), part 0. -/
def rowsHdr0 : List RegRow :=
  [ { off := 0 },  -- PG_ID
    { off := 0x4, w1c := 0xF4 },  -- PG_STATUS
    { off := 0x8, w1s := 0x1 },  -- PG_COMMIT
    { off := 0xC, wo := 0xFFFFFFFF },  -- PG_UNLOCK
    { off := 0x10 },  -- PG_EPOCH
    { off := 0x14, hi := 0x18 },  -- PG_DIGEST_LO
    { off := 0x18 },  -- PG_DIGEST_HI
    { off := 0x1C, l := 0x1, w1s := 0x1 },  -- PG_RESET
    { off := 0x20, rw := 0xF, rst := 0xF },  -- PG_FAULT_EN
    { off := 0x24, rw := 0x3FFFFFFF } ]  -- PG_IRQ_EN

/-- Registers of the common header (R282, R303, R308, R343, R344, R349, R350, R353, R357, R359), part 1. -/
def rowsHdr1 : List RegRow :=
  [ { off := 0x28 },  -- PG_IRQ_STAT
    { off := 0x2C } ]  -- PG_DOMAIN

/-- All registers of HDR above the header. -/
def rowsHdr : List RegRow := rowsHdr0 ++ rowsHdr1

/-- Registers of GLB (R220, R221, R358, R359, R363), part 0. -/
def rowsGlb0 : List RegRow :=
  [ { off := 0x40, w1c := 0x8 },  -- GLB_FLAGS
    { off := 0x50, w1c := 0x3E },  -- EQX_FLAGS
    { off := 0x80, rst := 0x43573200 },  -- BLK_ID
    { off := 0x84, rst := 0x100 },  -- BLK_REV
    { off := 0x88, hi := 0x8C },  -- GLB_DIGEST_LO
    { off := 0x8C },  -- GLB_DIGEST_HI
    { off := 0x90 },  -- GLB_DIG_CNT
    { off := 0xA0, n := 8, step := 4 },  -- IRQ_PAGES
    { off := 0x200, rw := 0x1F, s := 0x1F, rst := 0x18 },  -- EQX_FORCE_LOG
    { off := 0x204, rw := 0xFFFFFF, s := 0xFFFFFF, rst := 0x3E8 } ]  -- EQX_STALL_US

/-- Registers of GLB (R220, R221, R358, R359, R363), part 1. -/
def rowsGlb1 : List RegRow :=
  [ { off := 0x208, hi := 0x20C },  -- EQX_LOG_LO
    { off := 0x20C },  -- EQX_LOG_HI
    { off := 0x210 } ]  -- EQX_LOG_CNT

/-- All registers of GLB above the header. -/
def rowsGlb : List RegRow := rowsGlb0 ++ rowsGlb1

/-- Registers of AO (R49, R61, R371). -/
def rowsAo : List RegRow :=
  [ { off := 0x40, w1c := 0x4 },  -- AO_FLAGS
    { off := 0x80, n := 4, step := 4, rw := 0xFFFFFFFF },  -- AO_SCRATCH
    { off := 0x90, n := 3, step := 4 },  -- CLK_MEAS
    { off := 0x9C } ]  -- RN_STATE

/-- Registers of SEC (R156, R157, R173), part 0. -/
def rowsSec0 : List RegRow :=
  [ { off := 0x40, w1c := 0x18 },  -- SEC_FLAGS
    { off := 0x80, rw := 0xFFFFFFFF, l := 0xFFFFFFFF, o := 0xFFFFFFFF, hi := 0x84 },  -- KEK_EPOCH_LO
    { off := 0x84, rw := 0xFFFFFFFF, l := 0xFFFFFFFF, o := 0xFFFFFFFF },  -- KEK_EPOCH_HI
    { off := 0x88, rw := 0xFFFFFFFF, l := 0xFFFFFFFF, hi := 0x8C },  -- KEK_EN_LO
    { off := 0x8C, rw := 0x7FFFFFFF, l := 0x7FFFFFFF, rst := 0x80000000 },  -- KEK_EN_HI
    { off := 0x90, l := 0x1, o := 0x1, w1s := 0x1 },  -- KEK_DERIVE
    { off := 0x94, hi := 0x98 },  -- KEK_VALID_LO
    { off := 0x98 },  -- KEK_VALID_HI
    { off := 0x9C, rw := 0x3F },  -- KEK_CHK_IDX
    { off := 0xA0 } ]  -- KEK_CHK_VAL

/-- Registers of SEC (R156, R157, R173), part 1. -/
def rowsSec1 : List RegRow :=
  [ { off := 0xA4, l := 0x1, w1s := 0x1 } ]  -- ZEROISE

/-- All registers of SEC above the header. -/
def rowsSec : List RegRow := rowsSec0 ++ rowsSec1

/-- Registers of PWR (R278, R283, R284, R289, R292), part 0. -/
def rowsPwr0 : List RegRow :=
  [ { off := 0x40, w1c := 0x3B },  -- PWR_FLAGS
    { off := 0x80, rw := 0xF, s := 0xF, rst := 0x1 },  -- GOV_CTL
    { off := 0x84, rw := 0x7F, s := 0x7F, rst := 0x4B },  -- GOV_UTIL
    { off := 0x88, rw := 0x7, s := 0x7, rst := 0x1 },  -- GOV_SPARE
    { off := 0x8C, rw := 0x1F001F, s := 0x1F001F, rst := 0x20002 },  -- SLICE_FLOOR
    { off := 0x90, rw := 0xFFFFF, s := 0xFFFFF, rst := 0x3E8 },  -- GOV_HOLD_US
    { off := 0x94, rw := 0x7F, s := 0x7F, rst := 0x32 },  -- SURGE_PCT
    { off := 0x98, rw := 0x7, s := 0x7, rst := 0x4 },  -- GOV_SURGE
    { off := 0x9C, rw := 0xFFFFF, s := 0xFFFFF, rst := 0x3E8 },  -- IDLE_US
    { off := 0xA0 } ]  -- GOV_TARGET

/-- Registers of PWR (R278, R283, R284, R289, R292), part 1. -/
def rowsPwr1 : List RegRow :=
  [ { off := 0xA4 },  -- GOV_AWAKE
    { off := 0xA8 },  -- CAL_FLOOR
    { off := 0xC0, rst := 0x2 },  -- DOM_SEASON0
    { off := 0xC4 },  -- DOM_SEASON1
    { off := 0xC8 },  -- DOM_SEASON2
    { off := 0xCC },  -- DOM_SEASON3
    { off := 0xD0, hi := 0xD4 },  -- DOM_UNAVAIL_LO
    { off := 0xD4 } ]  -- DOM_UNAVAIL_HI

/-- All registers of PWR above the header. -/
def rowsPwr : List RegRow := rowsPwr0 ++ rowsPwr1

/-- Registers of TIME (R371). -/
def rowsTime : List RegRow :=
  [ { off := 0x40, w1c := 0xC },  -- TIME_FLAGS
    { off := 0x80 },  -- TM_L_SEC_LO
    { off := 0x84 },  -- TM_L_SEC_HI
    { off := 0x88 },  -- TM_L_NS
    { off := 0x8C },  -- TM_A_SEC_LO
    { off := 0x90 },  -- TM_A_SEC_HI
    { off := 0x94 },  -- TM_A_NS
    { off := 0x98 },  -- STEP_SEC_LO
    { off := 0x9C },  -- STEP_SEC_HI
    { off := 0xA0 } ]  -- STEP_NS

/-- Registers of FLT (R301, R304). -/
def rowsFlt : List RegRow :=
  [ { off := 0x40, w1c := 0xCC },  -- FLT_FLAGS
    { off := 0x44, n := 3, step := 4 },  -- FLT_HELD
    { off := 0x80 },  -- FLT_REC_CNT
    { off := 0x84, rw := 0x3F },  -- FLT_REC_SEL
    { off := 0x88, n := 5, step := 4 },  -- FLT_REC
    { off := 0x9C, w1s := 0x3 },  -- FLT_REC_CLR
    { off := 0xA0 },  -- FLT_OLDEST
    { off := 0xA4, rw := 0x1F, s := 0x1F, rst := 0x1F },  -- FLT_AUTO_EN
    { off := 0xA8, l := 0x7FFFC01, wo := 0x7FFFC01 } ]  -- FLT_INJECT

/-- Registers of PAIR (R327, R331, R332, R333, R334, R340), part 0. -/
def rowsPair0 : List RegRow :=
  [ { off := 0x40, w1c := 0x1E34 },  -- PAIR_FLAGS
    { off := 0x80, rw := 0x3F3F0F, s := 0x3F3F0F, l := 0x3F3F0F },  -- PAIR_CFG
    { off := 0x84, rw := 0x1F, s := 0x1F, rst := 0x5 },  -- ARB_PERIOD
    { off := 0x88, wo := 0xFF },  -- PAIR_CMD
    { off := 0x8C, rst := 0xFF000000 },  -- PAIR_RESULT
    { off := 0x90, rst := 0x1 },  -- PAIR_ROLE
    { off := 0x94 },  -- GRANT_EPOCH
    { off := 0x98 },  -- GRANT_INFO
    { off := 0x9C, hi := 0xA0 },  -- PROMO_ADD_LO
    { off := 0xA0 } ]  -- PROMO_ADD_HI

/-- Registers of PAIR (R327, R331, R332, R333, R334, R340), part 1. -/
def rowsPair1 : List RegRow :=
  [ { off := 0xA4 },  -- EXPOSED_CNT
    { off := 0xA8 },  -- SKEW_CNT
    { off := 0xAC },  -- FLOOR_AGE
    { off := 0xB0 },  -- PEER_HEALTH
    { off := 0xB4 } ]  -- MIRROR_LAG

/-- All registers of PAIR above the header. -/
def rowsPair : List RegRow := rowsPair0 ++ rowsPair1

/-- Registers of LEASE (R199, R200), part 0. -/
def rowsLease0 : List RegRow :=
  [ { off := 0x40, w1c := 0x1C0 },  -- LEASE_FLAGS
    { off := 0x80, rw := 0x3F, s := 0x3F, rst := 0x1A },  -- CHUNK_LOG
    { off := 0x84, rw := 0x7FF, s := 0x7FF, rst := 0x40 },  -- BLIND_CHUNKS
    { off := 0x88, rw := 0xFFFFFFFF, l := 0xFFFFFFFF, rst := 0x3B9ACA00 },  -- RETIRE_AT
    { off := 0x8C },  -- USABLE_SECTORS
    { off := 0x90 },  -- LIVE_ENTRIES
    { off := 0x94 },  -- LIVE_MAX
    { off := 0x98 },  -- WCOUNT_MAX
    { off := 0x9C },  -- HEAD_SECTOR
    { off := 0xA0, hi := 0xA4 } ]  -- OPEN_SEQ_LO

/-- Registers of LEASE (R199, R200), part 1. -/
def rowsLease1 : List RegRow :=
  [ { off := 0xA4 },  -- OPEN_SEQ_HI
    { off := 0xC0, wo := 0xFFFFFFF },  -- LEASE_CMD
    { off := 0xC4, rst := 0xFF000000 },  -- LEASE_RESULT
    { off := 0xC8, n := 6, step := 4 } ]  -- LEASE_ARG

/-- All registers of LEASE above the header. -/
def rowsLease : List RegRow := rowsLease0 ++ rowsLease1

/-- Registers of SAW (R143, R165, R166, R167). -/
def rowsSaw : List RegRow :=
  [ { off := 0x40, w1c := 0x1 },  -- SAW_FLAGS
    { off := 0x80, wo := 0x1FFFFFFF },  -- SAW_CMD
    { off := 0x84, rst := 0xFF000000 },  -- SAW_RESULT
    { off := 0xC0, n := 16, step := 4, rw := 0xFFFFFFFF } ]  -- SAW_ARG

/-- Registers of KEYW (R165, R166, R167, R169). -/
def rowsKeyw : List RegRow :=
  [ { off := 0x40, w1c := 0x1 },  -- KEYW_FLAGS
    { off := 0x80, wo := 0x1FFFFFFF },  -- KEYW_CMD
    { off := 0x84, rst := 0xFF000000 },  -- KEYW_RESULT
    { off := 0x88, rw := 0x7F03 },  -- KEYW_PARAM
    { off := 0x8C, rw := 0xFFFFFFFF },  -- KEYW_SSCI
    { off := 0x90, rw := 0xFFFFFFFF, hi := 0x94 },  -- KEYW_PN_LO
    { off := 0x94, rw := 0xFFFFFFFF },  -- KEYW_PN_HI
    { off := 0x100, n := 18, step := 4, wo := 0xFFFFFFFF } ]  -- KEYW_BLOB

/-- Registers of PAGER (R236, R237, R238, R241), part 0. -/
def rowsPager0 : List RegRow :=
  [ { off := 0x40, w1c := 0x1C },  -- PAGER_FLAGS
    { off := 0x80, rw := 0x7FF, l := 0x7FF, o := 0x7FF },  -- PAGE_BASE
    { off := 0x84, rw := 0xFFF, l := 0xFFF, o := 0xFFF },  -- PAGE_KIX
    { off := 0x88, rw := 0x1FFFF, s := 0x1FFFF, rst := 0x400 },  -- FREE_LOW_AT
    { off := 0x8C, rw := 0xFFFF, s := 0xFFFF, rst := 0x64 },  -- PAGE_RETRY_US
    { off := 0x90, rw := 0xFFFF, s := 0xFFFF, rst := 0x64 },  -- PAGE_TIMEOUT_US
    { off := 0x94 },  -- USE_MS
    { off := 0x98 },  -- RESIDENT_CNT
    { off := 0x9C },  -- PINNED_CNT
    { off := 0xA0 } ]  -- MISSQ_USED

/-- Registers of PAGER (R236, R237, R238, R241), part 1. -/
def rowsPager1 : List RegRow :=
  [ { off := 0xA4 },  -- FAIL_INFO
    { off := 0xA8, rw := 0x1FFF0FFF },  -- GRP_CTL
    { off := 0xAC, w1s := 0x1 },  -- GRP_GO
    { off := 0xB0 },  -- GRP_QLEN
    { off := 0xC0, rw := 0xFF },  -- CAL_SEL
    { off := 0xC4, n := 4, step := 4, rw := 0xFFFFFFFF },  -- CAL_DATA
    { off := 0xD4, w1s := 0x1 },  -- CAL_WR
    { off := 0xD8 } ]  -- CAL_NEXT

/-- All registers of PAGER above the header. -/
def rowsPager : List RegRow := rowsPager0 ++ rowsPager1

/-- Registers of STORE (R243, R244, R249, R254, R255, R263), part 0. -/
def rowsStore0 : List RegRow :=
  [ { off := 0x40, w1c := 0x1FE },  -- STORE_FLAGS
    { off := 0x80, rw := 0x1, l := 0x1, o := 0x1 },  -- STORE_MODE
    { off := 0x84, rw := 0x7FF, s := 0x7FF, l := 0x7FF },  -- STORE_TOP
    { off := 0x88, rw := 0xFFFF, s := 0xFFFF, rst := 0x64 },  -- WCB_FLUSH_US
    { off := 0x8C },  -- WCB_USED
    { off := 0x90, hi := 0x94 },  -- FAIL_ADDR_LO
    { off := 0x94 },  -- FAIL_ADDR_HI
    { off := 0x98 },  -- FAIL_INFO
    { off := 0xC0, rw := 0xFFFFFFFF, hi := 0xC4 },  -- HSW_ADDR_LO
    { off := 0xC4, rw := 0xFF } ]  -- HSW_ADDR_HI

/-- Registers of STORE (R243, R244, R249, R254, R255, R263), part 1. -/
def rowsStore1 : List RegRow :=
  [ { off := 0xC8, rw := 0xFFFFFFFF, hi := 0xCC },  -- HSW_MASK_LO
    { off := 0xCC, rw := 0xFFFFFFFF },  -- HSW_MASK_HI
    { off := 0xD0, wo := 0xFFFFFFFF },  -- STORE_CMD
    { off := 0xD4, rst := 0xFF000000 },  -- STORE_RESULT
    { off := 0x100, n := 16, step := 4, rw := 0xFFFFFFFF },  -- HSW_DATA
    { off := 0x200, n := 16, step := 16, rw := 0xFFFFFFF, s := 0xFFFFFFF, l := 0xFFFFFFF },  -- RNG_BASE
    { off := 0x204, n := 16, step := 16, rw := 0xFFFFFFF, s := 0xFFFFFFF, l := 0xFFFFFFF },  -- RNG_LIMIT
    { off := 0x208, n := 16, step := 16, rw := 0x1, s := 0x1, l := 0x1 } ]  -- RNG_CFG

/-- All registers of STORE above the header. -/
def rowsStore : List RegRow := rowsStore0 ++ rowsStore1

/-- Registers of MARCH (R261, R264), part 0. -/
def rowsMarch0 : List RegRow :=
  [ { off := 0x40, w1c := 0xE },  -- MARCH_FLAGS
    { off := 0x80, rw := 0xFFF },  -- MARCH_TGT
    { off := 0x84, rw := 0xFFFFFFFF, hi := 0x88 },  -- MARCH_FIRST_LO
    { off := 0x88, rw := 0xFF },  -- MARCH_FIRST_HI
    { off := 0x8C, rw := 0xFFFFFFFF, hi := 0x90 },  -- MARCH_LAST_LO
    { off := 0x90, rw := 0xFF },  -- MARCH_LAST_HI
    { off := 0x94, rw := 0x3F, rst := 0x14 },  -- MARCH_RATE
    { off := 0x98, wo := 0xFF },  -- MARCH_CMD
    { off := 0x9C, rst := 0xFF000000 },  -- MARCH_RESULT
    { off := 0xA0, hi := 0xA4 } ]  -- MARCH_BOUND_LO

/-- Registers of MARCH (R261, R264), part 1. -/
def rowsMarch1 : List RegRow :=
  [ { off := 0xA4 },  -- MARCH_BOUND_HI
    { off := 0xA8, hi := 0xAC },  -- MARCH_HWM_LO
    { off := 0xAC },  -- MARCH_HWM_HI
    { off := 0xB0 } ]  -- MARCH_STATE

/-- All registers of MARCH above the header. -/
def rowsMarch : List RegRow := rowsMarch0 ++ rowsMarch1

/-- Registers of PERF (R371, R388). -/
def rowsPerf : List RegRow :=
  [ { off := 0x40, w1c := 0x1 },  -- PERF_FLAGS
    { off := 0x80, rw := 0xFFFFF, s := 0xFFFFF, rst := 0x3E8 },  -- BW_WINDOW
    { off := 0x84, rw := 0x1 },  -- BW_CTL
    { off := 0x88 },  -- BW_SEQ
    { off := 0x100, n := 32, step := 4 } ]  -- BW_PORT

/-- Registers of BYP (R370). -/
def rowsByp : List RegRow :=
  [ { off := 0x40, w1c := 0x6 },  -- BYP_FLAGS
    { off := 0x80, rw := 0xFF },  -- BYP_SEL
    { off := 0x84, n := 4, step := 4, rw := 0xFFFFFFFF },  -- BYP_DATA
    { off := 0x94, s := 0x1, l := 0x1, w1s := 0x1 },  -- BYP_WR
    { off := 0x98 } ]  -- BYP_CNT

/-- Registers of LEG (R275). -/
def rowsLeg : List RegRow :=
  [ { off := 0x40, w1c := 0x1 },  -- LEG_FLAGS
    { off := 0x80, rw := 0xFFFFFFFF, s := 0xFFFFFFFF },  -- LEG_PORTS
    { off := 0x84, rw := 0x7FF, s := 0x7FF, rst := 0x7D0 } ]  -- LEG_MAXLEN

/-- Registers of PORT (R86, R115, R364, R367), part 0. -/
def rowsPort0 : List RegRow :=
  [ { off := 0x40, w1c := 0x3FFE },  -- PORT_FLAGS
    { off := 0x44, w1c := 0x72 },  -- PORT_BFLAGS
    { off := 0x80, rw := 0x107, s := 0x107, q := 0x7 },  -- PORT_CFG
    { off := 0x84, rw := 0x7FFF007F, s := 0x7FFF007F, rst := 0x40000004 },  -- PORT_MTU
    { off := 0x88, rw := 0x13, s := 0x13, rst := 0x2 },  -- PORT_RXCFG
    { off := 0x8C, rw := 0xFFFF, s := 0xFFFF, rst := 0x3E8 },  -- CATCH_RATE
    { off := 0x90, rw := 0x1FFFF, s := 0x1FFFF, rst := 0x3E8 },  -- CATCH_HOLD
    { off := 0x94, rw := 0xFFF, s := 0xFFF, rst := 0x1 },  -- CATCH_AGE
    { off := 0x98 },  -- PORT_LINK
    { off := 0xA0, rw := 0x7F } ]  -- PCNT_SEL

/-- Registers of PORT (R86, R115, R364, R367), part 1. -/
def rowsPort1 : List RegRow :=
  [ { off := 0xA4, hi := 0xA8 },  -- PCNT_LO
    { off := 0xA8 },  -- PCNT_HI
    { off := 0xAC, w1s := 0x3 } ]  -- PCNT_CLR

/-- All registers of PORT above the header. -/
def rowsPort : List RegRow := rowsPort0 ++ rowsPort1

/-- Registers of SLICE (R133, R138, R139, R368, R369). -/
def rowsSlice : List RegRow :=
  [ { off := 0x40, w1c := 0x17 },  -- SLICE_FLAGS
    { off := 0x80, rw := 0x1, w1s := 0x4, wo := 0x2 },  -- SL_CTL
    { off := 0x84 },  -- SL_STATE
    { off := 0x88, rw := 0xF, rst := 0x3 },  -- REPAIR_BUDGET
    { off := 0x8C, rst := 0xFF },  -- SL_INFO
    { off := 0x100, rw := 0x1F001F, s := 0x1F001F, rst := 0x100010 },  -- SPARE_MIN
    { off := 0x104, rw := 0x3F3F3F3F, s := 0x3F3F3F3F, rst := 0x27261312 },  -- EXP_RSV
    { off := 0x108, rw := 0x1FFFF, s := 0x1FFFF, rst := 0x3E8 },  -- RESEED_PER
    { off := 0x10C, rw := 0x7F, s := 0x7F, rst := 0x50 } ]  -- ROT_PERIOD

/-- Registers of EVC (R372, R384, R385). -/
def rowsEvc : List RegRow :=
  [ { off := 0x40, w1c := 0x6 },  -- EVC_FLAGS
    { off := 0x80, n := 2, step := 4, w1c := 0xFFFFFFFF },  -- EVC_WRAP
    { off := 0x88, n := 2, step := 4, rw := 0xFFFFFFFF },  -- EVC_MODE
    { off := 0x90, hi := 0x94 },  -- EVC_CAP_LO
    { off := 0x94 },  -- EVC_CAP_HI
    { off := 0x100, n := 64, step := 8, rw := 0xFFFFFFFF, hi := 0x104 },  -- EVC_LO
    { off := 0x104, n := 64, step := 8, rw := 0xFFFF } ]  -- EVC_HI

/-- The page of a page number; none where there is no page (R361). -/
def pageOf (p : Nat) : Option Page :=
  if p < 16 then
    [Page.glb, .ao, .sec, .pwr, .time, .flt, .pair, .lease, .saw, .keyw, .pager, .store, .march, .perf, .byp, .leg][p]?
  else if p < 0x30 then some (.port (p - 0x10))
  else if p < 0x58 then some (.slice (p - 0x30))
  else if 0x60 ≤ p ∧ p < 0x68 then some (.evc (p - 0x60))
  else none

/-- The page number of a page (R361). -/
def Page.num : Page → Nat
  | .glb => 0 | .ao => 1 | .sec => 2 | .pwr => 3 | .time => 4 | .flt => 5 | .pair => 6 | .lease => 7 | .saw => 8
  | .keyw => 9 | .pager => 10 | .store => 11 | .march => 12 | .perf => 13 | .byp => 14 | .leg => 15
  | .port n => 0x10 + n | .slice n => 0x30 + n | .evc n => 0x60 + n

/-- TYPE of PG_ID (R343). -/
def Page.type : Page → Nat
  | .port _ => 0x20 | .slice _ => 0x30 | .evc _ => 0x40
  | p => p.num + 1

/-- INST of PG_ID (R343). -/
def Page.inst : Page → Nat
  | .port n => n | .slice n => n | .evc n => n
  | _ => 0

/-- The partition of a page (R23, R361). -/
def Page.part : Page → Part
  | .ao | .pwr | .time | .flt => .ao
  | .pair => .pair | .lease => .lease | .sec | .keyw => .sec
  | .pager => .pager | .store => .store | .march => .march
  | .port n => .port (Fin.ofNat 32 n) | .slice n => .slice (Fin.ofNat 40 n)
  | .glb | .saw | .perf | .byp | .leg | .evc _ => .glob

/-- Pages whose every write is posted to CK_AO (R348). -/
def Page.aoPosted : Page → Bool
  | .ao | .pwr | .time | .flt | .pair => true
  | _ => false

/-- The domain of a page (R282). -/
def Page.dom : Page → Nat
  | .sec | .keyw => 1 | .port _ => 3 | .slice n => 4 + n | .store | .march => 45
  | .ao | .pwr | .time | .flt | .pair => 0
  | _ => 2

/-- All pages that exist, by page number. -/
def allPages : List Page := (List.range 0x68).filterMap pageOf

/-- The registers of a page above its header. CATCH_AGE stands in PORT 0 only, and the global slice settings in SLICE 0
only (R364, R368). -/
def rowsOf : Page → List RegRow
  | .glb => rowsGlb | .ao => rowsAo | .sec => rowsSec | .pwr => rowsPwr | .time => rowsTime | .flt => rowsFlt
  | .pair => rowsPair | .lease => rowsLease | .saw => rowsSaw | .keyw => rowsKeyw | .pager => rowsPager
  | .store => rowsStore | .march => rowsMarch | .perf => rowsPerf | .byp => rowsByp | .leg => rowsLeg
  | .port n => if n = 0 then rowsPort else rowsPort.filter (fun r => r.off ≠ 0x094)
  | .slice n => if n = 0 then rowsSlice else rowsSlice.filter (fun r => r.off < 0x100)
  | .evc _ => rowsEvc

/-- Whether a row covers an offset. -/
def RegRow.covers (r : RegRow) (off : Nat) : Bool :=
  r.off ≤ off && (off - r.off) % r.step == 0 && decide ((off - r.off) / r.step < r.n)

/-- The register at an offset of a page, if one is implemented there (R342). -/
def rowAt (p : Page) (off : Nat) : Option RegRow :=
  (rowsHdr ++ rowsOf p).find? (fun r => r.covers off)

/-- The page and offset of a byte address in the direct pages. -/
def addrPage (a : Nat) : Option Page := if a < 0x100000 then pageOf (a / 0x1000) else none

/-- The reset value of a register by its address (R344, R361), 0 where none is implemented. -/
def regReset (a : Nat) : W32 :=
  match addrPage a with
  | none => 0
  | some p => match rowAt p (a % 0x1000) with
    | none => 0
    | some r => r.rst

/-- Byte address of an offset of a page. -/
def Page.at (p : Page) (off : Nat) : Nat := p.num * 0x1000 + off

end Sys2Proof.Machine
end

