-- ==== Sys2Proof/Machine/Ops.lean ====
section
/-! DEFINITION. The named operations over State that every meaning shares: one updater for each part of the state,
register values, page headers and flags, event counters, port counters, counted outcomes, fault events and outputs. -/
namespace Sys2Proof.Machine

/-! ### One updater for each part -/

/-- Change the recovery sequencer, security core and time. -/
def State.modSys (s : State) (f : Sys → Sys) : State := { s with sys := f s.sys }
/-- Change the register files. -/
def State.modRegs (s : State) (f : Regs → Regs) : State := { s with regs := f s.regs }
/-- Change the datapath. -/
def State.modDp (s : State) (f : Dp → Dp) : State := { s with dp := f s.dp }
/-- Change the slices. -/
def State.modSlices (s : State) (f : Slices → Slices) : State := { s with slices := f s.slices }
/-- Change the channel tables and the vault. -/
def State.modCh (s : State) (f : Chans → Chans) : State := { s with ch := f s.ch }
/-- Change the lease unit. -/
def State.modLease (s : State) (f : Lease → Lease) : State := { s with lease := f s.lease }
/-- Change the pager. -/
def State.modPager (s : State) (f : Pager → Pager) : State := { s with pager := f s.pager }
/-- Change KEYX. -/
def State.modKeyx (s : State) (f : Keyx → Keyx) : State := { s with keyx := f s.keyx }
/-- Change the store engine. -/
def State.modStore (s : State) (f : Store → Store) : State := { s with store := f s.store }
/-- Change the counters. -/
def State.modCnt (s : State) (f : Counts → Counts) : State := { s with cnt := f s.cnt }
/-- Change the governor. -/
def State.modPwr (s : State) (f : Pwr → Pwr) : State := { s with pwr := f s.pwr }
/-- Change the fault aggregator. -/
def State.modFlt (s : State) (f : Faults → Faults) : State := { s with flt := f s.flt }
/-- Change the pair engine. -/
def State.modPair (s : State) (f : Pair → Pair) : State := { s with pair := f s.pair }
/-- Drive one output. [DESIGN CHOICE: log 6] -/
def State.emit (s : State) (e : Emit) : State := { s with out := s.out ++ [e] }
/-- A command begins: nothing has been driven yet. [DESIGN CHOICE: log 6] -/
def State.begin (s : State) : State := { s with out := [] }
/-- Draw the next free value (assumption 1). [DESIGN CHOICE: log 1] -/
def State.draw (s : State) : State := { s with freeCtr := s.freeCtr + 1 }
/-- Do something only when a condition holds. -/
def State.when (s : State) (c : Bool) (f : State → State) : State := if c then f s else s
/-- Do something for each item of a list, in order. -/
def State.forEach {α : Type} (s : State) (l : List α) (f : State → α → State) : State := l.foldl f s

/-! ### Registers -/

/-- The value in force of a configuration register; a register whose parity has failed acts as its reset value
(R299, R355). -/
def State.cfg (s : State) (p : Page) (off : Nat) : W32 :=
  let a := p.at off
  if a ∈ s.regs.parBad then regReset a else Tab.get (regReset a) s.regs.cfg a
/-- The staged copy of a register, which a read returns (R349). -/
def State.stg (s : State) (p : Page) (off : Nat) : W32 :=
  let a := p.at off
  if a ∈ s.regs.parBad then regReset a else Tab.get (regReset a) s.regs.staged a
/-- The stored value of a result register. -/
def State.roW (s : State) (p : Page) (off : Nat) : W32 :=
  let a := p.at off
  Tab.get (regReset a) s.regs.ro a
/-- The W1C flag bits that are set at an offset of a page. -/
def State.stickyW (s : State) (p : Page) (off : Nat) : W32 := Tab.get 0 s.regs.sticky (p.at off)

/-- Set the value in force; a write restores a register whose parity has failed (R299). -/
def Regs.setCfg (r : Regs) (a : Nat) (v : W32) : Regs :=
  { r with cfg := Tab.set (regReset a) r.cfg a v, parBad := delNat r.parBad a }
/-- Set the staged copy. -/
def Regs.setStaged (r : Regs) (a : Nat) (v : W32) : Regs :=
  { r with staged := Tab.set (regReset a) r.staged a v, parBad := delNat r.parBad a }
/-- Set a result register. -/
def Regs.setRo (r : Regs) (a : Nat) (v : W32) : Regs := { r with ro := Tab.set (regReset a) r.ro a v }
/-- Set the W1C bits of a flag register. -/
def Regs.setSticky (r : Regs) (a : Nat) (v : W32) : Regs := { r with sticky := Tab.set 0 r.sticky a v }
/-- Set a HI latch. -/
def Regs.setLatch (r : Regs) (a : Nat) (v : W32) : Regs := { r with latch := Tab.set 0 r.latch a v }
/-- Set a held LO value. -/
def Regs.setHeld (r : Regs) (a : Nat) (v : W32) : Regs := { r with held := Tab.ins r.held a v }
/-- Use up a held LO value. -/
def Regs.dropHeld (r : Regs) (a : Nat) : Regs := { r with held := Tab.del r.held a }

/-- Write a configuration register that is not staged. -/
def State.setCfg (s : State) (p : Page) (off : Nat) (v : W32) : State := s.modRegs (·.setCfg (p.at off) v)
/-- Write the staged copy of a register. -/
def State.setStaged (s : State) (p : Page) (off : Nat) (v : W32) : State := s.modRegs (·.setStaged (p.at off) v)
/-- Set a result register. -/
def State.setRo (s : State) (p : Page) (off : Nat) (v : W32) : State := s.modRegs (·.setRo (p.at off) v)
/-- Set W1C bits of a flag register. -/
def State.setFlags (s : State) (p : Page) (off : Nat) (m : W32) : State :=
  s.modRegs (fun r => r.setSticky (p.at off) (Tab.get 0 r.sticky (p.at off) ||| m))
/-- Set one W1C flag. -/
def State.setFlag (s : State) (p : Page) (off n : Nat) : State := s.setFlags p off (1#32 <<< n)
/-- Clear W1C bits of a flag register. -/
def State.clearFlags (s : State) (p : Page) (off : Nat) (m : W32) : State :=
  s.modRegs (fun r => r.setSticky (p.at off) (Tab.get 0 r.sticky (p.at off) &&& ~~~m))
/-- Whether a W1C flag is set. -/
def State.flag (s : State) (p : Page) (off n : Nat) : Bool := bit (s.stickyW p off) n

/-- The header of a page. -/
def State.hdr (s : State) (p : Page) : Hdr := Tab.get {} s.regs.hdr p.num
/-- Change the header of a page. -/
def State.modHdr (s : State) (p : Page) (f : Hdr → Hdr) : State :=
  s.modRegs (fun r => { r with hdr := Tab.modify {} r.hdr p.num f })
/-- Count an applied change of configuration (R350); the digest that covers it has changed (R357, R358). -/
def State.bumpEpoch (s : State) (p : Page) : State :=
  (s.modHdr p (fun h => { h with epoch := h.epoch + 1 })).modRegs (fun r => { r with digestStale := true })

/-! ### Event counters -/

/-- Gather occurrences of an event in the accumulator of its counter (R383). -/
def State.evt (s : State) (n k : Nat) : State :=
  s.modCnt (fun c => { c with acc := Tab.modify 0 c.acc n (· + k) })
/-- Gather one occurrence of an event tied to a frame: its CHIX, port and direction (R385). -/
def State.evtF (s : State) (n : Nat) (who : Option Nat × Nat × Dir) : State :=
  (s.evt n 1).modCnt (fun c => { c with occs := Tab.modify [] c.occs n (· ++ [who]) })
/-- Set WR_COLLIDE of a page and count it (R344, R348). -/
def State.collide (s : State) (p : Page) : State :=
  (s.modHdr p (fun h => { h with wrCollide := true })).evt 113 1
/-- Set LOCK_VIOL of a page and count it (R353). -/
def State.lockViol (s : State) (p : Page) : State :=
  (s.modHdr p (fun h => { h with lockViol := true })).evt 112 1
/-- Set ACCESS_ERR of a page and count it (R39). -/
def State.accessErr (s : State) (p : Page) : State :=
  (s.modHdr p (fun h => { h with accessErr := true })).evt 114 1
/-- Set POISON of a page (R344). -/
def State.poison (s : State) (p : Page) : State := s.modHdr p (fun h => { h with poison := true })

/-! ### Port counters -/

/-- Key of a direction, port and class. -/
def chanKey (d : Dir) (port : Nat) (cls : Bool) : Nat :=
  ((if d = .egress then 0 else 32) + port) * 2 + b2n cls
/-- Add to a port counter, modulo 2^48 (R367). -/
def State.portAdd (s : State) (port idx k : Nat) : State :=
  s.modCnt (fun c => { c with port := Tab.modify 0 c.port (port * 128 + idx) (· + BitVec.ofNat 48 k) })
/-- Count one frame on a port counter. -/
def State.portCount (s : State) (port idx : Nat) : State := s.portAdd port idx 1
/-- Set a W1C bit of PORT_FLAGS. -/
def State.portFlag (s : State) (port n : Nat) : State := s.setFlag (.port port) 0x40 n
/-- Set a W1C bit of PORT_BFLAGS. -/
def State.portBFlag (s : State) (port n : Nat) : State := s.setFlag (.port port) 0x44 n
/-- Hand a counted outcome to the counter tree (R379). -/
def State.outcome (s : State) (chix : Nat) (incs : List (Nat × Nat)) : State :=
  s.modCnt (fun c => { c with queue := c.queue ++ [{ chix := chix, incs := incs }] })

/-! ### Fault events -/

/-- Class and ALARM of a detector (R297); 7 stands for no detector. -/
def detClass (det : Nat) : Nat × Bool :=
  if det = 7 ∨ det = 0x0A then (1, false)
  else if 1 ≤ det ∧ det ≤ 9 then (2, false)
  else if 0x10 ≤ det ∧ det ≤ 0x13 then (3, false)
  else if det = 0x14 ∨ det = 0x16 then (1, false)
  else if det = 0x15 then (2, false)
  else if det = 0x18 ∨ det = 0x20 then (0, false)
  else if det = 0x21 then (1, false)
  else if det = 0x22 ∨ det = 0x23 ∨ det = 0x29 ∨ det = 0x36 then (1, true)
  else if det = 0x28 ∨ det = 0x2B ∨ det = 0x2D ∨ det = 0x30 ∨ det = 0x32 then (1, false)
  else if det = 0x2C ∨ det = 0x31 ∨ det = 0x39 ∨ det = 0x3C ∨ det = 0x3D ∨ det = 0x46 then (2, false)
  else if 0x33 ≤ det ∧ det ≤ 0x35 then (3, false)
  else if det = 0x37 ∨ det = 0x38 ∨ det = 0x45 ∨ det = 0x47 then (1, false)
  else if 0x40 ≤ det ∧ det ≤ 0x43 then (3, false)
  else if det = 0x50 then (4, true)
  else (7, false)

/-- Whether a detector has an instance (R297, R304). -/
def instExists (det inst : Nat) : Bool :=
  if 1 ≤ det ∧ det ≤ 0x0A then decide (inst < 40)
  else if 0x10 ≤ det ∧ det ≤ 0x16 then decide (inst < 32)
  else if det = 0x18 then decide (inst < 2)
  else if det = 0x20 ∨ det = 0x21 ∨ det = 0x41 ∨ det = 0x42 then decide (inst < 54)
  else if det = 0x46 then decide (inst < 54) && !(decide (4 ≤ inst) && decide (inst < 44))
  else if det = 0x22 ∨ det = 0x23 then decide (inst = 1)
  else if det = 0x28 ∨ det = 0x29 then decide (inst < 512)
  else if det = 0x2C then decide (inst < 2)
  else if det = 0x30 then decide (inst < 4)
  else if det = 0x32 then decide (inst < 256)
  else if det = 0x36 ∨ det = 0x43 then decide (inst < 3)
  else if det = 0x37 then decide (inst < 7)
  else if det = 0x45 then (pageOf inst).isSome && !(decide (0x30 ≤ inst) && decide (inst < 0x58))
  else if det = 0x47 then decide (1 ≤ inst ∧ inst ≤ 7)
  else if det = 0x50 then decide (inst < 5)
  else decide ((detClass det).1 ≠ 7 ∧ inst = 0)

/-- The page whose PG_FAULT_EN masks the record of a unit in a domain (R303). [DEDUCED: log 78] -/
def domainPage (dom : Nat) : Page :=
  if dom = 0 then .ao else if dom = 1 ∨ dom = 44 then .sec
  else if 4 ≤ dom ∧ dom < 44 then .slice (dom - 4) else if dom = 45 then .store else .glb

/-- The page that owns a detecting unit (R303). [DEDUCED: log 78] -/
def detPage (det inst : Nat) : Page :=
  if det ≤ 0x0A then .slice inst
  else if det ≤ 0x16 then .port inst
  else if det = 0x18 then .glb
  else if det = 0x20 ∨ det = 0x21 then domainPage inst
  else if det = 0x22 ∨ det = 0x23 then .sec
  else if det ≤ 0x2C then .store
  else if det = 0x2D ∨ det = 0x3C then .pager
  else if det = 0x37 ∧ (inst = 4 ∨ inst = 5) then .store
  else if det ≤ 0x37 then .sec
  else if det = 0x38 ∨ det = 0x39 then .lease
  else if det = 0x3D then .march
  else if det = 0x41 ∨ det = 0x42 then .pwr
  else if det = 0x45 then (pageOf inst).getD .glb
  else if det = 0x46 then .pwr
  else if det = 0x47 ∨ det = 0x50 then .flt
  else .ao

/-- One detection: it is counted at its source and its event is queued for the aggregator; an event that finds 16
waiting from its source is lost (R297, R302). -/
def State.detectAs (s : State) (inj : Bool) (det inst : Nat) (infoA infoB : W32) : State :=
  let p := detPage det inst
  let e : FEvent :=
    { cls := BitVec.ofNat 3 (detClass det).1, alarm := (detClass det).2, det := BitVec.ofNat 8 det,
      inst := BitVec.ofNat 9 inst, inj := inj, infoA := infoA, infoB := infoB, page := p.num,
      at_ := s.sys.tmA }
  let s := s.evt (det - 1) 1
  if (s.flt.queue.filter (fun x => x.page = p.num)).length < 16 then
    s.modFlt (fun f => { f with queue := f.queue ++ [e] })
  else s.setFlag .flt 0x40 3

/-- A detection that no injection made. -/
def State.detect (s : State) (det inst : Nat) (infoA infoB : W32) : State := s.detectAs false det inst infoA infoB
/-- A detection without further information. -/
def State.detect0 (s : State) (det inst : Nat) : State := s.detect det inst 0 0
/-- INFO_A of detectors 0x10 to 0x16 (R301): lane and class. -/
def laneInfo (lane : Nat) (cls : Bool) : W32 := BitVec.ofNat 32 lane ||| atBit cls 8
/-- INFO_B with a CHIX, when the frame has one. -/
def chixInfo (valid : Bool) (chix : Nat) : W32 :=
  if valid then atBit true 24 ||| BitVec.ofNat 32 (chix % 2 ^ 20) else 0

/-- Whether a partition is held (R307). -/
def State.held (s : State) (p : Part) : Bool := decide (p ∈ s.flt.held)
/-- Whether a reset of a partition is in progress (R308). -/
def State.resetOn (s : State) (p : Part) : Bool := decide (p ∈ s.regs.resetting)
/-- ALARM_N is asserted (R57, R301). [DESIGN CHOICE: log 6] -/
def State.alarm (s : State) : Bool :=
  s.flt.alarmHard || s.flt.alarmOvf || s.flt.recs.any (fun e => match e.2 with | some r => r.ev.alarm | none => false)

end Sys2Proof.Machine
end

