-- ==== Sys2Proof/Machine/Digest.lean ====
section
/-! DEFINITION. Page digests and the digest of all pages (R343, R357, R358). -/
namespace Sys2Proof.Machine

/-- PG_ID of a page. -/
def Page.id (p : Page) : W32 := atPos p.type 24 ||| atPos p.inst 16 ||| 1
/-- The fields of a register that enter the digest: RW with S, L or O. -/
def RegRow.digestMask (r : RegRow) : W32 := r.rw &&& (r.s ||| r.l ||| r.o)
/-- Offsets and masks of the registers that a page's digest covers, in increasing offset order. -/
def Page.covered (p : Page) : List (Nat × W32) :=
  ((rowsOf p).flatMap (fun r =>
    if r.digestMask = 0 then [] else (List.range r.n).map (fun i => (r.off + i * r.step, r.digestMask)))).insertionSort
      (fun a b => a.1 ≤ b.1)
/-- The bypass policy entries in force, as bytes. -/
def State.bypBytes (s : State) : Bytes :=
  ((List.range 256).map (fun n => leBytes 16 (Tab.get 0 s.dp.byp n).toNat)).flatten
/-- The string that a page's digest is taken over. [DEDUCED: log 33] -/
def State.digestString (s : State) (p : Page) : Bytes :=
  (p.covered.map (fun q => leBytes 4 ((s.cfg p q.1 &&& q.2)).toNat)).flatten ++ (if p = .byp then s.bypBytes else [])
/-- PG_DIGEST of a page. [DEDUCED: log 33] -/
def State.pageDigest (s : State) (p : Page) : W64 := crc64 (s.digestString p)
/-- The digest over all pages. -/
def State.glbDigestNow (s : State) : W64 :=
  crc64 ((allPages.map (fun p => leBytes 4 p.id.toNat ++ leBytes 8 (s.pageDigest p).toNat)).flatten)

end Sys2Proof.Machine
end

