-- ==== Sys2Proof/Machine/Gate.lean ====
section
/-! DEFINITION. What admits a register write: the interface, the partition reset, BUSY, the lock, the one write of an O
field, and a pending commit (R39, R308, R342, R344, R345, R348, R350, R353, R354, R373, R390). -/
namespace Sys2Proof.Machine

/-- CP_ is enabled (R390). [DEDUCED: log 16] -/
def State.cpUp (s : State) : Bool := decide (4 ≤ s.sys.phase)
/-- The response of a write on CP_. -/
def State.answer (s : State) (err : Bool) : State := (s.emit (.cpDone err)).when err (·.evt 117 1)
/-- The response of a read on CP_. -/
def State.answerRead (s : State) (err : Bool) (w : W32) : State := (s.emit (.cpData err w)).when err (·.evt 117 1)
/-- A posted write or command is being applied. [DEDUCED: log 32] -/
def State.setBusy (s : State) (p : Page) (b : Bool) : State := s.modHdr p (fun h => { h with busy := b })
/-- Lock or unlock a page. -/
def State.setUnlocked (s : State) (p : Page) (b : Bool) : State := s.modHdr p (fun h => { h with unlocked := b })
/-- What becomes of a write. -/
inductive Gate where
  /-- No register is implemented there. -/
  | absent
  /-- The access code gives it no effect. -/
  | ignored
  | collide
  | lockViol
  /-- An O field that has been written: a violation that ends the unlock. -/
  | onceViol
  /-- A staged field while a commit is pending; `l` states that the unlock is used up (R373). -/
  | pending (l : Bool)
  | ok (l : Bool)
  deriving DecidableEq, Repr
/-- A write of a value to a register without effect by its access code (R345). [DEDUCED: log 34] -/
def RegRow.inert (r : RegRow) (data : W32) : Bool :=
  decide (r.rw = 0) && decide (r.wo = 0) && decide (data &&& (r.w1c ||| r.w1s) = 0)
/-- Judge a write. -/
def State.gate (s : State) (p : Page) (off : Nat) (data : W32) : Gate :=
  let h := s.hdr p
  match rowAt p off with
  | none => .absent
  | some r =>
    if s.resetOn p.part && decide (off ≠ 0x0C) then .collide
    else if h.busy && decide (off ≠ 0x0C) && !(decide (off = 0x1C) && h.unlocked) then .collide
    else if r.inert data then .ignored
    else if decide (r.l ≠ 0) && !h.unlocked then .lockViol
    else if decide (r.o ≠ 0) && decide (p.at off ∈ s.regs.once) then .onceViol
    else if decide (r.s ≠ 0) && h.pending then .pending (decide (r.l ≠ 0))
    else .ok (decide (r.l ≠ 0))
/-- The one write of an O register is used up. -/
def State.useOnce (s : State) (p : Page) (off : Nat) : State :=
  match rowAt p off with
  | some r => if r.o = 0 then s else s.modRegs (fun g => { g with once := insNat g.once (p.at off) })
  | none => s
/-- A write that has reached its page, without the response: `uses` states whether it uses up an O field.
[DEDUCED: log 16] -/
def State.gated (s : State) (p : Page) (off : Nat) (data : W32) (uses : Bool) (act : State → State) : State :=
  let post := fun (s : State) => s.when p.aoPosted (·.setBusy p true)
  match s.gate p off data with
  | .absent => s
  | .ignored => post s
  | .collide => s.collide p
  | .lockViol => post (s.lockViol p)
  | .onceViol => post ((s.setUnlocked p false).lockViol p)
  | .pending l => (s.when l (·.setUnlocked p false)).collide p
  | .ok l => post (act ((s.when l (·.setUnlocked p false)).when uses (·.useOnce p off)))
/-- A 4 B write to a register of a page, with its response. [DEDUCED: log 16] -/
def State.through (s : State) (p : Page) (off : Nat) (data : W32) (act : State → State) : State :=
  if s.cpUp then (s.answer false).gated p off data true act else s

end Sys2Proof.Machine
end

