-- ==== Sys2Proof/Machine/Operands.lean ====
section
/-! DEFINITION. The operand forms: fields of command words, of the channel image, and of the configuration registers
with the limits at which they act. -/
namespace Sys2Proof.Machine

/-! ### Command words -/

/-- OPCODE of a window command (R166, R199, R254). [DESIGN CHOICE: log 68] -/
def cmdOp (c : W32) : Nat := fld c 7 0
/-- CHIX of a SAW, KEYW or LEASE command. -/
def cmdChix (c : W32) : Nat := fld c 27 8
/-- SLOT of KEYW_CMD, DISCARD of SAW_CMD, ZKEEP of STORE_CMD: bit 28. -/
def cmdB28 (c : W32) : Bool := bit c 28
/-- SEL of STORE_CMD. -/
def cmdSel (c : W32) : Nat := fld c 27 16
/-- A command word with its opcode replaced. [DESIGN CHOICE: log 68] -/
def withOp (c : W32) (op : Nat) : W32 := mergeBits 0xFF (BitVec.ofNat 32 op) c

/-! ### Channel image (R143) -/

/-- EN. -/
def cEn (w : W32) : Bool := bit w 31
/-- DIR: receive. -/
def cRx (w : W32) : Bool := bit w 30
/-- CLASS: express. -/
def cExpress (w : W32) : Bool := bit w 29
/-- PORT. -/
def cPort (w : W32) : Nat := fld w 28 24
/-- SUITE. -/
def cSuite (w : W32) : Nat := fld w 23 21
/-- CONF. -/
def cConf (w : W32) : Bool := bit w 20
/-- OFFSET code. -/
def cOffset (w : W32) : Nat := fld w 19 18
/-- SC_INC. -/
def cScInc (w : W32) : Bool := bit w 17
/-- ES. -/
def cEs (w : W32) : Bool := bit w 16
/-- CLEAR_TAGS. -/
def cClear (w : W32) : Nat := fld w 15 14
/-- VALIDATE. -/
def cValidate (w : W32) : Nat := fld w 13 12
/-- REPLAY_PROTECT. -/
def cReplay (w : W32) : Bool := bit w 11
/-- VERIFY_FIRST. -/
def cVerifyFirst (w : W32) : Bool := bit w 10
/-- ACTIVE: slot B. -/
def cActive (w : W32) : Bool := bit w 8
/-- An image with ACTIVE set. -/
def withActive (w : W32) (b : Bool) : W32 := mergeBits 0x100 (atBit b 8) w
/-- The suite uses extended packet numbers. -/
def suiteXpn (n : Nat) : Bool := n == 2 || n == 3
/-- The suite is the T10 container. -/
def suiteT10 (n : Nat) : Bool := n == 4
/-- The cap of the PN space (R176). -/
def pnCap (w : W32) : Nat := if suiteXpn (cSuite w) then 0xFFFFFFFFFFFF0000 else 0x100000000
/-- Key length of a key length code (R159). -/
def klcKey (k : Nat) : Nat := if k = 1 ∨ k = 5 then 16 else 32
/-- A key length code is defined. -/
def klcDefined (k : Nat) : Bool := k == 1 || k == 2 || k == 5 || k == 6
/-- A key length code carries a salt. -/
def klcSalt (k : Nat) : Bool := k == 5 || k == 6
/-- Wrapped plaintext length of a key length code. -/
def klcPlain (k : Nat) : Nat := 8 + klcKey k + (if klcSalt k then 12 else 0)
/-- KWP output length of a key length code. -/
def klcWrap (k : Nat) : Nat := 8 * ceilDiv (klcPlain k) 8 + 8
/-- A key length code suits a suite (R159). -/
def klcSuits (k suite : Nat) : Bool :=
  (suite == 0 && k == 1) || (suite == 1 && k == 2) || (suite == 2 && k == 5) || (suite == 3 && k == 6) ||
  (suite == 4 && (k == 1 || k == 2))

/-! ### Lease settings (R199) -/

/-- L of CHUNK_LOG. -/
def State.chunkLog (s : State) : Nat := clamp 20 32 (fld (s.cfg .lease 0x80) 5 0)
/-- BLIND_CHUNKS. -/
def State.blindChunks (s : State) : Nat := min 1024 (fld (s.cfg .lease 0x84) 10 0)
/-- RETIRE_AT. -/
def State.retireAt (s : State) : Nat := (s.cfg .lease 0x88).toNat

/-! ### Key-change settings (R220) -/

/-- FORCE_LOG. -/
def State.forceLog (s : State) : Nat := clamp 16 30 (fld (s.cfg .glb 0x200) 4 0)

/-! ### Pager settings (R241) -/

/-- PAGE_BASE as a line number. -/
def State.pageBase (s : State) : Nat := fld (s.cfg .pager 0x80) 10 0 * 2 ^ 23
/-- PAGE_KIX. -/
def State.pageKix (s : State) : Nat := fld (s.cfg .pager 0x84) 11 0
/-- FREE_LOW_AT. -/
def State.freeLowAt (s : State) : Nat := fld (s.cfg .pager 0x88) 16 0
/-- PAGE_RETRY_US in CK_AO cycles. -/
def State.pageRetry (s : State) : Nat := fld (s.cfg .pager 0x8C) 15 0 * 50
/-- Line number of a record line (R224). -/
def State.recLine (s : State) (chix l : Nat) : Nat := s.pageBase + 8 * chix + l
/-- Line number of a trunk line (R377). -/
def State.trunkLine (s : State) (chix l : Nat) : Nat := s.pageBase + 0x800000 + 4 * chix + l

/-! ### Store settings (R243, R244, R263) -/

/-- LARGE of STORE_MODE. -/
def State.large (s : State) : Bool := bit (s.cfg .store 0x80) 0
/-- STORE_TOP as a line number. -/
def State.storeTop (s : State) : Nat := min 1024 (fld (s.cfg .store 0x84) 10 0) * 2 ^ 24
/-- First line of a range. -/
def State.rngFirst (s : State) (r : Nat) : Nat := fld (s.cfg .store (0x200 + 16 * r)) 27 0 * 64
/-- Last line of a range. -/
def State.rngLast (s : State) (r : Nat) : Nat := fld (s.cfg .store (0x204 + 16 * r)) 27 0 * 64 + 63
/-- EN of a range. -/
def State.rngEn (s : State) (r : Nat) : Bool := bit (s.cfg .store (0x208 + 16 * r)) 0
/-- The selector of a line in the small configuration: the number of the enabled range that contains it. -/
def State.rngOf (s : State) (line : Nat) : Option Nat :=
  (List.range 16).find? (fun r => s.rngEn r && decide (s.rngFirst r ≤ line) && decide (line ≤ s.rngLast r))
/-- The selector of a line for a requester's key index. -/
def State.selOf (s : State) (line kix : Nat) : Option Nat := if s.large then some kix else s.rngOf line

/-! ### Port settings (R364, R365) -/

/-- EN in force. -/
def State.portEn (s : State) (p : Nat) : Bool := bit (s.cfg (.port p) 0x80) 8
/-- Lane units of a LANES code. -/
def laneUnitsOf (code : Nat) : Nat := 2 ^ code
/-- Lane units of the port by the LANES in force. -/
def State.portLanes (s : State) (p : Nat) : Nat := laneUnitsOf (fld (s.cfg (.port p) 0x80) 2 0)
/-- BLK_MTU. -/
def State.blkMtu (s : State) (p : Nat) : Nat := clamp 64 16384 (fld (s.cfg (.port p) 0x84) 30 16)
/-- CT_DEPTH. -/
def State.ctDepth (s : State) (p : Nat) : Nat := clamp 1 64 (fld (s.cfg (.port p) 0x84) 6 0)
/-- RX_VALIDATE: 0 Disabled, 1 Check, 2 Strict. -/
def State.rxValidate (s : State) (p : Nat) : Nat := min 2 (fld (s.cfg (.port p) 0x88) 1 0)
/-- CATCH_EXCESS: PASS. -/
def State.catchPass (s : State) (p : Nat) : Bool := bit (s.cfg (.port p) 0x88) 4
/-- CATCH_RATE. [DEDUCED: log 49] -/
def State.catchRate (s : State) (p : Nat) : Nat := fld (s.cfg (.port p) 0x8C) 15 0
/-- CATCH_HOLD in nanoseconds. -/
def State.catchHold (s : State) (p : Nat) : Nat := clamp 10 100000 (fld (s.cfg (.port p) 0x90) 16 0) * 1000
/-- CATCH_AGE in nanoseconds. -/
def State.catchAge (s : State) : Nat := clamp 1 3600 (fld (s.cfg (.port 0) 0x94) 11 0) * 1000000000
/-- Ports whose EN in force is 1. -/
def State.portsOn (s : State) : List Nat := (List.range 32).filter s.portEn
/-- The enabled port that covers a lane unit. -/
def State.portOfLane (s : State) (lane : Nat) : Option Nat :=
  (List.range 32).find? (fun p => s.portEn p && decide (p ≤ lane) && decide (lane < p + s.portLanes p))

/-! ### Pair settings (R340) -/

/-- EN of PAIR_CFG in force. -/
def State.pairEn (s : State) : Bool := bit (s.cfg .pair 0x80) 0
/-- UNIT. -/
def State.pairUnit (s : State) : Nat := fld (s.cfg .pair 0x80) 1 1
/-- PRIMARY. -/
def State.pairPrimary (s : State) : Bool := bit (s.cfg .pair 0x80) 2
/-- TEST_ALL. -/
def State.testAll (s : State) : Bool := bit (s.cfg .pair 0x80) 3
/-- PAIR_KEK. -/
def State.pairKek (s : State) : Nat := fld (s.cfg .pair 0x80) 13 8
/-- ARB_KEK. -/
def State.arbKek (s : State) : Nat := fld (s.cfg .pair 0x80) 21 16

end Sys2Proof.Machine
end

