-- ==== Sys2Proof/Machine/Mirror.lean ====
section
/-! DEFINITION. The byte forms of schedules (R225, R319) and the items an active unit mirrors (R326). -/
namespace Sys2Proof.Machine

/-- Whole seconds of a time in nanoseconds. -/
def nsSec (t : Nat) : Nat := t / 1000000000
/-- Nanoseconds within the second. -/
def nsNs (t : Nat) : Nat := t % 1000000000
/-- A time from seconds and nanoseconds. -/
def mkNs (sec ns : Nat) : Nat := sec * 1000000000 + ns

/-- MODE code of an Equinox (R202). -/
def EqxMode.code : EqxMode → Nat
  | .time => 1 | .pn => 2 | .now => 3
/-- MODE code of a Solstice (R210). -/
def SolMode.code : SolMode → Nat
  | .time => 1 | .firstValid => 2 | .now => 3
/-- Byte EQX of R225 without the PINNED bit. -/
def eqxByte : Option Eqx → Nat
  | none => 0
  | some q => q.mode.code * 32 + b2n q.fromB * 16 + b2n q.defer * 8 + (if q.deferred then 4 else 2)
/-- EQX_VAL of R225. -/
def eqxVal : Option Eqx → Bytes
  | none => zeros 10
  | some q => match q.mode with
    | .time => beBytes 6 (nsSec q.val) ++ beBytes 4 (nsNs q.val)
    | .pn => beBytes 8 q.val ++ zeros 2
    | .now => zeros 10
/-- Byte SOL of R225. -/
def solByte : Option Sol → Nat
  | none => 0
  | some q => q.mode.code * 32 + b2n q.slotB * 16 + (if q.watch then 4 else 8)
/-- SOL_VAL of R225. -/
def solVal : Option Sol → Bytes
  | none => zeros 10
  | some q => if q.watch then zeros 6 ++ beBytes 4 q.val else beBytes 6 (nsSec q.val) ++ beBytes 4 (nsNs q.val)
/-- The Equinox that bytes EQX and EQX_VAL describe. -/
def eqxOf (b : Nat) (v : Bytes) : Option Eqx :=
  let st := b / 2 % 4
  if st = 0 then none
  else
    let m := b / 32 % 8
    let mode := if m = 1 then EqxMode.time else if m = 2 then .pn else .now
    let val := match mode with
      | .time => mkNs (ofBe (slice v 0 6)) (ofBe (slice v 6 4))
      | .pn => ofBe (slice v 0 8)
      | .now => 0
    some { mode := mode, fromB := b / 16 % 2 = 1, defer := b / 8 % 2 = 1, deferred := st = 2, val := val }
/-- The Solstice that bytes SOL and SOL_VAL describe. -/
def solOf (b : Nat) (v : Bytes) : Option Sol :=
  let st := b / 4 % 4
  if st = 0 then none
  else
    let m := b / 32 % 8
    let mode := if m = 1 then SolMode.time else if m = 2 then .firstValid else .now
    let val := if st = 1 then ofBe (slice v 6 4) else mkNs (ofBe (slice v 0 6)) (ofBe (slice v 6 4))
    some { mode := mode, slotB := b / 16 % 2 = 1, watch := st = 1, val := val }

/-! ### Items -/

/-- The unit mirrors: it is ACTIVE and a session is up. -/
def State.mirrors (s : State) : Bool := decide (s.pair.role = .active) && s.pair.session.isSome
/-- The 3 B address of an item (R319). -/
def itemAddr (slotB : Bool) (chix : Nat) : Bytes :=
  beBytes 1 (b2n slotB * 128 + chix / 65536 % 16) ++ beBytes 2 (chix % 65536)
/-- A LEASE item. -/
def leaseItem (chix : Nat) (slotB valid : Bool) (tag : W32) (ceil : Nat) : MItem :=
  { bytes := itemAddr slotB chix ++ [if valid then 0x80 else 0] ++ beBytes 4 tag.toNat ++ beBytes 8 ceil,
    chix := chix, slotB := slotB, tag := tag, ceil := if valid then ceil else 0 }
/-- STATE code of a slot (R143). -/
def SlotSt.code : SlotSt → Nat
  | .empty => 0 | .live => 1 | .draining => 2 | .erased => 3
/-- A SLOT item. -/
def slotItem (chix : Nat) (slotB active : Bool) (sl : Slot) : MItem :=
  { bytes := itemAddr slotB chix ++
      beBytes 1 (sl.st.code * 64 + b2n sl.retired * 32 + b2n active * 16 + (if sl.st = .empty then 0 else sl.an.toNat)) ++
      beBytes 1 sl.klc.toNat ++ beBytes 1 sl.gen.toNat ++ beBytes 2 sl.keyRef.toNat ++ zeros 4,
    chix := chix, slotB := slotB, ceil := 0 }
/-- A SCHED item: KIND, the byte of MODE, DEFER and state, AN, GEN and the value. -/
def schedItem (chix : Nat) (slotB : Bool) (kind mode st : Nat) (defer : Bool) (sl : Slot) (v : Bytes) : MItem :=
  { bytes := itemAddr slotB chix ++ beBytes 1 kind ++ beBytes 1 (mode * 32 + b2n defer * 16 + st) ++
      beBytes 1 sl.an.toNat ++ beBytes 1 sl.gen.toNat ++ [0] ++ v ++ zeros 6,
    chix := chix, slotB := slotB, ceil := 0 }
/-- A FLOOR item. -/
def floorItem (chix : Nat) (slotB : Bool) (sl : Slot) : MItem :=
  { bytes := itemAddr slotB chix ++ beBytes 1 sl.an.toNat ++ beBytes 8 sl.lpn, chix := chix, slotB := slotB, ceil := 0 }

/-- Queue a LEASE item (R326). -/
def State.mirrorLease (s : State) (chix : Nat) (slotB valid : Bool) (tag : W32) (ceil : Nat) : State :=
  s.when s.mirrors (·.modPair (fun p => { p with qLease := p.qLease ++ [leaseItem chix slotB valid tag ceil] }))
/-- Queue a SLOT item. -/
def State.mirrorSlot (s : State) (it : MItem) : State :=
  s.when s.mirrors (·.modPair (fun p => { p with qSlot := p.qSlot ++ [it] }))
/-- Queue a SCHED item. -/
def State.mirrorSched (s : State) (it : MItem) : State :=
  s.when s.mirrors (·.modPair (fun p => { p with qSched := p.qSched ++ [it] }))

/-! ### Skewed slots (R327) -/

/-- A slot becomes skewed, and is counted when it was not. -/
def State.skew (s : State) (k : Nat) : State :=
  if k ∈ s.pair.skewed then s else (s.modPair (fun p => { p with skewed := insNat p.skewed k })).evt 235 1
/-- A slot is no longer skewed. -/
def State.unskew (s : State) (k : Nat) : State := s.modPair (fun p => { p with skewed := delNat p.skewed k })
/-- The CHIX that an item names. -/
def itemChix (it : Bytes) : Nat := ofBe (it.take 3) % 2 ^ 20
/-- The slot that an item names. -/
def itemSlot (it : Bytes) : Bool := decide (128 ≤ (byteAt it 0).toNat)
/-- An item that cannot be applied is dropped: it is counted, and its slot is skewed. -/
def State.mirrorLose (s : State) (it : Bytes) : State :=
  ((s.modPair (fun p => { p with mirrorDrop := p.mirrorDrop + 1 })).evt 234 1).skew (itemChix it * 2 + b2n (itemSlot it))
/-- The page-in of a channel has failed: the items that wait for it are dropped. -/
def State.mirrorFail (s : State) (x : Nat) : State :=
  let lost := s.pair.inbox.filter (fun q => decide (itemChix q.2.2 = x))
  let s := s.modPair (fun p => { p with inbox := p.inbox.filter (fun q => decide (itemChix q.2.2 ≠ x)) })
  s.forEach lost (fun s q => s.mirrorLose q.2.2)

end Sys2Proof.Machine
end

