-- ==== Sys2Proof/Machine/Vault.lean ====
section
/-! DEFINITION. Channel entries, the residency map and key slots: lookups, the Equinox log, and what a change of a slot
does to the schedules of its channel (R140, R148 to R150, R207, R213, R221, R223). -/
namespace Sys2Proof.Machine

/-! ### Entries and slots -/

/-- A resident entry. -/
def State.entry (s : State) (e : Nat) : Option Entry := Tab.get none s.ch.entries e
/-- Set or free a resident entry. -/
def State.setEntry (s : State) (e : Nat) (v : Option Entry) : State :=
  s.modCh (fun c => { c with entries := Tab.set none c.entries e v })
/-- Change an entry that is in use. -/
def State.modEntry (s : State) (e : Nat) (f : Entry → Entry) : State :=
  s.modCh (fun c => { c with entries := Tab.modify none c.entries e (Option.map f) })
/-- A key slot. -/
def State.slot (s : State) (v : Nat) : Slot := Tab.get {} s.ch.slots v
/-- Change a key slot. -/
def State.modSlot (s : State) (v : Nat) (f : Slot → Slot) : State :=
  s.modCh (fun c => { c with slots := Tab.modify {} c.slots v f })
/-- Vault slot of a slot of an entry. -/
def vslotOf (e : Nat) (b : Bool) : Nat := 2 * e + b2n b
/-- The residency-map field of a CHIX. -/
def State.resi (s : State) (x : Nat) : Resi := Tab.get {} s.ch.resi x
/-- Set a residency-map field. -/
def State.setResi (s : State) (x : Nat) (r : Resi) : State :=
  s.modCh (fun c => { c with resi := Tab.set {} c.resi x r })
/-- The group of a CHIX. -/
def State.groupOf (s : State) (x : Nat) : BitVec 12 := Tab.get 0 s.ch.group x

/-- The resident entry of a CHIX (R223). -/
def State.resident (s : State) (x : Nat) : Option Nat :=
  let r := s.resi x
  if r.v then
    match s.entry r.idx.toNat with
    | some en => if en.live ∧ en.chix = x then some r.idx.toNat else none
    | none => none
  else none
/-- A CHIX is known (R223). -/
def State.known (s : State) (x : Nat) : Bool := (s.resi x).v
/-- A CHIX is stored: known and not resident (R223). [DEDUCED: log 61] -/
def State.stored (s : State) (x : Nat) : Bool := s.known x && (s.resident x).isNone
/-- Entries in use (R241). -/
def State.residentCnt (s : State) : Nat := s.ch.entries.length
/-- Free entries. -/
def State.freeEntries (s : State) : Nat := 65536 - s.residentCnt
/-- Pinned channels. -/
def State.pinnedCnt (s : State) : Nat :=
  (s.ch.entries.filter (fun e => match e.2 with | some en => en.pinned | none => false)).length
/-- The first number from `k` on that is no key of a rising table. -/
def firstFree {α : Type} : Tab α → Nat → Nat
  | [], k => k
  | (a, _) :: t, k => if a = k then firstFree t (k + 1) else k
/-- The lowest-numbered free entry (R140). -/
def State.lowestFree (s : State) : Option Nat :=
  let k := firstFree s.ch.entries 0
  if k < 65536 then some k else none
/-- A frame holds a slot under its GEN (R150). -/
def State.holders (s : State) (v : Nat) (g : BitVec 8) : Bool :=
  s.dp.frames.any (fun f => f.holds && decide (f.vslot = v) && decide (f.gen = g))
/-- A slot is LIVE or DRAINING. -/
def Slot.keyed (sl : Slot) : Bool := decide (sl.st = .live) || decide (sl.st = .draining)
/-- A slot awaits its drain. -/
def Slot.unsettled (sl : Slot) : Bool := decide (sl.st = .draining) || sl.clearing
/-- A change of LPN is to be mirrored: the CK_AO cycle of the first that no item has carried (R331). -/
def Slot.floored (sl : Slot) (now old : Nat) : Slot :=
  if sl.lpn = old then sl else { sl with floorAt := some (sl.floorAt.getD now) }
/-- Slot status word of R143. -/
def Slot.statusWord (sl : Slot) : W32 :=
  atPos sl.st.code 30 ||| atBit sl.retired 29 ||| atBit (decide (sl.lst = .wait) || decide (sl.lst = .hold)) 28 |||
  atBit sl.vaultErr 27 ||| atPos (sl.klc.toNat % 8) 24 |||
  atPos (if sl.st = .empty then 0 else sl.an.toNat) 16 ||| atPos sl.gen.toNat 8
/-- What a cleared slot keeps: state, AN, GEN and VAULT_ERR. -/
def Slot.cleared (sl : Slot) : Slot :=
  { st := sl.st, an := sl.an, gen := sl.gen, vaultErr := sl.vaultErr }

/-- What zeroisation leaves of a slot: EMPTY with its AN and GEN, and its PN or replay state (R149, R173).
[DEDUCED: log 64] -/
def Slot.zeroised (sl : Slot) : Slot :=
  { an := sl.an, gen := sl.gen, next := sl.next, bnd := sl.bnd, ceil := sl.ceil, acked := sl.acked,
    lpn := sl.lpn, high := sl.high, bitmap := sl.bitmap }
/-- Put the lease handle of a channel that has no resident entry into its residency-map field (R186, R223). -/
def State.syncHandle (s : State) (x : Nat) : State :=
  if (s.resident x).isSome then s
  else
    let h : BitVec 16 := match Tab.get none s.lease.dir x with | some l => l.handle | none => 0xFFFF
    s.setResi x { s.resi x with idx := h }

/-! ### The Equinox log and the mirror of slots -/

/-- A log entry (R221). -/
def eqxLogEntry (kind chix : Nat) (b : Bool) (an : BitVec 2) (t : Nat) : W32 × W32 :=
  (atBit true 31 ||| atPos kind 28 ||| atPos chix 8 ||| atBit b 7 ||| atPos an.toNat 5,
   atPos (nsSec t % 4) 30 ||| BitVec.ofNat 32 (nsNs t))
/-- Write a log entry; a full log loses it (R221). -/
def State.eqxLog (s : State) (kind chix : Nat) (b : Bool) (an : BitVec 2) (t : Nat) : State :=
  if s.ch.eqxLog.length < 256 then
    s.modCh (fun c => { c with eqxLog := c.eqxLog ++ [eqxLogEntry kind chix b an t] })
  else (s.setFlag .glb 0x50 4).evt 151 1
/-- A slot is exposed no more: retired, erased or installed again (R332). -/
def State.unexpose (s : State) (x : Nat) (b : Bool) : State :=
  s.when (decide (x * 2 + b2n b ∈ s.pair.exposed)) (·.modPair (fun p => { p with exposed := delNat p.exposed (x * 2 + b2n b) }))
/-- A slot has changed: one that is no longer LIVE, or is retired, is not exposed any more (R332), and a change of a resident channel is
mirrored (R326). -/
def State.slotChanged (s : State) (e : Nat) (b : Bool) : State :=
  match s.entry e with
  | some en =>
    let sl := s.slot (vslotOf e b)
    let s := s.when (!sl.keyed || sl.retired) (·.unexpose en.chix b)
    if en.live then s.mirrorSlot (slotItem en.chix b (cActive en.cfg0 == b) (s.slot (vslotOf e b))) else s
  | none => s

/-- SCHED items of the pending schedules of an entry (R328). -/
def State.schedItems (s : State) (e : Nat) (en : Entry) : List MItem :=
  (match en.eqx with
   | some q => [schedItem en.chix q.fromB 1 q.mode.code (if q.deferred then 2 else 1) q.defer
       (s.slot (vslotOf e q.fromB)) (eqxVal (some q))]
   | none => []) ++
  (match en.sol with
   | some q => [schedItem en.chix q.slotB 2 q.mode.code (if q.watch then 1 else 2) false
       (s.slot (vslotOf e q.slotB)) (solVal (some q))]
   | none => [])

/-! ### The slot mask (R153) -/

/-- A slot's key, salt and H^1 to H^4 exclusive-ORed with the slot mask: what the vault holds of them, and what the read port's
shares amount to. [DEDUCED: log 10] -/
def Slot.masked (sl : Slot) (v : Nat) (key : BitVec 256) : Slot :=
  let m := fun (n : Nat) => Config.slotMask v sl.gen key n
  { sl with
    key := xorBytes sl.key (ofBlock (m 0) ++ ofBlock (m 1)), salt := xorBytes sl.salt (ofBlock (m 2)),
    h := sl.h.mapIdx (fun n x => x ^^^ m (3 + n)) }
/-- The same under the vault mask key that was drawn. -/
def State.maskSlot (s : State) (v : Nat) (sl : Slot) : Slot := sl.masked v (s.sys.vaultMask.getD 0)

/-! ### Schedules when a slot changes -/

/-- How a slot changed. -/
inductive SlotChange where
  /-- Installed into an EMPTY or ERASED slot. -/
  | install
  /-- Rewritten: LIVE to DRAINING. -/
  | rewrite
  /-- Erased, or lost to a vault error. -/
  | lost
  deriving DecidableEq, Repr

/-- A schedule is cancelled by a change of slot (R207, R213, R222). -/
def State.schedCancelled (s : State) (chix e : Nat) (b : Bool) : State :=
  (((s.evt 149 1).setFlag .glb 0x50 3)).eqxLog 6 chix b (s.slot (vslotOf e b)).an s.sys.tmL.ns
/-- The Equinox is cancelled when its target leaves LIVE other than to DRAINING (R207). -/
def State.eqxOnSlot (s : State) (e : Nat) (b : Bool) (c : SlotChange) : State :=
  match s.entry e with
  | some en => match en.eqx with
    | some q =>
      if c = .lost ∧ b ≠ q.fromB then
        (s.schedCancelled en.chix e b).modEntry e (fun x => { x with eqx := none })
      else s
    | none => s
  | none => s
/-- The Solstice is cancelled when the slot to retire changes, or either slot while it watches (R213). -/
def State.solOnSlot (s : State) (e : Nat) (b : Bool) : State :=
  match s.entry e with
  | some en => match en.sol with
    | some q =>
      if q.watch ∨ b = q.slotB then
        (s.schedCancelled en.chix e q.slotB).modEntry e (fun x => { x with sol := none })
      else s
    | none => s
  | none => s
/-- What a change of a slot does to the schedules. -/
def State.schedOnSlot (s : State) (e : Nat) (b : Bool) (c : SlotChange) : State :=
  (s.eqxOnSlot e b c).solOnSlot e b

end Sys2Proof.Machine
end

