-- ==== Sys2Proof/Machine/Power.lean ====
section
/-! DEFINITION. Domains and slices as the season governor sees them: seasons, needs, power-manager requests, the
express-reserve role and the evaluation of the target (R52, R133 to R138, R276 to R289). -/
namespace Sys2Proof.Machine

/-! ### Domains -/

/-- A domain's record. -/
def State.dom (s : State) (d : Nat) : Dom := Tab.get {} s.pwr.dom d
/-- Change a domain's record. -/
def State.modDom (s : State) (d : Nat) (f : Dom → Dom) : State :=
  s.modPwr (fun p => { p with dom := Tab.modify {} p.dom d f })
/-- A slice. -/
def State.sl (s : State) (n : Nat) : Slice := Tab.get {} s.slices.sl n
/-- Change a slice. -/
def State.modSl (s : State) (n : Nat) (f : Slice → Slice) : State :=
  s.modSlices (fun c => { c with sl := Tab.modify {} c.sl n f })
/-- The domain belongs to a slice. -/
def isSliceDom (d : Nat) : Bool := decide (4 ≤ d) && decide (d < 44)
/-- Season by meaning of a slice state (R278). -/
def SlState.season : SlState → Season
  | .winter | .faulted => .winter
  | .thaw | .test => .thaw
  | .summer | .held => .summer
  | .autumn | .drain => .autumn
/-- Code of a slice state (R133). -/
def SlState.code : SlState → Nat
  | .winter => 0 | .thaw => 1 | .summer => 2 | .autumn => 3 | .drain => 4 | .held => 5 | .test => 6 | .faulted => 7
/-- Code of a season (R278). -/
def Season.code : Season → Nat
  | .winter => 0 | .thaw => 1 | .summer => 2 | .autumn => 3
/-- The season of a domain; PD_AO is never switched. -/
def State.season (s : State) (d : Nat) : Season :=
  if d = 0 then .summer else if isSliceDom d then (s.sl (d - 4)).st.season else (s.dom d).season
/-- A domain serves. -/
def State.domUp (s : State) (d : Nat) : Bool := decide (s.season d = .summer)
/-- All of some domains serve. -/
def State.domsUp (s : State) (l : List Nat) : Bool := l.all s.domUp
/-- Some domain of a list is unavailable (R281). -/
def State.domsLost (s : State) (l : List Nat) : Bool := l.any (fun d => (s.dom d).unavail)
/-- The SRAM domains a command needs (R279). [DEDUCED: log 69] -/
def tableDoms : List Nat := [46, 47, 48, 49, 50, 53]
/-- The sleeping form of a domain (R276). -/
def sleepOp (d : Nat) : PmOp := if d = 1 ∨ d ∈ tableDoms then .retain else .off
/-- The operation that wakes a domain. -/
def wakeOp (d : Nat) : PmOp := if d = 1 ∨ d ∈ tableDoms then .wake else .on
/-- An operation wakes. -/
def PmOp.wakes : PmOp → Bool
  | .on | .wake => true
  | .off | .retain => false
/-- Seed words that a domain's THAW takes (R286). -/
def seedNeed (d : Nat) : Nat := if isSliceDom d then 2 else if d = 44 then 8 else if d = 45 then 4 else if d = 1 then 2 else 0
/-- Seed words reserved by outstanding wakes (R286). -/
def State.seedsHeld (s : State) : Nat :=
  (s.pwr.dom.map (fun p => match p.2.req with | some op => if op.wakes then seedNeed p.1 else 0 | none => 0)).sum
/-- Seed words in the buffer that no wake has reserved, oldest first (R286). -/
def State.seedsFree (s : State) : List W128 := s.sys.seeds.take (s.sys.seeds.length - s.seedsHeld)
/-- The oldest `k` words leave the seed buffer. -/
def State.dropSeeds (s : State) (k : Nat) : State := s.modSys (fun y => { y with seeds := y.seeds.drop k })
/-- Requests outstanding. -/
def State.pmOut (s : State) : Nat := (s.pwr.dom.filter (fun p => p.2.req.isSome)).length
/-- The PWR flag SEED_WAIT (R286, R292). [DEDUCED: log 59] -/
def State.seedWait (s : State) : Bool := s.pwr.dom.any (fun p => p.2.seedWait)

/-! ### Settings (R292) -/

/-- GOV_EN. -/
def State.govEn (s : State) : Bool := bit (s.cfg .pwr 0x80) 0
/-- KX_SLEEP. -/
def State.kxSleep (s : State) : Bool := bit (s.cfg .pwr 0x80) 1
/-- ST_SLEEP. -/
def State.stSleep (s : State) : Bool := bit (s.cfg .pwr 0x80) 2
/-- BLOCK_SLEEP. -/
def State.blockSleep (s : State) : Bool := bit (s.cfg .pwr 0x80) 3
/-- GOV_UTIL. -/
def State.govUtil (s : State) : Nat := clamp 50 100 (fld (s.cfg .pwr 0x84) 6 0)
/-- GOV_SPARE. -/
def State.govSpare (s : State) : Nat := min 4 (fld (s.cfg .pwr 0x88) 2 0)
/-- SLICE_FLOOR of a direction. -/
def State.sliceFloor (s : State) (ing : Bool) : Nat :=
  clamp 2 20 (if ing then fld (s.cfg .pwr 0x8C) 20 16 else fld (s.cfg .pwr 0x8C) 4 0)
/-- GOV_HOLD_US in CK_AO cycles. -/
def State.govHold (s : State) : Nat := clamp 10 1000000 (fld (s.cfg .pwr 0x90) 19 0) * 50
/-- GOV_SURGE. -/
def State.govSurge (s : State) : Nat := max 1 (fld (s.cfg .pwr 0x98) 2 0)
/-- SURGE_PCT. -/
def State.surgePct (s : State) : Nat := clamp 10 90 (fld (s.cfg .pwr 0x94) 6 0)
/-- SPARE_MIN of a direction (R139, R368). -/
def State.spareMin (s : State) (ing : Bool) : Nat :=
  clamp 2 20 (if ing then fld (s.cfg (.slice 0) 0x100) 20 16 else fld (s.cfg (.slice 0) 0x100) 4 0)
/-- The slices that EXP_RSV names for a direction (R136). -/
def State.namedRsv (s : State) (ing : Bool) : NatSet :=
  let w := s.cfg (.slice 0) 0x104
  if ing then [fld w 21 16, fld w 29 24] else [fld w 5 0, fld w 13 8]
/-- CAL of a direction: the highest floor in force (R283, R289). -/
def State.calFloor (s : State) (ing : Bool) : Nat :=
  (s.pager.floors.map (fun f => if ing then f.ifl else f.ef)).foldl max 0
/-- A KX hold is in force. -/
def State.kxHold (s : State) : Bool := s.pager.floors.any (·.kx)

/-! ### Needs (R279) -/

/-- A port's enable is in force, or committed and waiting for its domains (R287). -/
def State.portWanted (s : State) (p : Nat) : Bool :=
  s.portEn p || ((s.hdr (.port p)).pending && bit (s.stg (.port p) 0x80) 8)
/-- A port is enabled. -/
def State.anyPort (s : State) : Bool := (List.range 32).any s.portWanted
/-- The due time of a calendar entry, when it has one (R237, R288). -/
def calDue (w : W128) : Option Nat :=
  if w.getLsbD 126 != w.getLsbD 127 then
    some (w.toNat / 2 ^ 32 % 2 ^ 48 * 1000000000 + w.toNat % 2 ^ 30)
  else none
/-- Some calendar entry is due (R238). -/
def State.calReady (s : State) : Bool :=
  s.sys.tmA.vld && s.pager.cal.any (fun p => match calDue p.2 with | some t => decide (t ≤ s.sys.tmA.ns) | none => false)
/-- Work in progress at the windows, the pager or the lease unit. -/
def State.tableWork (s : State) : Bool :=
  s.pager.saw.isSome || s.pager.keyw.isSome || s.lease.cmd.isSome || !s.pager.jobs.isEmpty || !s.pager.ins.isEmpty ||
  !s.pager.outs.isEmpty || s.pager.calRead || !s.pager.calPut.isEmpty || s.lease.scanning || !s.lease.waits.isEmpty || s.calReady
/-- A dirty write-combining entry exists. -/
def State.wcbDirty (s : State) : Bool := s.store.wcb.any (fun w => decide (w.dirty ≠ 0) || w.writing)
/-- A page-in for frames that wait: it wakes PD_KEYX and PD_STORE (R291). -/
def State.demandIn (s : State) : Bool := s.pager.ins.any (·.demand)
/-- A domain other than a slice's is needed (R279, R291). -/
def State.needed (s : State) (d : Nat) : Bool :=
  if !s.govEn then true
  else if d = 3 ∨ d = 51 ∨ d = 52 then s.anyPort || !s.dp.frames.isEmpty
  else if d = 1 then
    s.anyPort || s.pager.keyw.isSome || s.sys.chkWait || !s.sys.derive.isEmpty || !s.pager.ins.isEmpty || !s.pager.outs.isEmpty ||
    decide (s.sys.zero = .running) || !s.blockSleep
  else if d = 44 then
    !s.keyx.queue.isEmpty || !s.keyx.cores.isEmpty || s.demandIn || s.kxHold || (!s.kxSleep && s.anyPort)
  else if d = 45 then
    !s.store.out.isEmpty || !s.store.wait.isEmpty || s.store.cmd.isSome || s.wcbDirty || s.demandIn || s.kxHold ||
    decide (s.store.march.st = .keygen) || decide (s.store.march.st = .run) || (!s.stSleep && s.anyPort)
  else if d ∈ tableDoms then s.anyPort || s.tableWork || !s.blockSleep
  else true

/-! ### Requests to the power manager (R52) -/

/-- Issue a request. [DEDUCED: log 58] -/
def State.pmIssue (s : State) (d : Nat) (op : PmOp) : State :=
  let s := (s.modDom d (fun m => { m with req := some op, want := none, seedWait := false })).emit (.pm d op)
  if op.wakes then
    if isSliceDom d then ((s.modSl (d - 4) (fun c => { c with st := .thaw })).evt 176 1)
    else (s.modDom d (fun m => { m with season := .thaw })).evt 178 1
  else s
/-- Request an operation now, or leave it wanted until R52 and R286 allow it. [DEDUCED: log 58] -/
def State.pmTry (s : State) (d : Nat) (op : PmOp) : State :=
  let m := s.dom d
  if m.unavail ∨ m.refused then s
  else if m.req.isSome ∨ 8 ≤ s.pmOut then s.modDom d (fun m => { m with want := some op })
  else if op.wakes ∧ s.seedsFree.length < seedNeed d ∧ ¬ (d = 1 ∧ s.sys.zero = .running) then
    (s.modDom d (fun m => { m with want := some op, seedWait := true })).when (!m.seedWait) (·.evt 186 1)
  else s.pmIssue d op
/-- The domains other than a slice's that the governor switches, those with the longest ON times first (R287). -/
def wakeList : List Nat := [3, 51, 52, 1, 46, 47, 48, 49, 50, 53, 44, 45]
/-- The order in which waiting requests are made: PD_SEC first for zeroisation, then at rest the order of R287, the express-reserve
slices ahead of the others (R287, R291). [DEDUCED: log 58] -/
def State.pmOrder (s : State) : List Nat :=
  (if s.sys.zero = .running then [1] else []) ++ wakeList ++
    ((s.slices.rsvE ++ s.slices.rsvI ++ List.range 40).map (· + 4))
/-- Make the waiting requests that R52 and R286 now allow. -/
def State.pmPump (s : State) : State :=
  s.forEach s.pmOrder (fun s d => match (s.dom d).want with
    | some op => if (s.dom d).req.isNone then s.pmTry d op else s
    | none => s)
/-- Wake a domain other than a slice's; one that an OFF or RETAIN timed out on stays as it is (R52). -/
def State.wakeDom (s : State) (d : Nat) : State :=
  let m := s.dom d
  match m.season with
  | .winter => s.pmTry d (wakeOp d)
  | .autumn =>
    if m.unavail then s
    else if m.req.isSome then s.modDom d (fun m => { m with want := some (wakeOp d) })
    else s.modDom d (fun m => { m with season := .summer, want := none, seedWait := false })
  | _ => s
/-- Wake every domain that is needed and does not serve; in bring-up the recovery sequencer switches domains until the
third phase has ended (R390). -/
def State.wakeNeeded (s : State) : State :=
  if s.sys.phase < 3 then s
  else s.forEach wakeList (fun s d => s.when (s.needed d) (·.wakeDom d))

/-! ### Slices -/

/-- A slice serves ingress. -/
def isIng (n : Nat) : Bool := decide (20 ≤ n)
/-- The slices of a direction. -/
def slicesOf (ing : Bool) : List Nat := (List.range 20).map (fun n => if ing then n + 20 else n)
/-- A frame holds a record of a slice. -/
def Frame.inSl (f : Frame) (n : Nat) : Bool :=
  match f.stage with
  | .inSlice k _ => decide (k = n)
  | _ => false
/-- A slice holds no frame record and no suspended context (R134). -/
def State.slEmpty (s : State) (n : Nat) : Bool := !s.dp.frames.any (fun f => f.inSl n) && (s.sl n).susp.isNone
/-- A slice is serviceable (R135, R291). -/
def State.serviceable (s : State) (n : Nat) : Bool :=
  let c := s.sl n
  !(decide (c.st = .held) || decide (c.st = .faulted) || (decide (c.st = .drain) && c.svcOut)) && !(s.dom (n + 4)).unavail
/-- V of a direction. -/
def State.serviceableCnt (s : State) (ing : Bool) : Nat := ((slicesOf ing).filter s.serviceable).length
/-- Slices of a direction in SUMMER. -/
def State.summerCnt (s : State) (ing : Bool) : Nat :=
  ((slicesOf ing).filter (fun n => decide ((s.sl n).st = .summer))).length
/-- A of a direction (R284). -/
def State.awakeCnt (s : State) (ing : Bool) : Nat :=
  ((slicesOf ing).filter (fun n => let c := s.sl n
    decide (c.st = .thaw) || decide (c.st = .summer) || (decide (c.st = .test) && !c.svcOut && !c.byTestRun))).length
/-- RATE_SHORT of a direction (R135). -/
def State.rateShort (s : State) (ing : Bool) : Bool := decide (s.serviceableCnt ing < 16)
/-- Ciphertext length of a T10 frame: padded in CBC only (R267). -/
def t10CipherLen (mode len : Nat) : Nat := if mode = 0 then 16 * ceilDiv (len + 1) 16 else len
/-- Where the part of an admitted frame begins that is encrypted or decrypted (R119). -/
def Frame.dataAt (f : Frame) : Nat := (if f.dir = .egress then 12 + 4 * cClear f.cfg0 else f.hdr) + f.clear
/-- Bytes of that part that have been admitted: none of a frame whose Secure Data is all clear (R119). -/
def Frame.dataIn (f : Frame) : Nat :=
  if f.len ≤ f.clear then 0 else if f.eof then f.len - f.clear else f.got - f.dataAt
/-- AES slots of a frame, as far as they are known (R70, R270, R283). -/
def Frame.slots (f : Frame) : Nat :=
  if f.kind = .t10 then
    let e := t10CipherLen (cOffset f.cfg0) f.len
    2 + ceilDiv e 16 + ceilDiv (22 + 4 * cClear f.cfg0 + e) 16
  else if f.eof then 1 + ceilDiv (f.len - f.clear) 16 else 1 + f.dataIn / 16
/-- AES slots of a frame that are known and not yet issued (R76, R283). -/
def Frame.left (f : Frame) : Nat := f.slots - f.issued
/-- The next block of a frame in a record is issuable (R122): block k follows J0 and k - 1 blocks, so k is the number issued. A T10
frame issues once it is whole. [DEDUCED: log 46] -/
def Frame.mayIssue (f : Frame) : Bool :=
  if f.icvDone then false
  else if f.kind = .t10 then f.eof && decide (f.issued < f.slots)
  else if f.issued = 0 then true
  else decide (f.clear < f.len) && (!f.eof || decide (f.issued < f.slots)) &&
    decide (f.issued ≤ ceilDiv f.dataIn 16 + 64) && decide (f.issued ≤ f.pos / 16 + 128)
/-- The next block of a frame is confirmed: its first byte has been admitted, or the length is known; J0 always is (R122). -/
def Frame.confirmed (f : Frame) : Bool := f.eof || decide (f.issued = 0) || decide (f.issued ≤ ceilDiv f.dataIn 16)
/-- A frame's blocks are queued and not yet issued. -/
def Frame.queued (f : Frame) : Bool :=
  match f.stage with
  | .waiting => decide (f.kind = .macsec) || decide (f.kind = .t10)
  | .inSlice _ _ => !f.icvDone
  | _ => false
/-- Blocks queued in a slice and not yet in its pipeline (R76). -/
def State.slQueue (s : State) (n : Nat) : Nat :=
  ((s.dp.frames.filter (fun f => f.inSl n && !f.icvDone)).map Frame.left).sum
/-- Q of a direction: the blocks queued and not yet issued (R283). -/
def State.queuedBlocks (s : State) (ing : Bool) : Nat :=
  ((s.dp.frames.filter (fun f => f.queued && (decide (f.dir = .ingress) == ing))).map Frame.left).sum
/-- The block that the issue stage of a slice sends next: of the express frame; then, unless bulk issue is suspended, a confirmed
block of a bulk frame, then a speculative one, of the frame dispatched first (R123, R126). -/
def State.nextIssue (s : State) (n : Nat) : Option Frame :=
  let l := s.dp.frames.filter (fun f => f.inSl n && f.mayIssue && !f.void_)
  let oldest := fun (l : List Frame) => l.foldl (fun b f => match b with
    | none => some f
    | some g => if f.disp < g.disp then some f else some g) none
  match l.find? (fun f => decide (f.stage = .inSlice n 0)) with
  | some f => some f
  | none =>
    if (s.sl n).susp.isSome then none
    else (oldest (l.filter Frame.confirmed)).or (oldest l)
/-- The slices that hold the express-reserve role of a direction: none while no port is enabled (R136, R280). -/
def State.reserve (s : State) (ing : Bool) : NatSet :=
  if (List.range 32).any s.portEn then (if ing then s.slices.rsvI else s.slices.rsvE) else []
/-- Set the holders of the role. -/
def State.setRsv (s : State) (ing : Bool) (l : NatSet) : State :=
  s.modSlices (fun c => if ing then { c with rsvI := l } else { c with rsvE := l })
/-- The holders of the role, with or without ports. -/
def State.rsv (s : State) (ing : Bool) : NatSet := if ing then s.slices.rsvI else s.slices.rsvE
/-- The highest number of a list. -/
def maxOf (l : List Nat) : Option Nat := l.foldl (fun m n => match m with | none => some n | some k => some (max k n)) none
/-- The reserve role returns to the slice that EXP_RSV names when it re-enters SUMMER (R136). -/
def State.rsvReturn (s : State) (n : Nat) : State :=
  let ing := isIng n
  let named := s.namedRsv ing
  let holders := s.rsv ing
  match named.findIdx? (· = n) with
  | some i => if n ∈ holders then s else s.setRsv ing (holders.set i n)
  | none => s
/-- Wake a slice: from WINTER by a request, from AUTUMN at once unless OFF is outstanding or has timed out (R134, R136, R284). -/
def State.wakeSlice (s : State) (n : Nat) : State :=
  match (s.sl n).st with
  | .winter => s.when (!(s.sl n).svcOut) (·.pmTry (n + 4) .on)
  | .autumn =>
    if (s.dom (n + 4)).req.isSome ∨ (s.dom (n + 4)).unavail = true then s
    else ((s.modSl n (fun c => { c with st := .summer })).rsvReturn n).modDom (n + 4) (fun m => { m with want := none })
  | _ => s
/-- The reserve role leaves a slice that enters HELD or FAULTED (R136). -/
def State.rsvLeave (s : State) (n : Nat) : State :=
  let ing := isIng n
  let holders := s.rsv ing
  if n ∈ holders then
    let free := fun k => !decide (k ∈ holders)
    match maxOf ((slicesOf ing).filter (fun k => free k && decide ((s.sl k).st = .summer))) with
    | some k => s.setRsv ing (holders.map (fun x => if x = n then k else x))
    | none =>
      match maxOf ((slicesOf ing).filter (fun k => free k && s.serviceable k && !(s.sl k).svcOut &&
          decide ((s.sl k).st = .winter))) with
      | some k => (s.setRsv ing (holders.map (fun x => if x = n then k else x))).when s.anyPort (·.wakeSlice k)
      | none => s
  else s
/-- A slice enters a state in which it serves, or leaves service; an OFF that waits to be requested is not wanted any more (R134). -/
def State.slEnter (s : State) (n : Nat) (st : SlState) : State :=
  let s := (s.modSl n (fun c => { c with st := st })).modDom (n + 4) (fun m => if m.want = some .off then { m with want := none } else m)
  match st with
  | .summer => s.rsvReturn n
  | .held | .faulted => s.rsvLeave n
  | _ => s

/-! ### Evaluation (R283, R284) -/

/-- S of a direction since the last evaluation. -/
def State.issued (s : State) (ing : Bool) : Nat := if ing then s.slices.issuedI else s.slices.issuedE
/-- A rotation test of a direction has been postponed for 1 ms (R138). -/
def State.rotLate (s : State) (ing : Bool) : Bool :=
  (slicesOf ing).any (fun n => match (s.sl n).postponed with
    | some t => decide (t + 50000 ≤ s.sys.aoClk)
    | none => false)
/-- T of a direction (R283). -/
def State.target (s : State) (ing : Bool) : Nat :=
  if s.anyPort then
    min (s.serviceableCnt ing)
      (max (max 2 (s.sliceFloor ing)) (max (s.calFloor ing)
        (ceilDiv (100 * (s.issued ing + s.queuedBlocks ing)) (512 * s.govUtil) + s.govSpare)) + b2n (s.rotLate ing))
  else 0
/-- T last evaluated. -/
def State.lastTarget (s : State) (ing : Bool) : Nat := if ing then s.pwr.targetI else s.pwr.targetE
/-- Slices of a direction whose wake is wanted and not yet requested. -/
def State.wantCnt (s : State) (ing : Bool) : Nat :=
  ((slicesOf ing).filter (fun n => decide ((s.dom (n + 4)).want = some .on))).length
/-- Slices that may be woken, in the order of R284: AUTUMN by number, then WINTER by time asleep and number.
[DEDUCED: log 57] -/
def State.wakeOrder (s : State) (ing : Bool) : List Nat :=
  let aut := (slicesOf ing).filter (fun n => decide ((s.sl n).st = .autumn) && (s.dom (n + 4)).req.isNone && s.serviceable n)
  let win := (slicesOf ing).filter (fun n => decide ((s.sl n).st = .winter) && !(s.sl n).svcOut &&
    s.serviceable n && !(s.dom (n + 4)).refused && !decide ((s.dom (n + 4)).want = some .on) && (s.dom (n + 4)).req.isNone)
  aut ++ win.insertionSort (fun a b => (s.sl a).winterAt < (s.sl b).winterAt ∨
    ((s.sl a).winterAt = (s.sl b).winterAt ∧ a ≤ b))
/-- Wake slices of a direction until `k` more count. -/
def State.wakeSlices (s : State) (ing : Bool) (k : Nat) : State :=
  s.forEach ((s.wakeOrder ing).take k) (fun s n => s.wakeSlice n)
/-- The slice to send to AUTUMN: not in the reserve, in SUMMER, fewest queued blocks, then highest number (R284).
[DEDUCED: log 57] -/
def State.sleepPick (s : State) (ing : Bool) : Option Nat :=
  ((slicesOf ing).filter (fun n => decide ((s.sl n).st = .summer) && !decide (n ∈ s.reserve ing))).foldl
    (fun b n => match b with
      | none => some n
      | some k => if s.slQueue n ≤ s.slQueue k then some n else some k) none
/-- Records of a slice in use. -/
def State.slRecords (s : State) (n : Nat) : Nat := (s.dp.frames.filter (fun f => f.inSl n)).length
/-- SL_INFO of a slice (R368). -/
def State.slInfo (s : State) (n : Nat) : W32 :=
  let c := s.sl n
  let age := match c.testAt with
    | some t => min 255 ((s.sys.aoClk - t) / 50000)
    | none => 255
  atBit c.katPass 31 ||| atBit (decide (n ∈ s.reserve (isIng n))) 30 ||| atPos (min 5 (s.slRecords n)) 27 |||
    atPos (min 2047 (s.slQueue n)) 16 ||| atPos age 0
/-- Send a slice to AUTUMN; SL_INFO is held from here through WINTER (R282). -/
def State.sleepSlice (s : State) (n : Nat) : State :=
  let w := s.slInfo n
  (s.modSl n (fun c => { c with st := .autumn, info := w })).evt 177 1
/-- When A of a direction began to exceed T at every evaluation. -/
def State.over (s : State) (ing : Bool) : Option Nat := if ing then s.pwr.overI else s.pwr.overE
/-- Set it. -/
def State.setOver (s : State) (ing : Bool) (v : Option Nat) : State :=
  s.modPwr (fun p => if ing then { p with overI := v } else { p with overE := v })
/-- A test of a slice may begin (R138): enough slices stay in SUMMER, and the other reserve slice is not in test.
[DEDUCED: log 57] -/
def State.rotAllowed (s : State) (n : Nat) : Bool :=
  let ing := isIng n
  let enough := decide (s.pair.role = .standby) || decide (s.lastTarget ing ≤ s.summerCnt ing - 1)
  let twin := decide (n ∈ s.rsv ing) && (s.rsv ing).any (fun k => decide (k ≠ n) &&
    (decide ((s.sl k).st = .test) || (decide ((s.sl k).st = .drain) && (s.sl k).rotPending)))
  enough && !twin
/-- One slice at a time of a direction is in its rotation test (R138). -/
def State.rotBusy (s : State) (ing : Bool) : Bool :=
  (slicesOf ing).any (fun n => (s.sl n).rotPending)
/-- A rotation test falls due, or is tried again; a standby with TEST_ALL wakes a slice in WINTER to test it (R138, R333).
[DEDUCED: log 57] -/
def State.rotTry (s : State) (n : Nat) : State :=
  if (s.sl n).st = .winter ∧ s.pair.role = .standby ∧ s.testAll = true ∧ (s.sl n).svcOut = false ∧ s.serviceable n = true then
    (s.modSl n (fun c => { c with testWake := true })).wakeSlice n
  else if (s.sl n).st ≠ .summer then s
  else if s.rotAllowed n ∧ s.rotBusy (isIng n) = false then
    s.modSl n (fun c => { c with st := .drain, rotPending := true, postponed := none })
  else s.modSl n (fun c => { c with postponed := some (c.postponed.getD s.sys.aoClk) })
/-- One evaluation of a direction (R283, R284): wakes that an earlier evaluation left wanted are chosen anew, those of a surge
stand (R285). [DEDUCED: log 57] -/
def State.govDir (s : State) (ing : Bool) : State :=
  let t := s.target ing
  let s := s.modPwr (fun p => if ing then { p with targetI := t } else { p with targetE := t })
  let goal := if s.govEn then t else s.serviceableCnt ing
  let s := s.forEach ((slicesOf ing).filter (fun n => !decide (n ∈ s.pwr.surge) && !(s.sl n).testWake)) (fun s n =>
    s.modDom (n + 4) (fun m => if m.want = some .on then { m with want := none } else m))
  let s := s.when s.anyPort (fun s => s.forEach (s.rsv ing) (fun s n => s.wakeSlice n))
  let a := s.awakeCnt ing + s.wantCnt ing
  let s :=
    if a < goal then (s.setOver ing none).wakeSlices ing (goal - a)
    else if goal < a then
      let since := (s.over ing).getD s.sys.aoClk
      let s := s.setOver ing (some since)
      if since + s.govHold ≤ s.sys.aoClk ∧ s.govEn then
        match s.sleepPick ing with
        | some n => s.sleepSlice n
        | none => s
      else s
    else s.setOver ing none
  let s := s.forEach (slicesOf ing) (fun s n => s.modDom (n + 4) (fun m => if m.want = none then { m with seedWait := false } else m))
  let s := s.forEach ((slicesOf ing).filter (fun n => (s.sl n).postponed.isSome)) (fun s n => s.rotTry n)
  s.modSlices (fun c => if ing then { c with issuedI := 0 } else { c with issuedE := 0 })

/-! ### Mask generators (R49, R118) -/

/-- The state of a generator from two seed words, the later word the more significant half. [DESIGN CHOICE: log 112] -/
def genSeed (a b : W128) : BitVec 256 := b ++ a
/-- Two of some seed words, which stand first in the buffer, go into a generator; without them its seeding is late (R118, R286).
[DEDUCED: log 10] -/
def State.seedGenFrom (s : State) (l : List W128) (g : Nat) : State :=
  match l with
  | a :: b :: _ => (s.dropSeeds 2).modSys (fun y => { y with
      maskSeed := Tab.set 0 y.maskSeed g (genSeed a b), maskLate := delNat y.maskLate g })
  | _ => s.modSys (fun y => { y with maskLate := insNat y.maskLate g })
/-- Seed a generator with words that no wake has reserved. -/
def State.seedGen (s : State) (g : Nat) : State := s.seedGenFrom s.seedsFree g
/-- A slice that enters TEST is seeded; without words the seeding is late, and the test waits for it (R118, R134).
[DEDUCED: log 10] -/
def State.seedTest (s : State) (n : Nat) : State :=
  let t := s.seedGen n
  t.when (decide (n ∈ t.sys.maskLate)) (·.evt 120 1)
/-- The generators of a domain. -/
def domGens (d : Nat) : List Nat :=
  if isSliceDom d then [d - 4] else if d = 44 then [40, 41, 42, 43] else if d = 45 then [44, 45] else if d = 1 then [46] else []
/-- Seed every generator of a domain with the words that its wake reserved. [DEDUCED: log 59] -/
def State.seedDom (s : State) (d : Nat) : State := s.forEach (domGens d) (fun s g => s.seedGenFrom s.sys.seeds g)
/-- Every generator of a domain has its seed; PD_SEC need not wait for one while the block is zeroised (R286). -/
def State.seeded (s : State) (d : Nat) : Bool :=
  (domGens d).all (fun g => !decide (g ∈ s.sys.maskLate)) || (decide (d = 1) && decide (s.sys.zero ≠ .no))

/-! ### Slice states (R134) -/

/-- A slice is empty in AUTUMN or DRAIN and moves on (R134). [DEDUCED: log 56] -/
def State.slDrained (s : State) (n : Nat) : State :=
  let c := s.sl n
  if !s.slEmpty n then s
  else match c.st with
  | .autumn => if (s.dom (n + 4)).req.isNone then s.pmTry (n + 4) .off else s
  | .drain =>
    if c.maskFault then (s.modSl n (fun c => { c with maskFault := false, rotPending := false })).slEnter n .faulted
    else if c.svcOut then (s.modSl n (fun c => { c with rotPending := false })).slEnter n .held
    else if c.rotPending then ((s.modSl n (fun c => { c with byTestRun := false })).slEnter n .test).seedTest n
    else s
  | _ => s
/-- The self-test of a slice has failed; during the slice's own reset it is FAULTED once the reset is over (R134, R311). -/
def State.slFailed (s : State) (n : Nat) : State :=
  let s := (s.modSl n (fun c => { c with katPass := false, byTestRun := false, rotPending := false, testWake := false })).when
    (!s.resetOn (.slice (Fin.ofNat 40 n))) (·.slEnter n .faulted)
  let s := s.when (s.resetOn (.slice (Fin.ofNat 40 n))) (·.modFlt (fun f => { f with
    afterReset := f.afterReset ++ [.slice (Fin.ofNat 40 n)] }))
  (s.setFlag (.slice n) 0x40 1).detect0 0x08 n
/-- The self-test of a slice has passed; a slice woken only for its test goes back to sleep (R134, R333). -/
def State.slPassed (s : State) (n : Nat) : State :=
  let c := s.sl n
  let s := s.modSl n (fun c => { c with
    katPass := true, testAt := some s.sys.aoClk, byTestRun := false, rotPending := false, testWake := false })
  let s := s.slEnter n (if c.svcOut || (decide (c.st = .test) && c.byTestRun) then .held else .summer)
  s.when (c.testWake && decide ((s.sl n).st = .summer) && decide (s.lastTarget (isIng n) < s.awakeCnt (isIng n))) (·.sleepSlice n)
/-- A slice that has been seeded has run its self-test (R134, R137). [DEDUCED: log 56] -/
def State.slTested (s : State) (n : Nat) (pass late : Bool) : State :=
  let c := s.sl n
  let okThaw := decide (c.st = .thaw) && (s.dom (n + 4)).req.isNone
  if (okThaw || decide (c.st = .test)) && !decide (n ∈ s.sys.maskLate) then
    let s := s.when (decide (c.st = .thaw) && late) (fun s => (s.setFlag .pwr 0x40 5).evt 183 1)
    if pass then s.slPassed n else s.slFailed n
  else s

end Sys2Proof.Machine
end

