-- ==== Sys2Proof/Machine/StoreEng.lean ====
section
/-! DEFINITION. The store engine: selectors and keys, the issue and the check of lines, partial writes and the
write-combining buffer, the MARCH split, and the end of host commands (R241 to R264). -/
namespace Sys2Proof.Machine

/-! ### Commands -/

/-- End a window command: its result, BUSY clear, CMD_DONE (R165, R254). -/
def State.cmdDone (s : State) (p : Page) (off flag code op detail : Nat) : State :=
  ((s.setRo p off (atPos (code % 256) 24 ||| atPos (op % 256) 16 ||| atPos (detail % 65536) 0)).modHdr p
    (fun h => { h with busy := false })).setFlag p 0x40 flag
/-- End the STORE command in progress. -/
def State.storeDone (s : State) (code detail : Nat) : State :=
  let op := match s.store.cmd with | some c => cmdOp c | none => 0
  (s.modStore (fun t => { t with cmd := none })).cmdDone .store 0xD4 8 code op detail

/-- A byte string in the words of a window buffer, from an offset on (R144). -/
def State.putBytes (s : State) (p : Page) (off : Nat) (b : Bytes) : State :=
  s.forEach (List.range (b.length / 4)) (fun s i =>
    s.setCfg p (off + 4 * i) (BitVec.ofNat 32 (ofLe (slice b (4 * i) 4))))
/-- The byte string of `n` words of a window buffer (R144). -/
def State.getBytes (s : State) (p : Page) (off n : Nat) : Bytes :=
  ((List.range n).map (fun i => leBytes 4 (s.cfg p (off + 4 * i)).toNat)).flatten

/-! ### Keys -/

/-- The key of a selector. -/
def State.keySel (s : State) (n : Nat) : KeySel := Tab.get {} s.store.sels n
/-- Set the key of a selector. -/
def State.setKey (s : State) (n : Nat) (k : KeySel) : State :=
  s.modStore (fun t => { t with sels := Tab.set {} t.sels n k })
/-- Where a line stands in the split of MARCH (R257). -/
inductive Zone where
  | current | locked | next
  deriving DecidableEq, Repr
/-- The zone of a line of a selector. -/
def State.zone (s : State) (sel line : Nat) : Zone :=
  let m := s.store.march
  if m.split ∧ sel = m.tgt ∧ m.first ≤ line ∧ line ≤ m.last then
    if line < m.bound then .next else if line < m.hwm then .locked else .current
  else .current
/-- MARCH holds a selector as its target or in a split (R244, R255). -/
def State.marchHolds (s : State) (sel : Nat) : Bool :=
  let m := s.store.march
  decide (sel = m.tgt) && (m.split || !(decide (m.st = .idle) || decide (m.st = .stopped)))
/-- The key set of a selector is always held: small configuration, the record and spill areas, a MARCH target (R245). -/
def State.alwaysHeld (s : State) (sel : Nat) : Bool :=
  !s.large || decide (sel = s.pageKix) || s.marchHolds sel
/-- Entries of the 64 that the always-held sets of the large configuration leave: those of the record and spill areas, and both
sets of a MARCH target (R245). [DEDUCED: log 113] -/
def State.cacheRoom (s : State) : Nat :=
  let m := s.store.march
  64 - (b2n (s.keySel s.pageKix).seed.isSome + b2n (s.marchHolds m.tgt && !decide (m.tgt = s.pageKix)) + b2n m.nextSeed.isSome)
/-- The key set of a selector is in the cache. -/
def State.cached (s : State) (sel : Nat) : Bool := s.alwaysHeld sel || decide (sel ∈ s.store.cache.take s.cacheRoom)
/-- A selector's set has been used: the most recent first (R245). -/
def State.useKey (s : State) (sel : Nat) : State :=
  if s.alwaysHeld sel then s
  else
    let n := s.cacheRoom
    s.modStore (fun t => { t with cache := (sel :: t.cache.filter (· ≠ sel)).take n })

/-! ### Lines -/

/-- A line as it goes to memory: ciphertext and side-band (R246 to R248). -/
def sealLine (master : BitVec 256) (seed : W128) (line sel : Nat) (d : Bytes) : Bytes × Bytes :=
  let (k1, k2, kt, ht) := keySet master seed
  let c := xtsEnc k1 k2 line d
  let tag := lineTag kt ht line sel c
  (c, tag ++ rsCheck (c ++ tag))
/-- The plaintext of a corrected line whose tag is correct under a set. -/
def openLine (master : BitVec 256) (seed : W128) (line sel : Nat) (c tag : Bytes) : Option Bytes :=
  let (k1, k2, kt, ht) := keySet master seed
  if lineTag kt ht line sel c = tag then some (xtsDec k1 k2 line c) else none
/-- The outcome of a line that memory returned (R249, R257). -/
def checkLine (master : BitVec 256) (r : SReq) (data side : Bytes) : FinRes :=
  match rsFix (padTo 64 data ++ padTo 8 side) with
  | none => .ue
  | some (cw, fixed) =>
    let c := cw.take 64
    let tag := slice cw 64 6
    match openLine master r.seed r.line r.sel c tag with
    | some d => .ok d fixed
    | none => match r.seed2 with
      | some sd => (match openLine master sd r.line r.sel c tag with
        | some d => .ok d fixed
        | none => .integ)
      | none => .integ

/-! ### Requests -/

/-- A mask that covers every byte of a line. -/
def fullMask : W64 := BitVec.allOnes 64
/-- Requester code of FAIL_INFO (R263). -/
def Req.code : Req → Nat
  | .pagerIn _ _ | .pageOut _ _ => 1
  | .sawLine _ l => if l < 8 then 1 else 2
  | .spillRd _ _ | .spillWr _ _ | .zeroWr _ _ | .clearWr _ _ | .restartWr _ _ => 2
  | .march => 4
  | _ => 3
/-- Priority class of R21: lower first. [DEDUCED: log 87] -/
def Req.prio (q : Req) : Nat := q.code
/-- A new request joins the engine (R242). -/
def State.storeReq (s : State) (wr : Bool) (line kix : Nat) (who : Req) (data : Bytes) (mask : W64) : State :=
  (s.modStore (fun t => { t with
    nextId := t.nextId + 1,
    wait := t.wait ++ [{ ser := t.nextId, wr := wr, line := line, kix := kix, who := who, data := data, mask := mask }] }))
/-- Read a line. -/
def State.storeRead (s : State) (line kix : Nat) (who : Req) : State := s.storeReq false line kix who [] 0
/-- Write a whole line. -/
def State.storeWrite (s : State) (line kix : Nat) (who : Req) (d : Bytes) : State := s.storeReq true line kix who d fullMask
/-- A lowest free transaction identifier (R41). -/
def State.freeId (s : State) : Option Nat := (List.range 256).find? (fun i => !s.store.out.any (fun r => decide (r.id = i)))
/-- Issue a read on STQ under its sets (R257, R258). MARCH reads a line under the current set; of a line that it issued before and
that may have been rewritten, it tries the next set too. [DESIGN CHOICE: log 60] -/
def State.issueRead (s : State) (r : SReq) (sel : Nat) : State :=
  match s.freeId with
  | none => s.modStore (fun t => { t with wait := t.wait ++ [r] })
  | some i =>
    let cur := ((s.keySel sel).seed).getD 0
    let nxt := s.store.march.nextSeed.getD 0
    let (a, b) := if r.who = .march then (cur, if decide (r.line ∈ s.store.march.redo) && s.store.march.split then some nxt else none)
      else match s.zone sel r.line with
        | .current => (cur, none)
        | .next => (nxt, none)
        | .locked => (cur, some nxt)
    let r := { r with id := i, sel := sel, seed := a, seed2 := b }
    ((s.modStore (fun t => { t with out := t.out ++ [r] })).emit (.stq false r.line sel i [] [])).evt 205 1
/-- Issue a whole-line write on STQ under its set (R41, R257). -/
def State.issueWrite (s : State) (r : SReq) (sel : Nat) (d : Bytes) : State :=
  match s.freeId with
  | none => s.modStore (fun t => { t with wait := t.wait ++ [{ r with data := d, mask := fullMask }] })
  | some i =>
    let cur := ((s.keySel sel).seed).getD 0
    let nxt := s.store.march.nextSeed.getD 0
    let sd := if r.who = .march then nxt
      else match s.zone sel r.line with | .current => cur | _ => nxt
    let r := { r with id := i, sel := sel, seed := sd, wr := true, data := d }
    let ln := sealLine s.store.master sd r.line sel d
    ((s.modStore (fun t => { t with out := t.out ++ [r] })).emit (.stq true r.line sel i ln.1 ln.2)).evt 206 1

/-! ### The write-combining buffer (R251, R252) -/

/-- The entry of a line. -/
def State.wcb (s : State) (line : Nat) : Option Wcb := s.store.wcb.find? (fun w => decide (w.line = line))
/-- Change the entry of a line. -/
def State.modWcb (s : State) (line : Nat) (f : Wcb → Wcb) : State :=
  s.modStore (fun t => { t with wcb := t.wcb.map (fun w => if w.line = line then f w else w) })
/-- Free the entry of a line. -/
def State.freeWcb (s : State) (line : Nat) : State :=
  s.modStore (fun t => { t with wcb := t.wcb.filter (fun w => decide (w.line ≠ line)) })
/-- The entry of a line becomes the most recently used. -/
def State.touchWcb (s : State) (line : Nat) : State :=
  match s.wcb line with
  | some w => s.modStore (fun t => { t with wcb := t.wcb.filter (fun w => decide (w.line ≠ line)) ++ [w] })
  | none => s
/-- Bytes where a mask bit is 1 come from `new`, the others from `old`. -/
def mergeBytes (mask : W64) (new old : Bytes) : Bytes :=
  (List.range 64).map (fun i => if mask.getLsbD i then byteAt new i else byteAt old i)
/-- Merge a partial write into a filled entry. [DEDUCED: log 88] -/
def State.mergeWrite (s : State) (r : SReq) : State :=
  (s.modWcb r.line (fun w => { w with
    data := mergeBytes r.mask r.data w.data, valid := fullMask, dirty := w.dirty ||| r.mask })).touchWcb r.line
/-- An entry may be written back: it is dirty, and MARCH in RUN has not locked its line, which it then takes itself (R252, R262).
[DEDUCED: log 88] -/
def State.mayBack (s : State) (w : Wcb) : Bool :=
  decide (w.dirty ≠ 0) && !w.writing && !w.filling &&
  !(decide (s.store.march.st = .run) && decide (s.zone w.sel w.line = .locked))
/-- Write back a dirty entry. [DEDUCED: log 88] -/
def State.writeBack (s : State) (w : Wcb) : State :=
  let s := s.modStore (fun t => { t with nextId := t.nextId + 1 })
  (s.modWcb w.line (fun w => { w with dirty := 0, writing := true })).issueWrite
    { ser := s.store.nextId, wr := true, line := w.line, kix := w.sel, who := .wcbBack } w.sel w.data
/-- WCB_USED as PD_STORE shows it (R263). -/
def State.wcbUsed (s : State) : W32 :=
  atPos (s.store.wcb.filter (fun w => decide (w.dirty ≠ 0))).length 8 ||| atPos s.store.wcb.length 0
/-- INFO_B of a store line (R301). [DEDUCED: log 88] -/
def storeInfoB (code sel line : Nat) : W32 := atPos code 24 ||| atPos sel 8 ||| atPos (line * 64 / 2 ^ 32) 0
/-- An entry's unwritten bytes are lost (R252, R253). [DEDUCED: log 74] -/
def State.wcbLost (s : State) (w : Wcb) : State :=
  ((s.freeWcb w.line).setFlag .store 0x40 5).evt 200 1 |>.detect 0x2B 0 (lo32 (w.line * 64)) (storeInfoB 3 w.sel w.line)
/-- Room for a new entry: a free place, or the least recently used clean entry; none when every entry is dirty.
[DEDUCED: log 88] -/
def State.wcbRoom (s : State) : Option State :=
  if s.store.wcb.length < 32 then some s
  else match s.store.wcb.find? (fun w => decide (w.dirty = 0) && !w.writing && !w.filling) with
    | some w => some (s.freeWcb w.line)
    | none => none

/-! ### Ends of requests -/

/-- The code of STORE_RESULT for an end (R255). -/
def FinRes.code : FinRes → Nat
  | .ok _ _ => 0x00 | .noRegion => 0x20 | .noKey => 0x21 | .integ => 0x22 | .ue => 0x23 | .bus => 0x24
/-- A host line command ends (R254, R255). [DEDUCED: log 104] -/
def State.hostEnd (s : State) (r : SReq) (f : FinRes) : State :=
  let s := if r.wr then s else
    match f with
    | .ok d _ => s.putBytes .store 0x100 d
    | _ => s.putBytes .store 0x100 (zeros 64)
  s.storeDone f.code (match f with | .ok _ true => 1 | _ => 0)
/-- The failure of a line is recorded (R249). -/
def State.lineFail (s : State) (r : SReq) (f : FinRes) : State :=
  let kind := match f with | .integ => 1 | .ue => 2 | _ => 3
  let fl := match f with | .integ => 1 | .ue => 2 | _ => 7
  let code := r.who.code
  let fresh := !(s.flag .store 0x40 1 || s.flag .store 0x40 2 || s.flag .store 0x40 7)
  let s := s.when fresh (fun s => s.modStore (fun t => { t with
    failAddr := r.line * 64, failInfo := atPos kind 28 ||| atPos code 24 ||| atPos r.sel 0 }))
  let s := s.setFlag .store 0x40 fl
  match f with
  | .integ => (s.evt 194 1).detect 0x29 (r.sel % 512) (lo32 (r.line * 64)) (storeInfoB code r.sel r.line)
  | .ue => (s.evt 193 1).detect 0x28 (r.sel % 512) (lo32 (r.line * 64)) (storeInfoB code r.sel r.line)
  | _ => s.evt 195 1
/-- A request of the pager, the counters or the host ends. -/
def State.endReq (s : State) (r : SReq) (f : FinRes) : State :=
  match r.who with
  | .host => s.hostEnd r f
  | .gone | .wcbFill | .wcbBack | .march => s
  | _ => s.modStore (fun t => { t with fin := t.fin ++ [(r, f)] })
/-- A merge read ends: the entry is filled and the waiting writes merge in order, or all of them fail (R250, R251). -/
def State.fillEnd (s : State) (r : SReq) (f : FinRes) : State :=
  match s.wcb r.line with
  | none => s
  | some w =>
    match f with
    | .ok d c =>
      let s := s.modWcb r.line (fun w => { w with data := d, valid := fullMask, filling := false, waiters := [] })
      (s.forEach w.waiters (fun s q => (s.mergeWrite q).endReq q (.ok [] c))).when w.drop (·.freeWcb r.line)
    | _ => (s.freeWcb r.line).forEach w.waiters (fun s q => s.endReq q f)
/-- A write-back ends (R252). -/
def State.backEnd (s : State) (r : SReq) (f : FinRes) : State :=
  match s.wcb r.line with
  | none => s
  | some w => match f with
    | .ok _ _ => s.modWcb r.line (fun w => { w with writing := false })
    | _ => s.wcbLost w
/-- A whole write to a buffered line ends: the entry is clean, or is given up. [DEDUCED: log 89] -/
def State.wholeEnd (s : State) (r : SReq) (f : FinRes) : State :=
  match s.wcb r.line with
  | none => s
  | some w =>
    if w.writing then
      match f with
      | .ok _ _ => s.modWcb r.line (fun w => { w with writing := false })
      | _ => s.freeWcb r.line
    else s

/-! ### MARCH (R256 to R261) -/

/-- Change MARCH. [DEDUCED: log 92] -/
def State.modMarch (s : State) (f : March → March) : State := s.modStore (fun t => { t with march := f t.march })
/-- BOUND passes the longest run of re-keyed lines (R258). -/
def boundRun (re : NatSet) : Nat → Nat → Nat
  | 0, b => b
  | k + 1, b => if b ∈ re then boundRun re k (b + 1) else b
/-- The walk has nothing in flight: a PAUSE or a STOP takes effect (R261). [DEDUCED: log 92] -/
def State.marchSettle (s : State) : State :=
  let m := s.store.march
  if m.flight.isEmpty ∧ m.stopping then
    s.modMarch (fun m => { m with st := .stopped, reason := 0, failed := none, stopping := false, pausing := false })
  else if m.bound = m.hwm ∧ m.pausing then s.modMarch (fun m => { m with st := .paused, pausing := false })
  else s
/-- The walk is complete: the next set becomes the current one (R258). -/
def State.marchDone (s : State) : State :=
  let m := s.store.march
  let k := s.keySel m.tgt
  let s := s.setKey m.tgt { k with seed := m.nextSeed }
  let s := s.modMarch (fun m => { m with
    st := .idle, split := false, nextSeed := none, rekeyed := [], flight := [], redo := [], failed := none, reason := 0,
    pausing := false, stopping := false })
  (s.setFlag .march 0x40 1).evt 201 1
/-- A line has been re-keyed. [DESIGN CHOICE: log 60] -/
def State.marchRekeyed (s : State) (line : Nat) : State :=
  let s := s.modMarch (fun m =>
    let re := insNat m.rekeyed line
    let b := boundRun re 200 m.bound
    { m with rekeyed := re.filter (fun x => decide (b ≤ x)), flight := delNat m.flight line, redo := delNat m.redo line, bound := b })
  let s := s.evt 209 1
  let m := s.store.march
  if m.last < m.bound then s.marchDone else s.marchSettle
/-- A line of the walk has failed: HALTED at that line (R261). -/
def State.marchFail (s : State) (line reason : Nat) : State :=
  let m := s.store.march
  let s := s.modMarch (fun m => { m with flight := delNat m.flight line })
  let s := s.when (decide (m.st = .run)) (fun s =>
    ((s.modMarch (fun m => { m with st := .halted, pausing := false, reason := reason, failed := some line })).setFlag
      .march 0x40 2).evt 202 1)
  let s := s.when (decide (m.st = .halted)) (fun s => s.modMarch (fun m => { m with
    failed := some (match m.failed with | some f => min f line | none => line) }))
  s.marchSettle
/-- A MARCH read or write ends. [DESIGN CHOICE: log 60] -/
def State.marchEnd (s : State) (r : SReq) (f : FinRes) : State :=
  match f with
  | .ok d _ =>
    if r.wr then
      ((s.modWcb r.line (fun w => { w with writing := false })).marchRekeyed r.line)
    else s.modStore (fun t => { t with wait := t.wait ++ [{ r with wr := true, data := d, mask := fullMask }] })
  | e =>
    let s := s.when r.wr (·.modWcb r.line (fun w => if w.writing then { w with writing := false, dirty := fullMask } else w))
    s.marchFail r.line (match e with | .integ => 1 | .ue => 2 | _ => 3)

/-! ### The pump -/

/-- End a request by its kind. -/
def State.finish (s : State) (r : SReq) (f : FinRes) : State :=
  match r.who with
  | .wcbFill => s.fillEnd r f
  | .wcbBack => s.backEnd r f
  | .march => s.marchEnd r f
  | .gone => s
  | _ => (s.when r.wr (·.wholeEnd r f)).endReq r f
/-- A pending commit of the STORE page affects a line (R244). -/
def State.commitHolds (s : State) (line : Nat) : Bool :=
  (s.hdr .store).pending &&
  ((let a := min 1024 (fld (s.cfg .store 0x84) 10 0); let b := min 1024 (fld (s.stg .store 0x84) 10 0)
    decide (a ≠ b) && decide (min a b * 2 ^ 24 ≤ line)) ||
  (List.range 16).any (fun r =>
    let same := (List.range 3).all (fun k => decide (s.cfg .store (0x200 + 16 * r + 4 * k) = s.stg .store (0x200 + 16 * r + 4 * k)))
    let lo := fld (s.cfg .store (0x200 + 16 * r)) 27 0 * 64
    let hi := fld (s.cfg .store (0x204 + 16 * r)) 27 0 * 64 + 63
    let lo2 := fld (s.stg .store (0x200 + 16 * r)) 27 0 * 64
    let hi2 := fld (s.stg .store (0x204 + 16 * r)) 27 0 * 64 + 63
    !same && ((decide (lo ≤ line) && decide (line ≤ hi)) || (decide (lo2 ≤ line) && decide (line ≤ hi2)))))
/-- An earlier request to the same line goes first (R251); MARCH goes ahead of those that wait, which its lock holds (R259). -/
def State.lineBusy (s : State) (r : SReq) : Bool :=
  (if r.who = .march then s.store.out else s.store.wait ++ s.store.out).any (fun q => decide (q.line = r.line) && decide (q.ser < r.ser) && (q.wr || r.wr) &&
    !decide (q.who = .gone) && !decide (q.who = .wcbFill) && !decide (q.who = .wcbBack))
/-- A request is locked out by MARCH in RUN (R257, R259). -/
def State.lockedOut (s : State) (r : SReq) : Bool :=
  !decide (r.who = .march) && decide (s.store.march.st = .run) &&
  (match s.selOf r.line r.kix with | some sel => decide (s.zone sel r.line = .locked) | none => false)
/-- The refusal of a request without memory access, if any (R243). -/
def State.refusal (s : State) (r : SReq) : Option FinRes :=
  if s.storeTop ≤ r.line then some .noRegion
  else match s.selOf r.line r.kix with
    | none => some .noRegion
    | some sel => if (s.keySel sel).seed.isNone then some .noKey else none
/-- A request may proceed now. -/
def State.ready (s : State) (r : SReq) : Bool :=
  !s.lineBusy r &&
  (s.held .store || (s.dom 45).unavail ||
   (s.domUp 45 && decide (s.store.pipesOut.length < 2) && !s.resetOn .store && !s.commitHolds r.line && !s.lockedOut r &&
    (match s.wcb r.line with
     | some w => !w.filling || (r.wr && decide (r.mask ≠ fullMask) && !w.drop)
     | none => true) &&
    ((s.refusal r).isSome || (match s.selOf r.line r.kix with | some sel => s.cached sel | none => true)) &&
    s.freeId.isSome))
/-- Serve a request to a line that the write-combining buffer holds (R251). [DEDUCED: log 88] -/
def State.serveHit (s : State) (r : SReq) (sel : Nat) (w : Wcb) : State :=
  if w.filling then s.modWcb r.line (fun w => { w with waiters := w.waiters ++ [r] })
  else if r.wr then
    if r.mask = fullMask then
      (s.modWcb r.line (fun w => { w with data := r.data, valid := fullMask, dirty := 0, writing := true })).issueWrite r sel r.data
    else ((s.mergeWrite r).evt 207 1).finish r (.ok [] false)
  else if r.who = .march then
    (s.modWcb r.line (fun w => { w with dirty := 0, writing := true })).marchEnd r (.ok w.data false)
  else ((s.touchWcb r.line).evt 207 1).finish r (.ok w.data false)
/-- A partial write takes a free entry and starts its merge read. -/
def State.serveFill (s : State) (r : SReq) (sel : Nat) : State :=
  let s := (s.modStore (fun t => { t with
    nextId := t.nextId + 1,
    wcb := t.wcb ++ [{ line := r.line, sel := sel, data := zeros 64, valid := 0, dirty := 0, filling := true, waiters := [r] }] })).evt 208 1
  s.issueRead { ser := s.store.nextId, wr := false, line := r.line, kix := r.kix, who := .wcbFill } sel
/-- A partial write finds no clean entry: it waits, and the least recently used dirty entry is written back (R252).
[DEDUCED: log 88] -/
def State.serveFull (s : State) (r : SReq) : State :=
  let s := s.modStore (fun t => { t with wait := t.wait ++ [r] })
  match s.store.wcb.find? s.mayBack with
  | some w => s.writeBack w
  | none => s
/-- Serve a request to a line that the write-combining buffer does not hold. -/
def State.serveMiss (s : State) (r : SReq) (sel : Nat) : State :=
  if !r.wr then s.issueRead r sel
  else if r.mask = fullMask then s.issueWrite r sel r.data
  else match s.wcbRoom with
    | some s => s.serveFill r sel
    | none => s.serveFull r
/-- Serve a request under the key set of its selector. -/
def State.serveSel (s : State) (r : SReq) (sel : Nat) : State :=
  match s.wcb r.line with
  | some w => s.serveHit r sel w
  | none => s.serveMiss r sel
/-- Serve a request that no longer waits. -/
def State.serveNow (s : State) (r : SReq) : State :=
  if s.held .store ∨ (s.dom 45).unavail then s.finish r .bus
  else match s.refusal r with
    | some .noRegion => ((s.setFlag .store 0x40 4).evt 196 1).finish r .noRegion
    | some f => (s.evt 197 1).finish r f
    | none => (s.useKey ((s.selOf r.line r.kix).getD 0)).serveSel r ((s.selOf r.line r.kix).getD 0)
/-- A request of a class is served: the waiting requests of every other class have been passed once more (R21). -/
def State.notePassed (s : State) (r : SReq) : State :=
  s.modStore (fun t => { t with passed := (List.range 5).foldl (fun p c => Tab.set 0 p c
    (if c ≠ r.who.prio ∧ t.wait.any (fun q => decide (q.who.prio = c)) = true then Tab.get 0 p c + 1 else 0)) t.passed })
/-- Serve a request that may proceed (R243, R251). -/
def State.serve (s : State) (r : SReq) : State :=
  ((s.modStore (fun t => { t with
    wait := t.wait.filter (fun q => decide (q.ser ≠ r.ser) || decide (q.wr ≠ r.wr)) })).notePassed r).serveNow r
/-- A request that needs an entry finds none clean, and a write-back or the merge reads are to be awaited. -/
def State.wcbFull (s : State) (r : SReq) : Bool :=
  r.wr && decide (r.mask ≠ fullMask) && (s.wcb r.line).isNone && decide (32 ≤ s.store.wcb.length) &&
  s.store.wcb.all (fun w => decide (w.dirty ≠ 0) || w.writing || w.filling) &&
  (s.store.wcb.any (·.writing) || !s.store.wcb.any s.mayBack)
/-- The first of some requests: by class, then by arrival. -/
def firstReq (l : List SReq) : Option SReq :=
  l.foldl (fun b r => match b with
    | none => some r
    | some q => if r.who.prio < q.who.prio ∨ (r.who.prio = q.who.prio ∧ r.ser < q.ser) then some r else some q) none
/-- The request to serve next: by class, then by arrival; but first one of a class that 13 others have passed, so that each of
the three lower classes has one in 16 (R21). [DEDUCED: log 87] -/
def State.nextReq (s : State) : Option SReq :=
  let l := s.store.wait.filter (fun r => s.ready r && !s.wcbFull r)
  (firstReq (l.filter (fun r => decide (13 ≤ Tab.get 0 s.store.passed r.who.prio)))).or (firstReq l)
/-- Serve requests while one may proceed. [DEDUCED: log 87] -/
def pumpStoreN : Nat → State → State
  | 0, s => s
  | k + 1, s => match s.nextReq with
    | some r => pumpStoreN k (s.serve r)
    | none => s
/-- Requests that wait for a lock or a key set are counted once (R245, R259). -/
def State.countWaits (s : State) : State :=
  s.forEach s.store.wait (fun s r =>
    let s := s.when (s.lockedOut r && !r.lockCounted) (fun s => (s.modStore (fun t => { t with
      wait := t.wait.map (fun q => if q.ser = r.ser then { q with lockCounted := true } else q) })).evt 204 1)
    match s.selOf r.line r.kix with
    | some sel => s.when (s.domUp 45 && (s.keySel sel).seed.isSome && !s.cached sel && !r.missCounted)
        (fun s => (s.modStore (fun t => { t with
          missed := insNat t.missed sel,
          wait := t.wait.map (fun q => if q.ser = r.ser then { q with missCounted := true } else q) })).evt 199 1)
    | none => s)
/-- WCB_FLUSH ends when no entry is dirty or being written (R254). [DEDUCED: log 88] -/
def State.flushCheck (s : State) : State :=
  match s.store.cmd with
  | some c =>
    if cmdOp c = 5 ∧ fld c 31 29 = 0 ∧ fld c 15 8 = 0 ∧ s.domUp 45 = true ∧ s.wcbDirty = false then s.storeDone 0 0 else s
  | none => s
/-- Serve what the engine can serve. -/
def State.pumpStore (s : State) : State := ((pumpStoreN (4 * s.store.wait.length + 8) s).countWaits).flushCheck

/-! ### Responses -/

/-- The request of an ID on STQ, taken off the list. -/
def State.takeOut (s : State) (wr : Bool) (id : Nat) : Option (SReq × State) :=
  match s.store.out.find? (fun r => decide (r.id = id) && (r.wr == wr)) with
  | some r => some (r, s.modStore (fun t => { t with out := t.out.filter (fun q => decide (q.id ≠ id)) }))
  | none => none
/-- A read response (R43, R249). -/
def State.readResp (s : State) (r : SReq) (err : Bool) (data side : Bytes) : State :=
  let f := if err then FinRes.bus else checkLine s.store.master r data side
  match f with
  | .ok _ true => ((s.setFlag .store 0x40 3).evt 192 1).finish r f
  | .ok _ false => s.finish r f
  | _ => (s.lineFail r f).finish r f
/-- A write response (R43). -/
def State.writeResp (s : State) (r : SReq) (err : Bool) : State :=
  if err then (s.lineFail r .bus).finish r .bus else s.finish r (.ok [] false)
/-- End a request in flight with a bus error; its response is still to come (R42, R253). [DESIGN CHOICE: log 86] -/
def State.endOut (s : State) (r : SReq) : State :=
  (s.modStore (fun t => { t with out := t.out.map (fun q => if q.id = r.id then { q with who := .gone } else q) })).finish r .bus
/-- Requests that nobody awaits any more: those that wait are taken back, those in flight are answered to nobody (R42). -/
def State.forgetReqs (s : State) (p : Req → Bool) : State :=
  let s := s.modStore (fun t => { t with wait := t.wait.filter (fun r => !p r.who), fin := t.fin.filter (fun q => !p q.1.who) })
  s.forEach (s.store.out.filter (fun r => p r.who)) (fun s r =>
    (s.modStore (fun t => { t with out := t.out.map (fun q => if q.id = r.id then { q with who := .gone } else q) })).when r.wr
      (·.wholeEnd r .bus))
/-- Lines of the walk in flight are abandoned; an entry that MARCH had taken is dirty again (R261). [DEDUCED: log 92] -/
def State.marchAbandon (s : State) : State :=
  let ws := (s.store.wait ++ s.store.out).filter (fun r => decide (r.who = .march) && r.wr)
  let s := s.forEach ws (fun s r => s.modWcb r.line (fun w =>
    if w.writing then { w with writing := false, dirty := fullMask } else w))
  (s.forgetReqs (fun q => decide (q = .march))).modMarch (fun m => { m with flight := [], redo := [] })
/-- A held MARCH is STOPPED, and a split is kept (R307). [DEDUCED: log 92] -/
def State.marchHold (s : State) : State :=
  (s.marchAbandon).modMarch (fun m => { m with
    st := .stopped, reason := 0, failed := none, pausing := false, stopping := false })
/-- A reset of MARCH stops the walk where it stands; without a split it is IDLE (R261). [DEDUCED: log 92] -/
def State.marchDrop (s : State) : State := if s.store.march.split then s.marchHold else (s.marchHold).modMarch (fun m => { m with st := .idle })
/-- MARCH is in IDLE with no split; lines in flight are abandoned (R261). -/
def State.marchIdle (s : State) : State :=
  (s.marchAbandon).modMarch (fun m => { m with st := .idle, split := false, nextSeed := none, rekeyed := [], redo := [],
                                               reason := 0, failed := none, pausing := false, stopping := false })
/-- The entries of a selector go without a write-back; the writes that wait on a merge read finish first (R254, R262).
[DEDUCED: log 88] -/
def State.leaveWcb (s : State) (sel : Nat) : State :=
  s.modStore (fun t => { t with wcb := (t.wcb.filter (fun w => decide (w.sel ≠ sel) || w.filling)).map (fun w =>
    if w.sel = sel then { w with drop := true } else w) })
/-- Discard the buffer entries of some selectors without a write-back; their waiting writes fail. -/
def State.dropWcb (s : State) (p : Nat → Bool) : State :=
  s.forEach (s.store.wcb.filter (fun w => p w.sel)) (fun s w => (s.freeWcb w.line).forEach w.waiters (fun s q => s.endReq q .bus))

end Sys2Proof.Machine
end

