-- ==== Sys2Proof/Machine/Counters.lean ====
section
/-! DEFINITION. Counters: the counter tree with its spills and restarts (R374 to R382), the event counters
(R383 to R385), the port counters (R367) and the bandwidth windows (R388). -/
namespace Sys2Proof.Machine

/-! ### Fields of the tree -/

/-- A field of an entry. -/
def Entry.field (en : Entry) (i : Nat) : W32 := Tab.get 0 en.ctr i
/-- Set a field. -/
def Entry.setField (en : Entry) (i : Nat) (v : W32) : Entry := { en with ctr := Tab.set 0 en.ctr i v }
/-- Set POISON bits (F30). -/
def Entry.addPoison (en : Entry) (m : W32) : Entry := en.setField 30 (en.field 30 ||| m)
/-- RESTARTS counts once more, up to 0xFF (F31). -/
def Entry.restart (en : Entry) : Entry :=
  en.setField 31 (atPos (min 255 (fld (en.field 31) 31 24 + 1)) 24)
/-- Add to a leaf; a leaf that reaches 0xFFFF_FFFF keeps that value and is poisoned (R378). -/
def Entry.addField (en : Entry) (i k : Nat) : Entry :=
  let v := (en.field i).toNat + k
  if 0xFFFFFFFF ≤ v then (en.setField i 0xFFFFFFFF).addPoison (1#32 <<< i) else en.setField i (BitVec.ofNat 32 v)
/-- The slot statistics of a slot, by direction (R376). -/
def slotFields (rx slotB : Bool) : List Nat :=
  if rx then (if slotB then [15, 16, 17] else [12, 13, 14]) else (if slotB then [8, 9] else [6, 7])
/-- The fields of a trunk line that hold statistics. -/
def lineFields (l : Nat) : List Nat := ((List.range 8).map (fun j => 8 * l + j)).filter (· < 30)
/-- The bytes of a trunk line that some fields of it take (R377). -/
def trunkMask (l : Nat) (fs : List Nat) : W64 :=
  (fs.filter (fun i => i / 8 = l)).foldl (fun m i => m ||| ((0xFF#64) <<< (8 * (i % 8)))) 0
/-- The trunks of a line. -/
def trunksOf (d : Bytes) : List Nat := (List.range 8).map (fun j => ofBe (slice d (8 * j) 8))
/-- A trunk line; trunks 30 and 31 are written 0 (R377). -/
def trunkLineOf (l : Nat) (ts : List Nat) : Bytes :=
  ((List.range 8).map (fun j => beBytes 8 (if 8 * l + j < 30 then ts.getD j 0 % 2 ^ 64 else 0))).flatten

/-! ### Spills -/

/-- The zero write of a trunk line has not succeeded: some true when it waits for its retry (R378). -/
def State.zeroSt (s : State) (x l : Nat) : Option Bool := Tab.get none s.store.zeros (4 * x + l)
/-- Set that state. -/
def State.setZero (s : State) (x l : Nat) (v : Option Bool) : State :=
  s.modStore (fun t => { t with zeros := Tab.set none t.zeros (4 * x + l) v })
/-- Some zero write of a channel has not succeeded. -/
def State.zerosLeft (s : State) (x : Nat) : Bool := (List.range 4).any (fun l => (s.zeroSt x l).isSome)
/-- Some zero write of a channel is in flight. -/
def State.zeroFlying (s : State) (x : Nat) : Bool := (List.range 4).any (fun l => s.zeroSt x l == some false)
/-- A spill of a channel has not ended. -/
def State.spilling (s : State) (x : Nat) : Bool := s.store.spills.any (fun p => decide (p.chix = x))
/-- Change one spill. -/
def State.modSpill (s : State) (x l : Nat) (f : Spill → Spill) : State :=
  s.modStore (fun t => { t with spills := t.spills.map (fun p => if p.chix = x ∧ p.line = l then f p else p) })
/-- A spill ends. -/
def State.dropSpill (s : State) (x l : Nat) : State :=
  s.modStore (fun t => { t with spills := t.spills.filter (fun p => !(decide (p.chix = x) && decide (p.line = l))) })
/-- The leaves of a line of a resident channel. -/
def State.leaves (s : State) (x l : Nat) : List W32 :=
  match s.resident x with
  | some e => (match s.entry e with
    | some en => (List.range 8).map (fun j => if 8 * l + j < 30 then en.field (8 * l + j) else 0)
    | none => [])
  | none => []
/-- Write a trunk line from its old trunks and the leaves of now, which are captured (R378). -/
def State.spillWrite (s : State) (x l : Nat) (old : List Nat) : State :=
  let cap := s.leaves x l
  let ts := (List.range 8).map (fun j => old.getD j 0 + (cap.getD j 0).toNat)
  (s.modSpill x l (fun p => { p with cap := cap, retry := false })).storeWrite (s.trunkLine x l) s.pageKix
    (.spillWr x l) (trunkLineOf l ts)
/-- A STAT_READ of the channel is reading its trunk lines, and holds further spills (R380). -/
def State.statHolds (s : State) (x : Nat) : Bool :=
  match s.pager.saw with
  | some c => decide (cmdChix c = x) && !s.pager.sawLeft.isEmpty
  | none => false
/-- Start, or retry, an outstanding spill: it reads its trunk line, unless a zero write of the line has failed (R378). -/
def State.spillGo (s : State) (x l : Nat) : State :=
  match s.zeroSt x l with
  | some true => s.spillWrite x l []
  | some false => s
  | none => s.storeRead (s.trunkLine x l) s.pageKix (.spillRd x l)
/-- Spills become outstanding while fewer than 16 are. -/
def State.spillNext (s : State) : State :=
  s.forEach s.store.spills (fun s p =>
    if p.active = false ∧ (s.store.spills.filter (·.active)).length < 16 ∧ s.statHolds p.chix = false ∧
        s.zeroSt p.chix p.line ≠ some false then
      ((s.modSpill p.chix p.line (fun q => { q with active := true })).evt 242 1).spillGo p.chix p.line
    else s)
/-- Spill every line of a channel that holds a leaf with bit 31 set (R378). -/
def State.spillScan (s : State) (x : Nat) : State :=
  let s := s.forEach (List.range 4) (fun s l =>
    if (s.leaves x l).any (fun v => v.getLsbD 31) ∧ s.store.spills.any (fun p => decide (p.chix = x) && decide (p.line = l)) = false
    then s.modStore (fun t => { t with spills := t.spills ++ [{ chix := x, line := l }] })
    else s)
  s.spillNext
/-- Restart fields: leaf and trunk 0, POISON set, RESTARTS once (R382). A spill in flight adds nothing to them.
[DEDUCED: log 89] -/
def State.restartLeaves (s : State) (x : Nat) (fs : List Nat) : State :=
  match s.resident x with
  | none => s
  | some e =>
    let s := s.modEntry e (fun en =>
      ((fs.foldl (fun en i => en.setField i 0) en).addPoison (orAll (fs.map (fun i => 1#32 <<< i)))).restart)
    s.modStore (fun t => { t with spills := t.spills.map (fun p =>
      if p.chix = x then { p with cap := (List.range p.cap.length).map (fun j =>
        if (8 * p.line + j) ∈ fs then 0 else p.cap.getD j 0) } else p) })
/-- Write zero trunks for some fields of a channel. [DEDUCED: log 63, 89] -/
def State.zeroTrunks (s : State) (x : Nat) (fs : List Nat) (who : Nat → Req) : State :=
  s.forEach ((List.range 4).filter (fun l => trunkMask l fs ≠ 0)) (fun s l =>
    s.storeReq true (s.trunkLine x l) s.pageKix (who l) (zeros 64) (trunkMask l fs))
/-- A slot becomes LIVE: its statistics are 0, in leaf and trunk (R375, R389). [DEDUCED: log 63] -/
def State.zeroSlotStats (s : State) (e : Nat) (slotB : Bool) : State :=
  match s.entry e with
  | none => s
  | some en =>
    let fs := slotFields (cRx en.cfg0) slotB
    let s := s.modEntry e (fun en => fs.foldl (fun en i => en.setField i 0) en)
    let s := s.modStore (fun t => { t with spills := t.spills.map (fun p =>
      if p.chix = en.chix then { p with cap := (List.range p.cap.length).map (fun j =>
        if (8 * p.line + j) ∈ fs then 0 else p.cap.getD j 0) } else p) })
    s.zeroTrunks en.chix fs (fun l => .restartWr en.chix l)
/-- A new channel: four zero lines for its trunk cell (R378). -/
def State.zeroCell (s : State) (x : Nat) : State :=
  s.forEach (List.range 4) (fun s l =>
    (s.setZero x l (some false)).storeWrite (s.trunkLine x l) s.pageKix (.zeroWr x l) (zeros 64))

/-- The read of a spill ends (R250, R378, R382). -/
def State.spillRead (s : State) (x l : Nat) (f : FinRes) : State :=
  if !s.store.spills.any (fun p => decide (p.chix = x) && decide (p.line = l) && p.active) then s
  else match f with
    | .ok d _ => s.spillWrite x l (trunksOf d)
    | .ue | .integ =>
      let s := ((s.restartLeaves x (lineFields l)).evt 243 1).modSpill x l (fun p => { p with fail := true })
      s.spillWrite x l []
    | _ => s.modSpill x l (fun p => { p with retry := true })
/-- The write of a spill ends: each captured leaf is taken from its live leaf (R378). -/
def State.spillWrote (s : State) (x l : Nat) (f : FinRes) : State :=
  match s.store.spills.find? (fun p => decide (p.chix = x) && decide (p.line = l) && p.active) with
  | none => s
  | some p => match f with
    | .ok _ _ =>
      let s := match s.resident x with
        | some e => s.modEntry e (fun en => (List.range 8).foldl (fun en j =>
            if 8 * l + j < 30 then en.setField (8 * l + j) (en.field (8 * l + j) - p.cap.getD j 0) else en) en)
        | none => s
      ((s.dropSpill x l).setZero x l none).spillNext |>.spillScan x
    | _ => s.modSpill x l (fun p => { p with retry := true })
/-- A zero write of a trunk line ends (R378). [DEDUCED: log 89] -/
def State.zeroWrote (s : State) (x l : Nat) (f : FinRes) : State :=
  match s.zeroSt x l with
  | none => s
  | some _ => match f with
    | .ok _ _ => (s.setZero x l none).spillNext
    | _ => (s.setZero x l (some true)).spillNext
/-- The 100 µs of a spill or of a zero write are over (R378). [DEDUCED: log 89] -/
def State.spillAgain (s : State) (x l : Nat) : State :=
  let s := if s.zeroSt x l = some true ∧ s.store.spills.any (fun p => decide (p.chix = x) && decide (p.line = l) && p.active) = false then
      ((s.setZero x l (some false)).evt 244 1).storeWrite (s.trunkLine x l) s.pageKix (.zeroWr x l) (zeros 64)
    else s
  match s.store.spills.find? (fun p => decide (p.chix = x) && decide (p.line = l) && p.active && p.retry) with
  | some p =>
    let s := (s.modSpill x l (fun p => { p with retry := false })).evt 244 1
    if p.fail then s.spillWrite x l [] else s.spillGo x l
  | none => s

/-! ### Outcomes (R379) -/

/-- Add a counted outcome to the leaves of a resident channel. -/
def State.applyOutcome (s : State) (o : Counted) : State :=
  match s.resident o.chix with
  | some e => (s.modEntry e (fun en => o.incs.foldl (fun en p => en.addField p.1 p.2) en)).spillScan o.chix
  | none => s
/-- The outcomes of one channel that wait. -/
def State.outcomesOf (s : State) (x : Nat) : List Counted := s.cnt.queue.filter (fun o => decide (o.chix = x))
/-- Apply every waiting outcome of a resident channel. -/
def State.applyAll (s : State) (x : Nat) : State :=
  (s.forEach (s.outcomesOf x) (fun s o => s.applyOutcome o)).modCnt
    (fun c => { c with queue := c.queue.filter (fun o => decide (o.chix ≠ x)) })

/-! ### Event counters (R383 to R385) -/

/-- The event-counter page of a counter. -/
def evcPage (n : Nat) : Page := .evc (n / 64)
/-- Offset of the mode or wrap word of a counter, from the word of counter 0. -/
def evcWord (n : Nat) : Nat := 4 * (n % 64 / 32)
/-- The frames a capture may name, each with its distance from the overflowing occurrence (R385). [DESIGN CHOICE: log 13] -/
def capChoices (occ : List (Option Nat × Nat × Dir)) (rem : Nat) : List (Nat × Option Nat × Nat × Dir) :=
  let tail := occ.drop (occ.length - 1 - rem)
  match tail with
  | [] => []
  | o :: rest =>
    (0, o) :: (((List.range rest.length).map (fun i => (i + 1, rest.getD i o))).filter
      (fun p => decide (p.2.2.1 = o.2.1) && decide (p.2.2.2 = o.2.2))).take 32
/-- The capture words of an occurrence (R385). [DESIGN CHOICE: log 13] -/
def capWords (n : Nat) (o : Option (Nat × Option Nat × Nat × Dir)) : W32 × W32 :=
  match o with
  | none => (0, atBit true 31 ||| atPos n 22)
  | some (k, x, lane, d) =>
    (atPos (x.getD 0) 12 ||| atPos k 0,
     atBit true 31 ||| atPos n 22 ||| atBit x.isSome 21 ||| atBit true 20 ||| atPos lane 15 ||| atBit (decide (d = .ingress)) 14)
/-- An event counter overflows (R385, R373): `rem` occurrences follow the overflowing one. [DESIGN CHOICE: log 13] -/
def State.evcOverflow (s : State) (n rem : Nat) (occ : List (Option Nat × Nat × Dir)) : State :=
  let p := evcPage n
  if bit (s.cfg p (0x88 + evcWord n)) (n % 32) then
    if s.flag p 0x40 1 then s.setFlag p 0x40 2
    else
      let cs := capChoices occ rem
      let o := cs[Config.freeSkid s.freeCtr % cs.length]?
      let w := capWords n o
      (((s.draw).setRo p 0x90 w.1).setRo p 0x94 w.2).setFlag p 0x40 1
  else s.setFlag p (0x80 + evcWord n) (n % 32)
/-- The update slot of an event counter: its preset lands first, then its occurrences are added (R383, R384).
[DEDUCED: log 39] -/
def State.evcUpdate (s : State) (n : Nat) : State :=
  let c := s.cnt
  let base := (Tab.get none c.preset n).getD (Tab.get 0 c.evc n)
  let k := Tab.get 0 c.acc n
  let occ := Tab.get [] c.occs n
  let sum := base.toNat + k
  let s := s.modCnt (fun c => { c with
    evc := Tab.set 0 c.evc n (BitVec.ofNat 48 sum), acc := Tab.set 0 c.acc n 0,
    preset := Tab.set none c.preset n none, occs := Tab.set [] c.occs n [] })
  if 2 ^ 48 ≤ sum then s.evcOverflow n (sum - 2 ^ 48) occ else s

/-! ### Bandwidth windows (R388) -/

/-- BW_WINDOW in force. -/
def State.bwWindow (s : State) : Nat := max 1 (fld (s.cfg .perf 0x80) 19 0)
/-- Count bytes of a port in the open window. -/
def State.bwAdd (s : State) (port : Nat) (d : Dir) (k : Nat) : State :=
  s.modCnt (fun c => { c with bw := Tab.modify 0 c.bw (2 * port + b2n (decide (d = .ingress))) (· + k) })
/-- The bandwidth of segments that BSI brings, whether or not their frame is kept (R388). [DEDUCED: log 41] -/
def State.bwIn (s : State) (d : Dir) (port k : Nat) : State := s.when (decide (d = .ingress)) (·.bwAdd port .ingress k)
/-- The rate of a total over a window. -/
def bwRate (b w : Nat) : Nat := min 0xFFFF (8 * b / (100 * w))
/-- The open window closes. -/
def State.bwClose (s : State) : State :=
  let c := s.cnt
  let s := if bit (s.cfg .perf 0x84) 0 then s
    else s.forEach (List.range 32) (fun s p => s.setRo .perf (0x100 + 4 * p)
      (atPos (bwRate (Tab.get 0 c.bw (2 * p + 1)) c.bwWin) 16 ||| atPos (bwRate (Tab.get 0 c.bw (2 * p)) c.bwWin) 0))
  let s := (s.setRo .perf 0x88 (s.roW .perf 0x88 + 1)).setFlag .perf 0x40 0
  s.modCnt (fun c => { c with bw := [], bwWin := s.bwWindow })

end Sys2Proof.Machine
end

