-- ==== Sys2Proof/Machine/LeaseUnit.lean ====
section
/-! DEFINITION. The lease unit: chunks and ceilings, journal entries and sectors, the draw of a PN, and the start-up
scan (R176 to R193, R197, R400). -/
namespace Sys2Proof.Machine

/-! ### Byte forms -/

/-- A sector header (R183); state 0x0F open, 0xF0 retired. -/
def jHeader (state : Byte) (sector openSeq wcount : Nat) : Bytes :=
  let b := ([0x43, 0x57, 0x4A, 0x31] : Bytes) ++ [state, 0x01] ++ beBytes 2 sector ++ beBytes 8 openSeq ++
    beBytes 4 wcount ++ zeros 8
  b ++ beBytes 4 (crc32 b).toNat
/-- A journal entry (R184). -/
def jEntry (e : JEnt) (seq : Nat) : Bytes :=
  let b := beBytes 1 (0x40 + b2n e.av * 32 + b2n e.bv * 16 + e.chix / 65536 % 16) ++ beBytes 2 (e.chix % 65536) ++
    [BitVec.ofNat 8 e.kind.toNat] ++ beBytes 4 e.tagA.toNat ++ beBytes 6 (e.ceilA / 65536) ++
    beBytes 4 e.tagB.toNat ++ beBytes 6 (e.ceilB / 65536) ++ beBytes 4 seq
  b ++ beBytes 4 (crc32 b).toNat
/-- Read a sector header: retired, OPEN_SEQ and WCOUNT; none when it is invalid (R183, R192). -/
def readHeader (sector : Nat) (b : Bytes) : Option (Bool × Nat × Nat) :=
  let st := byteAt b 4
  if slice b 0 4 = ([0x43, 0x57, 0x4A, 0x31] : Bytes) ∧ (st = 0x0F ∨ st = 0xF0) ∧ byteAt b 5 = 0x01 ∧
     ofBe (slice b 6 2) = sector ∧ ofBe (slice b 28 4) = (crc32 (b.take 28)).toNat
  then some (decide (st = 0xF0), ofBe (slice b 8 8), ofBe (slice b 16 4)) else none
/-- Read an entry under the OPEN_SEQ of its header; none when it is not accepted (R192 step 2). -/
def readEntry (openSeq : Nat) (b : Bytes) : Option JEnt :=
  let b0 := (byteAt b 0).toNat
  if ofBe (slice b 28 4) = (crc32 (b.take 28)).toNat ∧ b0 / 64 = 1 ∧ ofBe (slice b 24 4) = openSeq % 2 ^ 32 then
    some { chix := b0 % 16 * 65536 + ofBe (slice b 1 2), kind := byteAt b 3, av := b0 / 32 % 2 = 1,
           tagA := BitVec.ofNat 32 (ofBe (slice b 4 4)), ceilA := ofBe (slice b 8 6) * 65536,
           bv := b0 / 16 % 2 = 1, tagB := BitVec.ofNat 32 (ofBe (slice b 14 4)), ceilB := ofBe (slice b 18 6) * 65536 }
  else none

/-! ### Content of a channel's entry -/

/-- An entry without valid halves. -/
def JEnt.blank (chix : Nat) : JEnt :=
  { chix := chix, kind := 0, av := false, tagA := 0, ceilA := 0, bv := false, tagB := 0, ceilB := 0 }
/-- The valid half of a slot: key tag and ceiling. -/
def JEnt.half (e : JEnt) (b : Bool) : Option (W32 × Nat) :=
  if b then (if e.bv then some (e.tagB, e.ceilB) else none) else (if e.av then some (e.tagA, e.ceilA) else none)
/-- Set or invalidate the half of a slot (R184). -/
def JEnt.setHalf (e : JEnt) (b : Bool) (h : Option (W32 × Nat)) : JEnt :=
  let (v, t, c) := match h with | some (t, c) => (true, t, c) | none => (false, 0, 0)
  if b then { e with bv := v, tagB := t, ceilB := c } else { e with av := v, tagA := t, ceilA := c }
/-- Invalidate the half of an erased slot (R185). -/
def JEnt.dropHalf (e : JEnt) (b : Bool) (t : Option W32) : JEnt := if t.isSome then e.setHalf b none else e
/-- Raise the half of a slot to a ceiling of its key; a ceiling is never lowered for one key (R185, R190). -/
def JEnt.raiseHalf (e : JEnt) (b : Bool) (tag : W32) (ceil : Nat) : JEnt :=
  match e.half b with
  | some (t, c) => e.setHalf b (some (tag, if t = tag then max c ceil else ceil))
  | none => e.setHalf b (some (tag, ceil))
/-- What an item makes of the content of its channel (R185, R188, R327). -/
def applyWhy (e : JEnt) : JWhy → JEnt
  | .request l => l.foldl (fun e r => e.raiseHalf r.1 r.2.2.1 r.2.2.2) { e with kind := 1 }
  | .inval a b _ => { (e.dropHalf false a).dropHalf true b with kind := 2 }
  | .copy => { e with kind := 3 }
  | .mirror _ b v t c => { (if v then e.raiseHalf b t c else e.setHalf b none) with kind := if v then 1 else 2 }
/-- A cause of R185 without its change of content. -/
def keepWhy (e : JEnt) : JWhy → JEnt
  | .request _ => { e with kind := 1 }
  | .inval _ _ _ => { e with kind := 2 }
  | .copy => { e with kind := 3 }
  | .mirror _ _ v _ _ => { e with kind := if v then 1 else 2 }

/-- The live entry of a channel. -/
def Lease.live (l : Lease) (x : Nat) : Option Live := Tab.get none l.dir x
/-- Content of the newest entry issued for a channel. -/
def Lease.issued (l : Lease) (x : Nat) : JEnt :=
  l.nvw.foldl (fun e w => match w with
    | .entry _ en _ => if en.chix = x then en else e
    | _ => e) (match l.live x with | some v => v.ent | none => JEnt.blank x)
/-- Highest place among the items whose content the newest outstanding entry of a channel carries. -/
def Lease.topOf (l : Lease) (x : Nat) : Nat :=
  l.nvw.foldl (fun m w => match w with
    | .entry _ en it => if en.chix = x then max m it.top else m
    | _ => m) 0
/-- The content of an item that failed is carried by an entry written, or being written, after it. -/
def Lease.carried (l : Lease) (it : JItem) : Bool := it.redo && (it.done || decide (it.ser ≤ l.topOf it.chix))
/-- What an item makes of a content: a newer value of its half is never undone by a second write (R185, R190). -/
def Lease.applyItem (l : Lease) (e : JEnt) (it : JItem) : JEnt := if l.carried it then keepWhy e it.why else applyWhy e it.why
/-- Content of a channel with every waiting item applied. -/
def Lease.content (l : Lease) (x : Nat) : JEnt :=
  l.todo.foldl (fun e it => if it.chix = x then l.applyItem e it else e) (l.issued x)
/-- Once all is written, a channel has a valid half. -/
def Lease.willLive (l : Lease) (x : Nat) : Bool := let c := l.content x; c.av || c.bv
/-- A channel has a live entry, or one is about to be written. -/
def Lease.hasEntry (l : Lease) (x : Nat) : Bool := (l.live x).isSome || l.willLive x
/-- Channels that are about to get their first live entry. -/
def Lease.coming (l : Lease) : Nat :=
  ((l.todo.map (·.chix) ++ l.nvw.filterMap (fun w => match w with | .entry _ en _ => some en.chix | _ => none)).eraseDups.filter
    (fun x => (l.live x).isNone && l.willLive x)).length

/-! ### Causes -/

/-- Number of a cause in the LEASE group of events. -/
def LCause.evt : LCause → Nat
  | .full => 132 | .nv => 133 | .blind => 134 | .exh => 135 | .fault => 136 | .none => 132
/-- A request cannot be made: HOLD from WAIT, LAST from RUN, the cause recorded and counted (R181, R182).
[DEDUCED: log 82] -/
def State.cannot (s : State) (v : Nat) (c : LCause) : State :=
  let sl := s.slot v
  match sl.lst with
  | .wait => (s.modSlot v (fun x => { x with lst := .hold, cause := c })).evt c.evt 1
  | .run => (s.modSlot v (fun x => { x with lst := .last, cause := c })).evt c.evt 1
  | _ => s.modSlot v (fun x => { x with cause := c })

/-! ### Sectors -/

/-- A sector of the journal. -/
def Lease.sector (l : Lease) (n : Nat) : Sector := Tab.get {} l.sectors n
/-- A sector is usable (R186 to R189). -/
def Sector.usable (c : Sector) (retireAt : Nat) : Bool := c.valid && !c.retired && decide (c.wcount + 129 ≤ retireAt)
/-- Live entries in a sector. -/
def Lease.liveIn (l : Lease) (n : Nat) : Nat :=
  (l.dir.filter (fun d => match d.2 with | some v => decide (v.unit / 128 = n) | none => false)).length
/-- An entry whose write is outstanding goes to a sector. -/
def Lease.pendIn (l : Lease) (n : Nat) : Bool :=
  l.nvw.any (fun w => match w with | .entry u _ _ => decide (u / 128 = n) | _ => false)
/-- A sector holds no live entry, and none is on its way to it. -/
def Lease.empty (l : Lease) (n : Nat) : Bool := decide (l.liveIn n = 0) && !l.pendIn n
/-- The usable sectors, by number; a sector that is not listed is not valid. -/
def State.usableSectors (s : State) : List Nat :=
  let r := s.retireAt
  (s.lease.sectors.filter (fun p => p.2.usable r)).map (·.1)
/-- LIVE_MAX (R187). -/
def State.liveMax (s : State) : Nat := 63 * (s.usableSectors.length - 1)
/-- The least of a list by a key, the first on a tie. -/
def leastBy (key : Nat → Nat) : List Nat → Option Nat
  | [] => none
  | a :: t => match leastBy key t with
    | none => some a
    | some b => if key a ≤ key b then some a else some b
/-- The sector that follows a head (R188): lowest WCOUNT, then lowest number, of those with at most 63 live entries. -/
def State.chooseFollower (s : State) (head : Nat) : Option Nat :=
  leastBy (fun n => (s.lease.sector n).wcount)
    (s.usableSectors.filter (fun n => decide (n ≠ head) && decide (s.lease.liveIn n ≤ 63)))
/-- The sector to open when the scan or a failure leaves no head: no live entry, lowest WCOUNT, lowest number (R400).
[DEDUCED: log 83] -/
def State.chooseHead (s : State) : Option Nat :=
  leastBy (fun n => (s.lease.sector n).wcount) (s.usableSectors.filter s.lease.empty)
/-- Change a sector. -/
def Lease.modSector (l : Lease) (n : Nat) (f : Sector → Sector) : Lease :=
  { l with sectors := Tab.modify {} l.sectors n f }

/-- Open a sector as head (R188, R189): the next OPEN_SEQ, WCOUNT raised by 129, its header written, its follower chosen.
[DEDUCED: log 83] -/
def State.openHead (s : State) (n : Nat) : State :=
  let s := s.modLease (fun l =>
    { (l.modSector n (fun c => { c with valid := true, retired := false, openSeq := l.nextOpen, wcount := c.wcount + 129 }))
      with head := some n, headUnit := 1, nextOpen := l.nextOpen + 1, nvw := l.nvw ++ [.opening n] })
  let s := s.emit (.nvq true (n * 128) (jHeader 0x0F n (s.lease.sector n).openSeq (s.lease.sector n).wcount))
  s.modLease (fun l => { l with follower := s.chooseFollower n })
/-- The next live entry to copy: of a failed sector first, then of the follower, then of a worn one; not one whose write is
outstanding (R188 to R190). [DEDUCED: log 84] -/
def Lease.nextCopy (l : Lease) : Option Nat :=
  let busy := fun x => l.nvw.any (fun w => match w with | .entry _ en _ => decide (en.chix = x) | _ => false)
  let from_ := fun (p : Nat → Bool) => (l.dir.find? (fun d => match d.2 with
    | some v => p (v.unit / 128) && !busy d.1 | none => false)).map (·.1)
  match from_ (fun n => decide (n ∈ l.failed)) with
  | some x => some x
  | none => match from_ (fun n => l.follower == some n) with
    | some x => some x
    | none => from_ (fun n => decide (n ∈ l.retiring))
/-- A copy of a live entry is due ahead of new entries: its sector failed (R190). -/
def Lease.urgent (l : Lease) (x : Nat) : Bool :=
  match l.live x with
  | some v => decide (v.unit / 128 ∈ l.failed)
  | none => false
/-- Issue the write of an item at the next head position. -/
def State.issueItem (s : State) (h : Nat) (it : JItem) : State :=
  let l := s.lease
  let e := l.applyItem (l.issued it.chix) it
  let k := if it.redo then it.ser else l.nextSer
  let u := h * 128 + l.headUnit
  (s.modLease (fun l => { l with
    headUnit := l.headUnit + 1, nextSer := if it.redo then l.nextSer else l.nextSer + 1,
    nvw := l.nvw ++ [.entry u e { it with ser := k, top := max k (l.topOf it.chix) }] })).emit
    (.nvq true u (jEntry e (l.sector h).openSeq))
/-- Requests of both slots of one channel that wait together are written in one entry (R185): the first item, joined by
the other slot's next request when only requests of the channel stand between them. [DEDUCED: log 84] -/
def joinItem (it : JItem) : List JItem → JItem × List JItem
  | [] => (it, [])
  | x :: t =>
    if x.chix = it.chix then
      match it.why, x.why with
      | .request [a], .request [b] =>
        if it.redo || x.redo then (it, x :: t)
        else if a.1 ≠ b.1 then ({ it with why := .request [a, b] }, t)
        else let r := joinItem it t; (r.1, x :: r.2)
      | _, _ => (it, x :: t)
    else let r := joinItem it t; (r.1, x :: r.2)
/-- Issue the first waiting item. [DEDUCED: log 84] -/
def State.issueFirst (s : State) (h : Nat) (it : JItem) (t : List JItem) : State :=
  let r := joinItem it t
  (s.issueItem h r.1).modLease (fun l => { l with todo := r.2, copyTurn := true })
/-- Sectors that are worn: usable but for their write count, and not yet being emptied (R189). -/
def State.wornSectors (s : State) : List Nat :=
  let r := s.retireAt
  (s.lease.sectors.filter (fun p => let c := p.2
    c.valid && !c.retired && !decide (c.wcount + 129 ≤ r) && !decide (p.1 ∈ s.lease.retiring) && s.lease.head != some p.1)).map (·.1)
/-- The follower is no longer usable, so another is chosen (R188, R189). [DEDUCED: log 84] -/
def State.followerBad (s : State) : Bool :=
  match s.lease.follower with
  | some f => !(s.lease.sector f).usable s.retireAt
  | none => false
/-- The head has a free unit. -/
def Lease.headRoom (l : Lease) : Bool := l.head.isSome && decide (l.headUnit < 128)
/-- Vault slots whose requests wait to be written. -/
def Lease.requesters (l : Lease) : List Nat :=
  (l.todo.flatMap (fun i => match i.why with | .request r => r.map (·.2.1) | _ => [])).eraseDups
/-- No sector can take an entry any more: the requests not yet written take cause NV (R191). -/
def State.nvNone (s : State) : State :=
  let vs := s.lease.requesters
  (s.modLease (fun l => { l with
    todo := l.todo.filter (fun i => match i.why with | .request _ => false | _ => true),
    waits := l.waits.filter (fun w => w.written || !decide (w.vslot ∈ vs)) })).forEach vs (fun s v => s.cannot v .nv)
/-- The writer opens a head: the emptied follower, or, where that cannot be emptied any more, a sector without live entries.
[DEDUCED: log 84] -/
def State.openNext (s : State) : State :=
  let other := match s.chooseHead with | some n => s.openHead n | none => s
  match s.lease.head, s.lease.follower with
  | some _, some f => if s.lease.empty f then s.openHead f else if s.lease.nvw.isEmpty then other else s
  | _, _ => other
/-- A full head is followed by its emptied follower at once (R188). -/
def Lease.openDue (l : Lease) : Bool :=
  match l.head, l.follower with
  | some _, some f => decide (128 ≤ l.headUnit) && l.empty f
  | _, _ => false
/-- Retirement of sectors that are worn, or failed, and hold nothing live: the mark (R189, R190). -/
def State.retireMark (s : State) (n : Nat) : State :=
  let c := s.lease.sector n
  let s := s.when (!c.retired) (fun s => (s.setFlag .lease 0x40 7).evt 137 1)
  (s.modLease (fun l => { (l.modSector n (fun c => { c with retired := true })) with
    retiring := delNat l.retiring n, failed := delNat l.failed n, nvw := l.nvw ++ [.mark n] })).emit
    (.nvq true (n * 128) (jHeader 0xF0 n c.openSeq c.wcount))
/-- One entry goes to the head: a copy and a new entry alternate, but copies out of a failed sector go first (R188, R190). -/
def State.writeNext (s : State) (h : Nat) : State :=
  let l := s.lease
  let copy := fun (x : Nat) => (s.issueItem h { chix := x, why := .copy }).modLease (fun l => { l with copyTurn := false })
  match l.nextCopy, l.todo with
  | some x, [] => copy x
  | some x, it :: t => if l.copyTurn || l.urgent x then copy x else s.issueFirst h it t
  | none, it :: t => s.issueFirst h it t
  | none, [] => s
/-- One action of the writer: a retirement mark, the opening of a head, or one entry. [DEDUCED: log 84] -/
def State.pumpLease1 (s : State) : State :=
  let l := s.lease
  if 8 ≤ l.nvw.length + l.staleW.length ∨ l.scanDone = false ∨ s.held .lease = true then s
  else if !s.wornSectors.isEmpty then s.modLease (fun l => { l with retiring := s.wornSectors.foldl insNat l.retiring })
  else if s.followerBad then s.modLease (fun l => { l with follower := l.head.bind s.chooseFollower })
  else if s.usableSectors.isEmpty && !l.headRoom && !l.requesters.isEmpty then s.nvNone
  else
    match l.retiring.find? (fun n => l.empty n && l.head != some n) with
    | some n => s.retireMark n
    | none =>
      if l.openDue then s.openNext
      else if l.todo.isEmpty ∧ l.nextCopy.isNone then s
      else match l.head with
        | some h => if l.headUnit < 128 then s.writeNext h else s.openNext
        | none => s.openNext
/-- The journal can take a mirrored half (R187, R327): none would break LIVE_MAX, and a usable sector remains. -/
def State.jnlTakes (s : State) (it : JItem) : Bool :=
  !s.usableSectors.isEmpty && (s.lease.hasEntry it.chix || decide (s.lease.dir.length + s.lease.coming < s.liveMax))
/-- One mirrored half goes to the journal, behind no earlier one of its channel; the invalidation of a half of a channel
without an entry writes nothing. -/
def State.jnlAdmit1 (s : State) (it : JItem) : State :=
  if s.pair.jnlWait.any (fun j => decide (j.chix = it.chix)) then s.modPair (fun p => { p with jnlWait := p.jnlWait ++ [it] })
  else
    match it.why with
    | .mirror q _ false _ _ =>
      if s.lease.hasEntry it.chix then s.modLease (fun l => { l with todo := l.todo ++ [it] })
      else s.modPair (fun p => { p with ackPend := p.ackPend.erase q })
    | _ =>
      if s.jnlTakes it then s.modLease (fun l => { l with todo := l.todo ++ [it] })
      else s.modPair (fun p => { p with jnlWait := p.jnlWait ++ [it] })
/-- Mirrored halves go to the journal as far as it can take them; JNL_FAIL while one cannot be written (R327).
[DEDUCED: log 84] -/
def State.jnlAdmit (s : State) : State :=
  if s.lease.scanDone then
    let l := s.pair.jnlWait
    let s := (s.modPair (fun p => { p with jnlWait := [] })).forEach l (fun s it => s.jnlAdmit1 it)
    s.modPair (fun p => { p with jnlFail := !p.jnlWait.isEmpty })
  else s
/-- Write until nothing can be written or 8 writes are outstanding (R44). -/
def State.pumpLease (s : State) : State := (List.range 16).foldl (fun s _ => s.pumpLease1) s.jnlAdmit
/-- Queue an item for the journal. [DEDUCED: log 84] -/
def State.pushJournal (s : State) (it : JItem) : State :=
  s.modLease (fun l => { l with todo := l.todo ++ [it] })

/-! ### Requests -/

/-- Ceiling of the chunk that starts at a PN (R176). -/
def chunkCeil (l cap pn : Nat) : Nat := min cap ((pn / 2 ^ l + 1) * 2 ^ l)
/-- No peer is configured (R178). [DEDUCED: log 98] -/
def State.noPeer (s : State) : Bool := decide (s.pair.role = .unpaired) || (s.pair.cfgSet && !s.pairEn)
/-- The active unit treats its peer as lost (R325). -/
def State.peerGone (s : State) : Bool := s.pair.peerLost || s.pair.peerJnlFail
/-- The largest ceiling that R179 permits for a slot without an acknowledgement. -/
def State.blindLimit (s : State) (sl : Slot) : Nat := sl.acked + s.pair.frzN * 2 ^ s.pair.frzL
/-- R179 permits a ceiling. -/
def State.blindOk (s : State) (sl : Slot) (ceil : Nat) : Bool :=
  s.peerGone && s.pair.linkAck && decide (ceil ≤ s.blindLimit sl)
/-- The unit makes lease requests (R329). -/
def State.leases (s : State) : Bool :=
  decide (s.pair.role = .unpaired) || decide (s.pair.role = .active) || decide (s.pair.role = .silent)
/-- The cause that forbids a request for a ceiling, if any (R182, R307). [DEDUCED: log 82] -/
def State.requestCause (s : State) (v x base ceil cap : Nat) : Option LCause :=
  if base = cap then some .exh
  else if s.held .lease then some .fault
  else if s.usableSectors.isEmpty then some .nv
  else if !s.lease.hasEntry x && decide (s.liveMax ≤ s.lease.dir.length + s.lease.coming) then some .full
  else if !s.noPeer && s.peerGone && s.pair.linkAck && !s.blindOk (s.slot v) ceil then some .blind
  else none
/-- Make the request for a ceiling (R177): a journal entry and, in a pair, an item to the standby. -/
def State.makeRequest (s : State) (x v ceil : Nat) : State :=
  let b := decide (v % 2 = 1)
  let tag := (s.slot v).tag
  let s := s.modLease (fun l => { l with
    todo := l.todo ++ [{ chix := x, why := .request [(b, v, tag, ceil)] }],
    waits := l.waits ++ [{ vslot := v, ceil := ceil, written := false, acked := false }] })
  s.mirrorLease x b true tag ceil
/-- The channel and cap of a vault slot. -/
def State.slotChan (s : State) (v : Nat) : Option (Nat × Nat) :=
  match s.entry (v / 2) with
  | some en => some (en.chix, pnCap en.cfg0)
  | none => none
/-- Request the next chunk of a slot, above the ceiling last requested (R177); a unit that makes no requests, and one whose scan is
not done, makes none (R192, R329). -/
def State.requestNext (s : State) (v : Nat) : State :=
  if !s.lease.scanDone || !s.leases then s
  else match s.slotChan v with
  | none => s
  | some (x, cap) =>
    let sl := s.slot v
    let base := ((s.lease.waits.filter (fun w => decide (w.vslot = v))).map (·.ceil)).foldl max sl.ceil
    let ceil := chunkCeil s.chunkLog cap base
    match s.requestCause v x base ceil cap with
    | some c => s.cannot v c
    | none => s.makeRequest x v ceil
/-- Start the lease of a slot whose next PN, B and C are its first PN: both chunks are requested from there (R177, R181).
Before SCAN_DONE, and on a unit that makes no requests, the slot waits (R193, R329). -/
def State.startLease (s : State) (v : Nat) : State :=
  match s.slotChan v with
  | none => s
  | some (x, cap) =>
    if !s.lease.scanDone || !s.leases then s
    else
      let p := (s.slot v).next
      let c1 := chunkCeil s.chunkLog cap p
      match s.requestCause v x p c1 cap with
      | some c => s.cannot v c
      | none =>
        let s := s.makeRequest x v c1
        if c1 = cap then s
        else
          let s := s.modSlot v (fun sl => { sl with bnd := c1 })
          let c2 := chunkCeil s.chunkLog cap c1
          match s.requestCause v x c1 c2 cap with
          | some c => s.cannot v c
          | none => s.makeRequest x v c2
/-- Set next PN, B and C of a slot to a PN, in WAIT; what the standby has acknowledged stands (R179). -/
def State.resumeAt (s : State) (v p : Nat) : State :=
  s.modSlot v (fun sl => { sl with next := p, bnd := p, ceil := p, lst := .wait, cause := .none })
/-- The same for a slot that starts on this unit: A is its first PN (R179). -/
def State.leaseAt (s : State) (v p : Nat) : State := (s.resumeAt v p).modSlot v (fun sl => { sl with acked := p })
/-- Drop the requests of a slot that are not committed. -/
def State.dropWaits (s : State) (v : Nat) : State :=
  s.modLease (fun l => { l with waits := l.waits.filter (fun w => decide (w.vslot ≠ v)) })
/-- The ceiling of the half of a channel's newest entry whose key tag is a key's (R169, R197). -/
def State.floorOf (s : State) (x : Nat) (b : Bool) (tag : W32) : Option Nat :=
  match (s.lease.content x).half b with
  | some (t, c) => if t = tag then some c else none
  | none => none
/-- The ceiling of the half of a channel's live entry whose key tag is a key's (R197, R231). -/
def State.liveFloor (s : State) (x : Nat) (b : Bool) (tag : W32) : Option Nat :=
  match (s.lease.live x).bind (fun l => l.ent.half b) with
  | some (t, c) => if t = tag then some c else none
  | none => none
/-- A LIVE transmit slot restarts from its half of the live entry, or from its own next PN where no half matches (R197, R298); a slot
installed while the scan ran may start above that half (R169). A slot that the takeover holds stays held (R334).
[DEDUCED: log 85] -/
def State.restartLease (s : State) (v : Nat) : State :=
  match s.slotChan v with
  | none => s
  | some (x, _) =>
    let sl := s.slot v
    let p := max sl.next ((s.liveFloor x (decide (v % 2 = 1)) sl.tag).getD 0)
    let t := (s.dropWaits v).resumeAt v p
    if sl.promoHold then t.modSlot v (fun o => { o with lst := .hold, cause := .blind }) else t.startLease v

/-! ### Commit -/

/-- The lease state after a commit of C (R181): RUN, but LAST where a further chunk was barred and this one is the last.
[DEDUCED: log 82] -/
def Slot.afterCommit (sl : Slot) (ceil : Nat) : Slot :=
  match sl.lst with
  | .none => { sl with ceil := ceil }
  | .wait | .run => { sl with ceil := ceil, lst := .run, cause := .none }
  | .last | .hold => if sl.bnd < ceil ∨ sl.cause = .none then { sl with ceil := ceil, lst := .run, cause := .none }
    else { sl with ceil := ceil, lst := .last }
/-- Commit the first request of a slot (R178). -/
def State.commitOne (s : State) (v : Nat) (w : LWait) (blind : Bool) : State :=
  let o := s.slot v
  let s := (s.modLease (fun l => { l with waits := l.waits.erase w })).modSlot v (fun sl =>
    { (sl.afterCommit w.ceil) with acked := if w.acked then max sl.acked w.ceil else sl.acked })
  let s := s.when (decide (o.lst = .hold) && decide ((s.slot v).lst = .last)) (·.evt o.cause.evt 1)
  (s.evt 128 1).when blind (·.evt 138 1)
/-- Commit what can be committed of a slot, in the order of its requests; a ceiling that R179 forbids takes cause BLIND
(R178, R179, R198). [DEDUCED: log 82] -/
def State.tryCommit : Nat → State → Nat → State
  | 0, s, _ => s
  | k + 1, s, v =>
    match s.lease.waits.find? (fun w => decide (w.vslot = v)) with
    | none => s
    | some w =>
      if !w.written || s.held .lease then s
      else if s.noPeer || w.acked then tryCommit k (s.commitOne v w false) v
      else if s.peerGone && s.pair.linkAck then
        if s.blindOk (s.slot v) w.ceil then tryCommit k (s.commitOne v w true) v
        else (s.dropWaits v).cannot v .blind
      else s
/-- A slot has a request in flight. -/
def State.inFlight (s : State) (v : Nat) : Bool := s.lease.waits.any (fun w => decide (w.vslot = v))
/-- The causes of some slots have ended: each requests its next chunk, where none is in flight (R181). A slot that the takeover
holds stays (R334), and so does every slot of a unit that makes no requests (R329). [DEDUCED: log 82] -/
def State.clearCause (s : State) (c : LCause) (v : Nat) : State :=
  let sl := s.slot v
  let next := fun (s : State) => if s.inFlight v then s else s.requestNext v
  if sl.cause = c ∧ sl.promoHold = false ∧ s.leases = true then
    match sl.lst with
    | .hold => next (s.modSlot v (fun x => { x with lst := .wait, cause := .none }))
    | .last => next (s.modSlot v (fun x => { x with lst := .run, cause := .none }))
    | _ => s
  else s
/-- Vault slots that hold a cause. -/
def State.slotsOfCause (s : State) (c : LCause) : List Nat :=
  (s.ch.slots.filter (fun p => decide (p.2.cause = c) && decide (p.2.lst ≠ .none))).map (·.1)
/-- The standby has acknowledged a ceiling of a slot (R178, R182). [DEDUCED: log 82] -/
def State.ackCeil (s : State) (v ceil : Nat) : State :=
  let s := s.modSlot v (fun sl => { sl with acked := max sl.acked ceil })
  let s := s.modLease (fun l => { l with waits := l.waits.map (fun w =>
    if w.vslot = v ∧ w.ceil ≤ ceil then { w with acked := true } else w) })
  (s.tryCommit 4 v).clearCause .blind v

/-! ### The draw -/

/-- A slot has a PN to draw (R177, R181). -/
def Slot.hasPn (sl : Slot) : Bool := (decide (sl.lst = .run) || decide (sl.lst = .last)) && decide (sl.next < sl.ceil)
/-- While the peer is lost and the arbiter has not acknowledged it, R179 forbids every ceiling: a slot that has drawn to its C holds,
and its request waits on (R182, R198). [DEDUCED: log 82] -/
def State.blindHold (s : State) (v : Nat) : State :=
  let sl := s.slot v
  if !s.noPeer && s.peerGone && !s.pair.linkAck && decide (sl.lst = .run) && decide (sl.ceil ≤ sl.next) && s.inFlight v then
    (s.modSlot v (fun x => { x with lst := .hold, cause := .blind })).evt 134 1
  else s
/-- Draw the next PN of a slot that has one (R73, R177, R181). -/
def State.drawPn (s : State) (v : Nat) : State :=
  let sl := s.slot v
  let s := s.modSlot v (fun x => { x with next := x.next + 1 })
  let s := if sl.bnd ≤ sl.next ∧ sl.lst = .run then
      (s.modSlot v (fun x => { x with bnd := x.ceil })).requestNext v
    else s
  let sl := s.slot v
  if sl.lst = .last ∧ sl.ceil ≤ sl.next then (s.modSlot v (fun x => { x with lst := .hold })).evt sl.cause.evt 1
  else s.blindHold v

/-! ### Journal answers -/

/-- Set the directory's handle of a channel (R186). [DESIGN CHOICE: log 11] -/
def State.putLive (s : State) (x : Nat) (v : Live) : State :=
  s.modLease (fun l => { l with dir := Tab.set none l.dir x (some v) })
/-- A live entry is released: its handle is free, and slots that lacked one request again (R182, R186). -/
def State.releaseLive (s : State) (x : Nat) : State :=
  let s := (s.modLease (fun l => { l with dir := Tab.set none l.dir x none })).syncHandle x
  s.forEach (s.slotsOfCause .full) (fun s v => s.clearCause .full v)
/-- Point the directory at a written entry (R186). -/
def State.setLive (s : State) (u : Nat) (e : JEnt) (isReq : Bool) : State :=
  if e.av || e.bv then
    match s.lease.live e.chix with
    | some v => s.putLive e.chix { v with ent := e, unit := u, restart := v.restart && !isReq }
    | none => ((s.putLive e.chix { ent := e, unit := u, handle := Config.freeHandle s.freeCtr }).draw).syncHandle e.chix
  else if (s.lease.live e.chix).isSome then s.releaseLive e.chix else s
/-- The commit that follows a written entry (R178, R200, R327). -/
def State.afterWrite (s : State) (why : JWhy) : State :=
  match why with
  | .request l => s.forEach l (fun s r =>
      (s.modLease (fun ls => { ls with waits := ls.waits.map (fun w =>
        if w.vslot = r.2.1 ∧ w.ceil = r.2.2.2 then { w with written := true } else w) })).tryCommit 4 r.2.1)
  | .inval _ _ true =>
    ((s.modLease (fun l => { l with cmd := none })).setRo .lease 0xC4 (atPos 0x02 16)).modHdr .lease
      (fun h => { h with busy := false }) |>.setFlag .lease 0x40 6
  | .inval _ _ false => s
  | .copy => s
  | .mirror seq _ _ _ _ => s.modPair (fun p => { p with ackPend := p.ackPend.erase seq })
/-- Count an entry written, by its kind (R387). [DESIGN CHOICE: log 11] -/
def State.countEntry (s : State) (why : JWhy) : State :=
  let s := s.evt 129 1
  match why with
  | .copy => s.evt 130 1
  | .inval _ _ _ => s.evt 131 1
  | _ => s
/-- Items of a channel whose content an entry carries need only be written once more as they stand. -/
def Lease.noteDone (l : Lease) (x top : Nat) : Lease :=
  let f := fun (i : JItem) => if i.chix = x ∧ i.redo = true ∧ i.ser ≤ top then { i with done := true } else i
  { l with todo := l.todo.map f, nvw := l.nvw.map (fun w => match w with | .entry u e it => .entry u e (f it) | w => w) }
/-- The oldest write has been answered without error (R44, R178, R186). -/
def State.nvOk (s : State) (w : NvW) : State :=
  match w with
  | .entry u e it =>
    let s := s.modLease (fun l => l.noteDone e.chix it.top)
    ((s.setLive u e (match it.why with | .request _ => true | _ => false)).countEntry it.why).afterWrite it.why
  | _ => s
/-- The unit of a write. -/
def NvW.unit : NvW → Nat
  | .entry u _ _ => u | .opening n => n * 128 | .mark n => n * 128
/-- The items to be written again, oldest first, with one more among them (R190). -/
def redoInto (it : JItem) : List JItem → List JItem
  | [] => [it]
  | x :: t => if x.redo = true ∧ x.ser < it.ser then x :: redoInto it t else it :: x :: t
/-- A sector has failed: it is retired at once, and its entries are to be copied out (R190). -/
def State.sectorFails (s : State) (n : Nat) : State :=
  let s := s.when (!(s.lease.sector n).retired) (fun s => (s.setFlag .lease 0x40 7).evt 137 1)
  s.modLease (fun l => { (l.modSector n (fun c => { c with retired := true })) with
    retiring := insNat l.retiring n, failed := insNat l.failed n,
    head := if l.head = some n then none else l.head })
/-- A write has failed: its sector fails, and the entry is written again unless a scan has ended it (R44, R190). -/
def State.nvErr (s : State) (w : NvW) (stale : Bool) : State :=
  let s := (s.setFlag .lease 0x40 8).detect 0x38 0 (BitVec.ofNat 32 w.unit) (BitVec.ofNat 32 (w.unit / 128))
  match w with
  | .mark _ => s
  | .opening n => s.sectorFails n
  | .entry u _ it =>
    (s.sectorFails (u / 128)).when (!stale && !decide (it.why = .copy)) (·.modLease (fun l =>
      { l with todo := redoInto { it with redo := true } l.todo }))

/-! ### The scan -/

/-- Units the scan reads, by position: the 1,024 headers, then the entries of the accepted sectors (R192). -/
def Lease.scanUnit (l : Lease) (i : Nat) : Option Nat :=
  if i < 1024 then some (i * 128)
  else if l.got < 1024 then none
  else (l.scanSecs[(i - 1024) / 127]?).map (fun n => n * 128 + (i - 1024) % 127 + 1)
/-- Reads of the scan in all. -/
def Lease.scanTotal (l : Lease) : Nat := 1024 + 127 * l.scanSecs.length
/-- The scan has had every answer. -/
def Lease.scanRead (l : Lease) : Bool := l.scanning && decide (1024 ≤ l.got) && decide (l.scanTotal ≤ l.got)
/-- Issue one read of the scan when fewer than 4 are outstanding (R44, R193). -/
def State.scanAsk1 (s : State) : State :=
  let l := s.lease
  if l.scanning ∧ l.asked + l.staleR < l.got + 4 then
    match l.scanUnit l.asked with
    | some u => (s.modLease (fun l => { l with asked := l.asked + 1 })).emit (.nvq false u [])
    | none => s
  else s
/-- Issue the reads that may be outstanding. [DESIGN CHOICE: log 86] -/
def State.scanAsk (s : State) : State := (List.range 4).foldl (fun s _ => s.scanAsk1) s
/-- Mirrored halves that are not journalled yet, in the order of their first writes; they outlive a lease partition reset (R339). -/
def Lease.mirrored (l : Lease) : List JItem :=
  let out := l.nvw.filterMap (fun w => match w with | .entry _ _ it => some it | _ => none)
  let tried := (out ++ l.todo.filter (·.redo)).insertionSort (fun a b => a.ser ≤ b.ser)
  ((tried ++ l.todo.filter (fun i => !i.redo)).map (fun i => ({ chix := i.chix, why := i.why } : JItem))).filter
    (fun it => match it.why with | .mirror _ _ _ _ _ => true | _ => false)
/-- Start the scan (R192); every request in flight ends. [DEDUCED: log 85] -/
def State.startScan (s : State) : State :=
  (s.modLease (fun l => {
    scanning := true, cmd := l.cmd, staleW := l.staleW ++ l.nvw, staleR := l.staleR + (l.asked - l.got),
    todo := l.mirrored,
    keepRestart := (l.dir.filter (fun d => match d.2 with | some v => v.restart | none => false)).map (·.1) })).evt 139 1
    |>.scanAsk
/-- The newest accepted entry of each channel, by OPEN_SEQ and then unit (R192 step 3). -/
def scanKeep (seq : Nat → Nat) (l : List (Nat × JEnt)) (u : Nat) (e : JEnt) : List (Nat × JEnt) :=
  match l.find? (fun p => decide (p.2.chix = e.chix)) with
  | none => l ++ [(u, e)]
  | some p =>
    if seq (p.1 / 128) < seq (u / 128) ∨ (seq (p.1 / 128) = seq (u / 128) ∧ p.1 < u) then
      l.filter (fun q => decide (q.2.chix ≠ e.chix)) ++ [(u, e)]
    else l
/-- The scan takes an answer (R192 steps 1 and 2). [DEDUCED: log 83] -/
def State.scanAnswer (s : State) (err : Bool) (b : Bytes) : State :=
  let l := s.lease
  let s := match l.scanUnit l.got with
    | none => s
    | some u =>
      if l.got < 1024 then
        if err then ((s.setFlag .lease 0x40 7).evt 137 1).modLease (fun l => { l with retiring := insNat l.retiring l.got })
        else match readHeader l.got b with
        | some (ret, seq, wc) => s.modLease (fun l =>
            { (l.modSector l.got (fun _ =>
                { valid := true, retired := ret || decide (l.got ∈ l.retiring), openSeq := seq, wcount := wc })) with
              scanSecs := l.scanSecs ++ [l.got] })
        | none => s
      else
        match (if err then none else readEntry (l.sector (u / 128)).openSeq b) with
        | some e => s.modLease (fun l => { l with
            scanEnts := scanKeep (fun n => (l.sector n).openSeq) l.scanEnts u e,
            scanTop := Tab.modify 0 l.scanTop (u / 128) (fun m => max m (u % 128)) })
        | none => s
  (s.modLease (fun l => { l with got := l.got + 1 })).scanAsk
/-- Sectors after the scan: one whose header was invalid is empty and takes the highest WCOUNT found plus 129 (R192); one whose header
could not be read, or whose write failed meanwhile, is retired (R44, R190). [DEDUCED: log 83] -/
def Lease.fillSectors (l : Lease) : Lease :=
  let maxW := l.scanSecs.foldl (fun m n => max m (l.sector n).wcount) 0
  (List.range 1024).foldl (fun l n =>
    if n ∈ l.scanSecs then l
    else l.modSector n (fun _ =>
      { valid := true, retired := decide (n ∈ l.retiring), openSeq := 0, wcount := maxW + 129 })) l
/-- The highest-numbered unit of a sector that holds an accepted entry, 0 for none (R400). -/
def Lease.topUnit (l : Lease) (n : Nat) : Nat := Tab.get 0 l.scanTop n
/-- The follower after the scan: fewest live entries, then lowest WCOUNT, then lowest number (R400). -/
def State.scanFollower (s : State) (head : Nat) : Option Nat :=
  leastBy (fun n => s.lease.liveIn n * 2 ^ 40 + (s.lease.sector n).wcount)
    (s.usableSectors.filter (fun n => decide (n ≠ head)))
/-- The directory of the entries found (R192 step 3): one handle for each channel with a valid half.
[DEDUCED, DESIGN CHOICE: log 11, 85] -/
def State.buildDir (s : State) : State :=
  s.forEach s.lease.scanEnts (fun s p =>
    if p.2.av || p.2.bv then
      ((s.putLive p.2.chix { ent := p.2, unit := p.1, handle := Config.freeHandle s.freeCtr,
                              restart := decide (p.2.chix ∈ s.lease.keepRestart) }).draw).syncHandle p.2.chix
    else s.syncHandle p.2.chix)
/-- OPEN_SEQ of the next head: one above the highest that the scan has found. -/
def Lease.nextSeq (l : Lease) : Nat :=
  match l.scanSecs with
  | [] => 0
  | _ => l.scanSecs.foldl (fun m n => max m (l.sector n).openSeq) 0 + 1
/-- The sector that the scan leaves as head: the newest that is not retired. -/
def Lease.scanBest (l : Lease) : Option Nat :=
  (l.scanSecs.filter (fun n => !(l.sector n).retired)).foldl (fun (b : Option Nat) n => match b with
    | none => some n
    | some k => if (l.sector k).openSeq < (l.sector n).openSeq then some n else b) none
/-- The sectors and the directory that the scan has found. [DEDUCED: log 83] -/
def State.scanFill (s : State) : State :=
  ((s.modLease (fun l => { (l.fillSectors) with nextOpen := l.nextSeq })).buildDir).modLease (fun l =>
    { l with scanning := false, scanDone := true })
/-- A head is opened when the scan leaves none with room. -/
def State.scanOpen (s : State) : State :=
  match s.chooseHead with
  | some k => s.openHead k
  | none => s
/-- The head after the scan: the newest sector while it has room, else a new one. [DEDUCED: log 83] -/
def State.scanHead (s : State) (best : Option Nat) (top : Nat) : State :=
  match best with
  | some n => if top < 127 then s.modLease (fun m => { m with head := some n, headUnit := top + 1 }) else s.scanOpen
  | none => s.scanOpen
/-- The scan ends (R192 steps 3 to 5, R400). -/
def State.scanEnd (s : State) : State :=
  let best := s.lease.scanBest
  let top := match best with | some n => s.lease.topUnit n | none => 0
  let s := s.scanFill.scanHead best top
  s.modLease (fun l => { l with follower := l.head.bind (fun h => s.scanFollower h), scanEnts := [], scanSecs := [], scanTop := [] })

end Sys2Proof.Machine
end

