-- ==== Sys2Proof/Machine/Keys.lean ====
section
/-! DEFINITION. Key slots: the unwrap of a blob, the write of a slot, the drain, the erase and the loss of a slot
(R148 to R171), and the KEYX cores. -/
namespace Sys2Proof.Machine

/-! ### Blobs (R158 to R162) -/

/-- USAGE of a key of a channel. -/
def usageOf (cfg0 : W32) (page : Bool) : Nat :=
  (if cRx cfg0 then 2 else 1) + (if suiteT10 (cSuite cfg0) then 4 else 0) + (if page then 8 else 0)
/-- The inner header (R160). -/
def innerHeader (usage klc chix keyRef fmt : Nat) (slotB : Bool) : Bytes :=
  beBytes 1 usage ++ beBytes 1 (klc % 16 * 16 + b2n slotB) ++ beBytes 1 (chix / 65536 % 16) ++ beBytes 2 (chix % 65536) ++
    beBytes 2 keyRef ++ beBytes 1 fmt
/-- KEYX's check and parse of a blob (R168 orders 10 to 12): the key and the salt, or the result code. -/
def unwrapBlob (kek kwp : Bytes) (usage klc chix keyRef fmt : Nat) (slotB : Bool) : Except Nat (Bytes × Bytes) :=
  match kwpUnwrap kek (kwp.take (klcWrap klc)) (klcPlain klc) with
  | none => .error 0x16
  | some p =>
    let b1 := (byteAt p 1).toNat
    let b2 := (byteAt p 2).toNat
    if (byteAt p 0).toNat ≠ usage ∨ b1 / 16 ≠ klc % 16 ∨ ofBe (slice p 5 2) ≠ keyRef ∨ (byteAt p 7).toNat ≠ fmt ∨
        b1 / 2 % 8 ≠ 0 ∨ b2 / 16 ≠ 0 then .error 0x17
    else if b2 % 16 * 65536 + ofBe (slice p 3 2) ≠ chix ∨ b1 % 2 ≠ b2n slotB then .error 0x18
    else .ok (slice p 8 (klcKey klc), p.drop (8 + klcKey klc))
/-- The material KEYX forms from a key (R162). -/
def keyMat (cfg0 : W32) (key salt : Bytes) (an : BitVec 2) (ssci : W32) (klc : BitVec 8) (keyRef : BitVec 16)
    (start : Nat) : KeyMat :=
  { key := key, salt := salt, an := an, ssci := if suiteXpn (cSuite cfg0) then ssci else 0, klc := klc, keyRef := keyRef,
    h := if suiteT10 (cSuite cfg0) then [] else hPowers (blockOf (aes key (zeros 16))),
    tag := if cRx cfg0 then 0 else BitVec.ofNat 32 (ofBe ((aes key (List.replicate 16 0xFF)).take 4)),
    start := start }
/-- A KEK, when it is available (R154, R155). -/
def State.kek (s : State) (n : Nat) : Option Bytes :=
  if n = 63 then s.sys.kek63.map (fun k => beBytes 32 k.toNat)
  else ((s.sys.keks.find? (fun p => decide (p.1 = n))).map (fun p => beBytes 32 p.2.toNat))
/-- The slot material a KEYX wrap takes (R164). -/
def wrapSlot (kek : Bytes) (cfg0 : W32) (chix : Nat) (slotB : Bool) (sl : Slot) : Bytes :=
  kwpWrap kek (innerHeader (usageOf cfg0 true) sl.klc.toNat chix sl.keyRef.toNat 1 slotB ++ sl.key ++ sl.salt)

/-! ### The KEYW command in progress -/

/-- KEYW_BLOB is zeroed. -/
def State.zeroBlob (s : State) : State := s.forEach (List.range 18) (fun s i => s.setCfg .keyw (0x100 + 4 * i) 0)
/-- End the KEYW command (R165, R387); an install's blob registers are zeroed. -/
def State.keywDone (s : State) (code gen : Nat) : State :=
  let op := match s.pager.keyw with | some c => cmdOp c | none => 0
  let s := if op = 1 then s.zeroBlob else s
  let s := s.when (decide (code < 0x1C)) (·.evt (80 + code) 1)
  (s.modPager (fun p => { p with keyw := none })).cmdDone .keyw 0x84 0 code op (gen * 256)
/-- The KEYW command in progress names a slot of a channel. -/
def State.keywOn (s : State) (chix : Nat) (slotB : Bool) : Bool :=
  match s.pager.keyw with
  | some c => decide (cmdChix c = chix) && (cmdB28 c == slotB)
  | none => false
/-- GEN of the slot the KEYW command names, 0 when its channel has no entry. -/
def State.keywGen (s : State) : Nat :=
  match s.pager.keyw with
  | some c => (match s.resident (cmdChix c) with
    | some e => (s.slot (vslotOf e (cmdB28 c))).gen.toNat
    | none => 0)
  | none => 0

/-! ### Slots -/

/-- Write material into a slot: LIVE, GEN raised, PN or replay state set, statistics zeroed (R149, R168, R169). -/
def State.writeSlot (s : State) (e : Nat) (b : Bool) (m : KeyMat) : State :=
  match s.entry e with
  | none => s
  | some en =>
    let v := vslotOf e b
    let rx := cRx en.cfg0
    let s := (s.modSlot v (fun o => s.maskSlot v
      { st := .live, gen := o.gen + 1, an := m.an, klc := m.klc, ssci := m.ssci, keyRef := m.keyRef, key := m.key,
        salt := m.salt, h := m.h, tag := m.tag, lpn := if rx then m.start else 0 })).unexpose en.chix b
    let o := s.slot (vslotOf e (!b))
    let s := s.when (decide (o.st = .erased) && decide (o.an = m.an)) (fun s =>
      (s.modSlot (vslotOf e (!b)) (fun o => { o with st := .empty, an := 0 })).slotChanged e (!b))
    let s := s.zeroSlotStats e b
    let s := if rx then s
      else
        let first := max m.start ((s.floorOf en.chix b m.tag).getD 0)
        (s.leaseAt v first).startLease v
    s.slotChanged e b
/-- The lease of a slot ends (R181); a request in flight completes on its own. -/
def State.endLease (s : State) (v : Nat) : State :=
  (s.dropWaits v).modSlot v (fun o => { o with lst := .none, cause := .none })
/-- No frame holds the present GEN of a slot any more: a drain or a clearing ends (R149, R150). [DEDUCED: log 62] -/
def State.settleSlot (s : State) (e : Nat) (b : Bool) : State :=
  match s.entry e with
  | none => s
  | some en =>
    let v := vslotOf e b
    let sl := s.slot v
    if sl.unsettled = false ∨ s.holders v sl.gen = true then s
    else if sl.st = .draining then
      match sl.park with
      | some m =>
        let s := s.writeSlot e b m
        s.when (s.keywOn en.chix b) (fun s => s.keywDone 0 (s.slot v).gen.toNat)
      | none => s
    else
      let s := (s.modSlot v (fun o => { o.cleared with gen := o.gen + 1 })).slotChanged e b
      s.when (s.keywOn en.chix b) (fun s => s.keywDone 0 (s.slot v).gen.toNat)
/-- An install has passed every check (R149): the slot is written, or drains first with the material parked.
[DEDUCED: log 63] -/
def State.installSlot (s : State) (e : Nat) (b : Bool) (m : KeyMat) : State :=
  let v := vslotOf e b
  if (s.slot v).st = .live then
    let s := ((s.schedOnSlot e b .rewrite).endLease v).modSlot v (fun o => { o with st := .draining, park := some m })
    (s.slotChanged e b).settleSlot e b
  else
    let s := (s.schedOnSlot e b .install).writeSlot e b m
    s.keywDone 0 (s.slot v).gen.toNat
/-- A transmit half leaves the journal (R185) and, in a pair, the standby's. -/
def State.invalidate (s : State) (chix : Nat) (b : Bool) (tag : W32) : State :=
  (s.pushJournal { chix := chix, why := .inval (if b then none else some tag) (if b then some tag else none) false }).mirrorLease
    chix b false 0 0
/-- Erase a LIVE slot (R149, R171): ERASED at once, its material goes when no frame holds it. [DEDUCED: log 62] -/
def State.eraseSlot (s : State) (e : Nat) (b : Bool) : State :=
  match s.entry e with
  | none => s
  | some en =>
    let v := vslotOf e b
    let sl := s.slot v
    if sl.st = .live then
      let s := s.schedOnSlot e b .lost
      let s := s.when (!cRx en.cfg0) (fun s => (s.endLease v).invalidate en.chix b sl.tag)
      let s := s.modSlot v (fun o => { o with st := .erased, clearing := true, retired := false, retAt := 0 })
      s.slotChanged e b
    else s
/-- A slot is lost to a memory error (R149, R151, R298): no journal invalidation; a DRAINING slot keeps its parked key.
[DEDUCED: log 62] -/
def State.loseSlot (s : State) (e : Nat) (b : Bool) : State :=
  let v := vslotOf e b
  let sl := s.slot v
  if sl.st = .live then
    let s := (s.schedOnSlot e b .lost).endLease v
    (s.modSlot v (fun o => { st := .erased, an := o.an, gen := o.gen, vaultErr := true, clearing := false })).slotChanged e b
  else if sl.st = .draining then
    s.modSlot v (fun o => { o with vaultErr := true, key := [], salt := [], h := [] })
  else s
/-- The rewrite of a slot is given up: it keeps its old key, and its lease restarts (R149, R181). R149 does not say what becomes of a
slot whose old key a vault error has taken meanwhile: it is ERASED, as that error leaves a LIVE slot.
[DESIGN CHOICE: log 114] -/
def State.unparkSlot (s : State) (e : Nat) (b : Bool) : State :=
  match s.entry e with
  | none => s
  | some en =>
    let v := vslotOf e b
    if (s.slot v).st = .draining ∧ (s.slot v).vaultErr = true then
      (s.modSlot v (fun o => { st := .erased, an := o.an, gen := o.gen, vaultErr := true })).slotChanged e b
    else if (s.slot v).st = .draining then
      let s := s.modSlot v (fun o => { o with st := .live, park := none })
      let s := s.when (!cRx en.cfg0) (·.restartLease v)
      s.slotChanged e b
    else s

/-! ### KEYX cores (R162, R163, R228) -/

/-- The job on a core. -/
def State.core (s : State) (c : Nat) : Option KJob := Tab.get none s.keyx.cores c
/-- Put a job on a core, or take it off. -/
def State.setCore (s : State) (c : Nat) (j : Option KJob) : State :=
  s.modKeyx (fun k => { k with cores := Tab.set none k.cores c j })
/-- Queue a job. -/
def State.keyxPush (s : State) (j : KJob) : State := s.modKeyx (fun k => { k with queue := k.queue ++ [j] })
/-- The KEK a job uses. -/
def State.jobKek (s : State) (j : KJob) : Nat :=
  match j with
  | .install => fld (s.cfg .keyw 0x100) 13 8
  | _ => 63
/-- The KEK of a job is being derived again after a memory error, and the job waits for it (R298). [DEDUCED: log 70] -/
def State.kekWaits (s : State) (j : KJob) : Bool := s.sys.rederive && decide (s.jobKek j ∈ s.sys.derive)
/-- The page-in of a channel is a demand page-in. -/
def State.isDemand (s : State) (x : Nat) : Bool := s.pager.ins.any (fun p => decide (p.chix = x) && p.demand)
/-- Rank of a job: demand unwraps, other page-in unwraps, installs, wraps (R228). -/
def State.jobRank (s : State) (j : KJob) : Nat :=
  match j with
  | .unwrap x _ => if s.isDemand x then 0 else 1
  | .install => 2
  | .wrap _ _ => 3
/-- The oldest demand page-in: by the miss that made it one (R228). -/
def State.oldestDemand (s : State) : Option PageIn :=
  (s.pager.ins.filter (·.demand)).foldl (fun b p => match b with
    | none => some p
    | some q => if p.ser < q.ser then some p else some q) none
/-- Cores that take jobs. -/
def State.freeCores (s : State) : List Nat :=
  (List.range 4).filter (fun c => (s.core c).isNone && !decide (c ∈ s.keyx.removed))
/-- Cores held for the oldest demand page-in, until the unwraps of its slots start (R228): two, or one when its record is known to
hold one key. -/
def State.heldCores (s : State) : Nat :=
  match s.oldestDemand with
  | none => 0
  | some p =>
    let live := fun (o : Nat) => match p.lines.find? (fun q => decide (q.1 = o)) with
      | some q => (byteAt q.2 0).toNat / 64 == 1 || (byteAt q.2 0).toNat / 64 == 2
      | none => true
    let waits := fun (b : Bool) => live (if b then 3 else 1) && !p.done.contains b &&
      !s.keyx.cores.any (fun c => decide (c.2 = some (.unwrap p.chix b)))
    b2n (waits false) + b2n (waits true)
/-- An install has waited for 64 page-in unwraps: no further one goes ahead of it (R22). -/
def State.installDue (s : State) : Bool :=
  decide (64 ≤ s.keyx.ahead) && s.keyx.queue.contains .install && !s.kekWaits .install
/-- A waiting job may start: one that is not of the oldest demand page-in leaves the held cores alone (R228), unless it is an install
that is due and every core that works is held. [DEDUCED: log 71] -/
def State.jobMay (s : State) (j : KJob) : Bool :=
  let mine : Bool := match j, s.oldestDemand with
    | .unwrap x _, some p => decide (x = p.chix)
    | _, _ => false
  let spare := decide (s.heldCores < s.freeCores.length)
  if s.kekWaits j then false
  else if s.installDue then decide (j = .install) && (spare || decide (4 - s.keyx.removed.length ≤ s.heldCores))
  else mine || spare
/-- The next job a core may take: by rank, then by arrival. [DEDUCED: log 71] -/
def State.nextJob (s : State) : Option KJob :=
  (s.keyx.queue.filter s.jobMay).foldl (fun b j => match b with
    | none => some j
    | some q => if s.jobRank j < s.jobRank q then some j else some q) none
/-- The core for a job: one that holds its KEK's round keys, else the lowest-numbered. [DEDUCED: log 71] -/
def State.coreFor (s : State) (j : KJob) : Option Nat :=
  let f := s.freeCores
  match f.find? (fun c => s.keyx.held.any (fun p => decide (p.1 = c) && decide (p.2 = s.jobKek j))) with
  | some c => some c
  | none => f.head?

end Sys2Proof.Machine
end

