-- ==== Sys2Proof/Machine/Equinox.lean ====
section
/-! DEFINITION. Equinox and Solstice: the triggers at lookup, the forced switch, retirement, and the two schedule
commands on a resident channel (R202 to R222). -/
namespace Sys2Proof.Machine

/-! ### Equinox at the lookup of a frame -/

/-- A slot is ready: LIVE and in RUN or LAST (R206). -/
def Slot.ready (sl : Slot) : Bool := decide (sl.st = .live) && (decide (sl.lst = .run) || decide (sl.lst = .last))
/-- The forced threshold F of a channel (R208). -/
def State.forcedAt (s : State) (en : Entry) : Nat := pnCap en.cfg0 - 2 ^ s.forceLog
/-- The active slot of an entry. -/
def Entry.act (en : Entry) : Bool := cActive en.cfg0
/-- KIND of the log entry of an Equinox (R221). -/
def Eqx.kind (q : Eqx) : Nat := q.mode.code
/-- MODE of a pending Equinox, 0 for none: a forced switch has none (R208). -/
def modeOf (q : Option Eqx) : Nat := match q with | some q => q.mode.code | none => 0
/-- Mirror the switch of a channel as a SCHED item of KIND 3 (R217, R319): the FROM slot, the mode and value of the
Equinox that was made. -/
def State.mirrorSwitch (s : State) (e : Nat) (from_ : Bool) (q : Option Eqx) : State :=
  match s.entry e with
  | some en => s.mirrorSched (schedItem en.chix from_ 3 (modeOf q) 0 false (s.slot (vslotOf e from_)) (eqxVal q))
  | none => s
/-- Switch ACTIVE of an entry at a frame (R72, R207): EQX_DONE, a log entry, and the mirror. [DEDUCED: log 103] -/
def State.switchActive (s : State) (e : Nat) (kind : Nat) (stamp : Stamp) : State :=
  match s.entry e with
  | none => s
  | some en =>
    let b := !en.act
    let s := s.modEntry e (fun x => { x with cfg0 := withActive x.cfg0 b, eqx := none })
    let s := (s.evt 144 1).eqxLog kind en.chix b (s.slot (vslotOf e b)).an stamp.ns
    (s.mirrorSwitch e (!b) (if kind = 4 then none else en.eqx)).slotChanged e b
/-- The trigger of a pending Equinox is met by a frame (R72, R204, R205). -/
def State.eqxDue (s : State) (e : Nat) (en : Entry) (q : Eqx) (stamp : Stamp) : Bool :=
  match q.mode with
  | .time => stamp.vld && decide (q.val ≤ stamp.ns)
  | .pn => decide (q.val ≤ (s.slot (vslotOf e en.act)).next)
  | .now => true
/-- Apply the pending Equinox of a channel to a frame that is looked up (R206, R207). [DEDUCED: log 103] -/
def State.eqxApply (s : State) (e : Nat) (stamp : Stamp) : State :=
  match s.entry e with
  | none => s
  | some en => match en.eqx with
    | none => s
    | some q =>
      let old := s.slot (vslotOf e q.fromB)
      let tgt := s.slot (vslotOf e (!q.fromB))
      let defer := q.defer || cExpress en.cfg0
      if q.deferred then
        if tgt.ready || !old.hasPn then s.switchActive e q.kind stamp else s
      else if s.eqxDue e en q stamp then
        if tgt.ready || !defer then s.switchActive e q.kind stamp
        else if !old.hasPn then (s.evt 147 1).switchActive e q.kind stamp
        else (s.modEntry e (fun x => { x with eqx := some { q with deferred := true } })).evt 147 1
      else s
/-- Apply the forced Equinox to the active slot (R208). [DEDUCED: log 103] -/
def State.eqxForced (s : State) (e : Nat) (stamp : Stamp) : State :=
  match s.entry e with
  | none => s
  | some en =>
    let v := vslotOf e en.act
    let sl := s.slot v
    let ot := s.slot (vslotOf e (!en.act))
    let doit := fun (s : State) =>
      let s := s.modSlot v (fun x => { x with forced := true })
      ((s.setFlag .glb 0x50 1).evt 145 1).switchActive e 4 stamp
    if sl.st ≠ .live ∨ sl.forced = true then s
    else if sl.hasPn then
      if sl.next < s.forcedAt en then s
      else if ot.ready then doit s
      else if sl.nokey then s
      else ((s.modSlot v (fun x => { x with nokey := true })).setFlag .glb 0x50 5).evt 146 1
    else if sl.lst = .hold ∧ sl.cause = .exh ∧ ot.keyed = true then doit s
    else s

/-! ### Solstice -/

/-- A frame finds a slot retired (R211, R89 order 9): by its stamp against R. -/
def State.retiredFor (s : State) (e : Nat) (b : Bool) (stamp : Stamp) : Bool :=
  match s.entry e with
  | none => false
  | some en =>
    let sl := s.slot (vslotOf e b)
    let past := fun (r : Nat) => stamp.vld && decide (r ≤ stamp.ns)
    (sl.retired && past sl.retAt) ||
    (match en.sol with
     | some q => !q.watch && (q.slotB == b) && past q.val
     | none => false)
/-- Retire the slot of an armed Solstice (R211, R213). -/
def State.retire (s : State) (e : Nat) (q : Sol) : State :=
  match s.entry e with
  | none => s
  | some en =>
    let v := vslotOf e q.slotB
    let s := s.modSlot v (fun x => { x with retired := true, retAt := q.val })
    let s := (s.modEntry e (fun x => { x with sol := none })).evt 150 1
    let s := s.eqxLog 5 en.chix q.slotB (s.slot v).an q.val
    let s := s.mirrorSched (schedItem en.chix q.slotB 4 q.mode.code 0 false (s.slot v)
      (beBytes 6 (nsSec q.val) ++ beBytes 4 (nsNs q.val)))
    s.slotChanged e q.slotB
/-- A first valid frame under the other slot arms a watching Solstice (R212, R213). -/
def State.solArm (s : State) (e : Nat) (b : Bool) (stamp : Stamp) : State :=
  match s.entry e with
  | none => s
  | some en => match en.sol with
    | some q =>
      if q.watch ∧ b ≠ q.slotB ∧ stamp.vld = true then
        let q' : Sol := { q with watch := false, val := stamp.ns + q.val * 1000 }
        s.modEntry e (fun x => { x with sol := some q' })
      else s
    | none => s
/-- TM_L_ has reached R of an armed Solstice (R211, R215). -/
def State.solDue (s : State) (q : Sol) : Bool := !q.watch && s.sys.tmL.vld && decide (q.val ≤ s.sys.tmL.ns)

/-! ### The schedule commands on a resident channel -/

/-- MODE of a schedule command (R202, R210). -/
def State.schedMode (s : State) : Nat := fld (s.cfg .saw 0xC0) 31 29
/-- SEC and NS operands as a time. -/
def State.schedTime (s : State) : Nat :=
  mkNs (fld (s.cfg .saw 0xC8) 15 0 * 2 ^ 32 + (s.cfg .saw 0xC4).toNat) (s.cfg .saw 0xCC).toNat
/-- SEC and NS are well-formed. -/
def State.schedTimeOk (s : State) : Bool :=
  decide (fld (s.cfg .saw 0xC8) 31 16 = 0) && decide ((s.cfg .saw 0xCC).toNat < 1000000000)
/-- PN operand. -/
def State.schedPn (s : State) : Nat := (s.cfg .saw 0xC8).toNat * 2 ^ 32 + (s.cfg .saw 0xC4).toNat
/-- EQX_SCHEDULE order 1 (R203). -/
def State.eqxFieldsOk (s : State) : Bool :=
  decide (s.schedMode ≤ 4) && decide (fld (s.cfg .saw 0xC0) 26 0 = 0) && (s.schedMode != 1 || s.schedTimeOk)
/-- SOL_SCHEDULE order 1 (R210). -/
def State.solFieldsOk (s : State) : Bool :=
  decide (s.schedMode ≤ 4) && decide (fld (s.cfg .saw 0xC0) 27 0 = 0) && (s.schedMode != 1 || s.schedTimeOk) &&
  (s.schedMode != 2 || decide ((s.cfg .saw 0xC4).toNat ≤ 10000000))
/-- Put three operand words. -/
def State.putSched (s : State) (w0 w1 w2 w3 : W32) : State :=
  (((s.setCfg .saw 0xC0 w0).setCfg .saw 0xC4 w1).setCfg .saw 0xC8 w2).setCfg .saw 0xCC w3
/-- The words of a time. -/
def State.putTime (s : State) (w0 : W32) (t : Nat) : State :=
  s.putSched w0 (lo32 (nsSec t)) (BitVec.ofNat 32 (nsSec t / 2 ^ 32 % 65536)) (lo32 (nsNs t))
/-- QUERY of an Equinox (R202). [DEDUCED: log 67] -/
def State.eqxQuery (s : State) (e : Nat) (en : Entry) : State :=
  let sl := s.slot (vslotOf e en.act)
  let b25 := atBit (decide (s.forcedAt en ≤ sl.next) && !sl.forced && decide (sl.st = .live)) 25
  match en.eqx with
  | none => s.putSched b25 0 0 0
  | some q =>
    let w0 := atPos q.mode.code 29 ||| atBit q.fromB 28 ||| atBit q.defer 27 ||| atBit q.deferred 26 ||| b25
    match q.mode with
    | .time => s.putTime w0 q.val
    | .pn => s.putSched w0 (lo32 q.val) (hi32 q.val) 0
    | .now => s.putSched w0 0 0 0
/-- An accepted TIME, PN or NOW Equinox replaces any pending one and is mirrored (R203, R217). -/
def State.eqxSet (s : State) (e : Nat) (en : Entry) (q : Eqx) : State :=
  let s := s.modEntry e (fun x => { x with eqx := some q })
  s.mirrorSched (schedItem en.chix q.fromB 1 q.mode.code 1 q.defer (s.slot (vslotOf e q.fromB)) (eqxVal (some q)))
/-- CANCEL of an Equinox (R203, R207). -/
def State.eqxCancel (s : State) (e : Nat) (en : Entry) : State :=
  let tell := fun (s : State) (b : Bool) => s.mirrorSched (schedItem en.chix b 1 0 0 false (s.slot (vslotOf e b)) (zeros 10))
  match en.eqx with
  | none => tell s en.act
  | some q =>
    let t := !q.fromB
    let s := (s.modEntry e (fun x => { x with eqx := none })).eqxLog 6 en.chix t (s.slot (vslotOf e t)).an s.sys.tmL.ns
    tell s q.fromB
/-- EQX_SCHEDULE on a resident channel, orders 3 to 6 and the effect (R203, R204, R214): the result code. -/
def State.eqxRun (s : State) (e : Nat) (en : Entry) : State × Nat :=
  let m := s.schedMode
  let fromB := bit (s.cfg .saw 0xC0) 28
  let defer := bit (s.cfg .saw 0xC0) 27
  let free := m == 0 || m == 4
  if cRx en.cfg0 then (s, 0x20)
  else if !free && fromB != en.act then (s, 0x22)
  else if !free && !(s.slot (vslotOf e (!fromB))).keyed then (s, 0x21)
  else if m == 2 && !(decide (1 ≤ s.schedPn) && decide (s.schedPn ≤ pnCap en.cfg0)) then (s, 0x15)
  else if m == 0 then (s.eqxCancel e en, 0)
  else if m == 4 then (s.eqxQuery e en, 0)
  else if m == 1 then
    (s.eqxSet e en { mode := .time, fromB := fromB, defer := defer, val := s.schedTime },
     if s.schedTime ≤ s.sys.tmL.ns then 0x23 else 0)
  else if m == 2 then (s.eqxSet e en { mode := .pn, fromB := fromB, defer := defer, val := s.schedPn }, 0)
  else (s.eqxSet e en { mode := .now, fromB := fromB, defer := defer, val := 0 }, 0)
/-- QUERY of a Solstice (R210). [DEDUCED: log 67] -/
def State.solQuery (s : State) (en : Entry) : State :=
  match en.sol with
  | none => s.putSched 0 0 0 0
  | some q =>
    let w0 := atPos q.mode.code 29 ||| atBit q.slotB 28 ||| atBit q.watch 27
    if q.watch then s.putSched w0 (lo32 q.val) 0 0 else s.putTime w0 q.val
/-- An accepted Solstice replaces any pending one, is mirrored, and retires its slot at once when R is past (R211). -/
def State.solSet (s : State) (e : Nat) (en : Entry) (q : Sol) : State :=
  let s := s.modEntry e (fun x => { x with sol := some q })
  let s := s.mirrorSched (schedItem en.chix q.slotB 2 q.mode.code (if q.watch then 1 else 2) false
    (s.slot (vslotOf e q.slotB)) (solVal (some q)))
  if s.solDue q then s.retire e q else s
/-- CANCEL of a Solstice (R213). -/
def State.solCancel (s : State) (e : Nat) (en : Entry) : State :=
  let tell := fun (s : State) (b : Bool) => s.mirrorSched (schedItem en.chix b 2 0 0 false (s.slot (vslotOf e b)) (zeros 10))
  match en.sol with
  | none => tell s false
  | some q =>
    let s := (s.modEntry e (fun x => { x with sol := none })).eqxLog 6 en.chix q.slotB
      (s.slot (vslotOf e q.slotB)).an s.sys.tmL.ns
    tell s q.slotB
/-- SOL_SCHEDULE on a resident channel, orders 3 to 5 and the effect (R210, R211, R214): the result code. -/
def State.solRun (s : State) (e : Nat) (en : Entry) : State × Nat :=
  let m := s.schedMode
  let b := bit (s.cfg .saw 0xC0) 28
  let sl := s.slot (vslotOf e b)
  let free := m == 0 || m == 4
  if !cRx en.cfg0 then (s, 0x20)
  else if !free && !(decide (sl.st = .live) && !sl.retired) then (s, 0x24)
  else if m == 2 && !(s.slot (vslotOf e (!b))).keyed then (s, 0x21)
  else if m == 0 then (s.solCancel e en, 0)
  else if m == 4 then (s.solQuery en, 0)
  else if m == 1 then
    (s.solSet e en { mode := .time, slotB := b, watch := false, val := s.schedTime },
     if s.schedTime ≤ s.sys.tmL.ns then 0x23 else 0)
  else if m == 2 then
    (s.solSet e en { mode := .firstValid, slotB := b, watch := true, val := (s.cfg .saw 0xC4).toNat }, 0)
  else (s.solSet e en { mode := .now, slotB := b, watch := false, val := s.sys.tmL.ns }, 0)

end Sys2Proof.Machine
end

