-- ==== Sys2Proof/Machine/FrameOps.lean ====
section
/-! DEFINITION. Frames in flight: their list in admission order, tickets, credits, buffer space, and how a frame ends
(R10, R16, R20, R27, R33, R74, R75, R83, R107, R300). -/
namespace Sys2Proof.Machine

/-! ### The list of frames -/

/-- Key of a frame's direction, port and class. -/
def Frame.key_ (f : Frame) : Nat := chanKey f.dir f.port f.express
/-- A frame by its number. -/
def State.frame (s : State) (id : Nat) : Option Frame := s.dp.frames.find? (fun f => decide (f.id = id) && !f.void_)
/-- Change a frame. -/
def State.modFrame (s : State) (id : Nat) (g : Frame → Frame) : State :=
  s.modDp (fun d => { d with frames := d.frames.map (fun f => if f.id = id then g f else f) })
/-- The frame whose turn it is on an output: the first of its direction, port and class that has a ticket (R16). -/
def State.headFrame (s : State) (k : Nat) : Option Frame :=
  s.dp.frames.find? (fun f => decide (f.key_ = k) && !decide (f.stage = .missq))
/-- Drop the places of frames that will not come, up to the first frame of a direction, port and class. -/
def sweepVoid (k : Nat) : List Frame → List Frame
  | [] => []
  | f :: t =>
    if f.key_ = k ∧ f.stage ≠ .missq then (if f.void_ then sweepVoid k t else f :: t)
    else f :: sweepVoid k t
/-- The frames a port has in a direction. -/
def State.framesOf (s : State) (d : Dir) (port : Nat) : List Frame :=
  s.dp.frames.filter (fun f => decide (f.dir = d) && decide (f.port = port) && !f.void_)

/-! ### Tickets (R10, R74) -/

/-- Tickets of a direction, port and class that are not released. [DEDUCED: log 43] -/
def State.ticketsOut (s : State) (k : Nat) : Nat :=
  (s.dp.frames.filter (fun f => decide (f.key_ = k) && f.ticket.isSome)).length
/-- Give a frame the next ticket of its sequence. -/
def State.setTicket (s : State) (id k : Nat) : State :=
  let n := Tab.get 0 s.dp.ticketNext k
  (s.modFrame id (fun f => { f with ticket := some (n % 4096) })).modDp (fun d =>
    { d with ticketNext := Tab.set 0 d.ticketNext k ((n + 1) % 4096) })
/-- Another frame of a port and class waits for its ticket (R74). -/
def State.ticketWaits (s : State) (k id : Nat) : Bool :=
  s.dp.frames.any (fun g => decide (g.key_ = k) && decide (g.stage ≠ .missq) && g.ticket.isNone && !g.void_ && decide (g.id ≠ id))
/-- A frame takes its ticket, or waits for one when 4,096 are out or an earlier frame waits. [DEDUCED: log 43] -/
def State.takeTicket (s : State) (f : Frame) : State :=
  let k := f.key_
  if s.ticketsOut k < 4096 ∧ s.ticketWaits k f.id = false then s.setTicket f.id k
  else (s.portCount f.port (if f.dir = .egress then 0x11 else 0x5E)).portFlag f.port 1

/-! ### Credits (R33, R34) -/

/-- Segments of a byte count. -/
def segsOf (n : Nat) : Nat := ceilDiv n 32
/-- Segments of a frame that the input bus has brought. -/
def Frame.segsIn (f : Frame) : Nat := if f.eof then segsOf f.busLen else f.got / 32
/-- RSE credits go back to the sender: of an enabled port that serves, once the buses are enabled (R33, R59, R401).
[DEDUCED: log 17] -/
def State.payRse (s : State) (port : Nat) (express : Bool) (n : Nat) : State :=
  if n ≠ 0 ∧ 5 ≤ s.sys.phase ∧ s.portEn port = true ∧ s.held (.port (Fin.ofNat 32 port)) = false then
    s.emit (.rseCredit port express false n)
  else s
/-- RSE credits of the segments of a frame that have left its admission buffer: those that have arrived and whose credit has
not been returned. -/
def State.rseReturn (s : State) (f : Frame) : State :=
  if f.dir = .egress then
    (s.modFrame f.id (fun g => { g with paid := max g.paid f.segsIn })).payRse f.port f.express (f.segsIn - f.paid)
  else s
/-- Initial RSE credits of a port (R33, R59, R366). [DEDUCED: log 17, 54] -/
def State.rseInit (s : State) (port : Nat) (on : Bool) : State :=
  let n := s.portLanes port
  if 5 ≤ s.sys.phase then
    (s.emit (.rseCredit port false true (if on then 48 * n else 0))).emit
      (.rseCredit port true true (if on then 16 * n else 0))
  else s

/-- Drive an order ticket, unless the Quiet level discards it (R10, R13). [DEDUCED: log 8] -/
def State.sendTicket (s : State) (f : Frame) (src : Nat) (v : Bool) : State :=
  match f.dir, f.ticket with
  | .egress, some n => s.emit (.ticket f.port f.express n src v)
  | _, _ => s

/-! ### Buffer space -/

/-- Free egress reorder space of a port and class in segments: the last report, the whole buffer before the first.
[DESIGN CHOICE: log 12] -/
def State.bufSpace (s : State) (k : Nat) : Nat := Tab.get 32768 s.dp.bufFree k
/-- Set it. [DESIGN CHOICE: log 12] -/
def State.setBuf (s : State) (k n : Nat) : State := s.modDp (fun d => { d with bufFree := Tab.set 32768 d.bufFree k n })
/-- Length of a frame on its output bus, as far as it follows from what was admitted (R64, R93, R268). -/
def Frame.outLen (f : Frame) : Nat :=
  match f.kind, f.dir with
  | .macsec, .egress => f.bytes.length + (if cScInc f.cfg0 then 16 else 8) + 16
  | .t10, .egress => 30 + 4 * cClear f.cfg0 + t10CipherLen (cOffset f.cfg0) f.len
  | .macsec, .ingress => 12 + 4 * cClear f.cfg0 + f.len
  | .t10, .ingress => 12 + 4 * cClear f.cfg0 + f.len
  | _, _ => if f.outBytes.isEmpty then f.bytes.length else f.outBytes.length
/-- Segments that dispatch reserves (R75). [DEDUCED: log 43] -/
def Frame.reserve (f : Frame) : Nat := segsOf (if f.eof then f.outLen else f.mtu)
/-- Bytes of the ingress admission buffer that a frame counts for: a reservation until its EOF has been taken, then what it
holds (R102). -/
def Frame.admBytes (f : Frame) : Nat :=
  if f.void_ then 0 else if !f.eof then 16384 else if f.stage = .waiting then f.bytes.length else 0
/-- Free bytes of the ingress admission buffer of a port (R101, R102). -/
def State.admFree (s : State) (port : Nat) : Nat :=
  32768 * s.portLanes port - ((s.framesOf .ingress port).map Frame.admBytes).sum
/-- Bytes of an ingress reorder buffer that a frame counts for (R101). -/
def Frame.rsiBytes (f : Frame) : Nat :=
  match f.stage with
  | .waiting | .missq => 0
  | _ => if f.dir = .egress ∨ f.void_ then 0 else if f.eof then f.outLen else 16352
/-- Free bytes of the ingress reorder buffer that serves a port (R15). -/
def State.rsiFree (s : State) (port : Nat) : Nat :=
  1048576 - ((s.dp.frames.filter (fun f => f.port / 16 = port / 16)).map Frame.rsiBytes).sum
/-- The reorder buffer has room for a frame (R10, R75, R101): a frame that takes no slice reserves nothing on egress. -/
def State.roomFor (s : State) (f : Frame) : Bool :=
  if f.dir = .egress then decide (f.kind ≠ .macsec ∧ f.kind ≠ .t10) || decide (f.reserve ≤ s.bufSpace f.key_)
  else decide ((if f.eof then f.outLen else 16352) ≤ s.rsiFree f.port)

/-! ### Frames without cipher work (R10, R96, R101) -/

/-- A frame that takes no slice and has its ticket. -/
def Frame.passes (f : Frame) : Bool :=
  decide (f.stage = .waiting) && f.ticket.isSome && !f.void_ && !(decide (f.kind = .macsec) || decide (f.kind = .t10))
/-- A frame that takes no slice is written to the reorder buffer once it has its ticket and there is room. -/
def State.passTry (s : State) (f : Frame) : State :=
  if f.passes && s.roomFor f then
    ((s.modFrame f.id (fun g => { g with stage := .written })).sendTicket f 63 false).rseReturn f
  else s
/-- Try every frame that a test names. -/
def State.passAll (s : State) (p : Frame → Bool) : State :=
  s.forEach ((s.dp.frames.filter (fun f => f.passes && p f)).map (·.id)) (fun s id => match s.frame id with
    | some f => s.passTry f
    | none => s)
/-- Tickets have been released: the frames that wait for one take it in order; one without cipher work then goes on (R74). -/
def State.nextTicket (s : State) (k : Nat) : State :=
  s.forEach ((s.dp.frames.filter (fun f =>
      decide (f.key_ = k) && decide (f.stage ≠ .missq) && f.ticket.isNone && !f.void_)).map (·.id)) (fun s id =>
    if s.ticketsOut k < 4096 then
      let s := s.setTicket id k
      match s.frame id with
      | some g => s.passTry g
      | none => s
    else s)

/-! ### Ends of frames -/

/-- Bulk issue of a slice resumes from the suspended-frame context, which is free again (R126). -/
def State.resume (s : State) (n : Nat) : State :=
  let back := fun (g : Frame) => match (s.sl n).susp with
    | some c => if c.frame = g.id then c.ctr else g.issued
    | none => g.issued
  (s.modSl n (fun c => { c with susp := none })).modDp (fun d =>
    { d with frames := d.frames.map (fun g => if g.inSl n then { g with suspended := false, issued := back g } else g) })
/-- A frame leaves its slice: the context of a frame that it suspended, or its own, is free (R126). -/
def State.leaveSlice (s : State) (f : Frame) : State :=
  match f.stage with
  | .inSlice n r => if r = 0 ∨ f.suspended then s.resume n else s
  | _ => s
/-- A frame goes out of the list; what it held of an ingress reorder buffer serves frames that wait for room. -/
def State.removeFrame (s : State) (f : Frame) : State :=
  ((s.modDp (fun d => { d with frames := sweepVoid f.key_ (d.frames.filter (fun g => decide (g.id ≠ f.id))) })).nextTicket
    f.key_).when (decide (f.dir = .ingress)) (·.passAll (fun g => decide (g.dir = .ingress)))
/-- A frame whose SOF has not been released goes, and its place in the order is skipped. -/
def State.voidFrame (s : State) (f : Frame) : State :=
  if f.ticket.isNone then s.removeFrame f
  else
    let src := match f.stage with | .inSlice n _ => n | _ => 63
    let s := (s.sendTicket f src true).modFrame f.id (fun g =>
      { g with void_ := true, stage := .written, holds := false, eof := true, bytes := [], outBytes := [], key := [], salt := [],
               h := [], ks := [] })
    ((s.modDp (fun d => { d with frames := sweepVoid f.key_ d.frames })).nextTicket f.key_).when
      (decide (f.dir = .ingress)) (·.passAll (fun g => decide (g.dir = .ingress)))
/-- Drive an EOF; the Quiet level holds BSE (R13). -/
def State.sendEof (s : State) (f : Frame) (b : Bytes) (c : Code) : State :=
  if f.dir = .egress ∧ s.dp.quiet = true then s else s.emit (.eof f.dir f.port f.express b c)
/-- Credit that a frame was charged at its SOF beyond the segments that have left is held again (R33).
[DESIGN CHOICE: log 109] -/
def State.refund (s : State) (f : Frame) (sent : Nat) : State :=
  s.modDp (fun d => { d with
    credit := Tab.modify 0 d.credit f.key_ (· + (f.charged - sent))
    sent := Tab.modify 0 d.sent f.key_ (· - (f.charged - sent)) })
/-- A frame joins the list. -/
def State.addFrame (s : State) (f : Frame) : State :=
  s.modDp (fun d => { d with nextFrame := d.nextFrame + 1, frames := d.frames ++ [f] })
/-- The report that a frame leads to (R112). -/
def Frame.report (f : Frame) (b : Bytes) : Frame :=
  { f with
    express := false, desc := 0, bytes := b, busLen := b.length, got := b.length, eof := true, dpBad := false, upErr := false
    truncated := false, tooLong := false, stage := .written, kind := .report, hasChan := false, noch := true, icvDone := true
    icvBad := false, late := false, checked := true, verifyFirst := false, outBytes := b, result := 4, outcome := .report
    sofOut := false, void_ := false, suspended := false, ticket := none, holds := false, rep := none, charged := 0
    key := [], salt := [], h := [], ks := [] }
/-- A report takes its place in the order of the port's bulk class, as a frame admitted now (R112). [DEDUCED: log 49] -/
def State.addReport (s : State) (f : Frame) : State :=
  let id := s.dp.nextFrame
  let s := s.addFrame { f with id := id }
  match s.frame id with
  | some g => s.takeTicket g
  | none => s
/-- A frame has ended before its EOF has come: the input bus still brings the rest of it (R27, R31). Its number is not given
again, also that of a frame refused at its SOF. -/
def State.addStub (s : State) (f : Frame) : State :=
  if f.eof then s
  else s.modDp (fun d => { d with nextFrame := max d.nextFrame (f.id + 1), stubs := d.stubs ++ [{
    id := f.id, dir := f.dir, port := f.port, express := f.express, busLen := f.busLen, got := f.got, rep := f.rep.map f.report }] })
/-- The rest of the frames of a direction and port is not awaited any more; their reports take their places.
[DEDUCED: log 42] -/
def State.clearStubs (s : State) (d : Dir) (port : Nat) : State :=
  let mine := fun (t : Stub) => decide (t.dir = d) && decide (t.port = port)
  let reps := (s.dp.stubs.filter mine).filterMap (·.rep)
  (s.modDp (fun dp => { dp with stubs := dp.stubs.filter (fun t => !mine t) })).forEach reps (fun s r => s.addReport r)
/-- A frame is still in its admission buffer. -/
def Frame.atAdmission (f : Frame) : Bool := decide (f.stage = .waiting)
/-- End a frame before its own end: with an EOF code when its SOF has left, else it is dropped (R20, R27, R83, R107).
It is counted under one port counter. How many segments have left is cycle timing: the EOF carries no bytes here, and their
number is a free value (R33). [DEDUCED, DESIGN CHOICE: log 1, 41] -/
def State.endFrame (s : State) (f : Frame) (c : Code) (ctr : Option Nat) : State :=
  let s := match ctr with | some n => s.portCount f.port n | none => s
  let s := s.when f.atAdmission (·.rseReturn f)
  let s := (s.leaveSlice f).addStub f
  if f.sofOut then
    let n := 1 + Config.freeSent s.freeCtr % f.charged
    ((s.draw.refund f n).removeFrame f).sendEof f [] c
  else s.voidFrame f
/-- Drop a frame that has not left admission or the miss queue, counted on a port counter. -/
def State.dropFrame (s : State) (f : Frame) (ctr : Nat) : State := s.endFrame f .none (some ctr)
/-- Drop a frame that is counted on its channel (R83, R107). -/
def State.dropStat (s : State) (f : Frame) (incs : List (Nat × Nat)) : State := (s.endFrame f .none none).outcome f.chix incs
/-- Under Quiet the black output stage discards what reaches the egress reorder buffers (R13). -/
def State.quietDrop (s : State) : State :=
  if s.dp.quiet then
    s.forEach (s.dp.frames.filter (fun f => decide (f.dir = .egress) && decide (f.stage = .written) && !f.void_)) (fun s f => s.removeFrame f)
  else s
/-- End every frame that a test names. [DEDUCED: log 53] -/
def State.endFrames (s : State) (p : Frame → Bool) (c : Code) (ctr : Frame → Option Nat) : State :=
  s.forEach ((s.dp.frames.filter (fun f => p f && !f.void_)).map (·.id)) (fun s id => match s.frame id with
    | some f => s.endFrame f c (ctr f)
    | none => s)
/-- TX_FAULT or RX_FAULT. -/
def faultCtr (f : Frame) : Option Nat := some (if f.dir = .egress then 0x0F else 0x4C)
/-- Stomp the frames that a test names (R300). [DESIGN CHOICE: log 55] -/
def State.stomp (s : State) (p : Frame → Bool) : State := s.endFrames p .fault faultCtr
/-- A fault event of a detector at the lanes of a frame (R301). [DESIGN CHOICE: log 55] -/
def State.frameFault (s : State) (det : Nat) (f : Frame) : State :=
  s.detect det f.port (laneInfo f.port f.express) (chixInfo f.hasChan f.chix)
/-- PORT_FLAGS.BUS_ERR or PORT_BFLAGS.BSI_BUS_ERR. -/
def State.busErrFlag (s : State) (d : Dir) (port : Nat) : State :=
  if d = .egress then s.portFlag port 5 else s.portBFlag port 4

/-! ### The EOF of a frame is taken -/

/-- Keystream of speculative blocks beyond the end of a frame is discarded and counted (R123). -/
def State.specDrop (s : State) (f : Frame) : State :=
  match f.stage with
  | .inSlice n _ =>
    let k := f.issued - f.slots
    if k = 0 then s
    else (((s.modFrame f.id (fun g => { g with issued := f.slots, ks := g.ks.take (16 * (f.slots - 1 - g.pos / 16)) })).evtF
      (256 + n) (some f.chix, f.port, f.dir)).evt (256 + n) (k - 1))
  | _ => s
/-- The EOF of a frame has been taken: its length is known, the excess of its reservation is returned, and a report of it takes its
place (R75, R112, R123). [DEDUCED: log 41] -/
def State.closeFrame (s : State) (f : Frame) : State :=
  if f.eof then s
  else
    let g := { f with eof := true, got := f.busLen, resv := min f.resv (segsOf f.outLen), rep := none }
    let s := s.when (decide (f.resv ≠ 0)) (fun s => s.setBuf f.key_ (s.bufSpace f.key_ + (f.resv - g.resv)))
    let s := (s.modFrame f.id (fun h => { h with eof := true, got := g.got, resv := g.resv, rep := none })).specDrop g
    let s := s.bwIn f.dir f.port (g.got - f.got)
    let s := s.when (decide (f.stage ≠ .waiting)) (·.rseReturn g)
    match f.rep with
    | some b => s.addReport (f.report b)
    | none => s
/-- A frame of a VERIFY_FIRST channel exceeds 9,216 B (R101): it is dropped at its EOF. [DEDUCED: log 45] -/
def State.vfCheck (s : State) (id : Nat) : State :=
  match s.frame id with
  | some f =>
    if f.verifyFirst ∧ f.eof = true ∧ 9212 < f.bytes.length then (s.dropFrame f 0x4F).portFlag f.port 13 else s
  | none => s

/-! ### Miss queue (R226) -/

/-- Bytes of the miss queue that a frame counts for. -/
def Frame.missBytes (f : Frame) : Nat :=
  if f.stage = .missq then (if f.eof then 64 * ceilDiv f.bytes.length 64 else 16384) else 0
/-- Bytes of the miss queue in use, of one direction or of both. -/
def State.missUsed (s : State) (d : Option Dir) : Nat :=
  ((s.dp.frames.filter (fun f => match d with | some x => decide (f.dir = x) | none => true)).map Frame.missBytes).sum
/-- Frames of a channel in the miss queue. -/
def State.missCount (s : State) (x : Nat) : Nat :=
  (s.dp.frames.filter (fun f => decide (f.stage = .missq) && decide (f.chix = x))).length
/-- A frame may join. -/
def State.missRoom (s : State) (f : Frame) : Bool :=
  decide (s.missCount f.chix < 64) && decide (s.missUsed (some f.dir) + 16384 ≤ 3 * 2 ^ 20) &&
  decide (s.missUsed none + 16384 ≤ 2 ^ 22)
/-- Drop the frames of a channel in the miss queue as PAGE_FAIL (R227). -/
def State.missFail (s : State) (p : Frame → Bool) : State :=
  s.forEach ((s.dp.frames.filter (fun f => decide (f.stage = .missq) && p f)).map (·.id)) (fun s id =>
    match s.frame id with
    | some f => (s.dropFrame f (if f.dir = .egress then 0x08 else 0x47)).portFlag f.port 3
    | none => s)

end Sys2Proof.Machine
end

