-- ==== Sys2Proof/Machine/Pager.lean ====
section
/-! DEFINITION. The pager: the store record, page-ins, page-outs, group jobs, and the delivery of ended store requests to
the pager, the counter tree and the SAW window (R223 to R241, R378). -/
namespace Sys2Proof.Machine

/-! ### Window commands that end -/

/-- End the SAW command in progress (R165, R166, R387). -/
def State.sawDone (s : State) (code detail : Nat) : State :=
  let op := match s.pager.saw with | some c => cmdOp c | none => 0
  let s := (s.evt 110 1).when (decide (code ≠ 0 ∧ code ≠ 0x23)) (·.evt 111 1)
  (s.modPager (fun p => { p with saw := none, sawLines := [], sawLeft := [], sawFail := false })).cmdDone .saw 0x84 0 code op detail
/-- The SAW command in progress is one of some opcodes and names a channel. -/
def State.sawOn (s : State) (ops : List Nat) (x : Nat) : Bool :=
  match s.pager.saw with
  | some c => decide (cmdOp c ∈ ops) && decide (cmdChix c = x)
  | none => false
/-- Commands that wait for the page-in of a channel end with a code (R167). -/
def State.pageCmdsFail (s : State) (x code : Nat) : State :=
  let s := s.when (s.sawOn [0x01, 0x04, 0x10, 0x11] x) (·.sawDone code 0)
  match s.pager.keyw with
  | some c => if cmdChix c = x then s.keywDone code 0 else s
  | none => s

/-! ### The record (R225) -/

/-- A time in a record: seconds (6 B), then nanoseconds (4 B). -/
def timeBytes (t : Nat) : Bytes := beBytes 6 (nsSec t) ++ beBytes 4 (nsNs t)
/-- A time from a record. -/
def ofTimeBytes (b : Bytes) : Nat := mkNs (ofBe (slice b 0 6)) (ofBe (slice b 6 4))
/-- Lease state code. -/
def LState.code : LState → Nat
  | .none => 0 | .wait => 1 | .run => 2 | .last => 3 | .hold => 4
/-- Lease cause code (R225, R307). -/
def LCause.code : LCause → Nat
  | .none => 0 | .full => 1 | .nv => 2 | .blind => 3 | .exh => 4 | .fault => 5
/-- Lease state of a code. -/
def lstateOf (n : Nat) : LState :=
  if n = 1 then .wait else if n = 2 then .run else if n = 3 then .last else if n = 4 then .hold else .none
/-- Lease cause of a code. -/
def lcauseOf (n : Nat) : LCause :=
  if n = 1 then .full else if n = 2 then .nv else if n = 3 then .blind else if n = 4 then .exh else if n = 5 then .fault else .none
/-- Status word of a slot in a record: DRAINING is written as LIVE, and the AN of every slot is kept. -/
def Slot.recWord (sl : Slot) : W32 :=
  let w := sl.statusWord
  let w := if sl.st = .draining then mergeBits 0xC0000000 0x40000000 w else w
  mergeBits 0x30000 (atPos sl.an.toNat 16) w
/-- Slot area of a record. -/
def slotArea (rx : Bool) (sl : Slot) (wrap : Bytes) : Bytes :=
  let pn := if rx then
      beBytes 8 sl.lpn ++ beBytes 8 (sl.high.getD 0) ++ leBytes 32 sl.bitmap.toNat
    else beBytes 8 sl.next ++ beBytes 8 sl.bnd ++ beBytes 8 sl.ceil ++ beBytes 8 sl.acked ++ zeros 16
  beBytes 4 sl.recWord.toNat ++ beBytes 4 sl.ssci.toNat ++ beBytes 2 sl.keyRef.toNat ++
    beBytes 1 (sl.lst.code * 32 + sl.cause.code * 4) ++ beBytes 1 (b2n sl.forced + 2 * b2n sl.nokey) ++ pn ++
    padTo 64 wrap ++ zeros 4
/-- The record of a channel. -/
def recordBytes (en : Entry) (group : BitVec 12) (wseq : W32) (a b : Slot) (wa wb : Bytes) : Bytes :=
  let rx := cRx en.cfg0
  let body := ([0x43, 0x57, 0x50, 0x31, 0x01] : Bytes) ++ beBytes 1 (en.chix / 65536 % 16) ++ beBytes 2 (en.chix % 65536) ++
    beBytes 4 wseq.toNat ++ zeros 4 ++ beBytes 4 en.cfg0.toNat ++ beBytes 4 en.window ++ beBytes 8 en.sci.toNat ++
    beBytes 2 group.toNat ++ beBytes 4 en.lastUsed.toNat ++ beBytes 1 (eqxByte en.eqx) ++ beBytes 1 (solByte en.sol) ++
    eqxVal en.eqx ++ solVal en.sol ++ zeros 4 ++ slotArea rx a wa ++ slotArea rx b wb ++
    ((List.range 32).map (fun i => beBytes 4 (en.field i).toNat)).flatten ++
    timeBytes a.retAt ++ timeBytes b.retAt ++ zeros 36 ++ beBytes 4 wseq.toNat
  body ++ beBytes 4 (crc32 body).toNat
/-- Step 4 of R229. [DEDUCED: log 66] -/
def recordOk (x : Nat) (r : Bytes) : Bool :=
  decide (slice r 0 5 = ([0x43, 0x57, 0x50, 0x31, 0x01] : Bytes)) && decide (ofBe (slice r 5 3) % 2 ^ 20 = x) &&
  decide (slice r 8 4 = slice r 504 4) && decide (ofBe (slice r 508 4) = (crc32 (r.take 508)).toNat)
/-- Slot area of a slot in a record. -/
def recArea (r : Bytes) (b : Bool) : Bytes := slice r (if b then 192 else 64) 128
/-- The status word of a slot area. -/
def areaStat (a : Bytes) : W32 := BitVec.ofNat 32 (ofBe (slice a 0 4))
/-- A slot area holds a key. -/
def areaLive (a : Bytes) : Bool := decide (fld (areaStat a) 31 30 = 1) || decide (fld (areaStat a) 31 30 = 2)
/-- CFG of a record. -/
def recCfg (r : Bytes) : W32 := BitVec.ofNat 32 (ofBe (slice r 16 4))
/-- The slot that an area describes, with the key material that KEYX unwrapped, if any. -/
def slotOfArea (rx : Bool) (a : Bytes) (ret : Nat) (m : Option KeyMat) : Slot :=
  let w := areaStat a
  let pn := slice a 12 48
  let high := ofBe (slice pn 8 8)
  let lb := (byteAt a 10).toNat
  let base : Slot :=
    { an := BitVec.ofNat 2 (fld w 17 16), gen := BitVec.ofNat 8 (fld w 15 8), vaultErr := bit w 27 }
  match m with
  | none => { base with st := if fld w 31 30 = 3 then .erased else .empty }
  | some m =>
    { base with
      st := .live, retired := bit w 29, klc := m.klc, ssci := BitVec.ofNat 32 (ofBe (slice a 4 4)), keyRef := m.keyRef,
      key := m.key, salt := m.salt, h := m.h, tag := m.tag,
      next := if rx then 0 else ofBe (slice pn 0 8), bnd := if rx then 0 else ofBe (slice pn 8 8),
      ceil := if rx then 0 else ofBe (slice pn 16 8), acked := if rx then 0 else ofBe (slice pn 24 8),
      lst := if rx then .none else lstateOf (lb / 32), cause := if rx then .none else lcauseOf (lb / 4 % 8),
      forced := (byteAt a 11).toNat % 2 = 1, nokey := (byteAt a 11).toNat / 2 % 2 = 1,
      lpn := if rx then ofBe (slice pn 0 8) else 0,
      high := if rx ∧ high ≠ 0 then some high else none,
      bitmap := if rx then BitVec.ofNat 256 (ofLe (slice pn 16 32)) else 0, retAt := ret }
/-- Unwrap a slot of a record under KEK 63 (R164, R229 step 5): none when it is to be EMPTY or holds no key. -/
def State.areaMat (s : State) (x : Nat) (b : Bool) (cfg : W32) (a : Bytes) : Except Nat (Option KeyMat) :=
  if areaLive a then
    match s.kek 63 with
    | none => .ok none
    | some k =>
      let klc := fld (areaStat a) 26 24
      let ref := ofBe (slice a 8 2)
      match unwrapBlob k (slice a 60 64) (usageOf cfg true) klc x ref 1 b with
      | .error e => .error e
      | .ok (key, salt) => .ok (some (keyMat cfg key salt 0 0 (BitVec.ofNat 8 klc) (BitVec.ofNat 16 ref) 0))
  else .ok none

/-! ### Page-ins -/

/-- The page-in of a channel. -/
def State.pageIn (s : State) (x : Nat) : Option PageIn := s.pager.ins.find? (fun p => decide (p.chix = x))
/-- Change it. -/
def State.modIn (s : State) (x : Nat) (f : PageIn → PageIn) : State :=
  s.modPager (fun p => { p with ins := p.ins.map (fun q => if q.chix = x then f q else q) })
/-- Take it off, with its reads and unwraps. -/
def State.dropIn (s : State) (x : Nat) : State :=
  ((s.forgetReqs (fun q => match q with | .pagerIn y _ => decide (y = x) | _ => false)).modPager (fun p => { p with ins := p.ins.filter (fun q => decide (q.chix ≠ x)) })).modKeyx (fun k =>
    { k with queue := k.queue.filter (fun j => match j with | .unwrap y _ => decide (y ≠ x) | _ => true) })
/-- The page-out of a channel. -/
def State.pageOut (s : State) (x : Nat) : Option PageOut := s.pager.outs.find? (fun p => decide (p.chix = x))
/-- Change it. -/
def State.modOut (s : State) (x : Nat) (f : PageOut → PageOut) : State :=
  s.modPager (fun p => { p with outs := p.outs.map (fun q => if q.chix = x then f q else q) })
/-- Take it off, with its writes and wraps. -/
def State.dropOut (s : State) (x : Nat) : State :=
  ((s.forgetReqs (fun q => match q with | .pageOut y _ => decide (y = x) | _ => false)).modPager (fun p => { p with outs := p.outs.filter (fun q => decide (q.chix ≠ x)) })).modKeyx (fun k =>
    { k with queue := k.queue.filter (fun j => match j with | .wrap y _ => decide (y ≠ x) | _ => true) })
/-- Page-ins and page-outs that run. -/
def State.pagerRunning (s : State) : Nat :=
  (s.pager.ins.filter (·.started)).length + (s.pager.outs.filter (·.started)).length
/-- The pager serves. -/
def State.pagerUp (s : State) : Bool := !s.held .pager && !s.resetOn .pager
/-- Domains a page-in needs (R279, R281). -/
def pageDoms : List Nat := [1, 44, 45] ++ tableDoms
/-- A group job ends when none of its work is left (R236). -/
def State.jobCheck (s : State) : State :=
  if s.pager.running ∧ !s.pager.ins.any (fun p => decide (p.cls = .prewarm)) ∧ !s.pager.outs.any (fun o => !o.byCmd) then
    s.modPager (fun p => { p with running := false, jobs := p.jobs.drop 1 })
  else s
/-- Free an entry and its vault slots. -/
def State.freeEntry (s : State) (e : Nat) : State :=
  ((s.setEntry e none).modSlot (vslotOf e false) (fun _ => {})).modSlot (vslotOf e true) (fun _ => {})
/-- Entries whose record a memory error took are freed when no frame holds a slot of them any more (R298).
[DEDUCED: log 72] -/
def State.reap (s : State) : State :=
  s.forEach s.ch.entries (fun s p => match p.2 with
    | some en =>
      let a := vslotOf p.1 false
      let b := vslotOf p.1 true
      if en.live = false ∧ en.evicting ∧ s.holders a (s.slot a).gen = false ∧ s.holders b (s.slot b).gen = false then s.freeEntry p.1
      else s
    | none => s)
/-- A page-in fails with a reason (R229); a repeat within PAGE_RETRY_US is not remembered again and raises no fault event. -/
def State.pageFail (s : State) (x reason : Nat) (fresh : Bool) : State :=
  let s := match s.pageIn x with
    | some p => ((s.when p.started (·.freeEntry p.entry)).dropIn x).when (s.resident x).isNone (·.dropOut x)
    | none => s
  let s := s.modPager (fun p => { p with
    failInfo := atPos reason 28 ||| atPos (x % 2 ^ 20) 8,
    fails := if fresh then ((x, reason, s.sys.aoClk) :: p.fails.filter (fun f => decide (f.1 ≠ x))).take 64 else p.fails })
  let s := (s.setFlag .pager 0x40 2).evt (155 + reason) 1
  let s := s.when (fresh && (decide (reason = 1) || decide (reason = 2) || decide (reason = 4)))
    (·.detect 0x2D 0 (BitVec.ofNat 32 x) (BitVec.ofNat 32 reason))
  let s := (s.missFail (fun f => decide (f.chix = x))).mirrorFail x
  (s.pageCmdsFail x (if reason = 3 then 0x04 else if s.domsLost pageDoms then 0x3F else 0x09)).jobCheck
/-- The reason with which a new page-in of a channel fails at once (R229). -/
def State.backoff (s : State) (x : Nat) : Option Nat :=
  match s.pager.fails.find? (fun f => decide (f.1 = x)) with
  | some (_, r, t) => if s.sys.aoClk < t + s.pageRetry then some r else none
  | none => none
/-- Ask for the page-in of a stored channel (R228). [DEDUCED: log 94] -/
def State.pageWant (s : State) (x : Nat) (c : PClass) : State :=
  if s.held .pager then ((s.missFail (fun f => decide (f.chix = x))).mirrorFail x).pageCmdsFail x 0x09
  else match s.pageIn x with
  | some p =>
    if c = .demand ∧ p.demand = false then
      (s.modIn x (fun p => { p with demand := true, at_ := s.sys.aoClk, ser := s.pager.nextSer })).modPager (fun p => { p with
        nextSer := p.nextSer + 1 })
    else s
  | none => match s.backoff x with
    | some r => s.pageFail x r false
    | none => s.modPager (fun p => { p with
        nextSer := p.nextSer + 1,
        ins := p.ins ++ [{ chix := x, ser := p.nextSer, cls := c, demand := decide (c = .demand), at_ := s.sys.aoClk }] })
/-- Rank of a waiting page-in. -/
def PageIn.rank (p : PageIn) : Nat := if p.demand then 0 else match p.cls with | .demand => 0 | .command => 1 | .prewarm => 3
/-- The page-in to start next: one whose channel is not resident, by class and then by arrival. [DEDUCED: log 94] -/
def State.nextIn (s : State) : Option PageIn :=
  (s.pager.ins.filter (fun p => !p.started && (s.resident p.chix).isNone)).foldl (fun b p => match b with
    | none => some p
    | some q => if p.rank < q.rank ∨ (p.rank = q.rank ∧ p.ser < q.ser) then some p else some q) none
/-- Step 1 fails for want of a free entry; a prewarm failure ends its group job (R229, R236). -/
def State.tableFull (s : State) (p : PageIn) : State :=
  if p.cls = .prewarm ∧ p.demand = false then
    let drop := (s.pager.ins.filter (fun q => decide (q.cls = .prewarm) && !q.demand && !q.started)).map (·.chix)
    let s := (s.setFlag .pager 0x40 4).evt 164 1
    let s := s.pageFail p.chix 3 true
    let s := s.forEach (drop.filter (· ≠ p.chix)) (fun s x => s.dropIn x)
    if s.pager.running then s.modPager (fun p => { p with running := false, jobs := p.jobs.drop 1 }) else s
  else s.pageFail p.chix 3 true
/-- Order in which the lines of a record are read. [DEDUCED: log 94] -/
def lineOrder : List Nat := [1, 2, 3, 4, 0, 5, 6, 7]
/-- Issue the reads of a page-in (R229 step 2). -/
def State.pageReads (s : State) (x : Nat) : State :=
  s.forEach lineOrder (fun s l => s.storeRead (s.recLine x l) s.pageKix (.pagerIn x l))
/-- Start a page-in (R229 steps 1 and 2). -/
def State.pageStart (s : State) (p : PageIn) : State :=
  let s := s.evt (match p.cls with | .demand => 152 | .command => 153 | .prewarm => 154) 1
  if s.domsLost pageDoms then s.pageFail p.chix 5 true
  else
    match s.lowestFree with
    | none => s.tableFull p
    | some e =>
      if p.cls = .prewarm ∧ p.demand = false ∧ s.freeEntries < s.freeLowAt + 1 then s.tableFull p
      else
        let s := s.setEntry e (some { chix := p.chix, live := false })
        (s.modIn p.chix (fun q => { q with started := true, entry := e, at_ := if q.demand then q.at_ else s.sys.aoClk })).pageReads p.chix
/-- The lines of a page-in, joined. -/
def PageIn.record (p : PageIn) : Bytes := ((List.range 8).map (fun l => padTo 64 (Tab.get [] p.lines l))).flatten
/-- Every line has been read. -/
def PageIn.whole (p : PageIn) : Bool := decide (p.lines.length = 8)
/-- Queue the unwrap of a slot when its lines are in (R229 step 5). -/
def State.pageSlot (s : State) (x : Nat) (b : Bool) : State :=
  match s.pageIn x with
  | none => s
  | some p =>
    let l := if b then 3 else 1
    let got := p.lines.any (fun q => decide (q.1 = l)) && p.lines.any (fun q => decide (q.1 = l + 1))
    if !got || p.queued.contains b then s
    else
      let a := Tab.get [] p.lines l
      let s := s.modIn x (fun p => { p with queued := p.queued ++ [b] })
      if areaLive a ∧ s.sys.kek63.isSome = true then s.keyxPush (.unwrap x b)
      else s.modIn x (fun p => { p with done := p.done ++ [b] })

/-! ### Step 6 and 7 of R229 -/

/-- The transmit lease of a LIVE slot after a page-in (R195, R231, R334). -/
def State.pageLease (s : State) (x v : Nat) : State :=
  match s.slotChan v with
  | none => s
  | some (_, cap) =>
    let sl := s.slot v
    let half := s.liveFloor x (decide (v % 2 = 1)) sl.tag
    let restart := match s.lease.live x with | some l => l.restart | none => false
    if s.lease.scanDone = false then s.modSlot v (fun o => { o with lst := .wait, cause := .none })
    else if half = none ∧ sl.lst = .hold ∧ sl.cause = .blind ∧ s.pair.promoAdd ≠ 0 then s.modSlot v (fun o => { o with promoHold := true })
    else if half = some sl.ceil ∧ restart = false then
      match sl.lst with
      | .wait => s.startLease v
      | .run => if sl.bnd ≤ sl.next then (s.modSlot v (fun o => { o with bnd := o.ceil })).requestNext v else s
      | .last | .hold =>
        let c := s.requestCause v x sl.ceil (chunkCeil s.chunkLog cap sl.ceil) cap
        if c.isNone ∧ sl.cause ≠ .none then s.clearCause sl.cause v else s
      | .none => s
    else
      let p := max sl.ceil (half.getD 0)
      let p := if restart then min cap (p + s.pair.promoAdd) else p
      (((if restart then s.leaseAt v p else s.resumeAt v p)).evt 162 1).startLease v
/-- A LIVE slot of a record is installed EMPTY for want of KEK 63: it is counted (R229 step 5). -/
def State.keyLost (s : State) (a : Bytes) (m : Option KeyMat) : State := s.when (areaLive a && m.isNone) (·.evt 163 1)
/-- Write the slots of a page-in. -/
def State.pageSlots (s : State) (e : Nat) (r : Bytes) (ma mb : Option KeyMat) : State :=
  let rx := cRx (recCfg r)
  let s := (s.keyLost (recArea r false) ma).keyLost (recArea r true) mb
  let s := s.modSlot (vslotOf e false) (fun _ => s.maskSlot (vslotOf e false)
    (slotOfArea rx (recArea r false) (ofTimeBytes (slice r 448 10)) ma))
  s.modSlot (vslotOf e true) (fun _ => s.maskSlot (vslotOf e true)
    (slotOfArea rx (recArea r true) (ofTimeBytes (slice r 458 10)) mb))
/-- The entry that a record describes. -/
def entryOf (x : Nat) (r : Bytes) : Entry :=
  { chix := x, live := true, cfg0 := recCfg r, window := ofBe (slice r 20 4), sci := BitVec.ofNat 64 (ofBe (slice r 24 8)),
    lastUsed := BitVec.ofNat 32 (ofBe (slice r 34 4)), pinned := (byteAt r 38).toNat % 2 = 1,
    eqx := eqxOf (byteAt r 38).toNat (slice r 40 10), sol := solOf (byteAt r 39).toNat (slice r 50 10),
    ctr := (List.range 32).foldl (fun t i => Tab.set 0 t i (BitVec.ofNat 32 (ofBe (slice r (320 + 4 * i) 4)))) [] }
/-- The exposure of a paged-in channel: the LIVE receive slots of one that was stored at the takeover are exposed, and a slot that came
back without its key is not (R332). [DEDUCED: log 100] -/
def State.pageExposed (s : State) (x e : Nat) (rx : Bool) : State :=
  let live := fun (b : Bool) => decide ((s.slot (vslotOf e b)).st = .live) && !(s.slot (vslotOf e b)).retired
  let put := fun (s : State) (b : Bool) =>
    if !live b then s.unexpose x b
    else s.when (rx && decide (x ∈ s.pair.unseen)) (·.modPair (fun p => { p with exposed := insNat p.exposed (x * 2 + b2n b) }))
  (s.forEach [false, true] put).when (decide (x ∈ s.pair.unseen)) (·.modPair (fun p => { p with unseen := delNat p.unseen x }))
/-- A NOW Equinox that a stored channel brings to a promoted unit is lost (R217, R334). [DEDUCED: log 102] -/
def State.keptEqx (s : State) (x : Nat) (q : Option Eqx) : Option Eqx :=
  match q, s.lease.live x with
  | some q, some l => if l.restart ∧ q.mode = .now then none else some q
  | q, _ => q
/-- The channel becomes resident. -/
def State.pageDone (s : State) (p : PageIn) (r : Bytes) (ma mb : Option KeyMat) : State :=
  let x := p.chix
  let e := p.entry
  let en := entryOf x r
  let s := s.setEntry e (some { en with evicting := (s.pageOut x).isSome, eqx := s.keptEqx x en.eqx })
  let s := ((s.setResi x { v := true, idx := BitVec.ofNat 16 e, rec_ := true }).pageSlots e r ma mb).pageExposed x e (cRx en.cfg0)
  let s := s.dropIn x
  let s := s.when (decide (100 < s.sys.aoClk - p.at_)) (·.evt 161 1)
  let s := if cRx en.cfg0 then s
    else s.forEach [false, true] (fun s b => s.when (decide ((s.slot (vslotOf e b)).st = .live)) (·.pageLease x (vslotOf e b)))
  let s := match en.sol with
    | some q => s.when (s.solDue q) (·.retire e q)
    | none => s
  (s.spillScan x).jobCheck
/-- Complete a page-in whose lines and unwraps are in (R229 steps 4 to 7). -/
def State.pageTry (s : State) (x : Nat) : State :=
  match s.pageIn x with
  | none => s
  | some p =>
    if p.whole then
      let r := p.record
      if !recordOk x r then s.pageFail x 2 true
      else if p.done.contains false && p.done.contains true then
        let cfg := recCfg r
        match s.areaMat x false cfg (recArea r false), s.areaMat x true cfg (recArea r true) with
        | .ok ma, .ok mb => s.pageDone p r ma mb
        | _, _ => s.pageFail x 4 true
      else s
    else s
/-- A line of a page-in has been read (R229 step 3). -/
def State.pageLine (s : State) (x l : Nat) (f : FinRes) : State :=
  match s.pageIn x with
  | none => s
  | some p =>
    if !p.started then s
    else match f with
      | .ok d _ =>
        (((s.modIn x (fun p => { p with lines := Tab.ins p.lines l d })).pageSlot x false).pageSlot x true).pageTry x
      | _ => s.pageFail x 1 true
/-- An unwrap of a page-in has ended. -/
def State.pageUnwrapped (s : State) (x : Nat) (b : Bool) : State :=
  ((s.modIn x (fun p => { p with done := if p.done.contains b then p.done else p.done ++ [b] })).pageTry x)

/-! ### Page-outs (R233) -/

/-- Queue a page-out. -/
def State.pushOut (s : State) (o : PageOut) : State :=
  s.modPager (fun p => { p with nextSer := p.nextSer + 1, outs := p.outs ++ [{ o with ser := p.nextSer }] })
/-- Frames of a channel wait in the miss queue. -/
def State.missWaits (s : State) (x : Nat) : Bool := s.dp.frames.any (fun f => decide (f.stage = .missq) && decide (f.chix = x))
/-- Set the eviction point of a resident channel and queue its page-out. -/
def State.evict (s : State) (x e : Nat) (byCmd discard : Bool) : State :=
  let s := s.modEntry e (fun en => { en with evicting := true })
  if (s.pageOut x).isSome then s.modOut x (fun o => { o with byCmd := o.byCmd || byCmd })
  else s.pushOut { chix := x, byCmd := byCmd, discard := discard }
/-- A page-out is over: its entry is free, the lease handle stands in the residency map (R233 step 4, R234); frames that wait in the
miss queue return through a new page-in (R240). [DEDUCED: log 94] -/
def State.outDone (s : State) (o : PageOut) (e : Nat) : State :=
  let x := o.chix
  let away := match s.entry e with | some en => s.schedItems e en | none => []
  let s := ((s.freeEntry e).dropOut x).modCh (fun c => { c with awaySched := c.awaySched.filter (fun m => decide (m.chix ≠ x)) ++ away })
  let s := if o.discard then (s.dropIn x).setResi x {}
    else ((s.setResi x { s.resi x with rec_ := true }).evt 155 1).syncHandle x
  let s := s.when (s.missWaits x && !o.discard) (·.pageWant x .demand)
  (s.when (s.sawOn [0x03] x) (·.sawDone 0 0)).jobCheck
/-- A page-out that waits for nothing but its slots' frames ends when none holds them. -/
def State.outTry (s : State) (x : Nat) : State :=
  match s.pageOut x, s.resident x with
  | some o, some e =>
    let a := vslotOf e false
    let b := vslotOf e true
    if o.draining ∧ s.holders a (s.slot a).gen = false ∧ s.holders b (s.slot b).gen = false then s.outDone o e else s
  | _, _ => s
/-- A page-out fails: the channel stays resident (R233). -/
def State.outFail (s : State) (x : Nat) : State :=
  let s := match s.resident x with
    | some e => s.modEntry e (fun en => { en with evicting := false })
    | none => s
  let s := match s.pageIn x with
    | some p => s.when (!p.started) (·.dropIn x)
    | none => s
  ((s.dropOut x).when (s.sawOn [0x03] x) (·.sawDone 0x09 0)).jobCheck
/-- Form the record and write it (R233 step 3). -/
def State.outWrite (s : State) (x : Nat) : State :=
  match s.pageOut x, s.resident x with
  | some o, some e =>
    match s.entry e with
    | some en =>
      let blob := fun b => match o.blobs.find? (fun p => p.1 == b) with | some p => p.2 | none => []
      let s := s.modPager (fun p => { p with wseq := p.wseq + 1 })
      let r := recordBytes en (s.groupOf x) s.pager.wseq (s.slot (vslotOf e false)) (s.slot (vslotOf e true)) (blob false) (blob true)
      (s.modOut x (fun o => { o with writing := true, left := 8 })).forEach (List.range 8) (fun s l =>
        s.storeWrite (s.recLine x l) s.pageKix (.pageOut x l) (slice r (64 * l) 64))
    | none => s
  | _, _ => s
/-- A page-out whose slots are all wrapped is written. -/
def State.outNext (s : State) (x : Nat) : State :=
  match s.pageOut x with
  | some o => if o.started ∧ o.writing = false ∧ o.queued.all (fun b => o.blobs.any (fun p => p.1 == b)) then s.outWrite x else s
  | none => s
/-- A page-out may start: the slots have settled, and no lease request or spill is in flight (R195, R233, R378). -/
def State.outReady (s : State) (x e : Nat) : Bool :=
  let a := vslotOf e false
  let b := vslotOf e true
  !(s.slot a).unsettled && !(s.slot b).unsettled &&
  !s.lease.waits.any (fun w => decide (w.vslot = a) || decide (w.vslot = b)) && !s.spilling x
/-- Start a page-out. -/
def State.outStart (s : State) (x e : Nat) : State :=
  let s := s.applyAll x
  if s.spilling x then s.modOut x (fun o => o)
  else if s.zerosLeft x then s.outFail x
  else
    let live := [false, true].filter (fun b => decide ((s.slot (vslotOf e b)).st = .live))
    let live := if s.sys.kek63.isSome then live else []
    let s := s.modOut x (fun o => { o with started := true, queued := live })
    (s.forEach live (fun s b => s.keyxPush (.wrap x b))).outNext x
/-- A slot of a page-out has been wrapped. -/
def State.outWrapped (s : State) (x : Nat) (b : Bool) : State :=
  match s.resident x with
  | none => s
  | some e => match s.entry e with
    | none => s
    | some en =>
      let w := match s.kek 63 with
        | some k => wrapSlot k en.cfg0 x b (s.maskSlot (vslotOf e b) (s.slot (vslotOf e b)))
        | none => []
      (s.modOut x (fun o => { o with blobs := o.blobs ++ [(b, w)] })).outNext x
/-- A write of a page-out has been acknowledged. -/
def State.outWrote (s : State) (x : Nat) (f : FinRes) : State :=
  let bad := match f with | .ok _ _ => false | _ => true
  let s := s.modOut x (fun o => { o with left := o.left - 1, err := o.err || bad })
  match s.pageOut x with
  | some o =>
    if o.writing ∧ o.left = 0 then
      if o.err then s.outFail x else (s.modOut x (fun o => { o with draining := true })).outTry x
    else s
  | none => s

/-! ### Group jobs (R236) -/

/-- Queue a group job, or lose it when 8 are held. -/
def State.pushJob (s : State) (j : GroupJob) : State :=
  if s.pager.jobs.length < 8 then s.modPager (fun p => { p with jobs := p.jobs ++ [j] })
  else (s.setFlag .pager 0x40 3).evt 165 1
/-- Known channels of a job, in CHIX order. -/
def State.jobChans (s : State) (j : GroupJob) : List Nat :=
  ((s.ch.resi.filter (fun p => p.2.v)).map (·.1)).filter (fun x => s.groupOf x &&& j.mask == j.group &&& j.mask)
/-- Evict a channel for a group job: now, or when its page-in has completed. [DEDUCED: log 94] -/
def State.jobEvict (s : State) (x : Nat) : State :=
  match s.resident x with
  | some e => match s.entry e with
    | some en => if en.pinned ∨ en.evicting then s else s.evict x e false false
    | none => s
  | none => if (s.pageIn x).isSome ∧ (s.pageOut x).isNone then
      s.pushOut { chix := x } else s
/-- Run a group job: one scan of the group map. -/
def State.runJob (s : State) (j : GroupJob) : State :=
  let s := s.evt 168 1
  let l := s.jobChans j
  let s := if j.evict then s.forEach l (fun s x => s.jobEvict x)
    else s.forEach l (fun s x => if (s.resident x).isNone ∧ (s.pageIn x).isNone then s.pageWant x .prewarm else s)
  (s.modPager (fun p => { p with running := true })).jobCheck

/-! ### Delivery of ended store requests -/

/-- A trunk line that STAT_READ reads fails its tag or its code: the fields of a resident channel restart, and the line is written
with their new trunks (R382). [DEDUCED: log 89] -/
def State.trunkFailed (s : State) (x l : Nat) (f : FinRes) : State :=
  if 8 ≤ l ∧ (f = .ue ∨ f = .integ) ∧ (s.resident x).isSome then
    ((s.restartLeaves x (lineFields (l - 8))).evt 243 1).storeWrite (s.trunkLine x (l - 8)) s.pageKix (.restartWr x (l - 8)) (zeros 64)
  else s
/-- A line of a SAW command has come, or its write is done. -/
def State.sawLineDone (s : State) (x l : Nat) (f : FinRes) : State :=
  let k := x * 16 + l
  match f with
  | .ok d _ => s.modPager (fun p => { p with sawLines := Tab.ins p.sawLines k d, sawLeft := p.sawLeft.erase k })
  | _ => s.modPager (fun p => { p with sawLeft := p.sawLeft.erase k, sawFail := true })
/-- Hand an ended request to the pager, the counter tree or the SAW window. -/
def State.deliver1 (s : State) (r : SReq) (f : FinRes) : State :=
  match r.who with
  | .pagerIn x l => s.pageLine x l f
  | .pageOut x _ => s.outWrote x f
  | .spillRd x l => s.spillRead x l f
  | .spillWr x l => s.spillWrote x l f
  | .zeroWr x l => s.zeroWrote x l f
  | .sawLine x l => (s.sawLineDone x l f).trunkFailed x l f
  | .clearWr x l => s.sawLineDone x l f
  | _ => s
/-- Deliver every request that has ended. -/
def State.deliver (s : State) : State :=
  let l := s.store.fin
  (s.modStore (fun t => { t with fin := [] })).forEach l (fun s p => s.deliver1 p.1 p.2)
/-- Serve the store and deliver what ends, until nothing more ends at once. -/
def storeSettle : Nat → State → State
  | 0, s => s
  | k + 1, s =>
    let s := s.pumpStore
    if s.store.fin.isEmpty then s else storeSettle k s.deliver

end Sys2Proof.Machine
end

