-- ==== Sys2Proof/Machine/PairCore.lean ====
section
/-! DEFINITION. The pair engine: messages and their tags, the session, STATUS, the mirror queues and the sync, and what a
standby does with the items it receives (R315 to R331). -/
namespace Sys2Proof.Machine

/-! ### When the pair engine speaks -/

/-- Code of a role (R313). -/
def Role.code : Role → Nat
  | .unpaired => 0 | .seek => 1 | .standby => 2 | .active => 3 | .silent => 4
/-- The pair protocol runs: PAIR_CFG has been written with EN, the links are enabled, the unit is not SILENT (R313, R390). -/
def State.pairOn (s : State) : Bool :=
  decide (5 ≤ s.sys.phase) && s.pair.cfgSet && s.pairEn && !s.flt.silent &&
  (decide (s.pair.role = .seek) || decide (s.pair.role = .standby) || decide (s.pair.role = .active))
/-- A unit asks for the active role (R322). -/
def State.pairReq (s : State) : Bool :=
  let p := s.pair
  match p.role with
  | .standby => p.ready && (p.peerLost || p.reqHold)
  | .seek => s.pairPrimary || p.ready
  | .active => p.holderNone
  | _ => false
/-- LINK_LOSS of STATUS: the peer is lost (R322, R325). -/
def State.linkLoss (s : State) : Bool := s.pair.peerLost || (decide (s.pair.role = .active) && s.pair.peerJnlFail)
/-- Age of a test in CK_AO cycles, none before the first. [DESIGN CHOICE: log 3] -/
def State.ageOf (s : State) (t : Option Nat) : Option Nat := t.map (fun x => s.sys.aoClk - x)
/-- A partition is held (R307): HELD_ANY. [DEDUCED: log 100] -/
def State.heldAny (s : State) : Bool :=
  !s.flt.held.isEmpty || (List.range 40).any (fun n => decide ((s.sl n).st = .faulted))
/-- UNFIT of a standby (R333). [DEDUCED: log 100] -/
def State.unfit (s : State) : Bool :=
  decide (s.pair.role = .standby) &&
  (!s.pair.ready ||
   (List.range 40).any (fun n => match s.ageOf (s.sl n).testAt with | some a => decide (5000000 < a) | none => true) ||
   !s.flt.latentLate.isEmpty || s.rateShort false || s.rateShort true || s.heldAny || s.alarm ||
   decide (s.usableSectors.length < 16) || s.pair.jnlFail)
/-- FLT_HELD0: ports held. -/
def State.heldPorts (s : State) : W32 :=
  orAll ((List.range 32).map (fun n => atBit (s.held (.port (Fin.ofNat 32 n))) n))
/-- SKEW_CNT: channels with a skewed slot (R327). -/
def State.skewCnt (s : State) : Nat := ((s.pair.skewed.map (· / 2)).eraseDups).length

/-! ### Messages (R316, R317, R320) -/

/-- The header of a pair message. -/
def State.pairHeader (s : State) (ty len : Nat) (sid : W32) (seq : Nat) : Bytes :=
  let p := s.pair
  [BitVec.ofNat 8 ty, 1] ++ beBytes 2 len ++ beBytes 1 (s.pairUnit * 128 + p.role.code) ++
    beBytes 1 (b2n p.ready + 2 * b2n p.granted + 4 * b2n p.jnlFail) ++ [0, 0] ++ beBytes 4 p.epoch.toNat ++
    beBytes 4 sid.toNat ++ beBytes 8 seq
/-- The IV of a session message. -/
def sessionIv (sid : W32) (seq : Nat) : Bytes := beBytes 4 sid.toNat ++ beBytes 8 seq
/-- A mirror message. -/
def isMirror (ty : Nat) : Bool := decide (0x10 ≤ ty) && decide (ty ≤ 0x13)
/-- Send a message of the session with the next SEQ. -/
def State.sendPair (s : State) (ty : Nat) (body : Bytes) : State :=
  match s.pair.session with
  | none => s
  | some q =>
    if s.pairOn then
      let n := q.txSeq + 1
      let m := s.pairHeader ty (40 + body.length) q.sid n ++ body
      (s.modPair (fun p => { p with session := some { q with txSeq := n } })).emit
        (.pp (m ++ gmac q.keyTx (sessionIv q.sid n) m))
    else s
/-- The nonce of the next HELLO: the present one, or one new seed word (R316, R318). [DEDUCED: log 21] -/
def State.drawNonce (s : State) : State :=
  match s.pair.nonce, s.seedsFree with
  | none, w :: _ => (s.dropSeeds 1).modPair (fun p => { p with nonce := some w })
  | _, _ => s
/-- Send HELLO. [DEDUCED: log 21] -/
def State.sendHello (s : State) : State :=
  if s.pairOn then
    let s := s.drawNonce
    match s.pair.pk, s.pair.nonce with
    | some k, some n =>
      let m := s.pairHeader 1 72 0 0 ++ ofBlock n ++ ofBlock s.pair.echo
      s.emit (.pp (m ++ gmac k ((ofBlock n).take 12) m))
    | _, _ => s
  else s
/-- Bytes 0 to 7 of STATUS. -/
def State.statusHead (s : State) : Bytes :=
  let p := s.pair
  [0x21, 1] ++ beBytes 1 (s.pairUnit * 128 + p.role.code) ++
    beBytes 1 (b2n p.ready + 2 * b2n s.pairReq + 4 * b2n s.linkLoss + 8 * b2n p.yieldFlag + 16 * b2n s.unfit) ++
    beBytes 4 p.epoch.toNat
/-- Send STATUS; its nonce is taken from one seed word, with bit 7 of byte 0 clear (R316, R320). [DEDUCED: log 21] -/
def State.sendStatus (s : State) : State :=
  match s.pair.ak, s.seedsFree with
  | some k, w :: _ =>
    if s.pairOn then
      let n := ((ofBlock w).take 12).set 0 (byteAt (ofBlock w) 0 &&& 0x7F)
      let m := s.statusHead ++ n ++ zeros 12
      ((s.dropSeeds 1).modPair (fun p => { p with nonces := (n :: p.nonces).take 4 })).emit
        (.ab (m ++ gmac k n m))
    else s
  | _, _ => s

/-! ### Commits that depend on the peer -/

/-- Try the requests that wait (R178, R179, R198). -/
def State.commitWaits (s : State) : State :=
  s.forEach ((s.lease.waits.map (·.vslot)).eraseDups) (fun s v => s.tryCommit 4 v)
/-- What STATUS shows that makes a unit send one at once (R320). [DEDUCED: log 100] -/
def State.statusBits (s : State) : Role × Bool × Bool × Bool × Bool :=
  (s.pair.role, s.pair.ready, s.pairReq, s.linkLoss, s.pair.yieldFlag)
/-- What follows a change from a state: L and BLIND_CHUNKS freeze when the link goes down (R179), the requests that wait are tried, and
STATUS goes out at once when it changes (R320). -/
def State.pairSince (t s : State) : State :=
  let t := if !s.peerGone && t.peerGone then t.modPair (fun p => { p with frzL := t.chunkLog, frzN := t.blindChunks }) else t
  let t := if s.peerGone = t.peerGone ∧ s.pair.linkAck = t.pair.linkAck ∧ s.noPeer = t.noPeer then t
    else (t.commitWaits).forEach ((t.lease.waits.map (·.vslot)).eraseDups) (fun s v => s.blindHold v)
  if s.statusBits = t.statusBits then t else t.sendStatus
/-- Do something that may touch the link, the role or READY. -/
def State.pairDo (s : State) (f : State → State) : State := (f s).pairSince s

/-! ### YIELD (R336) -/

/-- Every committed ceiling is acknowledged. -/
def State.allAcked (s : State) : Bool :=
  s.ch.slots.all (fun p => decide (p.2.lst = .none) || decide (p.2.ceil ≤ p.2.acked))
/-- A yielding unit gives the role up once nothing waits for an acknowledgement, or at once with the session down.
[DEDUCED: log 102] -/
def State.yieldCheck (s : State) : State :=
  let p := s.pair
  if p.yielding && !p.yieldFlag && decide (p.role = .active) && (p.session.isNone || s.allAcked) then
    s.modPair (fun p => { p with yieldFlag := true })
  else s

/-! ### Sessions (R316, R318) -/

/-- Items of an earlier session keep no SEQ. -/
def oldItem (it : JItem) : JItem :=
  match it.why with
  | .mirror _ b v t c => { it with why := .mirror 0 b v t c }
  | _ => it
/-- The changes that queued FLOOR items carry are unsent again (R331). -/
def State.refloor (s : State) : State :=
  s.forEach s.pair.qFloor (fun s m => match m.at_, s.resident m.chix with
    | some t, some e => s.modSlot (vslotOf e m.slotB) (fun o => { o with floorAt := some (min t (o.floorAt.getD t)) })
    | _, _ => s)
/-- The session ends: what was queued or sent under it is dropped, and a new nonce will be drawn. [DEDUCED: log 97] -/
def State.sessionEnd (s : State) : State :=
  match s.pair.session with
  | none => s
  | some _ =>
    let s := s.refloor
    let s := s.modPair (fun p => { p with
      session := none, nonce := none, qLease := [], qSlot := [], qSched := [], qFloor := [], sentLease := [], sentSeqs := [],
      syncing := false, synHalves := [], synChans := [], gotHalves := [], gotChans := [], syncEnd := none,
      inbox := p.inbox.map (fun q => (0, q.2)), jnlWait := p.jnlWait.map oldItem, ackPend := [], ackOwed := [] })
    let s := s.modLease (fun l => { l with
      todo := l.todo.map oldItem,
      nvw := l.nvw.map (fun w => match w with | .entry u e it => .entry u e (oldItem it) | w => w) })
    (s.evt 227 1).yieldCheck
/-- The key of the messages of a unit. -/
def sessionKey (pk : Bytes) (d : W128) (u : Nat) : Bytes :=
  let blk := fun (x : Nat) => aes pk ((ofBlock d).take 15 ++ beBytes 1 (x + 2 * u))
  blk 0x10 ++ blk 0x11
/-- The peer is lost (R325): counted and flagged once, with the end of the session. -/
def State.peerLose (s : State) : State :=
  if s.pair.peerLost then s
  else (((s.modPair (fun p => { p with peerLost := true })).setFlag .pair 0x40 2).evt 228 1).sessionEnd

/-! ### The mirror queues (R326, R328) -/

/-- The queue of a kind. -/
def Pair.queue (p : Pair) : MirKind → List MItem
  | .lease => p.qLease | .slot => p.qSlot | .sched => p.qSched | .floor => p.qFloor
/-- Replace the queue of a kind. -/
def Pair.setQueue (p : Pair) (k : MirKind) (l : List MItem) : Pair :=
  match k with
  | .lease => { p with qLease := l } | .slot => { p with qSlot := l }
  | .sched => { p with qSched := l } | .floor => { p with qFloor := l }
/-- TYPE of a mirror message (R318). -/
def mirType : MirKind → Nat
  | .lease => 0x10 | .slot => 0x11 | .sched => 0x12 | .floor => 0x13
/-- Items that a message carries at most (R319). -/
def mirMax : MirKind → Nat
  | .lease => 60 | .slot => 80 | .sched => 40 | .floor => 80
/-- Bytes of an item. -/
def mirSize : MirKind → Nat
  | .lease => 16 | .slot => 12 | .sched => 24 | .floor => 12
/-- Every item of a sync has been sent: SYNC_END, with the halves and channels that the sync sent. -/
def State.syncCheck (s : State) : State :=
  let p := s.pair
  if p.syncing && p.qLease.isEmpty && p.qSlot.isEmpty && p.qSched.isEmpty && p.qFloor.isEmpty then
    (s.modPair (fun p => { p with syncing := false })).sendPair 0x14
      (beBytes 4 p.synHalves.length ++ beBytes 4 p.synChans.length)
  else s
/-- Resident channels with their entries, in entry order. -/
def State.liveEntries (s : State) : List (Nat × Entry) :=
  s.ch.entries.filterMap (fun p => match p.2 with
    | some en => if en.live then some (p.1, en) else none
    | none => none)
/-- LEASE items of every valid half of every live entry. -/
def State.syncLease (s : State) : List MItem :=
  (s.lease.dir.filterMap (·.2)).flatMap (fun v =>
    [false, true].filterMap (fun b => (v.ent.half b).map (fun h => leaseItem v.ent.chix b true h.1 h.2)))
/-- SLOT items of every slot of every resident channel. -/
def State.syncSlot (s : State) : List MItem :=
  s.liveEntries.flatMap (fun p => [false, true].map (fun b =>
    slotItem p.2.chix b (cActive p.2.cfg0 == b) (s.slot (vslotOf p.1 b))))
/-- SCHED items of every pending schedule, of stored channels too (R216). -/
def State.syncSched (s : State) : List MItem :=
  s.liveEntries.flatMap (fun p => s.schedItems p.1 p.2) ++ s.ch.awaySched.filter (fun m => s.stored m.chix)
/-- FLOOR items of every receive slot of a resident channel. [DEDUCED: log 99] -/
def State.syncFloor (s : State) : List MItem :=
  (s.liveEntries.filter (fun p => cRx p.2.cfg0)).flatMap (fun p => [false, true].map (fun b =>
    floorItem p.2.chix b (s.slot (vslotOf p.1 b))))
/-- The active starts a full sync (R328). -/
def State.syncStart (s : State) : State :=
  if s.mirrors then
    (s.modPair (fun p => { p with
      qLease := p.qLease ++ s.syncLease, qSlot := p.qSlot ++ s.syncSlot, qSched := p.qSched ++ s.syncSched,
      qFloor := p.qFloor ++ s.syncFloor, syncing := true, synHalves := [], synChans := [] })).syncCheck
  else s
/-- Key of an item's slot. -/
def MItem.key (m : MItem) : Nat := m.chix * 2 + b2n m.slotB
/-- Send one message of a kind, with up to its maximum of items; during a sync LEASE items go ahead of all others. -/
def State.mirrorFlush (s : State) (k : MirKind) : State :=
  let q := s.pair.queue k
  if !s.mirrors || q.isEmpty || (s.pair.syncing && decide (k ≠ .lease) && !s.pair.qLease.isEmpty) then s
  else
    let batch := q.take (mirMax k)
    let s := (s.modPair (fun p => p.setQueue k (q.drop (mirMax k)))).sendPair (mirType k) (batch.map (·.bytes)).flatten
    let n := match s.pair.session with | some x => x.txSeq | none => 0
    let s := s.modPair (fun p => { p with
      sentSeqs := p.sentSeqs ++ [n],
      sentLease := if k = .lease then p.sentLease ++ batch.map (fun m => (n, m)) else p.sentLease,
      synHalves := if k = .lease ∧ p.syncing = true then
        (batch.filter (fun m => decide (m.ceil ≠ 0))).foldl (fun l m => insNat l m.key) p.synHalves else p.synHalves,
      synChans := if k = .slot ∧ p.syncing = true then batch.foldl (fun l m => insNat l m.chix) p.synChans else p.synChans })
    (s.evt 237 1).syncCheck
/-- The peer has applied everything up to a SEQ: the ceilings it journalled are acknowledged (R178, R326). -/
def State.ackGot (s : State) (a : Nat) : State :=
  if s.pair.role ≠ .active then s
  else
    let done := s.pair.sentLease.filter (fun p => decide (p.1 ≤ a))
    let s := s.modPair (fun p => { p with
      sentLease := p.sentLease.filter (fun q => decide (a < q.1)), sentSeqs := p.sentSeqs.filter (fun q => decide (a < q)) })
    (s.forEach done (fun s q => match s.resident q.2.chix with
      | some e =>
        let v := vslotOf e q.2.slotB
        let sl := s.slot v
        if sl.lst ≠ .none ∧ sl.tag = q.2.tag ∧ q.2.ceil ≠ 0 then s.ackCeil v q.2.ceil else s
      | none => s)).yieldCheck

/-! ### The standby (R327, R328) -/

/-- ACK_SEQ: the highest SEQ whose items are all applied and journalled. -/
def State.ackNow (s : State) : Nat :=
  match s.pair.session with
  | none => 0
  | some q =>
    let left := s.pair.ackPend ++ (s.pair.inbox.map (·.1)).filter (· ≠ 0)
    left.foldl (fun m x => min m (x - 1)) q.rxSeq
/-- The standby asks for a full sync. -/
def State.sendSyncReq (s : State) : State :=
  (s.modPair (fun p => { p with gotHalves := [], gotChans := [], syncEnd := none })).sendPair 0x06 []
/-- A SLOT item is compared with the standby's slot; ACTIVE is taken from it. [DEDUCED: log 99] -/
def State.applySlot (s : State) (e x : Nat) (b : Bool) (it : Bytes) : State :=
  let w := (byteAt it 3).toNat
  let sl := s.slot (vslotOf e b)
  let an := if sl.st = .empty then 0 else sl.an.toNat
  let same := decide (w / 64 = sl.st.code) && decide (w % 4 = an) && decide (byteAt it 4 = sl.klc) &&
    decide (ofBe (slice it 6 2) = sl.keyRef.toNat)
  let s := if same then s.unskew (x * 2 + b2n b) else s.skew (x * 2 + b2n b)
  s.modEntry e (fun en => { en with cfg0 := withActive en.cfg0 (if w / 16 % 2 = 1 then b else !b) })
/-- A SCHED item replaces a schedule, or records a switch or a retirement that was made. [DEDUCED: log 99] -/
def State.applySched (s : State) (e : Nat) (en : Entry) (b : Bool) (it : Bytes) : State :=
  let kind := (byteAt it 3).toNat
  let w := (byteAt it 4).toNat
  let v := slice it 8 10
  let hi := w / 32 * 32 + b2n b * 16
  let rx := cRx en.cfg0
  if kind = 1 ∧ rx = false then
    s.modEntry e (fun x => { x with eqx := eqxOf (hi + w / 16 % 2 * 8 + w % 4 * 2) v })
  else if kind = 2 ∧ rx = true then s.modEntry e (fun x => { x with sol := solOf (hi + w % 4 * 4) v })
  else if kind = 3 ∧ rx = false then
    s.modEntry e (fun x => { x with cfg0 := withActive x.cfg0 (!b), eqx := none })
  else if kind = 4 ∧ rx = true then
    let s := s.modSlot (vslotOf e b) (fun o =>
      if o.st = .live then { o with retired := true, retAt := ofTimeBytes v } else o)
    (s.modEntry e (fun x => { x with sol := none })).unexpose en.chix b
  else s.mirrorLose it
/-- A FLOOR item raises LPN when the AN matches. -/
def State.applyFloor (s : State) (e : Nat) (en : Entry) (b : Bool) (it : Bytes) : State :=
  let lpn := ofBe (slice it 4 8)
  if cRx en.cfg0 then
    s.modSlot (vslotOf e b) (fun o =>
      if o.keyed ∧ o.an.toNat = (byteAt it 3).toNat % 4 ∧ o.lpn < lpn then { o with lpn := lpn, high := none, bitmap := 0 } else o)
  else s.mirrorLose it
/-- Apply an item to a resident channel. [DEDUCED: log 99] -/
def State.applyItem (s : State) (e : Nat) (en : Entry) (k : MirKind) (it : Bytes) : State :=
  let b := itemSlot it
  match k with
  | .slot => s.applySlot e en.chix b it
  | .sched => s.applySched e en b it
  | .floor => s.applyFloor e en b it
  | .lease => s
/-- One waiting item: dropped for an unknown CHIX, applied to a resident one, and behind a page-in for a stored one; an
item stays behind an earlier one of its channel. -/
def State.inboxStep (s : State) (q : Nat × MirKind × Bytes) : State :=
  let x := itemChix q.2.2
  let take := fun (s : State) => s.modPair (fun p => { p with inbox := p.inbox.erase q })
  match s.pair.inbox.find? (fun r => decide (itemChix r.2.2 = x)) with
  | none => s
  | some r =>
    if r ≠ q then s
    else if !s.known x then (take s).mirrorLose q.2.2
    else match s.resident x with
      | some e => (match s.entry e with
        | some en => if en.evicting then s else (take s).applyItem e en q.2.1 q.2.2
        | none => s)
      | none => s.pageWant x .command
/-- Apply what can be applied. -/
def State.inboxPump (s : State) : State := s.forEach s.pair.inbox (fun s q => s.inboxStep q)
/-- A SYNC_END is judged once everything before it is applied and journalled (R328). [DEDUCED: log 99] -/
def State.syncJudge (s : State) : State :=
  match s.pair.syncEnd with
  | some (q, h, c) =>
    if q ≤ s.ackNow then
      let same := decide (h = s.pair.gotHalves.length) && decide (c = s.pair.gotChans.length)
      if same then (s.modPair (fun p => { p with syncEnd := none, ready := true, resync := false })).evt 233 1 else s.sendSyncReq
    else s
  | none => s
/-- ACK goes out when a mirror message is covered for the first time. [DEDUCED: log 99] -/
def State.ackSend (s : State) : State :=
  let n := s.ackNow
  if s.pair.role = .standby ∧ s.pair.ackOwed.any (fun q => decide (q ≤ n)) = true then
    (s.modPair (fun p => { p with ackOwed := p.ackOwed.filter (fun q => decide (n < q)) })).sendPair 0x04 (beBytes 8 n)
  else s
/-- Carry the standby's work as far as it goes. -/
def State.pairPump (s : State) : State :=
  if s.pair.inbox.isEmpty ∧ s.pair.syncEnd.isNone = true ∧ s.pair.ackOwed.isEmpty then s
  else s.pairDo (fun s => ((s.inboxPump).syncJudge).ackSend)

end Sys2Proof.Machine
end

