-- ==== Sys2Proof/Machine/Hold.lean ====
section
/-! DEFINITION. What a UNIT fault does to its partition: it is held until it is reset (R300, R307, R311). -/
namespace Sys2Proof.Machine

/-- Every page-in and page-out ends: entries are free, frames that wait are dropped as PAGE_FAIL, channels being evicted stay
resident, and commands end with STORE_FAIL (R240, R307). [DEDUCED: log 79] -/
def State.pagerEnd (s : State) : State :=
  let s := s.forEach (s.pager.outs.map (·.chix)) (fun s x => s.outFail x)
  let s := s.forEach s.pager.ins (fun s p =>
    (((s.when p.started (·.freeEntry p.entry)).dropIn p.chix).mirrorFail p.chix).pageCmdsFail p.chix 0x09)
  (s.missFail (fun _ => true)).jobCheck
/-- A transmit slot with a request in flight when the lease unit is held: the request ends, and the slot has no further
chunk (R307). [DEDUCED: log 79] -/
def State.leaseHeld (s : State) : State :=
  let vs := (s.lease.waits.map (·.vslot)).eraseDups
  (s.modLease (fun l => { l with waits := [] })).forEach vs (fun s v => s.cannot v .fault)
/-- Every outstanding store request ends with a bus error to its requester (R307). [DEDUCED: log 79, 104] -/
def State.storeEnd (s : State) : State :=
  s.forEach (s.store.out.filter (fun r => decide (r.who ≠ .gone))) (fun s r => s.endOut r)
/-- Hold a partition. A fault that meets the partition's own reset acts when the reset is over (R311). [DEDUCED: log 79] -/
def State.holdUnit (s : State) (p : Part) : State :=
  if s.resetOn p then
    s.modFlt (fun f => { f with afterReset := if p ∈ f.afterReset then f.afterReset else f.afterReset ++ [p] })
  else if s.held p then s
  else
    let s := s.modFlt (fun f => { f with held := f.held ++ [p] })
    match p with
    | .port n => s.stomp (fun f => decide (f.port = n.val))
    | .pager => s.pagerEnd
    | .store => s.storeEnd
    | .march => s.marchHold
    | .lease => s.leaseHeld
    | _ => s
/-- The detector of a partition's control fires: the detection is recorded and the partition held. [DEDUCED: log 79] -/
def State.unitFault (s : State) (inj : Bool) (p : Part) (inst : Nat) : State :=
  match p with
  | .port n => (s.detectAs inj 0x15 n.val (laneInfo n.val false) 0).holdUnit p
  | .pager => (s.detectAs inj 0x3C 0 0 0).holdUnit p
  | .store => (s.detectAs inj 0x2C inst 0 0).holdUnit p
  | .march => (s.detectAs inj 0x3D 0 0 0).holdUnit p
  | .lease => (s.detectAs inj 0x39 0 0 0).holdUnit p
  | .sec => (s.detectAs inj 0x31 0 0 0).holdUnit p
  | .slice _ | .pair | .ao | .glob => s

end Sys2Proof.Machine
end

