-- ==== Sys2Proof/Machine/Lookup.lean ====
section
/-! DEFINITION. What admission does in either direction: the descriptor, the refusals at SOF, the bypass policy, the
SecTAG, the miss queue and the SCI catch (R26 to R32, R91, R92, R109 to R113, R226, R401). -/
namespace Sys2Proof.Machine

/-! ### Descriptor (R29 to R31) -/

/-- CHIX. -/
def dChix (d : W64) : Nat := d.toNat % 2 ^ 20
/-- CLASS. -/
def dClass (d : W64) : Bool := d.getLsbD 20
/-- ACTION. -/
def dAction (d : W64) : Nat := d.toNat / 2 ^ 21 % 8
/-- OFFSET. -/
def dOffset (d : W64) : Nat := d.toNat / 2 ^ 24 % 4
/-- TAGS. -/
def dTags (d : W64) : Nat := d.toNat / 2 ^ 26 % 4
/-- FLOW_TAG. -/
def dFlow (d : W64) : Nat := d.toNat / 2 ^ 32 % 65536
/-- The check byte of bits [55:0] (R30). -/
def descChk (v : Nat) : Byte := (leBytes 7 v).foldl (· ^^^ ·) 0xA5
/-- A descriptor with its check byte. -/
def withChk (v : Nat) : W64 := BitVec.ofNat 64 (v % 2 ^ 56 + (descChk v).toNat * 2 ^ 56)
/-- A descriptor passes R31. -/
def descOk (d : W64) (cls : Bool) : Bool :=
  decide (descChk d.toNat = BitVec.ofNat 8 (d.toNat / 2 ^ 56)) && decide (d.toNat / 2 ^ 48 % 256 = 0) &&
  decide (d.toNat / 2 ^ 28 % 16 = 0) && decide (dAction d ≤ 4) && (dClass d == cls)

/-! ### Fields of a frame -/

/-- Two bytes of a frame, most significant first. -/
def be16 (b : Bytes) (off : Nat) : Nat := ofBe (slice b off 2)
/-- The first `t` tags start with 0x8100 or 0x88A8. -/
def tagsOk (b : Bytes) (t : Nat) : Bool :=
  (List.range t).all (fun i => decide (be16 b (12 + 4 * i) = 0x8100) || decide (be16 b (12 + 4 * i) = 0x88A8))
/-- The confidentiality offset of a frame in bytes (R69). -/
def offsetOf (d : W64) (cfg : W32) : Nat :=
  let code := if dOffset d = 0 then cOffset cfg + 1 else dOffset d
  if code = 2 then 30 else if code = 3 then 50 else 0
/-- A SecTAG stands at its place (R89 order 6, R90). -/
def hasSecTag (b : Bytes) (t : Nat) : Bool := decide (be16 b (12 + 4 * t) = 0x88E5)
/-- Byte 2 of the SecTAG. -/
def tciOf (b : Bytes) (t : Nat) : Byte := byteAt b (14 + 4 * t)
/-- SC. -/
def tciSc (c : Byte) : Bool := c.getLsbD 5
/-- ES. -/
def tciEs (c : Byte) : Bool := c.getLsbD 6
/-- E. -/
def tciE (c : Byte) : Bool := c.getLsbD 3
/-- C. -/
def tciC (c : Byte) : Bool := c.getLsbD 2
/-- SL, of byte 3. -/
def slOf (b : Bytes) (t : Nat) : Nat := (byteAt b (15 + 4 * t)).toNat % 64
/-- PN field. -/
def pnField (b : Bytes) (t : Nat) : Nat := ofBe (slice b (16 + 4 * t) 4)
/-- Header length h (R91). -/
def hdrLen (b : Bytes) (t : Nat) : Nat := 12 + 4 * t + (if tciSc (tciOf b t) then 16 else 8)
/-- Secure Data length L (R91). -/
def secLen (b : Bytes) (t : Nat) : Nat := if slOf b t = 0 then b.length - hdrLen b t - 16 else slOf b t
/-- A SecTAG and the frame's length are valid (R91); `pn0` states whether PN field 0 is allowed. -/
def secTagOk (b : Bytes) (t : Nat) (pn0 : Bool) : Bool :=
  let c := tciOf b t
  let h := hdrLen b t
  let sl := slOf b t
  !c.getLsbD 7 && !(tciEs c && tciSc c) && !c.getLsbD 4 && !(tciE c && !tciC c) &&
  decide ((byteAt b (15 + 4 * t)).toNat / 64 = 0) && decide (sl < 48) && (pn0 || decide (pnField b t ≠ 0)) &&
  (if sl = 0 then decide (h + 64 ≤ b.length)
   else decide (2 ≤ sl) && decide (h + sl + 16 ≤ b.length) && decide (b.length ≤ max 60 (h + sl + 16)))
/-- The SCI a frame carries, if any (R92). -/
def frameSci (b : Bytes) (t : Nat) : Option W64 :=
  let c := tciOf b t
  if tciSc c then some (BitVec.ofNat 64 (ofBe (slice b (20 + 4 * t) 8)))
  else if tciEs c then some (BitVec.ofNat 64 (ofBe (slice b 6 6) * 65536 + 1))
  else none
/-- The red frame without its SecTAG and ICV, not decrypted (R93). -/
def stripSec (b : Bytes) (t : Nat) : Bytes := b.take (12 + 4 * t) ++ slice b (hdrLen b t) (secLen b t)

/-! ### Bypass policy (R109, R110) -/

/-- Bits [hi:lo] of a policy entry. -/
def bypFld (e : W128) (hi lo : Nat) : Nat := e.toNat / 2 ^ lo % 2 ^ (hi + 1 - lo)
/-- A policy entry with its reserved bits 0 (R370). -/
def bypMask (e : W128) : W128 := BitVec.ofNat 128 (bypFld e 127 116 * 2 ^ 116 + bypFld e 111 84 * 2 ^ 84 + bypFld e 79 0)
/-- A frame matches an entry. -/
def bypMatch (e : W128) (d : Dir) (port tags : Nat) (b : Bytes) : Bool :=
  let et := be16 b (12 + 4 * tags)
  let pl := min 48 (bypFld e 121 116)
  e.getLsbD 127 && e.getLsbD (if d = .egress then 125 else 126) && e.getLsbD port && decide (et ≠ 0x88E5) &&
  (!e.getLsbD 124 || (decide (tags ≠ 3) && decide (et = bypFld e 111 96))) &&
  (!e.getLsbD 122 || (decide (tags ≠ 0) && decide (be16 b 14 % 4096 = bypFld e 95 84))) &&
  (!e.getLsbD 123 || decide (ofBe (slice b 0 6) / 2 ^ (48 - pl) = bypFld e 79 32 / 2 ^ (48 - pl)))
/-- A frame matches the table in force. -/
def State.bypPass (s : State) (f : Frame) : Bool :=
  s.dp.byp.any (fun p => bypMatch p.2 f.dir f.port (dTags f.desc) f.bytes)

/-! ### Admission -/

/-- The role gate is open (R314); YIELD closes it (R336). A silent unit keeps the gate as it stood: its red half keeps running
(R306). [DEDUCED: log 40] -/
def State.roleOpen (s : State) : Bool :=
  (decide (s.pair.role = .active) && !s.pair.yielding) || decide (s.pair.role = .unpaired) ||
  (decide (s.pair.role = .silent) && s.pair.silentOpen)
/-- An open frame of a port: its EOF has not been taken. [DEDUCED: log 41] -/
def State.openFrames (s : State) (d : Dir) (port : Nat) : List Frame := (s.framesOf d port).filter (fun f => !f.eof && !decide (f.kind = .report))
/-- A frame of a port and class is open on its input bus: inside, or ended inside and not yet on the bus (R27, R31).
[DEDUCED: log 41] -/
def State.busOpen (s : State) (d : Dir) (port : Nat) (cls : Bool) : Bool :=
  (s.openFrames d port).any (fun g => g.express == cls) ||
  s.dp.stubs.any (fun t => decide (t.dir = d) && decide (t.port = port) && (t.express == cls))
/-- A framing error on a port: both open frames end, each counted BUS_FRAMING, and what follows of them is discarded (R27).
[DEDUCED: log 42] -/
def State.framing (s : State) (d : Dir) (port : Nat) : State :=
  let s := s.endFrames (fun f => decide (f.dir = d) && decide (f.port = port) && !f.eof && !decide (f.kind = .report)) .busErr
    (fun _ => some (if d = .egress then 0x0D else 0x4B))
  ((s.clearStubs d port).busErrFlag d port).detect 0x11 port (laneInfo port false) 0
/-- A parity error of a segment on an input bus (R27). -/
def State.busParity (s : State) (d : Dir) (port : Nat) (cls : Bool) : State :=
  (s.busErrFlag d port).detect 0x10 port (laneInfo port cls) 0
/-- Largest frame of an input bus in bytes (R26). -/
def busLimit (d : Dir) : Nat := if d = .egress then 16348 else 16380
/-- Bytes of a frame that have come when its SOF is handled, two segments (R17). [DEDUCED: log 41] -/
def firstBytes : Nat := 64
/-- The frame that the bus brings. [DEDUCED: log 41] -/
def State.newFrame (s : State) (d : Dir) (port : Nat) (cls : Bool) (desc : W64) (b : Bytes) (dpBad upErr eof : Bool) : Frame :=
  { id := s.dp.nextFrame, dir := d, port := port, express := cls, desc := desc, stamp := s.sys.tmL, at_ := s.sys.aoClk,
    bytes := b.take (busLimit d), busLen := b.length, got := if eof then b.length else min firstBytes b.length, eof := eof,
    dpBad := dpBad, upErr := upErr, truncated := decide (busLimit d < b.length),
    mtu := s.blkMtu port, ctDepth := s.ctDepth port, laneUnits := s.portLanes port, chix := dChix desc }
/-- What every admitted frame counts: express admissions (R387). -/
def State.admitCounts (s : State) (f : Frame) : State :=
  s.when f.express (·.evtF ((if f.dir = .egress then 360 else 392) + f.port) (some f.chix, f.port, f.dir))
/-- The residency-map word of a CHIX is being rebuilt (R298): CHIX x occupies bits 17x to 17x + 16. -/
def State.resiLost (s : State) (x : Nat) : Bool :=
  s.ch.rebuilding.any (fun w => decide (17 * x < 64 * (w + 1)) && decide (64 * w < 17 * x + 17))
/-- LAST_USED at the lookup of a resident channel (R235). [DESIGN CHOICE: log 3] -/
def State.useMs (s : State) : W32 := BitVec.ofNat 32 (s.sys.aoClk / 50000)
/-- A channel is stored, or leaves residence: frames that miss need its page-in (R226, R232). -/
def State.away (s : State) (x : Nat) : Bool :=
  match s.resident x with
  | some e => (match s.entry e with | some en => en.evicting | none => true)
  | none => true
/-- A frame joins the miss queue, or is dropped (R226); behind frames of a resident channel it needs no page-in.
[DEDUCED: log 94] -/
def State.missJoin (s : State) (f : Frame) : State :=
  let eg := decide (f.dir = .egress)
  if !s.pagerUp then (s.dropFrame f (if eg then 0x08 else 0x47)).portFlag f.port 3
  else if !s.missRoom f then
    ((s.dropFrame f (if eg then 0x07 else 0x46)).portFlag f.port 2).when (!eg) (·.portCount f.port 0x5C)
  else
    ((((s.rseReturn f).modFrame f.id (fun g => { g with stage := .missq, hasChan := true })).evtF 166
      (some f.chix, f.port, f.dir)).when (s.away f.chix) (·.pageWant f.chix .demand)).wakeNeeded
/-- What a CHIX looks up to: the error of its map word, unknown, the miss queue, or its entry. -/
inductive Found where
  | lost | unknown | miss
  | entry (e : Nat) (en : Entry)
  deriving DecidableEq, Repr
/-- Look a CHIX up (R223, R226); `queued` states that earlier frames of the channel may wait in the miss queue. -/
def State.find (s : State) (x : Nat) (queued : Bool) : Found :=
  if s.resiLost x then .lost
  else if !s.known x then .unknown
  else match s.resident x with
    | none => .miss
    | some e => match s.entry e with
      | none => .miss
      | some en => if en.evicting || (queued && decide (0 < s.missCount x)) then .miss else .entry e en
/-- A frame that passed its checks holds its slot, takes its key from the vault's read port (R153) and takes its ticket. -/
def State.holdSlot (s : State) (id e : Nat) (b : Bool) (g : Frame → Frame) : State :=
  let sl := s.maskSlot (vslotOf e b) (s.slot (vslotOf e b))
  let s := s.modFrame id (fun f => g { f with
    vslot := vslotOf e b, gen := sl.gen, holds := true, an := sl.an, key := sl.key, salt := sl.salt, ssci := sl.ssci,
    h := sl.h, hasChan := true, stage := .waiting })
  match s.frame id with
  | some f => s.takeTicket f
  | none => s
/-- Largest frame on RSI in bytes (R106). -/
def rsiLimit : Nat := 16348
/-- What a frame without cipher work sends: on RSI it is cut at the limit, with LENGTH (R106). -/
def Frame.plainOut (f : Frame) (out : Bytes) : Frame :=
  if f.dir = .ingress then { f with outBytes := out.take rsiLimit, truncated := f.truncated || decide (rsiLimit < out.length) }
  else { f with outBytes := out }
/-- A frame needs no slice: it waits in its admission buffer for its ticket and for room in the reorder buffer (R96, R101); a
frame of a VERIFY_FIRST channel is judged at its EOF. -/
def State.passFrame (s : State) (id : Nat) (out : Bytes) (g : Frame → Frame) : State :=
  let s := s.modFrame id (fun f => (g { f with stage := .waiting, icvDone := true, checked := true }).plainOut out)
  match s.frame id with
  | some f =>
    let s := s.takeTicket f
    match s.frame id with
    | some f => (s.passTry f).vfCheck id
    | none => s
  | none => s
/-- The report of an examined frame: it follows the frame at the frame's EOF (R112). -/
def State.keepReport (s : State) (id : Nat) (b : Bytes) : State :=
  match s.frame id with
  | some f => if f.eof then s.addReport (f.report b) else s.modFrame id (fun g => { g with rep := some b })
  | none => s

/-! ### SCI catch (R111 to R113) -/

/-- Entries that have not expired. [DEDUCED: log 48] -/
def State.catchLive (s : State) (t : Nat) : List CatchEnt :=
  s.dp.catchTab.filter (fun e => decide (t < e.last.ns + s.catchAge))
/-- Set the catch table. -/
def State.setCatch (s : State) (l : List CatchEnt) : State := s.modDp (fun d => { d with catchTab := l })
/-- The entry with the oldest last sighting. [DEDUCED: log 48] -/
def oldestCatch (l : List CatchEnt) : Option CatchEnt :=
  l.foldl (fun b e => match b with
    | none => some e
    | some c => if e.last.ns < c.last.ns then some e else some c) none
/-- The entry of another port for an SCI that was sighted last, within CATCH_HOLD (R111).
[DEDUCED, DESIGN CHOICE: log 48, 118] -/
def catchPeer (l : List CatchEnt) (sci : W64) (port t hold : Nat) : Option CatchEnt :=
  (l.filter (fun e => decide (e.sci = sci) && decide (e.port ≠ port) && decide (t ≤ e.last.ns + hold))).foldl (fun b e =>
    match b with
    | none => some e
    | some c => if c.last.ns < e.last.ns then some e else some c) none
/-- A bucket. [DEDUCED, DESIGN CHOICE: log 15, 49] -/
def State.bucket (s : State) (port : Nat) : Bucket := Tab.get {} s.dp.bucket port
/-- Set a bucket. -/
def State.setBucket (s : State) (port : Nat) (b : Bucket) : State :=
  s.modDp (fun d => { d with bucket := Tab.set {} d.bucket port b })
/-- The report of a frame (R112). [DESIGN CHOICE: log 119] -/
def reportBytes (f : Frame) (sci : W64) (peer : Option CatchEnt) (cv : Bool) (supp : Nat) : Bytes :=
  let b15 := (if peer.isSome then 0x20 else 0x10) + 8 * b2n f.stamp.vld +
    4 * b2n (match peer with | some p => p.last.vld | none => false) + 2 * b2n cv
  zeros 12 ++ ([0x88, 0xB6, 0x01] : Bytes) ++ beBytes 1 b15 ++ beBytes 1 f.port ++
    beBytes 1 (match peer with | some p => p.port | none => 0) ++ beBytes 8 sci.toNat ++
    (if f.stamp.vld then timeBytes f.stamp.ns else zeros 10) ++
    (match peer with | some p => if p.last.vld then timeBytes p.last.ns else zeros 10 | none => zeros 10) ++
    (if cv then beBytes 1 (f.chix / 65536) ++ beBytes 2 (f.chix % 65536) else zeros 3) ++
    beBytes 1 (dAction f.desc) ++ beBytes 2 supp ++ zeros 8
/-- What the catch makes of an examined frame. -/
inductive Caught where
  | quiet
  | report (b : Bytes)
  | pass
  deriving DecidableEq, Repr
/-- A report to be made passes the port's bucket, or is excess (R113). [DEDUCED, DESIGN CHOICE: log 3, 49, 118] -/
def State.catchBucket (s : State) (f : Frame) (sci : W64) (peer : Option CatchEnt) (cv : Bool) : State × Caught :=
  let b := s.bucket f.port
  let fill := min 16000000000 (b.fill + s.catchRate f.port * (f.stamp.ns - b.at_))
  let t := max b.at_ f.stamp.ns
  if s.catchRate f.port = 0 ∨ fill < 1000000000 then
    let s := s.setBucket f.port { fill := fill, at_ := t, suppressed := min 0xFFFF (b.suppressed + 1) }
    if s.catchPass f.port then (s, .pass) else ((s.portCount f.port 0x54).portFlag f.port 12, .quiet)
  else
    (s.setBucket f.port { fill := fill - 1000000000, at_ := t, suppressed := 0 },
     .report (reportBytes f sci peer cv b.suppressed))
/-- The catch examines a frame that carries an SCI. [DEDUCED, DESIGN CHOICE: log 48, 118] -/
def State.catchExamine (s : State) (f : Frame) (sci : W64) (cv : Bool) : State × Caught :=
  let t := f.stamp.ns
  let l := s.catchLive t
  if l.any (fun e => decide (e.sci = sci) && decide (e.port = f.port)) then
    ((s.setCatch (l.map (fun e => if e.sci = sci ∧ e.port = f.port then { e with last := f.stamp } else e))).portCount
      f.port 0x56, .quiet)
  else
    let peer := catchPeer l sci f.port t (s.catchHold f.port)
    let ent : CatchEnt := { sci := sci, port := f.port, first := f.stamp, last := f.stamp }
    let s := if l.length < 1024 then s.setCatch (l ++ [ent])
      else match oldestCatch l with
        | some o => (s.setCatch (l.erase o ++ [ent])).evt 123 1
        | none => s.setCatch (l ++ [ent])
    s.catchBucket f sci peer cv

end Sys2Proof.Machine
end

