-- ==== Sys2Proof/Machine/Egress.lean ====
section
/-! DEFINITION. Egress: admission on RSE, the channel checks, the PN draw, and the black frame (R62 to R86, R265 to
R272). -/
namespace Sys2Proof.Machine

/-! ### The black frame -/

/-- Secure Data length of a red frame, or LEN of a T10 frame. -/
def redLen (b : Bytes) (t : Nat) : Nat := b.length - 12 - 4 * t
/-- The SecTAG of a transmitted frame (R65, R66). -/
def secTag (f : Frame) : Bytes :=
  let c := cConf f.cfg0
  let tci := b2n (cEs f.cfg0) * 64 + b2n (cScInc f.cfg0) * 32 + b2n c * 12 + f.an.toNat
  ([0x88, 0xE5] : Bytes) ++ beBytes 1 tci ++ beBytes 1 (if f.len < 48 then f.len else 0) ++ beBytes 4 f.pn ++
    (if cScInc f.cfg0 then beBytes 8 f.sci.toNat else [])
/-- The 96-bit IV of a frame (R70, R95). -/
def gcmIv (f : Frame) : Bytes :=
  if suiteXpn (cSuite f.cfg0) then xorBytes (beBytes 4 f.ssci.toNat ++ beBytes 8 f.pn) (padTo 12 f.salt)
  else beBytes 8 f.sci.toNat ++ beBytes 4 f.pn
/-- The black frame of a MACsec frame (R64, R70). -/
def blackFrame (f : Frame) : Bytes :=
  let t := cClear f.cfg0
  let a := f.bytes.take (12 + 4 * t) ++ secTag f ++ slice f.bytes (12 + 4 * t) f.clear
  let ct := gcmCrypt f.key (gcmIv f) (slice f.bytes (12 + 4 * t + f.clear) (f.len - f.clear))
  a ++ ct ++ gcmTag f.key (gcmIv f) a ct
/-- The black frame of a T10 container (R268 to R270). -/
def t10Frame (f : Frame) : Bytes :=
  let t := cClear f.cfg0
  let m := cOffset f.cfg0
  let hdr := ([0x88, 0xB5, 0x01] : Bytes) ++ beBytes 1 ((m + 1) * 64 + f.an.toNat) ++ beBytes 2 f.len ++ beBytes 4 f.pn
  let body := f.bytes.take (12 + 4 * t) ++ hdr ++ t10Enc m f.key f.sci.toNat f.pn (slice f.bytes (12 + 4 * t) f.len)
  body ++ t10Mac f.key body
/-- The output of a frame that has passed its slice. -/
def Frame.black (f : Frame) : Bytes := if f.kind = .t10 then t10Frame f else blackFrame f

/-! ### Lookup (R63) -/

/-- LEG_MAXLEN (R275). -/
def State.legMax (s : State) : Nat := clamp 2 2000 (fld (s.cfg .leg 0x84) 10 0)
/-- A port may carry T10 containers. -/
def State.legPort (s : State) (p : Nat) : Bool := bit (s.cfg .leg 0x80) p
/-- The frame's ACTION fits its channel's suite (R63 order 3, R89 order 3, R265). -/
def State.suiteFits (s : State) (f : Frame) (cfg : W32) : Bool :=
  if dAction f.desc = 3 then suiteT10 (cSuite cfg) && s.legPort f.port else !suiteT10 (cSuite cfg)
/-- A frame is too long for its port: its black frame with FCS would exceed BLK_MTU (R84), or its LEN LEG_MAXLEN (R272).
[DEDUCED: log 44] -/
def State.tooLong (s : State) (f : Frame) : Bool :=
  decide (f.mtu < f.outLen + 4) || (decide (f.kind = .t10) && decide (s.legMax < f.len))
/-- A frame was found too long before its SOF was released: its ticket is voided (R84, R272). [DEDUCED: log 44] -/
def State.voidLong (s : State) (id : Nat) : State :=
  match s.frame id with
  | some f =>
    if f.tooLong ∧ (f.eof ∨ 4 ≤ f.laneUnits ∨ f.kind = .t10) then s.dropFrame f 0x09 else s
  | none => s
/-- The frame passes every check of R63: it draws its PN, holds its slot and takes its ticket. [DEDUCED: log 44] -/
def State.egDraw (s : State) (f : Frame) (e : Nat) (en : Entry) : State :=
  let b := en.act
  let v := vslotOf e b
  let t := cClear en.cfg0
  let t10 := suiteT10 (cSuite en.cfg0)
  let l := redLen f.bytes t
  let c := if t10 then 0 else if cConf en.cfg0 then min (offsetOf f.desc en.cfg0) l else l
  let pn := (s.slot v).next
  let s := s.holdSlot f.id e b (fun g => { g with
    kind := if t10 then .t10 else .macsec, cfg0 := en.cfg0, sci := en.sci, pn := pn, clear := c, len := l,
    noch := false, outcome := .protected_ })
  let s := (s.drawPn v).pumpLease
  let s := s.modFrame f.id (fun g => { g with tooLong := s.tooLong g })
  s.voidLong f.id
/-- Orders 3 to 6 of R63 on a resident channel. [DEDUCED: log 50, 103] -/
def State.egChecks (s : State) (f : Frame) (e : Nat) (en : Entry) : State :=
  let s := s.modEntry e (fun x => { x with lastUsed := s.useMs })
  let s := s.modFrame f.id (fun g => { g with hasChan := true })
  let t := cClear en.cfg0
  if !cEn en.cfg0 || cRx en.cfg0 || decide (cPort en.cfg0 ≠ f.port) || (cExpress en.cfg0 != f.express) ||
      !s.suiteFits f en.cfg0 then s.dropFrame f 0x05
  else if dTags f.desc < t ∨ tagsOk f.bytes t = false ∨ f.bytes.length < 14 + 4 * t then s.dropFrame f 0x06
  else
    let s := (s.eqxApply e f.stamp).eqxForced e f.stamp
    match s.entry e with
    | none => s.dropFrame f 0x05
    | some en =>
      let sl := s.slot (vslotOf e en.act)
      if sl.st ≠ .live then s.dropStat f [(4, 1)]
      else if !sl.hasPn then s.dropStat f [(5, 1)]
      else s.egDraw f e en
/-- Look an egress frame up; `queued` is false for a frame that leaves the miss queue. -/
def State.egLookup (s : State) (f : Frame) (queued : Bool) : State :=
  match s.find f.chix queued with
  | .lost => s.dropFrame f 0x0F
  | .unknown => s.dropFrame f 0x03
  | .miss => s.missJoin f
  | .entry e en => s.egChecks f e en

/-! ### Admission (R62) -/

/-- The bypass gate (R11, R62). -/
def State.egBypass (s : State) (f : Frame) : State :=
  if s.bypPass f then
    let long := decide (f.mtu < f.bytes.length + 4)
    (s.passFrame f.id (if long then f.bytes.take (f.mtu - 4) else f.bytes) (fun g => { g with
      kind := .bypass, outcome := .bypassed, tooLong := long })).voidLong f.id
  else (s.dropFrame f 0x01).setFlag .byp 0x40 1
/-- The handling of each ACTION on RSE. -/
def State.egAction (s : State) (f : Frame) : State :=
  match dAction f.desc with
  | 1 => s.egBypass f
  | 2 => s.dropFrame f 0x02
  | 4 => s.dropFrame f 0x03
  | _ => s.egLookup f true
/-- A frame is refused at its SOF on RSE: its segments leave the admission buffer at once. -/
def State.egRefuse (s : State) (f : Frame) (ctr : Nat) : State := ((s.portCount f.port ctr).rseReturn f).addStub f
/-- A frame is admitted on RSE (R27, R62, R401); the buses are enabled with the fifth phase (R390).
[DEDUCED: log 17, 41, 42] -/
def State.egAdmit (s : State) (port : Nat) (cls : Bool) (desc : W64) (b : Bytes) (dpBad upErr eof : Bool) : State :=
  let f := s.newFrame .egress port cls desc b dpBad upErr eof
  if s.sys.phase < 5 || s.held (.port (Fin.ofNat 32 port)) || s.resetOn (.port (Fin.ofNat 32 port)) then s
  else
    let s := s.when dpBad (·.busParity .egress port cls)
    if s.busOpen .egress port cls then s.framing .egress port
    else if !s.portEn port then s.egRefuse f 0x16
    else if !s.roleOpen then s.egRefuse f 0x14
    else if !descOk desc cls then
      ((s.egRefuse f 0x04).portFlag port 4).detect 0x12 port (laneInfo port cls) 0
    else ((s.addFrame f).admitCounts f).egAction f

/-- A frame arrives on RSE. -/
def execEgressFrameAdmit (port : Fin 32) (cls : Bool) (desc : W64) (bytes : Bytes) (dpBad upErr eof : Bool) (s : State) :
    Host.Outcome State Fault Refusal :=
  .next (((s.begin).egAdmit port.val cls desc bytes dpBad upErr eof).quietDrop)

/-- A framing or control-parity error on an input bus (R27). -/
def execBusFraming (dir : Dir) (port : Fin 32) (s : State) : Host.Outcome State Fault Refusal :=
  .next ((s.begin).framing dir port.val)

/-- Bulk issue of a slice is suspended and the frame has blocks that have not entered the pipeline: its ICV cannot be done yet
(R126); nor can one that is done. -/
def State.icvMay (s : State) (f : Frame) : Bool :=
  match f.stage with
  | .inSlice n r => !f.icvDone &&
    (decide (r = 0) || (s.sl n).susp.isNone || decide (Frame.slots { f with eof := true } ≤ f.issued))
  | _ => false
/-- The blocks of a frame that have not been issued have been by the time its ICV is done (R120, R283). [DEDUCED: log 46] -/
def State.issueRest (s : State) (f : Frame) (n : Nat) : State :=
  let k := f.left
  if k = 0 then s
  else
    let s := (s.evtF (320 + n) (some f.chix, f.port, f.dir)).evt (320 + n) (k - 1)
    s.modSlices (fun c => if isIng n then { c with issuedI := c.issuedI + k } else { c with issuedE := c.issuedE + k })
/-- The ICV of an egress frame is written (R84, R120): the record is freed, and a frame found too long is judged. -/
def State.icvWritten (s : State) (f : Frame) : State :=
  match f.stage with
  | .inSlice n _ =>
    if !s.icvMay f then s
    else
      let s := ((s.closeFrame f).leaveSlice f).issueRest { f with eof := true } n
      let out := f.black
      let cut := f.tooLong && f.sofOut
      let s := s.modFrame f.id (fun g => { g with
        stage := .written, icvDone := true, checked := true, holds := false, key := [], salt := [], h := []
        ekj0 := 0, acc := 0, ks := []
        outBytes := if cut then out.take (f.mtu - 4) else out })
      match s.frame f.id with
      | some g => if g.tooLong && !g.sofOut then s.dropFrame g 0x09 else s
      | none => s
  | _ => s
/-- GHASH of an egress frame completes. -/
def execEgressIcvWritten (frame : Nat) (s : State) : Host.Outcome State Fault Refusal :=
  let s := s.begin
  match s.frame frame with
  | some f => .next (if f.dir = .egress then (s.icvWritten f).quietDrop else s)
  | none => .next s

end Sys2Proof.Machine
end

