-- ==== Sys2Proof/Machine/Ingress.lean ====
section
/-! DEFINITION. Ingress: admission on BSI, the SecTAG and channel checks, the SCI catch, and the compare with the final
replay check (R88 to R115, R273). -/
namespace Sys2Proof.Machine

/-! ### Replay (R94, R97 to R99) -/

/-- The PN of a frame from its PN field (R94). -/
def recoverPn (xpn : Bool) (lpn field : Nat) : Nat :=
  if !xpn then field
  else if lpn % 2 ^ 32 ≤ field then lpn / 2 ^ 32 * 2 ^ 32 + field else (lpn / 2 ^ 32 + 1) * 2 ^ 32 + field
/-- The bit of a PN in the bitmap of a slot is set. -/
def Slot.seen (sl : Slot) (pn : Nat) : Bool :=
  match sl.high with
  | some h => decide (pn ≤ h) && decide (h < pn + 256) && sl.bitmap.getLsbD (h - pn)
  | none => false
/-- The replay check passes (R97). -/
def Slot.replayOk (sl : Slot) (pn : Nat) : Bool := decide (sl.lpn ≤ pn) && !sl.seen pn
/-- Accept a PN into the window (R98); `mark` is false for a delayed frame (R99). [DESIGN CHOICE: log 117] -/
def Slot.accept (sl : Slot) (pn w : Nat) (mark : Bool) : Slot :=
  let up := fun (o : Slot) => match o.high with
    | some h => { o with lpn := max o.lpn (h + 1 - w) }
    | none => o
  match sl.high with
  | none => if mark then up { sl with high := some pn, bitmap := 1 } else sl
  | some h =>
    if h < pn then up { sl with high := some pn, bitmap := sl.bitmap <<< (pn - h) ||| (if mark then 1 else 0) }
    else if mark then up { sl with bitmap := if h < pn + 256 then sl.bitmap ||| (1#256 <<< (h - pn)) else sl.bitmap }
    else sl

/-! ### Frames without a channel (R90) -/

/-- A frame is dropped or delivered, and counted on its port at the drop; the catch may pass it instead (R113). -/
def State.caughtDrop (s : State) (f : Frame) (ctr : Nat) (c : Caught) : State :=
  match c with
  | .pass => s.passFrame f.id f.bytes (fun g => { g with
      kind := .plain, result := 4, noch := true, outcome := .catchPass ctr })
  | .report b => (s.keepReport f.id b).dropFrame { f with rep := if f.eof then none else some b } ctr
  | .quiet => s.dropFrame f ctr
/-- Handling of ACTION unknown (R90). [DEDUCED: log 51] -/
def State.inUnknown (s : State) (f : Frame) : State :=
  let t := dTags f.desc
  let b := f.bytes
  let strict := decide (s.rxValidate f.port = 2)
  if t = 3 ∨ hasSecTag b t = false then
    if strict then s.dropFrame f 0x58
    else s.passFrame f.id b (fun g => { g with kind := .plain, result := 2, noch := true, outcome := .untagged })
  else if !secTagOk b t false then s.dropFrame f 0x59
  else
    let (s, c) := match frameSci b t with
      | some sci => s.catchExamine f sci false
      | none => (s, Caught.quiet)
    if tciC (tciOf b t) || strict then s.caughtDrop f 0x5B c
    else match c with
      | .pass => s.passFrame f.id b (fun g => { g with
          kind := .plain, result := 4, noch := true, outcome := .catchPass 0x5A })
      | .report r => (s.passFrame f.id (stripSec b t) (fun g => { g with
          kind := .plain, result := 2, noch := true, outcome := .unknownSci })).keepReport f.id r
      | .quiet => s.passFrame f.id (stripSec b t) (fun g => { g with
          kind := .plain, result := 2, noch := true, outcome := .unknownSci })

/-! ### The channel checks (R89) -/

/-- The slot of an entry that holds an AN (R87, R89 order 9). [DEDUCED: log 51, 64] -/
def State.slotOfAn (s : State) (e : Nat) (an : BitVec 2) : Option Bool :=
  [false, true].find? (fun b => let sl := s.slot (vslotOf e b); !decide (sl.st = .empty) && decide (sl.an = an))
/-- Values every looked-up frame keeps (R114). -/
def keepIn (en : Entry) (b : Bool) (e : Nat) (an : BitVec 2) (len hdr clear : Nat) (g : Frame) : Frame :=
  { g with cfg0 := en.cfg0, sci := en.sci, window := en.window, vslot := vslotOf e b, an := an, len := len, hdr := hdr,
           clear := clear, noch := false, hasChan := true, verifyFirst := cVerifyFirst en.cfg0 }
/-- Orders 9 to 11 of R89, and R96; after zeroisation every slot is EMPTY and the frame is dropped as KEY_GONE (R173). -/
def State.inSlot (s : State) (f : Frame) (e : Nat) (en : Entry) : State :=
  let t := cClear en.cfg0
  let b := f.bytes
  let tci := tciOf b t
  let an := BitVec.ofNat 2 tci.toNat
  let c := tciC tci
  let val := cValidate en.cfg0
  let len := secLen b t
  let clear := if tciE tci then min (offsetOf f.desc en.cfg0) len else len
  let unused := fun (s : State) =>
    if c || decide (val = 2) then s.dropStat f [(6, 1)]
    else s.passFrame f.id (stripSec b t) (fun g => { keepIn en false e an len (hdrLen b t) clear g with
      kind := .plain, result := 2, outcome := .unusedSA })
  if s.sys.zero ≠ .no then s.dropStat f [(11, 1)]
  else match s.slotOfAn e an with
  | none => unused s
  | some sb =>
    if s.retiredFor e sb f.stamp then unused s
    else
      let sl := s.slot (vslotOf e sb)
      if sl.st ≠ .live then s.dropStat f [(11, 1)]
      else
        let pn := recoverPn (suiteXpn (cSuite en.cfg0)) sl.lpn (pnField b t)
        if !c && decide (val = 0) then
          s.passFrame f.id (stripSec b t) (fun g => { keepIn en sb e an len (hdrLen b t) clear g with
            kind := .plain, result := 2, outcome := .unchecked, pn := pn })
        else if cReplay en.cfg0 && !sl.replayOk pn then s.dropStat f [(5, 1)]
        else
          (s.holdSlot f.id e sb (fun g => { keepIn en sb e an len (hdrLen b t) clear g with
            kind := .macsec, pn := pn, outcome := .verified false,
            result := if c || decide (val = 2) then 0 else 2 })).vfCheck f.id
/-- A T10 header and length are valid (R269, R273 order 1). -/
def t10HdrOk (b : Bytes) (t mode legMax : Nat) : Bool :=
  let p := 12 + 4 * t
  let b1 := (byteAt b (p + 3)).toNat
  let len := be16 b (p + 4)
  let x := 30 + 4 * t + len
  decide (be16 b p = 0x88B5) && decide (byteAt b (p + 2) = 1) && decide (b1 / 64 = mode + 1) && decide (mode ≠ 0) &&
  decide (b1 / 4 % 16 = 0) && decide (2 ≤ len) && decide (len ≤ legMax) && decide (x ≤ b.length) &&
  decide (b.length ≤ max 60 x)
/-- The checks of R273. [DEDUCED: log 50] -/
def State.inT10 (s : State) (f : Frame) (e : Nat) (en : Entry) : State :=
  let t := cClear en.cfg0
  let b := f.bytes
  let kn := BitVec.ofNat 2 (byteAt b (15 + 4 * t)).toNat
  let seq := ofBe (slice b (18 + 4 * t) 4)
  if !t10HdrOk b t (cOffset en.cfg0) s.legMax then (s.dropFrame f 0x60).setFlag .leg 0x40 0
  else if s.sys.zero ≠ .no then s.dropStat f [(11, 1)]
  else match s.slotOfAn e kn with
    | none => s.dropStat f [(6, 1)]
    | some sb =>
      if s.retiredFor e sb f.stamp then s.dropStat f [(6, 1)]
      else
        let sl := s.slot (vslotOf e sb)
        if sl.st ≠ .live then s.dropStat f [(11, 1)]
        else if seq = 0 ∨ (cReplay en.cfg0 = true ∧ sl.replayOk seq = false) then s.dropStat f [(5, 1)]
        else
          (s.holdSlot f.id e sb (fun g => { keepIn en sb e kn (be16 b (16 + 4 * t)) (22 + 4 * t) 0 g with
            kind := .t10, pn := seq, outcome := .verified false, result := 3 })).vfCheck f.id
/-- Orders 6 to 8 of R89. -/
def State.inTagged (s : State) (f : Frame) (e : Nat) (en : Entry) : State :=
  let t := cClear en.cfg0
  let b := f.bytes
  if !hasSecTag b t then
    if cValidate en.cfg0 = 2 then s.dropFrame f 0x58
    else s.passFrame f.id b (fun g => { g with 
      kind := .plain, result := 2, noch := false, an := 0, outcome := .untagged, verifyFirst := cVerifyFirst en.cfg0 })
  else if !secTagOk b t (suiteXpn (cSuite en.cfg0)) then s.dropFrame f 0x59
  else if (frameSci b t).any (fun x => decide (x ≠ en.sci)) then s.dropStat f [(10, 1)]
  else s.inSlot f e en
/-- Orders 3 to 5 of R89 on a resident channel. A frame that carries no SCI is examined under its channel's (R92).
[DEDUCED: log 48] -/
def State.inChecks (s : State) (f : Frame) (e : Nat) (en : Entry) : State :=
  let s := s.modEntry e (fun x => { x with lastUsed := s.useMs })
  let t := cClear en.cfg0
  let b := f.bytes
  if !cEn en.cfg0 || !cRx en.cfg0 || (cExpress en.cfg0 != f.express) || !s.suiteFits f en.cfg0 then
    (s.modFrame f.id (fun g => { g with hasChan := true })).dropFrame f 0x44
  else if cPort en.cfg0 ≠ f.port then
    let (s, c) := s.catchExamine f (((if hasSecTag b t then frameSci b t else none)).getD en.sci) true
    s.caughtDrop f 0x44 c
  else if dTags f.desc ≠ t ∨ tagsOk b t = false then s.dropFrame f 0x45
  else
    let s := s.modFrame f.id (fun g => { g with hasChan := true })
    if dAction f.desc = 3 then s.inT10 f e en else s.inTagged f e en
/-- Look an ingress frame up; `queued` is false for a frame that leaves the miss queue. -/
def State.inLookup (s : State) (f : Frame) (queued : Bool) : State :=
  match s.find f.chix queued with
  | .lost => s.dropFrame f 0x4C
  | .unknown => s.inUnknown f
  | .miss => s.missJoin f
  | .entry e en => s.inChecks f e en

/-! ### Admission (R88) -/

/-- The bypass policy on BSI. -/
def State.inBypass (s : State) (f : Frame) : State :=
  if s.bypPass f then
    s.passFrame f.id f.bytes (fun g => { g with kind := .bypass, result := 1, noch := true, outcome := .bypassed })
  else (s.dropFrame f 0x41).setFlag .byp 0x40 2
/-- The handling of each ACTION on BSI. -/
def State.inAction (s : State) (f : Frame) : State :=
  match dAction f.desc with
  | 1 => s.inBypass f
  | 2 => s.dropFrame f 0x42
  | 4 => s.inUnknown f
  | _ => s.inLookup f true
/-- A frame is refused at its SOF on BSI. -/
def State.inRefuse (s : State) (f : Frame) (ctr : Nat) : State := (s.portCount f.port ctr).addStub f
/-- A frame arrives on BSI (R27, R88, R102, R401); the buses are enabled with the fifth phase (R390).
[DEDUCED: log 17, 41, 42] -/
def State.inAdmit (s : State) (port : Nat) (cls : Bool) (desc : W64) (b : Bytes) (dpBad upErr eof : Bool) : State :=
  let f := s.newFrame .ingress port cls desc b dpBad upErr eof
  if s.sys.phase < 5 then s
  else
    let off := s.held (.port (Fin.ofNat 32 port)) || s.resetOn (.port (Fin.ofNat 32 port))
    let s := s.when (dpBad && !off) (·.busParity .ingress port cls)
    if s.busOpen .ingress port cls then s.framing .ingress port
    else
    let s := s.bwIn .ingress port (24 + f.got)
    if off then s.inRefuse f 0x4C
    else if !s.portEn port then s.inRefuse f 0x5D
    else if !s.roleOpen then s.inRefuse f 0x52
    else if !descOk desc cls then
      ((s.inRefuse f 0x43).portFlag port 4).detect 0x12 port (laneInfo port cls) 0
    else if s.admFree port < 16384 then ((s.inRefuse f 0x4E).portCount port 0x5C).portFlag port 9
    else ((s.addFrame f).admitCounts f).inAction f

/-- A frame arrives on BSI. -/
def execIngressFrameAdmit (port : Fin 32) (cls : Bool) (desc : W64) (bytes : Bytes) (dpBad upErr eof : Bool) (s : State) :
    Host.Outcome State Fault Refusal :=
  .next ((s.begin).inAdmit port.val cls desc bytes dpBad upErr eof)

/-- A catch entry expires CATCH_AGE after its last sighting (R111). -/
def execCatchEntryExpiry (sci : W64) (port : Fin 32) (s : State) : Host.Outcome State Fault Refusal :=
  let s := s.begin
  .next (s.setCatch (s.dp.catchTab.filter (fun e =>
    !(decide (e.sci = sci) && decide (e.port = port.val) && decide (e.last.ns + s.catchAge ≤ s.sys.tmL.ns)))))

/-! ### Compare and final check (R95 to R99, R120) -/

/-- The received integrity value of a frame. -/
def Frame.rxIcv (f : Frame) : Bytes :=
  if f.kind = .t10 then slice f.bytes (f.hdr + f.len) 8 else slice f.bytes (f.hdr + f.len) 16
/-- The computed integrity value of a frame. -/
def Frame.rxTag (f : Frame) : Bytes :=
  if f.kind = .t10 then t10Mac f.key (f.bytes.take (f.hdr + f.len))
  else gcmTag f.key (gcmIv f) (f.bytes.take (f.hdr + f.clear)) (slice f.bytes (f.hdr + f.clear) (f.len - f.clear))
/-- The red frame (R93, R270). -/
def Frame.red (f : Frame) : Bytes :=
  let t := cClear f.cfg0
  f.bytes.take (12 + 4 * t) ++
    (if f.kind = .t10 then t10Dec (cOffset f.cfg0) f.key f.sci.toNat f.pn (slice f.bytes f.hdr f.len)
     else slice f.bytes f.hdr f.clear ++
       (if tciE (tciOf f.bytes t) then gcmCrypt f.key (gcmIv f) (slice f.bytes (f.hdr + f.clear) (f.len - f.clear))
        else slice f.bytes (f.hdr + f.clear) (f.len - f.clear)))
/-- A wrong integrity value discards the frame: C = 1, Strict, or T10 (R96, R273). -/
def Frame.strictIcv (f : Frame) : Bool :=
  decide (f.kind = .t10) || tciC (tciOf f.bytes (cClear f.cfg0)) || decide (cValidate f.cfg0 = 2)
/-- A frame's EOF will carry an error that the input decided (R105): its replay state is not changed. [DEDUCED: log 45] -/
def Frame.spoilt (f : Frame) : Bool := f.dpBad || f.upErr || f.truncated
/-- The statistic of a frame on its channel and slot (R108): the slot fields follow fields 12 and 15. -/
def slotStat (f : Frame) (i : Nat) : List (Nat × Nat) :=
  [(i, 1), ((if f.vslot % 2 = 1 then 15 else 12) + i, 1)]
/-- The final check of one frame whose compare has ended (R98, R99, R213). -/
def State.finalOne (s : State) (f : Frame) : State :=
  let s := s.modFrame f.id (fun g => { g with checked := true, holds := false, key := [], salt := [] })
  let e := f.vslot / 2
  let sb := decide (f.vslot % 2 = 1)
  if f.icvBad then
    if f.verifyFirst then
      if f.strictIcv then (if f.spoilt then s else s.dropStat f (slotStat f 2))
      else s.modFrame f.id (fun g => { g with outcome := .invalid, result := 2 })
    else if f.strictIcv then s
    else s.modFrame f.id (fun g => { g with outcome := .invalid })
  else if f.spoilt then s
  else
    let sl := s.slot f.vslot
    let live := decide (sl.gen = f.gen)
    let rp := cReplay f.cfg0
    if !live || (rp && !sl.replayOk f.pn) then
      if f.verifyFirst then s.dropStat f [(5, 1)] else s.modFrame f.id (fun g => { g with late := true })
    else
      let w := match s.entry e with | some en => if en.chix = f.chix then en.window else f.window | none => f.window
      let delayed := !rp && decide (f.pn < sl.lpn)
      let s := s.modSlot f.vslot (fun o => o.accept f.pn w (!delayed) |>.floored s.sys.aoClk o.lpn)
      let s := s.modFrame f.id (fun g => { g with
        outcome := .verified delayed, result := if g.verifyFirst ∧ g.kind = .macsec then 0 else g.result })
      s.solArm e sb f.stamp
/-- The frames of a port and class are judged in order: each whose compare has ended and whose predecessors are judged.
[DEDUCED: log 45] -/
def State.finalChecks (s : State) (k : Nat) : State :=
  let l := s.dp.frames.filter (fun f => decide (f.key_ = k) && !decide (f.stage = .missq) && !f.void_)
  let run := l.takeWhile (fun f => f.icvDone)
  s.forEach ((run.filter (fun f => !f.checked)).map (·.id)) (fun s id => match s.frame id with
    | some f => s.finalOne f
    | none => s)
/-- The computed tag of an ingress frame is compared, and its record is freed (R120, R121, R130). [DEDUCED: log 45] -/
def State.icvCompare (s : State) (f : Frame) : State :=
  match f.stage with
  | .inSlice n _ =>
    if !s.icvMay f then s
    else
      let s := ((s.closeFrame f).leaveSlice f).issueRest { f with eof := true } n
      if f.verifyFirst ∧ 9212 < f.bytes.length then
        match s.frame f.id with
        | some g => (s.dropFrame g 0x4F).portFlag f.port 13
        | none => s
      else
        let red := f.red
        let s := s.modFrame f.id (fun g => { g with
          stage := .written, icvDone := true, icvBad := decide (f.rxTag ≠ f.rxIcv), holds := false, h := [], ekj0 := 0, acc := 0
          ks := [], outBytes := red.take rsiLimit, truncated := g.truncated || decide (rsiLimit < red.length) })
        s.finalChecks f.key_
  | _ => s
/-- The computed tag of an ingress frame is compared with the received ICV, and the final replay check is made. -/
def execIngressIcvCompare (frame : Nat) (s : State) : Host.Outcome State Fault Refusal :=
  let s := s.begin
  match s.frame frame with
  | some f => .next (if f.dir = .ingress then s.icvCompare f else s)
  | none => .next s

end Sys2Proof.Machine
end

