-- ==== Sys2Proof/Machine/Release.lean ====
section
/-! DEFINITION. Dispatch to slices, release on BSE and RSI, ends of frames, credits and the crossing between the halves
(R10, R16 to R19, R32 to R34, R71, R74 to R81, R100 to R108, R121 to R128, R227). -/
namespace Sys2Proof.Machine

/-! ### Dispatch (R19, R121, R125, R136, R274) -/

/-- A record of a slice is taken. -/
def State.recTaken (s : State) (n r : Nat) : Bool := s.dp.frames.any (fun f => decide (f.stage = .inSlice n r))
/-- The lowest free bulk record of a slice. -/
def State.freeRec (s : State) (n : Nat) : Option Nat := [1, 2, 3, 4].find? (fun r => !s.recTaken n r)
/-- A slice can accept an express frame: record 0 and the suspended-frame context are free. -/
def State.takesExpress (s : State) (n : Nat) : Bool :=
  decide ((s.sl n).st = .summer) && !s.recTaken n 0 && (s.sl n).susp.isNone
/-- The issue stage of a slice is idle: no frame in it has a block to issue. -/
def State.slIdle (s : State) (n : Nat) : Bool := (s.nextIssue n).isNone
/-- Express service: any frame but a T10 frame, which is bulk whatever its class (R267). [DEDUCED: log 50] -/
def Frame.asExpress (f : Frame) : Bool := f.express && !decide (f.kind = .t10)
/-- A frame waits for a slice with its ticket. -/
def Frame.waits (f : Frame) : Bool :=
  decide (f.stage = .waiting) && f.ticket.isSome && !f.void_ && (decide (f.kind = .macsec) || decide (f.kind = .t10))
/-- Of some slices, the one with the fewest queued blocks, then the lowest number. [DEDUCED: log 46] -/
def State.leastQueued (s : State) (l : List Nat) : Option Nat := leastBy s.slQueue l
/-- The slice for an express frame (R125). [DEDUCED: log 46] -/
def State.pickExpress (s : State) (ing : Bool) : Option Nat :=
  let ok := (slicesOf ing).filter s.takesExpress
  let rsv := ok.filter (fun n => decide (n ∈ s.reserve ing))
  match rsv.find? s.slIdle with
  | some n => some n
  | none => match ok.find? s.slIdle with
    | some n => some n
    | none => match s.leastQueued rsv with
      | some n => some n
      | none => s.leastQueued ok
/-- A slice can accept a bulk frame (R76, R121, R125, R274). [DEDUCED: log 50] -/
def State.takesBulk (s : State) (f : Frame) (n : Nat) : Bool :=
  decide ((s.sl n).st = .summer) && (s.freeRec n).isSome && decide (s.slQueue n < 1024) &&
  !(decide (f.kind = .t10) && s.dp.frames.any (fun g => g.inSl n && decide (g.kind = .t10))) &&
  !(s.takesExpress n && s.dp.frames.any (fun g => g.waits && g.asExpress && decide (g.dir = f.dir)))
/-- The slice of the previous frame of the same port and class. [DESIGN CHOICE: log 15] -/
def State.prevSlice (s : State) (f : Frame) : Option Nat :=
  let before := s.dp.frames.takeWhile (fun g => decide (g.id ≠ f.id))
  match (before.filter (fun g => decide (g.key_ = f.key_))).getLast? with
  | some g => (match g.stage with | .inSlice n _ => some n | _ => none)
  | none => none
/-- The slice for a bulk frame (R19, R136). -/
def State.pickBulk (s : State) (f : Frame) : Option Nat :=
  let ing := decide (f.dir = .ingress)
  let ok := (slicesOf ing).filter (s.takesBulk f)
  let free := ok.filter (fun n => !decide (n ∈ s.reserve ing))
  let l := if free.isEmpty then ok else free
  let others := l.filter (fun n => s.prevSlice f != some n)
  s.leastQueued (if others.isEmpty then l else others)
/-- Give a frame to a record of a slice: space is reserved, the order ticket crosses, its credits return, and the record starts
with J0 to issue (R121). -/
def State.toSlice (s : State) (f : Frame) (n r : Nat) : State :=
  let res := if f.dir = .egress then f.reserve else 0
  let s := if f.dir = .egress then s.setBuf f.key_ (s.bufSpace f.key_ - f.reserve) else s
  let s := s.modFrame f.id (fun g => { g with
    stage := .inSlice n r, resv := res, disp := s.dp.nextDisp, issued := 0, aadN := 0, pos := 0, acc := 0, ks := [] })
  ((s.modDp (fun d => { d with nextDisp := d.nextDisp + 1 })).sendTicket f n false).rseReturn f
/-- The bulk frame of a slice that its issue stage served last, else the one it would serve next (R126). [DEDUCED: log 46] -/
def State.bulkLast (s : State) (n : Nat) : Option Frame :=
  (s.dp.frames.find? (fun g => g.inSl n && decide (g.stage ≠ .inSlice n 0) && decide ((s.sl n).last = some g.id) && !g.void_)).or
    (s.nextIssue n)
/-- Suspend bulk issue of a slice for an express frame: the working registers of the bulk frame last issued move into the
suspended-frame context (R126). [DEDUCED: log 46] -/
def State.suspendIn (s : State) (n : Nat) (d : Dir) : State :=
  match s.bulkLast n with
  | some g => (((s.modSl n (fun c => { c with susp := some {
      frame := g.id, ctr := g.issued, pos := g.pos, acc := g.acc } })).modFrame g.id (fun h => { h with suspended := true })).evtF
      (if d = .egress then 298 else 299) (some g.chix, g.port, g.dir))
  | none => s
/-- An express frame that finds no slice waits in the express queue, and is counted once (R125). [DEDUCED: log 46] -/
def State.expWaits (s : State) (f : Frame) : State :=
  if f.waited then s
  else (s.modFrame f.id (fun g => { g with waited := true })).evtF (if f.dir = .egress then 296 else 297)
    (some f.chix, f.port, f.dir)
/-- Dispatch a waiting frame; an express frame waits behind earlier waiting express frames of its direction. -/
def State.dispatch (s : State) (f : Frame) : State :=
  let ing := decide (f.dir = .ingress)
  if !f.waits || !s.roomFor f then s
  else if f.asExpress then
    if s.dp.frames.find? (fun g => g.waits && g.asExpress && decide (g.dir = f.dir)) ≠ some f then s.expWaits f
    else match s.pickExpress ing with
      | some n => if s.slIdle n then s.toSlice f n 0 else (s.suspendIn n f.dir).toSlice f n 0
      | none => s.expWaits f
  else match s.pickBulk f with
    | some n => match s.freeRec n with
      | some r => s.toSlice f n r
      | none => s
    | none => s
/-- A waiting frame is given to an eligible slice (R19). [DESIGN CHOICE: log 4] -/
def execSliceDispatch (frame : Nat) (s : State) : Host.Outcome State Fault Refusal :=
  let s := s.begin
  match s.frame frame with
  | some f => .next (if f.passes then s.passTry f else s.dispatch f)
  | none => .next s
/-- The last block of the express frame of a slice has entered the pipeline, or the slice holds none (R126). -/
def State.expressIn (s : State) (n : Nat) : Bool :=
  s.dp.frames.all (fun f => decide (f.stage ≠ .inSlice n 0) || (f.eof && decide (f.left = 0)))
/-- Bulk issue resumes from the suspended context, once the express frame's last block has entered (R126). -/
def execBulkResume (slice : Fin 40) (s : State) : Host.Outcome State Fault Refusal :=
  let s := s.begin
  .next (if s.expressIn slice.val then s.resume slice.val else s)

/-! ### Release of a SOF (R17, R32, R77, R100, R101) -/

/-- The descriptor on BSE or RSI (R32). [DEDUCED: log 51] -/
def Frame.outDesc (f : Frame) : W64 :=
  let cls := b2n f.express * 2 ^ 20
  if f.dir = .egress then withChk cls
  else
    let id := if f.noch then 0 else f.chix + f.an.toNat * 2 ^ 24 + f.vslot % 2 * 2 ^ 26
    withChk (id + cls + f.result.toNat * 2 ^ 21 + b2n f.noch * 2 ^ 27 + dFlow f.desc * 2 ^ 32)
/-- Segments that a frame needs credit for: its length when it is known, else the largest that its output admits (R33).
[DESIGN CHOICE: log 109] -/
def Frame.segs (f : Frame) : Nat :=
  segsOf (if !f.eof then (if f.dir = .egress then f.mtu else 16352)
    else if f.stage = .written then f.outBytes.length else f.outLen)
/-- Bytes of an egress frame that have been written to its reorder buffer (R77, R119). [DEDUCED: log 46] -/
def Frame.wrote (f : Frame) : Nat :=
  match f.stage with
  | .written => if f.eof then f.outBytes.length else min f.got f.outBytes.length
  | .inSlice _ _ =>
    if f.issued = 0 then 0
    else
      let a := 12 + 4 * cClear f.cfg0
      a + (if cScInc f.cfg0 then 16 else 8) + min f.clear (f.got - a) + f.pos
  | _ => 0
/-- A frame may start on its output, as far as its own progress decides (R77, R100, R101). -/
def Frame.startable (f : Frame) : Bool :=
  let thru := f.eof || (decide (f.kind ≠ .t10) && decide (f.laneUnits ≤ 2) && decide (f.ctDepth ≤ f.wrote / 32))
  match f.stage with
  | .written => if f.dir = .egress then thru else !f.verifyFirst || (f.checked && f.eof)
  | .inSlice _ _ => if f.dir = .egress then thru else !f.verifyFirst
  | _ => false
/-- Credit held for an output. -/
def State.credit (s : State) (k : Nat) : Nat := Tab.get 0 s.dp.credit k
/-- The output buses are enabled, and the partition of a port serves (R59, R390). [DEDUCED: log 17] -/
def State.portServes (s : State) (port : Nat) : Bool :=
  decide (5 ≤ s.sys.phase) && !s.held (.port (Fin.ofNat 32 port)) && !s.resetOn (.port (Fin.ofNat 32 port))
/-- The SOF of the next frame of an output may be released, as far as its own class decides (R16, R17, R33, R77, R101). -/
def State.mayStart (s : State) (d : Dir) (port : Nat) (f : Frame) : Bool :=
  f.ticket.isSome && !f.sofOut && !f.void_ && f.startable && s.portServes port &&
  !(decide (d = .egress) && s.dp.quiet) && decide (f.segs ≤ s.credit f.key_)
/-- The EOF of the frame in progress may be released. -/
def Frame.mayEnd (f : Frame) : Bool := f.sofOut && decide (f.stage = .written) && f.checked
/-- The express class of a port has a segment ready for its BSE position: bulk segments wait (R79). [DEDUCED: log 110] -/
def State.expressReady (s : State) (d : Dir) (port : Nat) (cls : Bool) : Bool :=
  decide (d = .egress) && !cls && (match s.headFrame (chanKey .egress port true) with
    | some g => s.mayStart .egress port g || (g.mayEnd && g.eof)
    | none => false)
/-- The SOF of the next frame of an output may be released. -/
def State.mayRelease (s : State) (d : Dir) (port : Nat) (f : Frame) : Bool :=
  s.mayStart d port f && !s.expressReady d port f.express
/-- Release a SOF: credit is spent, the descriptor is driven, and the release is counted. -/
def State.sofRelease (s : State) (f : Frame) : State :=
  let eg := decide (f.dir = .egress)
  let k := f.key_
  let s := s.modDp (fun d => { d with
    credit := Tab.modify 0 d.credit k (· - f.segs), sent := Tab.modify 0 d.sent k (· + f.segs) })
  let s := (s.modFrame f.id (fun g => { g with sofOut := true, charged := f.segs })).emit (.sof f.dir f.port f.express f.outDesc)
  let s := s.evtF ((if eg then 424 else 456) + f.port) (if f.hasChan then some f.chix else none, f.port, f.dir)
  let s := s.when eg (·.bwAdd f.port .egress 24)
  s.when (f.asExpress && decide (12 < s.sys.aoClk - f.at_)) (fun s =>
    (s.portCount f.port (if eg then 0x12 else 0x50)).portFlag f.port (if eg then 7 else 8))
/-- Release the next SOF of an output if it may go; the frames of the class that are due are judged first (R98). -/
def State.trySof (s : State) (d : Dir) (port : Nat) (cls : Bool) : State :=
  let s := s.when (decide (d = .ingress)) (·.finalChecks (chanKey d port cls))
  match s.headFrame (chanKey d port cls) with
  | some f => if s.mayRelease d port f then s.sofRelease f else s
  | none => s
/-- A SOF is released on BSE. -/
def execBseSofRelease (port : Fin 32) (cls : Bool) (s : State) : Host.Outcome State Fault Refusal :=
  .next ((s.begin).trySof .egress port.val cls)
/-- A SOF is released on RSI. -/
def execRsiSofRelease (port : Fin 32) (cls : Bool) (s : State) : Host.Outcome State Fault Refusal :=
  .next ((s.begin).trySof .ingress port.val cls)

/-! ### Release of an EOF (R71, R105 to R108) -/

/-- The code of a frame's EOF: R84 comes before R27; else the first of R105 that applies. -/
def Frame.code (f : Frame) : Code :=
  if f.tooLong then .length else if f.dpBad then .busErr else if f.upErr then .upstream else if f.truncated then .length
  else if f.icvBad && f.strictIcv && decide (f.kind ≠ .plain) then .authFail else if f.late then .replay else .none
/-- Fields of the counter tree for an outcome that NONE delivers (R71, R108, R376). -/
def Frame.stats (f : Frame) : List (Nat × Nat) :=
  let sb := f.vslot % 2
  match f.outcome with
  | .protected_ =>
    if cConf f.cfg0 || decide (f.kind = .t10) then [(0, 1), (2, f.len), (6 + 2 * sb, 1)]
    else [(1, 1), (3, f.len), (7 + 2 * sb, 1)]
  | .verified delayed =>
    (if delayed then [(4, 1)] else slotStat f 0) ++
      [(if f.kind = .t10 ∨ tciE (tciOf f.bytes (cClear f.cfg0)) = true then 9 else 8, f.len)]
  | .invalid => slotStat f 1
  | .unchecked => [(3, 1)]
  | .unusedSA => [(7, 1)]
  | _ => []
/-- Port counters for an outcome that NONE delivers. -/
def Frame.portStats (f : Frame) : List Nat :=
  match f.outcome with
  | .bypassed => [if f.dir = .egress then 0x00 else 0x40]
  | .untagged => [0x57]
  | .unknownSci => [0x5A]
  | .catchPass c => [0x55, c]
  | .report => [0x53]
  | _ => []
/-- Count the outcome of a frame whose EOF carries a code. [DEDUCED: log 47] -/
def State.countEnd (s : State) (f : Frame) : State :=
  let eg := decide (f.dir = .egress)
  match f.code with
  | .busErr => s.portCount f.port (if eg then 0x0C else 0x4A)
  | .upstream => s.portCount f.port (if eg then 0x0B else 0x49)
  | .length => s.portCount f.port (if f.tooLong then 0x09 else if eg then 0x0A else 0x48)
  | .authFail => s.outcome f.chix (slotStat f 2)
  | .replay => s.outcome f.chix [(5, 1)]
  | _ =>
    let s := s.forEach f.portStats (fun s i => s.portCount f.port i)
    let s := s.when (decide (f.outcome = .report)) (·.portFlag f.port 11)
    if f.stats.isEmpty then s else s.outcome f.chix f.stats
/-- Release the EOF of the frame in progress on an output; the credit taken beyond its segments is held again (R33). -/
def State.tryEof (s : State) (d : Dir) (port : Nat) (cls : Bool) : State :=
  let s := s.when (decide (d = .ingress)) (·.finalChecks (chanKey d port cls))
  match s.headFrame (chanKey d port cls) with
  | some f =>
    if f.mayEnd && !s.expressReady d port cls then
      let s := ((s.closeFrame f).countEnd f).refund f (segsOf f.outBytes.length)
      let s := s.when (decide (d = .egress)) (·.bwAdd port .egress f.outBytes.length)
      (s.removeFrame f).sendEof f f.outBytes f.code
    else s
  | none => s
/-- An EOF is released with its code. -/
def execEofRelease (dir : Dir) (port : Fin 32) (cls : Bool) (s : State) : Host.Outcome State Fault Refusal :=
  .next ((s.begin).tryEof dir port.val cls)

/-! ### Underruns and the record limit -/

/-- End a frame with BUS_ERR as an underrun of BSE or a framing error of RSI (R17, R78, R128). [DEDUCED: log 47] -/
def State.underrun (s : State) (f : Frame) : State :=
  let eg := decide (f.dir = .egress)
  let s := s.endFrame f .busErr (some (if eg then 0x0E else 0x4B))
  if eg then (s.portFlag f.port 6).frameFault 0x13 f else (s.portBFlag f.port 4).frameFault 0x11 f
/-- A segment of the frame in progress was not written when it was due. [DEDUCED: log 47] -/
def State.lateSegment (s : State) (d : Dir) (port : Nat) (cls : Bool) : State :=
  match s.headFrame (chanKey d port cls) with
  | some f => if f.sofOut && !(decide (f.stage = .written) && f.eof) then s.underrun f else s
  | none => s
/-- An underrun on BSE (R78). -/
def execBseUnderrun (port : Fin 32) (cls : Bool) (s : State) : Host.Outcome State Fault Refusal :=
  .next ((s.begin).lateSegment .egress port.val cls)
/-- An underrun on RSI (R17). -/
def execRsiUnderrun (port : Fin 32) (cls : Bool) (s : State) : Host.Outcome State Fault Refusal :=
  .next ((s.begin).lateSegment .ingress port.val cls)
/-- A frame holds a record for more than 8 µs (R128). [DEDUCED: log 47] -/
def execRecordTimeout (frame : Nat) (s : State) : Host.Outcome State Fault Refusal :=
  let s := s.begin
  match s.frame frame with
  | some f => .next (match f.stage with | .inSlice _ _ => s.underrun f | _ => s)
  | none => .next s

/-! ### Credits (R33, R34) -/

/-- A credit return; one without CR_INIT has no effect before the first with it (R34). [DEDUCED: log 54] -/
def State.creditReturn (s : State) (d : Dir) (port : Nat) (cls init : Bool) (cnt : Nat) : State :=
  let k := chanKey d port cls
  let out := Tab.get 0 s.dp.sent k
  if init then
    let s := s.modDp (fun dp => { dp with
      crInit := insNat dp.crInit k, credit := Tab.set 0 dp.credit k (if cnt < out then 0 else cnt) })
    if cnt < out then
      if d = .egress then (s.portCount port 0x13).portBFlag port 5 else (s.portCount port 0x51).portFlag port 10
    else s
  else if k ∈ s.dp.crInit then
    s.modDp (fun dp => { dp with
      credit := Tab.modify 0 dp.credit k (· + cnt), sent := Tab.modify 0 dp.sent k (· - cnt) })
  else s
/-- A credit return on BSE or RSI. -/
def execCreditReturn (dir : Dir) (port : Fin 32) (cls init : Bool) (cnt : BitVec 10) (s : State) :
    Host.Outcome State Fault Refusal :=
  .next ((s.begin).creditReturn dir port.val cls init cnt.toNat)

/-! ### The crossing between the halves (R10) -/

/-- A crossing message fails its format check: it is discarded and reported (R10, R297). -/
def State.xingBad (s : State) (lane : Nat) : State := s.detect 0x16 lane (laneInfo lane false) 0
/-- A Lane control message reaches the black half: DRAIN and RESET of a lane; RESET discards what the black half holds
of the lane's port, so frames of the port that have not left are not released. [DEDUCED: log 53] -/
def State.laneControl (s : State) (lane : Nat) (code : LaneCode) : State :=
  match code with
  | .drain => s.emit (.laneCtl lane .drain)
  | .reset =>
    let s := s.endFrames (fun f => decide (f.dir = .egress) && decide (f.port = lane) && f.sofOut) .abort (fun _ => none)
    (s.modDp (fun d => { d with
      credit := Tab.set 0 (Tab.set 0 d.credit (chanKey .egress lane false) 0) (chanKey .egress lane true) 0
      crInit := delNat (delNat d.crInit (chanKey .egress lane false)) (chanKey .egress lane true)
      sent := Tab.set 0 (Tab.set 0 d.sent (chanKey .egress lane false) 0) (chanKey .egress lane true) 0 })).emit
      (.laneCtl lane .reset)
/-- A Lane control message. [DEDUCED: log 8] -/
def execLaneControl (lane : Fin 32) (code : LaneCode) (fmtOk : Bool) (s : State) : Host.Outcome State Fault Refusal :=
  let s := s.begin
  .next (if fmtOk then s.laneControl lane.val code else s.xingBad lane.val)
/-- The lane units of a port by the LANES in force, as a mask. -/
def State.portMask (s : State) (p : Nat) : W32 := BitVec.ofNat 32 ((2 ^ s.portLanes p - 1) * 2 ^ p)
/-- LINK_UP of a port: every lane unit of the port reports link up. -/
def State.linkUp (s : State) (p : Nat) : Bool := s.dp.linkUp &&& s.portMask p == s.portMask p
/-- A Link status message: LINK_CHG of a port whose LINK_UP changes. -/
def State.linkStatus (s : State) (lane : Nat) (up mf ec : Bool) : State :=
  let old := (List.range 32).filter s.linkUp
  let put := fun (w : W32) (b : Bool) => mergeBits (1#32 <<< lane) (atBit b lane) w
  let s := s.modDp (fun d => { d with linkUp := put d.linkUp up, macFault := put d.macFault mf, expCap := put d.expCap ec })
  s.forEach ((List.range 32).filter (fun p => decide (p ∈ old) != s.linkUp p)) (fun s p => s.portBFlag p 1)
/-- A Link status message. [DEDUCED: log 8] -/
def execLinkStatus (lane : Fin 32) (up macFault expCap fmtOk : Bool) (s : State) : Host.Outcome State Fault Refusal :=
  let s := s.begin
  .next (if fmtOk then s.linkStatus lane.val up macFault expCap else s.xingBad lane.val)
/-- A Buffer level message (R10, R75). [DEDUCED, DESIGN CHOICE: log 8, 12] -/
def execBufferLevel (lane : Fin 32) (cls : Bool) (free : BitVec 16) (fmtOk : Bool) (s : State) :
    Host.Outcome State Fault Refusal :=
  let s := s.begin
  .next (if fmtOk then s.setBuf (chanKey .egress lane.val cls) free.toNat else s.xingBad lane.val)
/-- Port counters that R367 names. -/
def portCtrNamed (i : Nat) : Bool := (decide (i < 0x17) && decide (i ≠ 0x15)) || (decide (0x40 ≤ i) && decide (i < 0x5F))
/-- A Black counter increment message updates a counter of the port whose lane it names; a counter that R367 does not name is a
format error (R10, R367). [DESIGN CHOICE: log 111] -/
def State.blackCount (s : State) (lane ctr inc : Nat) : State :=
  if portCtrNamed ctr then s.portAdd ((s.portOfLane lane).getD lane) ctr inc else s.xingBad lane
/-- A Black counter increment message. [DEDUCED: log 8] -/
def execBlackCounterIncrement (lane : Fin 32) (ctr : BitVec 7) (inc : BitVec 16) (fmtOk : Bool) (s : State) :
    Host.Outcome State Fault Refusal :=
  let s := s.begin
  .next (if fmtOk then s.blackCount lane.val ctr.toNat inc.toNat else s.xingBad lane.val)
/-- A Black fault event message: the detection of a black-side detector, BLK_FAULT of the port, and the hold of the port for
PORT_CTL_DUP and for XING_BAD, which the black half finds in frame data and order tickets (R10, R297, R300, R307); a
detector that is not the black half's is a format error. [DESIGN CHOICE: log 111] -/
def State.blackFault (s : State) (lane det : Nat) : State :=
  let p := (s.portOfLane lane).getD lane
  if det = 0x11 ∨ det = 0x10 ∨ (0x13 ≤ det ∧ det ≤ 0x16) then
    let s := (s.portBFlag p 6).detect det (if det = 0x16 then lane else p) (laneInfo lane false) 0
    s.when (decide (det = 0x15) || decide (det = 0x16)) (·.holdUnit (.port (Fin.ofNat 32 p)))
  else s.xingBad lane
/-- A Black fault event message. [DEDUCED: log 8] -/
def execBlackFaultEvent (lane : Fin 32) (det : BitVec 8) (fmtOk : Bool) (s : State) :
    Host.Outcome State Fault Refusal :=
  let s := s.begin
  .next (if fmtOk then s.blackFault lane.val det.toNat else s.xingBad lane.val)

/-! ### The miss queue empties (R227) -/

/-- A frame leaves the miss queue for lookup: it takes its place behind every frame admitted since. -/
def State.missLeave (s : State) (f : Frame) : State :=
  let g := { f with stage := .waiting }
  let s := s.modDp (fun d => { d with frames := d.frames.filter (fun h => decide (h.id ≠ f.id)) ++ [g] })
  if f.dir = .egress then s.egLookup g false else s.inLookup g false
/-- The channel of waiting frames can be looked up: it is installed, or has become unknown. -/
def State.missReady (s : State) (x : Nat) : Bool :=
  match s.find x false with
  | .miss => false
  | _ => true
/-- The frames of a channel and direction leave the miss queue in FIFO order. -/
def State.missRelease (s : State) (d : Dir) (x : Nat) : State :=
  if s.missReady x then
    s.forEach ((s.dp.frames.filter (fun f => decide (f.stage = .missq) && decide (f.chix = x) && decide (f.dir = d))).map (·.id))
      (fun s id => match s.frame id with
        | some f => s.missLeave f
        | none => s)
  else s
/-- Frames of a channel are released from the miss queue. -/
def execMissQueueRelease (dir : Dir) (chix : BitVec 20) (s : State) : Host.Outcome State Fault Refusal :=
  .next ((s.begin).missRelease dir chix.toNat)

end Sys2Proof.Machine
end

