-- ==== Sys2Proof/Machine/Windows.lean ====
section
/-! DEFINITION. The command windows SAW, KEYW, LEASE and STORE: what each command does when its channel and its domains
are there, and how a command waits until they are (R141 to R147, R165 to R171, R200, R203, R210, R233, R234, R239,
R254, R255, R281, R380, R381). -/
namespace Sys2Proof.Machine

/-! ### SAW: the channel a command names -/

/-- Operand word n of the SAW window. [DEDUCED: log 34] -/
def State.sawArg (s : State) (n : Nat) : W32 := s.cfg .saw (0xC0 + 4 * n)
/-- Set it. -/
def State.setSawArg (s : State) (n : Nat) (w : W32) : State := s.setCfg .saw (0xC0 + 4 * n) w
/-- Where the channel of a command stands. -/
inductive Where where
  | unknown | stored
  /-- Being evicted: the command waits. -/
  | leaving
  | here (e : Nat) (en : Entry)
  deriving DecidableEq, Repr
/-- The channel of a command. -/
def State.whereIs (s : State) (x : Nat) : Where :=
  if !s.known x then .unknown
  else match s.resident x with
    | none => .stored
    | some e => match s.entry e with
      | none => .stored
      | some en => if en.evicting then .leaving else .here e en

/-! ### CH_WRITE (R141 to R147) -/

/-- The image is well-formed (R145). -/
def State.imageOk (s : State) : Bool :=
  let w := s.sawArg 0
  decide (cSuite w ≤ 4) && decide (cOffset w ≠ 3) && decide (cClear w ≠ 3) && decide (cValidate w ≠ 3) &&
  decide (w &&& 0x2FF = 0) && decide ((s.sawArg 1).toNat ≤ 0x40000000) && decide (fld (s.sawArg 4) 31 12 = 0) &&
  decide (fld (s.sawArg 6) 27 16 = 0) &&
  !(!cRx w && cEs w && cScInc w)
/-- The image's SCI: byte 0 in bits [7:0] of SAW_ARG2 (R144). -/
def State.imageSci (s : State) : W64 := BitVec.ofNat 64 (ofBe (leBytes 4 (s.sawArg 2).toNat ++ leBytes 4 (s.sawArg 3).toNat))
/-- Two words differ in an identity field: DIR, CLASS, PORT or SUITE (R146). -/
def identityDiffers (a b : W32) : Bool := decide ((a ^^^ b) &&& 0x7FE00000 ≠ 0)
/-- A KEYW command for a channel is in progress. -/
def State.keywFor (s : State) (x : Nat) : Bool :=
  match s.pager.keyw with | some c => decide (cmdChix c = x) | none => false
/-- Write the image into an entry. -/
def State.writeImage (s : State) (x e : Nat) (w : W32) : State :=
  let sci := s.imageSci
  let win := (s.sawArg 1).toNat
  let g := BitVec.ofNat 12 (fld (s.sawArg 4) 11 0)
  (s.modEntry e (fun en => { en with cfg0 := w, window := win, sci := sci, pinned := en.pinned || cExpress w })).modCh
    (fun c => { c with group := Tab.set 0 c.group x g })
/-- The trunk cell of a channel is served: inside the store, under a selector that holds a key (R243, R392).
[DEDUCED: log 52] -/
def State.trunksServed (s : State) (x : Nat) : Bool :=
  (List.range 4).all (fun l =>
    decide (s.trunkLine x l < s.storeTop) &&
    (match s.selOf (s.trunkLine x l) s.pageKix with
     | some sel => (s.keySel sel).seed.isSome
     | none => false))
/-- CH_WRITE; one that recreates a channel of a standby after a global reset is followed by SYNC_REQ (R339).
[DEDUCED: log 52, 99] -/
def State.runWrite (s : State) (x : Nat) : State :=
  let w := s.sawArg 0
  let pinFull := decide (61440 ≤ s.pinnedCnt)
  if !s.imageOk then s.sawDone 0x02 0
  else match s.whereIs x with
    | .leaving => s
    | .stored => s.pageWant x .command
    | .unknown =>
      if !s.trunksServed x then s.sawDone 0x09 0
      else if cExpress w && pinFull then s.sawDone 0x08 0
      else match s.lowestFree with
        | none => s.sawDone 0x04 0
        | some e =>
          let s := s.setEntry e (some { chix := x, live := true, lastUsed := s.useMs })
          let s := ((s.setResi x { s.resi x with v := true, idx := BitVec.ofNat 16 e }).writeImage x e w).when s.pair.resync (·.sendSyncReq)
          (s.zeroCell x).sawDone 0 e
    | .here e en =>
      if identityDiffers w en.cfg0 &&
          ((s.slot (vslotOf e false)).keyed || (s.slot (vslotOf e true)).keyed || s.keywFor x) then s.sawDone 0x05 0
      else if cExpress w && !en.pinned && pinFull then s.sawDone 0x08 0
      else (s.writeImage x e (withActive w en.act)).sawDone 0 e

/-! ### CH_READ (R143, R166) -/

/-- PN words of a slot: next PN on transmit, LPN on receive. -/
def slotPn (rx : Bool) (sl : Slot) : Nat := if rx then sl.lpn else sl.next
/-- Put the image of an entry and its slots. -/
def State.putImage (s : State) (en : Entry) (w6 : W32) (a b : Slot) : State :=
  let sci := beBytes 8 en.sci.toNat
  let rx := cRx en.cfg0
  let pa := slotPn rx a
  let pb := slotPn rx b
  let ws : List W32 := [en.cfg0, BitVec.ofNat 32 en.window, BitVec.ofNat 32 (ofLe (sci.take 4)),
    BitVec.ofNat 32 (ofLe (sci.drop 4)), BitVec.ofNat 32 (s.groupOf en.chix).toNat, en.lastUsed, w6, a.statusWord,
    b.statusWord, a.ssci, b.ssci, atPos b.keyRef.toNat 16 ||| atPos a.keyRef.toNat 0, lo32 pa, hi32 pa, lo32 pb, hi32 pb]
  s.forEach (List.range 16) (fun s i => s.setSawArg i (ws.getD i 0))
/-- Ask for lines of stored channels. -/
def State.askMore (s : State) (l : List (Nat × Nat)) : State :=
  let s := s.modPager (fun p => { p with sawLeft := l.map (fun q => q.1 * 16 + q.2) })
  s.forEach l (fun s q =>
    s.storeRead (if q.2 < 8 then s.recLine q.1 q.2 else s.trunkLine q.1 (q.2 - 8)) s.pageKix (.sawLine q.1 q.2))
/-- Ask for lines of a stored channel, once. [DEDUCED: log 66] -/
def State.askLines (s : State) (l : List (Nat × Nat)) : State :=
  if s.pager.sawLeft.isEmpty ∧ s.pager.sawLines.isEmpty ∧ s.pager.sawFail = false then s.askMore l else s
/-- Every line asked for has come. -/
def State.linesIn (s : State) : Bool := s.pager.sawLeft.isEmpty && (!s.pager.sawLines.isEmpty || s.pager.sawFail)
/-- A line that has come. -/
def State.sawLn (s : State) (x l : Nat) : Bytes := padTo 64 (Tab.get [] s.pager.sawLines (x * 16 + l))
/-- The record of a stored channel, from the lines that have come. [DEDUCED: log 66] -/
def State.sawRecord (s : State) (x : Nat) : Bytes := ((List.range 8).map (s.sawLn x)).flatten
/-- A slot as a stored record shows it. -/
def recSlot (rx : Bool) (a : Bytes) : Slot :=
  let w := areaStat a
  let pn := ofBe (slice a 12 8)
  { st := if fld w 31 30 = 1 then .live else if fld w 31 30 = 2 then .draining else if fld w 31 30 = 3 then .erased else .empty,
    retired := bit w 29, lst := if bit w 28 then .wait else .none, vaultErr := bit w 27,
    klc := BitVec.ofNat 8 (fld w 26 24), an := BitVec.ofNat 2 (fld w 17 16), gen := BitVec.ofNat 8 (fld w 15 8),
    ssci := BitVec.ofNat 32 (ofBe (slice a 4 4)), keyRef := BitVec.ofNat 16 (ofBe (slice a 8 2)),
    next := if rx then 0 else pn, lpn := if rx then pn else 0 }
/-- A slot as CH_READ reports it: from the start of zeroisation on, EMPTY with its GEN kept (R173). -/
def State.shown (s : State) (sl : Slot) : Slot := if s.sys.zero = .no then sl else sl.zeroised
/-- CH_READ. [DEDUCED: log 61, 66] -/
def State.runRead (s : State) (x : Nat) : State :=
  if !s.pager.sawLeft.isEmpty then s
  else if s.linesIn then
    let r := s.sawRecord x
    if s.pager.sawFail || !recordOk x r then s.sawDone 0x09 0
    else
      let rx := cRx (recCfg r)
      (s.putImage (entryOf x r) (atBit true 30) (s.shown (recSlot rx (recArea r false))) (s.shown (recSlot rx (recArea r true)))).sawDone
        0 0
  else match s.whereIs x with
    | .unknown => s.sawDone 0x03 0
    | .leaving => s
    | .stored =>
      if (s.pageIn x).isSome then s else s.askLines ((List.range 8).map (fun l => (x, l)))
    | .here e en =>
      (s.putImage en (atBit true 31 ||| atBit (s.resi x).rec_ 30 ||| atBit en.pinned 29 ||| atBit en.evicting 28 ||| atPos e 0)
        (s.slot (vslotOf e false)) (s.slot (vslotOf e true))).sawDone 0 e

/-! ### CH_EVICT (R232 to R234) -/

/-- The invalidation of both halves of a channel in the journal, and of the standby's (R185, R234). -/
def State.forgetJournal (s : State) (x : Nat) (drop : Bool) : State :=
  let c := s.lease.content x
  let a := (c.half false).map (·.1)
  let b := (c.half true).map (·.1)
  if a.isNone ∧ b.isNone then s
  else
    let s := s.pushJournal { chix := x, why := .inval a b drop }
    (s.when a.isSome (·.mirrorLease x false false 0 0)).when b.isSome (·.mirrorLease x true false 0 0)
/-- Erase a slot of a channel that is being discarded. -/
def State.discardSlot (s : State) (e : Nat) (b : Bool) : State :=
  let v := vslotOf e b
  if (s.slot v).st = .live then
    let s := (s.schedOnSlot e b .lost).endLease v
    (s.modSlot v (fun o => { o with st := .erased, clearing := true, retired := false })).slotChanged e b
  else s
/-- A channel being discarded is deleted once both its slots have settled (R172, R234). -/
def State.discardTry (s : State) (x : Nat) : State :=
  match s.pageOut x, s.resident x with
  | some o, some e =>
    if !o.discard || o.draining || (s.slot (vslotOf e false)).unsettled || (s.slot (vslotOf e true)).unsettled then s
    else ((((s.discardSlot e false).discardSlot e true).forgetJournal x false).modOut x (fun o => { o with draining := true })).outTry x
  | _, _ => s
/-- CH_EVICT, with or without DISCARD: the eviction point comes first, then the slots settle (R172, R232 to R234). -/
def State.runEvict (s : State) (x : Nat) (discard : Bool) : State :=
  match s.whereIs x with
  | .unknown => s.sawDone 0 0
  | .leaving => s.discardTry x
  | .stored =>
    if (s.pageIn x).isSome then s
    else if discard then ((s.forgetJournal x false).setResi x {}).sawDone 0 0
    else s.sawDone 0 0
  | .here e en =>
    if en.pinned then s.sawDone 0x06 0
    else if discard then (s.evict x e true true).discardTry x
    else s.evict x e true false

/-! ### CH_PIN, CH_UNPIN and the schedules -/

/-- CH_PIN. -/
def State.runPin (s : State) (x : Nat) : State :=
  match s.whereIs x with
  | .unknown => s.sawDone 0x03 0
  | .leaving => s
  | .stored => s.pageWant x .command
  | .here e en =>
    if en.pinned then s.sawDone 0 e
    else if 61440 ≤ s.pinnedCnt then s.sawDone 0x08 0
    else (s.modEntry e (fun en => { en with pinned := true })).sawDone 0 e
/-- CH_UNPIN. -/
def State.runUnpin (s : State) (x : Nat) : State :=
  match s.whereIs x with
  | .unknown => s.sawDone 0x03 0
  | .leaving | .stored => s.sawDone 0 0
  | .here e en =>
    if cExpress en.cfg0 then s.sawDone 0x07 0
    else (s.modEntry e (fun en => { en with pinned := false })).sawDone 0 0
/-- EQX_SCHEDULE or SOL_SCHEDULE (R203, R210, R329). -/
def State.runSched (s : State) (x : Nat) (sol : Bool) : State :=
  if !(if sol then s.solFieldsOk else s.eqxFieldsOk) then s.sawDone 0x02 0
  else if (decide (s.pair.role = .standby) || decide (s.pair.role = .seek)) && decide (s.schedMode ≠ 4) then s.sawDone 0x26 0
  else match s.whereIs x with
    | .unknown => s.sawDone 0x03 0
    | .leaving => s
    | .stored => s.pageWant x .command
    | .here e en =>
      let r := if sol then s.solRun e en else s.eqxRun e en
      r.1.sawDone r.2 0

/-! ### STAT_READ, STAT_CLEAR, BUCKET_DIGEST -/

/-- The fields that STAT_READ returns. -/
def statFields (first : Nat) : List Nat := ((List.range 7).map (first + ·)).filter (· < 30)
/-- The trunk lines of some fields. -/
def linesOf (fs : List Nat) : List Nat := (List.range 4).filter (fun l => fs.any (fun i => decide (i / 8 = l)))
/-- The 128 B of an entry's fields, kept while STAT_READ waits for its trunk lines. -/
def Entry.fieldBytes (en : Entry) : Bytes := ((List.range 32).map (fun i => beBytes 4 (en.field i).toNat)).flatten
/-- Answer STAT_READ from the leaves, the trunk lines that came, and what the entry shows. -/
def State.statAnswer (s : State) (x first : Nat) (leaf : Bytes) (resident rx : Bool) : State :=
  let lf := fun (i : Nat) => ofBe (slice leaf (4 * i) 4)
  let trunk := fun (i : Nat) => if s.zeroSt x (i / 8) = some true then 0
    else ofBe (slice (s.sawLn x (8 + i / 8)) (8 * (i % 8)) 8)
  let val := fun (i : Nat) => if i < 30 then lf i + trunk i else 0
  let s' := s.forEach (List.range 7) (fun s j =>
    (s.setSawArg (2 * j) (lo32 (val (first + j)))).setSawArg (2 * j + 1) (hi32 (val (first + j))))
  let poison := BitVec.ofNat 32 (lf 30)
  let s' := (s'.setSawArg 14 poison).setSawArg 15
    (atPos (lf 31 / 2 ^ 24) 24 ||| atBit resident 23 ||| atBit rx 22 ||| atPos first 0)
  let s' := if (statFields first).any (fun i => poison.getLsbD i) then s'.poison .saw else s'
  (s'.evt 245 1).sawDone 0 0
/-- STAT_READ (R380). -/
def State.runStat (s : State) (x : Nat) : State :=
  let first := fld (s.sawArg 0) 4 0
  let keep := x * 16 + 15
  let kept := s.pager.sawLines.find? (fun p => decide (p.1 = keep))
  if !s.pager.sawLeft.isEmpty then s
  else if s.pager.sawFail then s.sawDone 0x09 0
  else match kept with
    | some (_, b) => s.statAnswer x first (b.take 128) (decide (byteAt b 128 = 1)) (decide (byteAt b 129 = 1))
    | none =>
      let trunks := (linesOf (statFields first)).filter (fun l => s.zeroSt x l ≠ some true)
      if !s.pager.sawLines.isEmpty then
        let r := s.sawRecord x
        if recordOk x r then s.statAnswer x first (slice r 320 128) false (cRx (recCfg r)) else s.sawDone 0x09 0
      else match s.whereIs x with
        | .unknown => s.sawDone 0x03 0
        | .leaving => s
        | .stored =>
          if (s.pageIn x).isSome then s
          else s.askLines (((List.range 8) ++ trunks.map (· + 8)).map (fun l => (x, l)))
        | .here _ en =>
          if s.spilling x || s.zeroFlying x then s
          else
            let s := s.applyAll x
            let s := s.askLines (trunks.map (fun l => (x, l + 8)))
            let b := en.fieldBytes ++ [1, if cRx en.cfg0 then 1 else 0]
            let s := s.modPager (fun p => { p with sawLines := Tab.ins p.sawLines keep b })
            if trunks.isEmpty then s.statAnswer x first b true (cRx en.cfg0) else s
/-- The fields that STAT_CLEAR clears (R381). -/
def State.clearSet (s : State) : List Nat :=
  let m := s.sawArg 0
  if m &&& 0x3FFFFFFF = 0 then List.range 30 else (List.range 30).filter (fun i => m.getLsbD i)
/-- Clear fields of an entry and their POISON bits; a mask of 0 clears the control word's as well. [DEDUCED: log 63] -/
def State.clearLeaves (s : State) (x e : Nat) (fs : List Nat) : State :=
  let m := orAll (fs.map (fun i => 1#32 <<< i))
  let m := if fs.length = 30 then m ||| 0x40000000 else m
  let s := s.modEntry e (fun en =>
    let en := fs.foldl (fun en i => en.setField i 0) en
    en.setField 30 (en.field 30 &&& ~~~m))
  s.modStore (fun t => { t with spills := t.spills.map (fun p =>
    if p.chix = x then { p with cap := (List.range p.cap.length).map (fun j =>
      if (8 * p.line + j) ∈ fs then 0 else p.cap.getD j 0) } else p) })
/-- STAT_CLEAR (R381): the trunks are written 0 first, then the leaves. -/
def State.runClear (s : State) (x : Nat) : State :=
  let fs := s.clearSet
  if !s.pager.sawLeft.isEmpty then s
  else if s.pager.sawFail then s.sawDone 0x09 0
  else match s.whereIs x with
    | .unknown => s.sawDone 0x03 0
    | .leaving => s
    | .stored => if (s.pageIn x).isSome then s else s.sawDone 0x28 0
    | .here e _ =>
      if !s.pager.sawLines.isEmpty then ((s.clearLeaves x e fs).evt 246 1).sawDone 0 0
      else if s.spilling x then s
      else
        let s := s.applyAll x
        let ls := linesOf fs
        let s := s.modPager (fun p => { p with sawLeft := ls.map (fun l => x * 16 + 12 + l) })
        s.forEach ls (fun s l => s.storeReq true (s.trunkLine x l) s.pageKix (.clearWr x (12 + l)) (zeros 64) (trunkMask l fs))
/-- The digest string of one channel (R239). -/
def bucketString (x : Nat) (cfg : W32) (pinned : Bool) (win : Nat) (sci : W64) (g : BitVec 12) : Bytes :=
  beBytes 3 x ++ beBytes 4 ((cfg &&& 0xFFFFFE00) ||| atBit pinned 9).toNat ++ beBytes 4 win ++ beBytes 8 sci.toNat ++
    beBytes 2 g.toNat
/-- The known channels of a bucket. -/
def State.bucketChans (s : State) (k : Nat) : List Nat :=
  (s.ch.resi.filter (fun p => p.2.v && decide (p.1 / 1024 = k))).map (·.1)
/-- BUCKET_DIGEST (R239). -/
def State.runBucket (s : State) (x : Nat) : State :=
  let l := s.bucketChans (x / 1024)
  let stored := l.filter (fun y => (s.resident y).isNone)
  let lack := stored.filter (fun y => !s.pager.sawLines.any (fun p => decide (p.1 = y * 16)))
  if !s.pager.sawLeft.isEmpty then s
  else if s.pager.sawFail then s.sawDone 0x09 0
  else if !lack.isEmpty then s.askMore (lack.map (fun y => (y, 0)))
  else
    let str := fun (y : Nat) => match s.resident y with
      | some e => (match s.entry e with
        | some en => bucketString y en.cfg0 en.pinned en.window en.sci (s.groupOf y)
        | none => [])
      | none =>
        let r := s.sawLn y 0
        bucketString y (recCfg r) ((byteAt r 38).toNat % 2 = 1) (ofBe (slice r 20 4)) (BitVec.ofNat 64 (ofBe (slice r 24 8)))
          (s.groupOf y)
    let d := if l.isEmpty then 0 else (crc64 (l.map str).flatten).toNat
    ((((s.setSawArg 0 (lo32 d)).setSawArg 1 (hi32 d)).setSawArg 2 (BitVec.ofNat 32 l.length)).setSawArg 3
      (BitVec.ofNat 32 stored.length)).sawDone 0 0

/-! ### The windows -/

/-- A SAW opcode of R166. -/
def sawOps : List Nat := [0x01, 0x02, 0x03, 0x04, 0x05, 0x10, 0x11, 0x20, 0x21, 0x30]
/-- Domains that a SAW command needs where its channel now stands (R281): the tables'; PD_STORE when it reads or writes the store
itself; and PD_KEYX with PD_SEC for the keys of an eviction. [DEDUCED: log 69] -/
def State.sawNeeds (s : State) (op x : Nat) (discard : Bool) : List Nat :=
  let w := s.whereIs x
  let store := match op with
    | 0x02 => decide (w = .stored)
    | 0x20 | 0x21 => decide (w ≠ .unknown)
    | 0x30 => (s.bucketChans (x / 1024)).any (fun y => (s.resident y).isNone)
    | 0x03 => !discard && (match s.pageOut x with | some o => !o.discard | none => false)
    | _ => false
  let keys := decide (op = 0x03) && store && (match s.resident x with
    | some e => (s.slot (vslotOf e false)).keyed || (s.slot (vslotOf e true)).keyed
    | none => false)
  (if keys then [1, 44] else []) ++ (if store then [45] else []) ++ tableDoms
/-- A SAW command ends because a domain that it needs is unavailable: reads it has asked for are taken back, and an eviction that
it has begun is given up (R281). [DEDUCED: log 69] -/
def State.sawLost (s : State) (op x : Nat) : State :=
  let s := s.forgetReqs (fun q => match q with | .sawLine _ _ | .clearWr _ _ => true | _ => false)
  (s.sawDone 0x3F 0).when (decide (op = 0x03)) (·.outFail x)
/-- Run, or run again, the SAW command in progress. [DEDUCED: log 69] -/
def State.sawRun (s : State) : State :=
  match s.pager.saw with
  | none => s
  | some c =>
    let x := cmdChix c
    if cmdOp c ∉ sawOps then s.sawDone 0x01 0
    else if s.domsLost (s.sawNeeds (cmdOp c) x (cmdB28 c)) then s.sawLost (cmdOp c) x
    else if !s.domsUp tableDoms then s
    else match cmdOp c with
      | 0x01 => s.runWrite x
      | 0x02 => s.runRead x
      | 0x03 => s.runEvict x (cmdB28 c)
      | 0x04 => s.runPin x
      | 0x05 => s.runUnpin x
      | 0x10 => s.runSched x false
      | 0x11 => s.runSched x true
      | 0x20 => s.runStat x
      | 0x21 => s.runClear x
      | 0x30 => s.runBucket x
      | _ => s.sawDone 0x01 0
/-- KEYW_BLOB as a byte string. [DEDUCED: log 34] -/
def State.blob (s : State) : Bytes := s.getBytes .keyw 0x100 18
/-- Order 4 of R168. -/
def blobFmtOk (b : Bytes) (len : Nat) : Bool :=
  let u := (byteAt b 3).toNat
  let klc := (byteAt b 2).toNat
  decide (byteAt b 0 = 1) && decide ((byteAt b 1).toNat < 63) && klcDefined klc && decide (u < 16) && decide (u / 8 % 2 = 0) &&
  decide (u % 4 = 1 ∨ u % 4 = 2) && decide (ofBe (slice b 6 2) = 0) && decide (len = 8 + klcWrap klc)
/-- Orders 4 to 9 of R168: the code of the first that fails. [DEDUCED: log 65] -/
def State.installCheck (s : State) (e : Nat) (en : Entry) (b : Bool) : Option Nat :=
  let bl := s.blob
  let w := s.cfg .keyw 0x88
  let klc := (byteAt bl 2).toNat
  let u := (byteAt bl 3).toNat
  let an := BitVec.ofNat 2 (fld w 1 0)
  let ot := s.slot (vslotOf e (!b))
  let pn := (s.cfg .keyw 0x94).toNat * 2 ^ 32 + (s.cfg .keyw 0x90).toNat
  let xpn := suiteXpn (cSuite en.cfg0)
  if !blobFmtOk bl (fld w 14 8) then some 0x10
  else if (s.kek ((byteAt bl 1).toNat)).isNone then some 0x11
  else if u ≠ usageOf en.cfg0 false then some 0x12
  else if !klcSuits klc (cSuite en.cfg0) then some 0x13
  else if ot.keyed && decide (ot.an = an) then some 0x14
  else if pn = 0 ∨ (xpn = false ∧ 0xFFFFFFFF < pn) ∨ (xpn = true ∧ cRx en.cfg0 = false ∧ pnCap en.cfg0 ≤ pn) then some 0x15
  else none
/-- An install waits at KEYX or runs there. [DEDUCED: log 65] -/
def State.installing (s : State) : Bool :=
  s.keyx.queue.contains .install || s.keyx.cores.any (fun p => p.2 == some .install)
/-- The KEYW command in progress on its resident channel. [DEDUCED: log 65] -/
def State.keywHere (s : State) (c : W32) (e : Nat) (en : Entry) : State :=
  let b := cmdB28 c
  let v := vslotOf e b
  let sl := s.slot v
  if sl.unsettled then s
  else if cmdOp c = 1 then
    if s.kekWaits .install then s
    else match s.installCheck e en b with
    | some r => s.keywDone r sl.gen.toNat
    | none => s.keyxPush .install
  else if sl.st = .live then (s.eraseSlot e b).settleSlot e b
  else s.keywDone 0 sl.gen.toNat
/-- Run, or run again, the KEYW command in progress (R168, R171). [DEDUCED, DESIGN CHOICE: log 65, 69, 121] -/
def State.keywRun (s : State) : State :=
  match s.pager.keyw with
  | none => s
  | some c =>
    let x := cmdChix c
    let need := if cmdOp c = 1 then 1 :: 44 :: tableDoms else 1 :: tableDoms
    if s.installing then
      if s.domsLost need then
        (s.modKeyx (fun k => { k with
          queue := k.queue.filter (· ≠ .install), cores := k.cores.filter (fun p => p.2 ≠ some .install) })).keywDone 0x3F s.keywGen
      else s
    else if cmdOp c ≠ 1 ∧ cmdOp c ≠ 2 then s.keywDone 0x01 0
    else if cmdOp c = 1 ∧ (s.sys.rootKey.isNone = true ∨ s.sys.zero ≠ .no) then s.keywDone 0x19 s.keywGen
    else if s.domsLost need then s.keywDone 0x3F s.keywGen
    else if !s.domsUp (1 :: tableDoms) then s
    else match s.whereIs x with
      | .unknown => s.keywDone 0x03 0
      | .leaving => s
      | .stored => s.pageWant x .command
      | .here e en => s.keywHere c e en
/-- End the LEASE command in progress. -/
def State.leaseDone (s : State) (code : Nat) : State :=
  let op := match s.lease.cmd with | some c => cmdOp c | none => 0
  (s.modLease (fun l => { l with cmd := none })).cmdDone .lease 0xC4 6 code op 0
/-- A JNL_DROP has its invalidation under way. -/
def State.dropping (s : State) : Bool :=
  let isDrop := fun (w : JWhy) => match w with | .inval _ _ d => d | _ => false
  s.lease.todo.any (fun i => isDrop i.why) ||
  s.lease.nvw.any (fun w => match w with | .entry _ _ i => isDrop i.why | _ => false)
/-- Answer JNL_READ (R199). -/
def State.jnlAnswer (s : State) (v : Live) : State :=
  let e := v.ent
  let put := fun (s : State) (n : Nat) (w : W32) => s.setRo .lease (0xC8 + 4 * n) w
  let s := put s 0 (atBit true 31 ||| atBit e.av 30 ||| atBit e.bv 29 ||| atPos (e.kind.toNat % 4) 24 ||| atPos v.unit 0)
  let s := put (put s 1 (lo32 e.ceilA)) 2 (hi32 e.ceilA)
  let s := put (put s 3 (lo32 e.ceilB)) 4 (hi32 e.ceilB)
  (put s 5 (atPos v.handle.toNat 16)).leaseDone 0
/-- Run, or run again, the LEASE command in progress (R200). [DEDUCED: log 69] -/
def State.leaseRun (s : State) : State :=
  match s.lease.cmd with
  | none => s
  | some c =>
    let x := cmdChix c
    if s.dropping then s
    else if cmdOp c ≠ 1 ∧ cmdOp c ≠ 2 then s.leaseDone 0x01
    else if s.domsLost tableDoms then s.leaseDone 0x3F
    else if !s.domsUp tableDoms then s
    else if !s.lease.scanDone then s.leaseDone 0x21
    else if cmdOp c = 1 then
      match s.lease.live x with
      | some v => s.jnlAnswer v
      | none => (s.forEach (List.range 6) (fun s n => s.setRo .lease (0xC8 + 4 * n) 0)).leaseDone 0x03
    else if s.known x then s.leaseDone 0x20
    else if (s.lease.live x).isNone then s.leaseDone 0x03
    else s.forgetJournal x true
/-- HSW_ADDR. -/
def State.hswAddr (s : State) : Nat := fld (s.cfg .store 0xC4) 7 0 * 2 ^ 32 + (s.cfg .store 0xC0).toNat
/-- HSW_MASK. -/
def State.hswMask (s : State) : W64 := BitVec.ofNat 64 ((s.cfg .store 0xCC).toNat * 2 ^ 32 + (s.cfg .store 0xC8).toNat)
/-- A host line is in the engine. -/
def State.hostBusy (s : State) : Bool :=
  (s.store.wait ++ s.store.out ++ (s.store.wcb.map (·.waiters)).flatten).any (fun r => decide (r.who = .host))
/-- A STORE command is well-formed (R254, R255). -/
def State.storeFieldsOk (s : State) (c : W32) : Bool :=
  let op := cmdOp c
  decide (fld c 31 29 = 0) && decide (fld c 15 8 = 0) &&
  (decide (op ≠ 1 ∧ op ≠ 2) || decide (s.hswAddr % 64 = 0)) &&
  (s.large || decide (op = 1) || decide (op = 2) || decide (op = 5) || decide (cmdSel c < 16))
/-- A store master key that a memory error has taken is drawn anew from two seed words (R298). [DEDUCED: log 74] -/
def State.masterDraw (s : State) : State :=
  if s.store.masterLost then
    match s.seedsFree with
    | a :: b :: _ => (s.dropSeeds 2).modStore (fun t => { t with master := a ++ b, masterLost := false })
    | _ => s
  else s
/-- A STORE command fails; the data of a read that fails read 0 (R254). -/
def State.storeFail (s : State) (c : W32) (code : Nat) : State :=
  (s.when (decide (cmdOp c = 1)) (·.putBytes .store 0x100 (zeros 64))).storeDone code 0
/-- KEY_NEW (R254): the seed word is taken from the buffer, and its set is expanded; what is in flight finishes under the old set. -/
def State.keyNew (s : State) (c : W32) : State :=
  let sel := cmdSel c
  let s := s.masterDraw
  match (if s.store.masterLost then [] else s.seedsFree) with
  | [] => if s.sys.rnErr && s.sys.seeds.isEmpty then s.storeDone 0x26 0 else s
  | w :: _ =>
    let s := (s.dropSeeds 1).setKey sel { seed := some w, zkeep := cmdB28 c }
    ((s.useKey sel).leaveWcb sel).storeDone 0 0
/-- KEY_ERASE (R254). -/
def State.keyErase (s : State) (sel : Nat) : State :=
  let s := (s.setKey sel {}).modStore (fun t => { t with cache := t.cache.filter (· ≠ sel) })
  (s.leaveWcb sel).storeDone 0 0
/-- Run, or run again, the STORE command in progress (R254). [DEDUCED: log 69, 104] -/
def State.storeRun (s : State) : State :=
  match s.store.cmd with
  | none => s
  | some c =>
    let sel := cmdSel c
    if s.hostBusy then s
    else if cmdOp c = 0 ∨ 6 < cmdOp c then s.storeDone 0x01 0
    else if !s.storeFieldsOk c then s.storeFail c 0x02
    else if (s.dom 45).unavail then s.storeFail c 0x3F
    else if !s.domUp 45 then s
    else match cmdOp c with
      | 1 => s.storeRead (s.hswAddr / 64) sel .host
      | 2 =>
        if s.hswMask = 0 then s.storeDone 0 0
        else s.storeReq true (s.hswAddr / 64) sel .host (s.getBytes .store 0x100 16) s.hswMask
      | 3 => if s.marchHolds sel then s.storeDone 0x25 0 else s.keyNew c
      | 4 => if s.marchHolds sel then s.storeDone 0x25 0 else s.keyErase sel
      | 5 =>
        let s := s.forEach (s.store.wcb.filter s.mayBack) (fun s w => s.writeBack w)
        s.flushCheck
      | _ =>
        let k := s.keySel sel
        let m := s.store.march
        let tgt := decide (sel = m.tgt)
        s.storeDone 0 (b2n k.seed.isSome + 2 * b2n k.zkeep + 4 * b2n (tgt && s.marchHolds sel) + 8 * b2n (tgt && m.split))
/-- KEK_CHK_VAL for an index (R157). -/
def State.kekCheck (s : State) (n : Nat) : W32 :=
  match s.kek n with
  | some k => if n = 63 ∨ s.held .sec = true then 0 else BitVec.ofNat 32 (ofLe ((aes k (zeros 16)).take 4))
  | none => 0
/-- The check of the KEK that KEK_CHK_IDX names is done (R157). -/
def State.chkShow (s : State) : State :=
  (s.setRo .sec 0xA0 (s.kekCheck (fld (s.cfg .sec 0x9C) 5 0))).setFlag .sec 0x40 4
/-- A calendar entry. -/
def State.calEntry (s : State) (n : Nat) : W128 := Tab.get 0 s.pager.cal n
/-- Set a calendar entry. -/
def State.setCal (s : State) (n : Nat) (w : W128) : State :=
  s.modPager (fun p => { p with cal := Tab.set 0 p.cal n w })
/-- Put a 128-bit value in four words. -/
def State.putWords (s : State) (p : Page) (off : Nat) (w : W128) : State :=
  s.forEach (List.range 4) (fun s i => s.setCfg p (off + 4 * i) (BitVec.ofNat 32 (w.toNat / 2 ^ (32 * i))))
/-- The calendar entry that CAL_SEL names is loaded into CAL_DATA (R241). [DEDUCED: log 35] -/
def State.calShow (s : State) : State := s.putWords .pager 0xC4 (s.calEntry (fld (s.cfg .pager 0xC0) 7 0))
/-- KEK_CHK_IDX, CAL_WR and CAL_SEL, which waited for their domain, act when it serves (R281). [DEDUCED: log 69] -/
def State.regRetry (s : State) : State :=
  let s := s.when (s.sys.chkWait && s.domUp 1) (fun s => (s.modSys (fun y => { y with chkWait := false })).chkShow)
  let puts := s.pager.calPut
  let s := s.when (!puts.isEmpty && s.domUp 53) (fun s =>
    (s.modPager (fun p => { p with calPut := [] })).forEach puts (fun s q => s.setCal q.1 q.2))
  s.when (s.pager.calRead && s.domUp 53) (fun s => (s.modPager (fun p => { p with calRead := false })).calShow)
/-- Commands that wait try again. [DESIGN CHOICE: log 5] -/
def State.winRetry (s : State) : State := ((((s.regRetry).sawRun).keywRun).leaseRun).storeRun
/-- Work that a command has made is carried as far as it goes at once: domains that are needed leave AUTUMN, store requests, window
commands, journal writes, items mirrored to a standby, and the wakes of domains that are now needed.
[DESIGN CHOICE: log 5] -/
def State.settle (s : State) : State :=
  let s := ((storeSettle 8 (storeSettle 8 s.wakeNeeded.reap).winRetry).pumpLease).pairPump
  (s.wakeNeeded).pmPump
/-- SAW_CMD takes a command word. -/
def State.sawTake (s : State) (c : W32) : State := ((s.setBusy .saw true).modPager (fun p => { p with saw := some c })).settle
/-- A write of SAW_CMD. [DESIGN CHOICE: log 5] -/
def State.sawStart (s : State) (c : W32) : State := s.through .saw 0x80 c (·.sawTake c)
/-- KEYW_CMD takes a command word. -/
def State.keywTake (s : State) (c : W32) : State := ((s.setBusy .keyw true).modPager (fun p => { p with keyw := some c })).settle
/-- A write of KEYW_CMD. [DESIGN CHOICE: log 5] -/
def State.keywStart (s : State) (c : W32) : State := s.through .keyw 0x80 c (·.keywTake c)
/-- LEASE_CMD takes a command word. -/
def State.leaseTake (s : State) (c : W32) : State := ((s.setBusy .lease true).modLease (fun l => { l with cmd := some c })).settle
/-- A write of LEASE_CMD. [DESIGN CHOICE: log 5] -/
def State.leaseStart (s : State) (c : W32) : State := s.through .lease 0xC0 c (·.leaseTake c)
/-- STORE_CMD takes a command word. -/
def State.storeTake (s : State) (c : W32) : State := ((s.setBusy .store true).modStore (fun t => { t with cmd := some c })).settle
/-- A write of STORE_CMD. [DESIGN CHOICE: log 5] -/
def State.storeStart (s : State) (c : W32) : State := s.through .store 0xD0 c (·.storeTake c)

/-! ### The rows -/

/-- A SAW command with its opcode, DISCARD clear. [DESIGN CHOICE: log 68] -/
def sawCmd (c : W32) (op : Nat) : W32 := mergeBits 0x10000000 0 (withOp c op)
/-- MODE in SAW_ARG0 as a schedule row names it. [DESIGN CHOICE: log 68] -/
def State.withMode (s : State) (m : Nat) : State := s.setSawArg 0 (mergeBits 0xE0000000 (atPos m 29) (s.sawArg 0))
/-- A schedule command with its mode. [DESIGN CHOICE: log 68] -/
def State.sched (s : State) (c : W32) (op m : Nat) : State :=
  if s.cpUp ∧ (s.hdr .saw).busy = false ∧ s.resetOn .glob = false then (s.withMode m).sawStart (sawCmd c op) else s.sawStart (sawCmd c op)

/-- CH_WRITE. -/
def execChWrite (cmd : W32) (s : State) : Host.Outcome State Fault Refusal := .next ((s.begin).sawStart (sawCmd cmd 0x01))
/-- CH_READ. -/
def execChRead (cmd : W32) (s : State) : Host.Outcome State Fault Refusal := .next ((s.begin).sawStart (sawCmd cmd 0x02))
/-- CH_EVICT. -/
def execChEvict (cmd : W32) (s : State) : Host.Outcome State Fault Refusal := .next ((s.begin).sawStart (sawCmd cmd 0x03))
/-- CH_EVICT with DISCARD. -/
def execChEvictDiscard (cmd : W32) (s : State) : Host.Outcome State Fault Refusal :=
  .next ((s.begin).sawStart (sawCmd cmd 0x03 ||| 0x10000000))
/-- CH_PIN. -/
def execChPin (cmd : W32) (s : State) : Host.Outcome State Fault Refusal := .next ((s.begin).sawStart (sawCmd cmd 0x04))
/-- CH_UNPIN. -/
def execChUnpin (cmd : W32) (s : State) : Host.Outcome State Fault Refusal := .next ((s.begin).sawStart (sawCmd cmd 0x05))
/-- EQX_SCHEDULE, TIME. -/
def execEqxScheduleTime (cmd : W32) (s : State) : Host.Outcome State Fault Refusal := .next ((s.begin).sched cmd 0x10 1)
/-- EQX_SCHEDULE, PN. -/
def execEqxSchedulePn (cmd : W32) (s : State) : Host.Outcome State Fault Refusal := .next ((s.begin).sched cmd 0x10 2)
/-- EQX_SCHEDULE, NOW. -/
def execEqxScheduleNow (cmd : W32) (s : State) : Host.Outcome State Fault Refusal := .next ((s.begin).sched cmd 0x10 3)
/-- EQX_SCHEDULE, CANCEL. -/
def execEqxScheduleCancel (cmd : W32) (s : State) : Host.Outcome State Fault Refusal := .next ((s.begin).sched cmd 0x10 0)
/-- EQX_SCHEDULE, QUERY. -/
def execEqxScheduleQuery (cmd : W32) (s : State) : Host.Outcome State Fault Refusal := .next ((s.begin).sched cmd 0x10 4)
/-- SOL_SCHEDULE, TIME. -/
def execSolScheduleTime (cmd : W32) (s : State) : Host.Outcome State Fault Refusal := .next ((s.begin).sched cmd 0x11 1)
/-- SOL_SCHEDULE, FIRST_VALID. -/
def execSolScheduleFirstValid (cmd : W32) (s : State) : Host.Outcome State Fault Refusal := .next ((s.begin).sched cmd 0x11 2)
/-- SOL_SCHEDULE, NOW. -/
def execSolScheduleNow (cmd : W32) (s : State) : Host.Outcome State Fault Refusal := .next ((s.begin).sched cmd 0x11 3)
/-- SOL_SCHEDULE, CANCEL. -/
def execSolScheduleCancel (cmd : W32) (s : State) : Host.Outcome State Fault Refusal := .next ((s.begin).sched cmd 0x11 0)
/-- SOL_SCHEDULE, QUERY. -/
def execSolScheduleQuery (cmd : W32) (s : State) : Host.Outcome State Fault Refusal := .next ((s.begin).sched cmd 0x11 4)
/-- STAT_READ. -/
def execStatRead (cmd : W32) (s : State) : Host.Outcome State Fault Refusal := .next ((s.begin).sawStart (sawCmd cmd 0x20))
/-- STAT_CLEAR. -/
def execStatClear (cmd : W32) (s : State) : Host.Outcome State Fault Refusal := .next ((s.begin).sawStart (sawCmd cmd 0x21))
/-- BUCKET_DIGEST. -/
def execBucketDigest (cmd : W32) (s : State) : Host.Outcome State Fault Refusal := .next ((s.begin).sawStart (sawCmd cmd 0x30))
/-- SLOT_INSTALL. -/
def execSlotInstall (cmd : W32) (s : State) : Host.Outcome State Fault Refusal := .next ((s.begin).keywStart (withOp cmd 1))
/-- SLOT_ERASE. -/
def execSlotErase (cmd : W32) (s : State) : Host.Outcome State Fault Refusal := .next ((s.begin).keywStart (withOp cmd 2))
/-- JNL_READ. -/
def execJnlRead (cmd : W32) (s : State) : Host.Outcome State Fault Refusal := .next ((s.begin).leaseStart (withOp cmd 1))
/-- JNL_DROP. -/
def execJnlDrop (cmd : W32) (s : State) : Host.Outcome State Fault Refusal := .next ((s.begin).leaseStart (withOp cmd 2))
/-- HSW_READ. -/
def execHswRead (cmd : W32) (s : State) : Host.Outcome State Fault Refusal := .next ((s.begin).storeStart (withOp cmd 1))
/-- HSW_WRITE. -/
def execHswWrite (cmd : W32) (s : State) : Host.Outcome State Fault Refusal := .next ((s.begin).storeStart (withOp cmd 2))
/-- KEY_NEW. -/
def execKeyNew (cmd : W32) (s : State) : Host.Outcome State Fault Refusal := .next ((s.begin).storeStart (withOp cmd 3))
/-- KEY_ERASE. -/
def execKeyErase (cmd : W32) (s : State) : Host.Outcome State Fault Refusal := .next ((s.begin).storeStart (withOp cmd 4))
/-- WCB_FLUSH. -/
def execWcbFlush (cmd : W32) (s : State) : Host.Outcome State Fault Refusal := .next ((s.begin).storeStart (withOp cmd 5))
/-- KEY_QUERY. -/
def execKeyQuery (cmd : W32) (s : State) : Host.Outcome State Fault Refusal := .next ((s.begin).storeStart (withOp cmd 6))

end Sys2Proof.Machine
end

