-- ==== Sys2Proof/Machine/Pair.lean ====
section
/-! DEFINITION. Commands of the pair engine: messages received, timers, the roles, promotion, and PAIR_CMD
(R313 to R341). -/
namespace Sys2Proof.Machine

/-! ### Receipt (R54, R317) -/

/-- What the checks of R317 make of a message. -/
inductive RxCheck where
  | ok
  /-- Only SEQ is wrong. -/
  | seq
  | bad
  deriving DecidableEq, Repr
/-- SEQ of a message. -/
def msgSeq (m : Bytes) : Nat := ofBe (slice m 16 8)
/-- The body of a message. -/
def msgBody (m : Bytes) : Bytes := (m.drop 24).take (m.length - 40)
/-- ROLE of the sender. -/
def msgRole (m : Bytes) : Nat := (byteAt m 4).toNat % 8
/-- EPOCH of the sender. -/
def msgEpoch (m : Bytes) : Nat := ofBe (slice m 8 4)
/-- A length that a TYPE can have (R319). [DEDUCED: log 96] -/
def lenOk (ty len : Nat) : Bool :=
  if ty = 0x01 then decide (len = 72)
  else if ty = 0x02 ∨ ty = 0x04 ∨ ty = 0x14 then decide (len = 48)
  else if ty = 0x03 then decide (len = 136)
  else if ty = 0x06 then decide (len = 40)
  else
    let size := if ty = 0x10 then 16 else if ty = 0x12 then 24 else 12
    decide (40 + size ≤ len) && decide (len ≤ 1000) && decide ((len - 40) % size = 0)
/-- The fields that do not depend on a key: VER, LEN, UNIT, TYPE. [DEDUCED: log 96] -/
def State.headOk (s : State) (ty : Nat) (m : Bytes) : Bool :=
  decide ((byteAt m 0).toNat = ty) && decide (byteAt m 1 = 1) && decide (ofBe (slice m 2 2) = m.length) &&
  decide ((byteAt m 4).toNat / 128 = 1 - s.pairUnit) && lenOk ty m.length
/-- The tag of a message verifies under a key and an IV. [DEDUCED: log 96] -/
def tagOk (key iv m : Bytes) : Bool := decide (gmac key iv (m.take (m.length - 16)) = m.drop (m.length - 16))
/-- Judge a message of a type. [DEDUCED: log 96] -/
def State.rxCheck (s : State) (ty : Nat) (m : Bytes) : RxCheck :=
  if !s.headOk ty m then .bad
  else if ty = 0x01 then
    match s.pair.pk with
    | some k => if tagOk k (slice m 24 12) m then .ok else .bad
    | none => .bad
  else match s.pair.session with
    | none => .bad
    | some q =>
      if slice m 12 4 = beBytes 4 q.sid.toNat ∧ tagOk q.keyRx (sessionIv q.sid (msgSeq m)) m = true then
        (if msgSeq m = q.rxSeq + 1 then .ok else .seq)
      else .bad
/-- Note what the header of an accepted message says: its SEQ, and the sender's JNL_FAIL (R325). -/
def State.noteHeader (s : State) (ty : Nat) (m : Bytes) : State :=
  s.modPair (fun p => { p with
    peerJnlFail := (byteAt m 5).toNat / 4 % 2 = 1,
    session := if ty = 0x01 then p.session else p.session.map (fun q => { q with rxSeq := msgSeq m }) })
/-- A message is discarded and counted; one that is wrong only in SEQ ends the session, and a new one is begun.
[DEDUCED: log 96] -/
def State.rxBad (s : State) (seqOnly : Bool) : State :=
  let s := s.evt 224 1
  if seqOnly then (s.sessionEnd).sendHello else s
/-- The pair engine listens. [DESIGN CHOICE: log 116] -/
def State.pairListens (s : State) : Bool := s.pairOn && !s.resetOn .pair
/-- Receive a message of a type. -/
def State.pairRx (s : State) (ty : Nat) (m : Bytes) (act : State → State) : State :=
  if s.pairListens then
    match s.rxCheck ty m with
    | .ok => (s.pairDo (fun s => act (s.noteHeader ty m))).settle
    | .seq => (s.pairDo (·.rxBad true)).settle
    | .bad => s.rxBad false
  else s

/-! ### The session (R316, R318) -/

/-- A session comes up with the peer's nonce: fresh keys, and on the active a full sync. [DEDUCED: log 97] -/
def State.sessionUp (s : State) (own peer : W128) : State :=
  match s.pair.pk with
  | none => s
  | some k =>
    let d := own ^^^ peer
    let q : Session :=
      { sid := BitVec.ofNat 32 (ofBe ((ofBlock d).take 4)), keyTx := sessionKey k d s.pairUnit,
        keyRx := sessionKey k d (1 - s.pairUnit), txSeq := 0, rxSeq := 0 }
    ((s.modPair (fun p => { p with session := some q, peerLost := false })).evt 226 1).syncStart
/-- HELLO: it ends a session that is up; an ECHO of the own nonce brings one up, any other is answered once.
[DEDUCED: log 97] -/
def State.helloGot (s : State) (m : Bytes) : State :=
  let n := blockOf (slice m 24 16)
  let e := blockOf (slice m 40 16)
  let s := (s.sessionEnd).modPair (fun p => { p with echo := n })
  if s.pair.nonce = some e then s.sessionUp e n else s.sendHello
/-- A HELLO is received. -/
def execHello (msg : Bytes) (s : State) : Host.Outcome State Fault Refusal :=
  .next ((s.begin).pairRx 0x01 msg (·.helloGot msg))
/-- HELLO goes out every 1 ms while no session is up. -/
def execHelloTimer (s : State) : Host.Outcome State Fault Refusal :=
  let s := s.begin
  .next (if s.pair.session.isNone && !s.resetOn .pair then s.sendHello else s)
/-- PP_LINK_UP falls: the peer is lost at once (R325). -/
def execPpLinkDown (s : State) : Host.Outcome State Fault Refusal := .next (((s.begin).pairDo (·.peerLose)).settle)
/-- No pair message has been accepted for 3 ms (R325). [DESIGN CHOICE: log 3] -/
def execPeerLost (s : State) : Host.Outcome State Fault Refusal := .next (((s.begin).pairDo (·.peerLose)).settle)
/-- A pair or arbiter message that fails its checks is discarded and counted (R54, R317, R320). -/
def execPairRxBad (arbiter seqOnly : Bool) (s : State) : Host.Outcome State Fault Refusal :=
  let s := s.begin
  .next (if !s.pairListens then s
    else if arbiter then s.evt 225 1
    else if seqOnly && s.pair.session.isSome then s.pairDo (·.rxBad true)
    else s.rxBad false)

/-! ### Roles (R323) -/

/-- The unit leaves ACTIVE for STANDBY or SEEK: its mirror stops, its waiting requests complete in the journal only, and
READY clears (R323, R339). -/
def State.leaveActive (s : State) (r : Role) : State :=
  (s.modPair (fun p => { p with
    role := r, ready := false, granted := false, yielding := false, yieldFlag := false, holderNone := false, promoWait := false,
    qLease := [], qSlot := [], qSched := [], qFloor := [], sentLease := [], sentSeqs := [], syncing := false, floorLate := false,
    resync := false })).modLease
    (fun l => { l with waits := [] })
/-- A demoted unit, or one in SEEK that becomes STANDBY, awaits a sync (R323, R328). [DEDUCED: log 98] -/
def State.toStandby (s : State) : State := s.sendSyncReq
/-- BEAT of a peer that is ACTIVE too (R323). [DEDUCED: log 98] -/
def State.peerActive (s : State) (epoch : Nat) : State :=
  if s.pair.role ≠ .active then s
  else if s.pair.epoch.toNat < epoch then
    (((s.leaveActive .standby).setFlag .pair 0x40 5).evt 230 1).toStandby
  else if s.pair.epoch.toNat = epoch then ((s.leaveActive .seek).setFlag .pair 0x40 11).evt 231 1
  else s
/-- A BEAT is received. -/
def execBeat (msg : Bytes) (s : State) : Host.Outcome State Fault Refusal :=
  .next ((s.begin).pairRx 0x02 msg (fun s =>
    let s := s.ackGot (ofBe ((msgBody msg).take 8))
    if msgRole msg = 3 then s.peerActive (msgEpoch msg) else s))
/-- BEAT goes out every 1 ms. -/
def execBeatTimer (s : State) : Host.Outcome State Fault Refusal :=
  let s := s.begin
  .next (if s.resetOn .pair then s else s.sendPair 0x02 (beBytes 8 s.ackNow))
/-- An ACK is received. -/
def execAck (msg : Bytes) (s : State) : Host.Outcome State Fault Refusal :=
  .next ((s.begin).pairRx 0x04 msg (·.ackGot (ofBe ((msgBody msg).take 8))))
/-- A SYNC_REQ is received: the active starts a full sync (R328). -/
def execSyncReq (msg : Bytes) (s : State) : Host.Outcome State Fault Refusal :=
  .next ((s.begin).pairRx 0x06 msg (·.syncStart))

/-! ### Health (R319, R333) -/

/-- An age in ms in one byte. -/
def State.ageByte (s : State) (t : Option Nat) : Bytes :=
  match s.ageOf t with
  | some a => beBytes 1 (min 255 (a / 50000))
  | none => [0xFF]
/-- The body of HEALTH. [DEDUCED: log 100] -/
def State.healthBody (s : State) : Bytes :=
  ((List.range 40).map (fun n => s.ageByte (s.sl n).testAt)).flatten ++
  ((List.range 20).map (fun k => beBytes 1 ((s.sl (2 * k)).st.code + 16 * (s.sl (2 * k + 1)).st.code))).flatten ++
  ((List.range 7).map (fun k => s.ageByte (Tab.get none s.flt.latentAt (k + 1)))).flatten ++ [0] ++
  beBytes 1 s.flt.recs.length ++ beBytes 1 (b2n s.alarm + 2 * b2n s.heldAny + 4 * b2n s.unfit) ++
  beBytes 2 s.usableSectors.length ++ beBytes 4 s.heldPorts.toNat ++ beBytes 4 s.skewCnt ++ beBytes 4 s.pair.mirrorDrop ++
  zeros 12
/-- The standby sends HEALTH every 10 ms. -/
def execHealthTimer (s : State) : Host.Outcome State Fault Refusal :=
  let s := s.begin
  .next (if decide (s.pair.role = .standby) && !s.resetOn .pair then s.sendPair 0x03 s.healthBody else s)
/-- PEER_HEALTH of a HEALTH body (R340). -/
def healthWord (b : Bytes) : W32 :=
  let oldest := fun (l : Bytes) => (l.map (·.toNat)).foldl max 0
  let f := (byteAt b 69).toNat
  atPos (oldest (b.take 40)) 0 ||| atPos (oldest (slice b 60 7)) 8 ||| atPos (byteAt b 68).toNat 16 ||| atPos (f % 8) 24
/-- A HEALTH is received. -/
def execHealth (msg : Bytes) (s : State) : Host.Outcome State Fault Refusal :=
  .next ((s.begin).pairRx 0x03 msg (fun s =>
    if s.pair.role = .active then
      s.modPair (fun p => { p with peerHealth := healthWord (msgBody msg), healthStale := false })
    else s))
/-- No HEALTH has come for 30 ms. -/
def execHealthStale (s : State) : Host.Outcome State Fault Refusal :=
  let s := s.begin
  .next (if s.pair.role = .active then s.modPair (fun p => { p with healthStale := true }) else s)

/-! ### Mirrored items (R327, R328) -/

/-- The items of a mirror message; the fuel is the body's length. -/
def itemsAux (size : Nat) : Nat → Bytes → List Bytes
  | 0, _ => []
  | k + 1, b => if b.isEmpty then [] else b.take size :: itemsAux size k (b.drop size)
/-- The items of a mirror message. -/
def msgItems (k : MirKind) (m : Bytes) : List Bytes := itemsAux (mirSize k) (msgBody m).length (msgBody m)
/-- The half that a LEASE item gives the standby's journal. -/
def leaseJItem (seq : Nat) (it : Bytes) : JItem :=
  { chix := itemChix it,
    why := .mirror seq (itemSlot it) (decide (128 ≤ (byteAt it 3).toNat)) (BitVec.ofNat 32 (ofBe (slice it 4 4))) (ofBe (slice it 8 8)) }
/-- A standby takes the items of a mirror message; on a unit in another role they are never covered by an ACK.
[DEDUCED: log 99] -/
def State.mirrorGot (s : State) (k : MirKind) (m : Bytes) : State :=
  let q := msgSeq m
  let items := msgItems k m
  if s.pair.role ≠ .standby then s.modPair (fun p => { p with ackPend := p.ackPend ++ [q] })
  else
    let s := s.modPair (fun p => { p with ackOwed := p.ackOwed ++ [q] })
    match k with
    | .lease =>
      s.modPair (fun p => { p with
        gotHalves := (items.filter (fun it => decide (128 ≤ (byteAt it 3).toNat))).foldl
          (fun l it => insNat l (itemChix it * 2 + b2n (itemSlot it))) p.gotHalves,
        jnlWait := p.jnlWait ++ items.map (leaseJItem q), ackPend := p.ackPend ++ items.map (fun _ => q) })
    | _ =>
      s.modPair (fun p => { p with
        gotChans := if k = .slot then items.foldl (fun l it => insNat l (itemChix it)) p.gotChans else p.gotChans,
        inbox := p.inbox ++ items.map (fun it => (q, k, it)) })
/-- A LEASE message is received. -/
def execLease (msg : Bytes) (s : State) : Host.Outcome State Fault Refusal :=
  .next ((s.begin).pairRx 0x10 msg (·.mirrorGot .lease msg))
/-- A SLOT message is received. -/
def execSlot (msg : Bytes) (s : State) : Host.Outcome State Fault Refusal :=
  .next ((s.begin).pairRx 0x11 msg (·.mirrorGot .slot msg))
/-- A SCHED message is received. -/
def execSched (msg : Bytes) (s : State) : Host.Outcome State Fault Refusal :=
  .next ((s.begin).pairRx 0x12 msg (·.mirrorGot .sched msg))
/-- A FLOOR message is received. -/
def execFloor (msg : Bytes) (s : State) : Host.Outcome State Fault Refusal :=
  .next ((s.begin).pairRx 0x13 msg (·.mirrorGot .floor msg))
/-- A SYNC_END is received: with everything before it applied and journalled, matching counts set READY (R328). -/
def execSyncEnd (msg : Bytes) (s : State) : Host.Outcome State Fault Refusal :=
  .next ((s.begin).pairRx 0x14 msg (fun s =>
    if s.pair.role = .standby then
      let b := msgBody msg
      s.modPair (fun p => { p with syncEnd := some (msgSeq msg, ofBe (b.take 4), ofBe (slice b 4 4)) })
    else s))
/-- A mirror message goes out, full or 10 µs after its first item (R326). -/
def execMirrorFlush (kind : MirKind) (s : State) : Host.Outcome State Fault Refusal :=
  let s := s.begin
  .next (if s.resetOn .pair then s else s.mirrorFlush kind)
/-- Receive slots with a change that no FLOOR item has carried, oldest change first. -/
def State.floorsDue (s : State) : List (Nat × Nat) :=
  (s.ch.slots.filterMap (fun p => p.2.floorAt.map (fun t => (p.1, t)))).insertionSort (fun a b => a.2 ≤ b.2)
/-- Age in CK_AO cycles of the oldest change of a floor not yet sent: waiting in its slot, or queued as an item (R331). -/
def State.floorOldest (s : State) : Nat :=
  ((s.ch.slots.filterMap (fun p => p.2.floorAt) ++ s.pair.qFloor.filterMap (·.at_)).map (fun t => s.sys.aoClk - t)).foldl max 0
/-- FLOOR_LATE is set and counted when that age comes to exceed 2 ms (R331). -/
def State.floorJudge (s : State) : State :=
  let late := decide (100000 < s.floorOldest)
  ((s.when (late && !s.pair.floorLate) (fun s => (s.setFlag .pair 0x40 9).evt 236 1)).modPair (fun p => { p with floorLate := late }))
/-- Every 1 ms: FLOOR items for at most 384 messages (R331). -/
def State.floorTick (s : State) : State :=
  s.forEach (s.floorsDue.take 30720) (fun s d => match s.entry (d.1 / 2) with
    | some en =>
      (s.modPair (fun p => { p with
        qFloor := p.qFloor ++ [{ (floorItem en.chix (decide (d.1 % 2 = 1)) (s.slot d.1)) with at_ := some d.2 }] })).modSlot d.1
        (fun o => { o with floorAt := none })
    | none => s)
/-- The FLOOR timer. -/
def execFloorTimer (s : State) : Host.Outcome State Fault Refusal :=
  let s := s.begin
  .next (if decide (s.pair.role = .active) && !s.resetOn .pair then (s.when s.mirrors (·.floorTick)).floorJudge else s)

/-! ### The arbiter (R320, R323, R324, R334) -/

/-- STATUS goes out every ARB_PERIOD. -/
def execStatusTimer (s : State) : Host.Outcome State Fault Refusal := .next ((s.begin).sendStatus)
/-- No GRANT has been accepted for 4 × ARB_PERIOD: ARB_LOST, and the roles freeze. -/
def execArbLost (s : State) : Host.Outcome State Fault Refusal :=
  let s := s.begin
  .next (if s.pairOn then s.modPair (fun p => { p with arbLost := true }) else s)
/-- LIVE transmit slots of resident channels in the order of R334: express, pinned, the rest, each in entry order. -/
def State.promoSlots (s : State) : List Nat :=
  let l := s.liveEntries.filter (fun p => !cRx p.2.cfg0)
  let e := l.filter (fun p => cExpress p.2.cfg0)
  let n := l.filter (fun p => !cExpress p.2.cfg0 && p.2.pinned)
  let r := l.filter (fun p => !cExpress p.2.cfg0 && !p.2.pinned)
  ((e ++ n ++ r).flatMap (fun p => [vslotOf p.1 false, vslotOf p.1 true])).filter (fun v => decide ((s.slot v).st = .live))
/-- The restart of one slot at promotion (R196, R334 step 4). [DEDUCED: log 102] -/
def State.promoSlot (s : State) (v : Nat) : State :=
  match s.slotChan v with
  | none => s
  | some (x, cap) =>
    let sl := s.slot v
    let s := s.dropWaits v
    match s.floorOf x (decide (v % 2 = 1)) sl.tag with
    | some c => (s.leaseAt v (min cap (c + s.pair.promoAdd))).startLease v
    | none =>
      if s.pair.promoAdd = 0 then (s.leaseAt v sl.next).startLease v
      else (((s.leaseAt v sl.next).modSlot v (fun o => { o with lst := .hold, cause := .blind, promoHold := true })).evt 134 1).evt 235 1
/-- RESTART in every live handle, and the restart of every LIVE transmit slot; before SCAN_DONE both wait for it.
[DEDUCED: log 85, 102] -/
def State.promoLeases (s : State) : State :=
  if s.lease.scanDone then
    let s := s.modLease (fun l => { l with dir := l.dir.map (fun d => (d.1, d.2.map (fun v => { v with restart := true }))) })
    (s.modPair (fun p => { p with promoWait := false })).forEach s.promoSlots (fun s v => s.promoSlot v)
  else s.modPair (fun p => { p with promoWait := true })
/-- A NOW Equinox whose switch was not mirrored is lost (R217). -/
def State.loseNow (s : State) : State :=
  s.forEach s.liveEntries (fun s p => match p.2.eqx with
    | some q => s.when (decide (q.mode = .now)) (·.modEntry p.1 (fun en => { en with eqx := none }))
    | none => s)
/-- EXPOSED_CNT at a takeover: the LIVE slots of resident receive channels; what a stored channel holds shows at its page-in (R332).
[DEDUCED: log 100] -/
def State.exposeAll (s : State) : State :=
  let keys := (s.liveEntries.filter (fun p => cRx p.2.cfg0)).flatMap (fun p => ([false, true].filter (fun b =>
    let o := s.slot (vslotOf p.1 b)
    decide (o.st = .live) && !o.retired)).map (fun b => p.2.chix * 2 + b2n b))
  s.modPair (fun p => { p with
    exposed := keys.foldl insNat [],
    unseen := ((s.ch.resi.map (·.1)).filter s.stored).foldl insNat [] })
/-- The unit takes ACTIVE (R334). [DEDUCED: log 98, 102] -/
def State.promote (s : State) (prev : BitVec 2) : State :=
  let add := if prev = 1 ∨ prev = 2 then s.blindChunks * 2 ^ s.chunkLog else 0
  let s := s.modPair (fun p => { p with
    role := .active, granted := true, prevBlind := prev, promoAdd := add, yielding := false, yieldFlag := false,
    reqHold := false, frzL := s.chunkLog, frzN := s.blindChunks })
  let s := s.promoLeases.loseNow.exposeAll
  (s.setFlag .pair 0x40 4).evt 229 1
/-- A GRANT passes the tests of R320 and R324. [DEDUCED: log 98] -/
def State.grantOk (s : State) (m : Bytes) : Bool :=
  let n := slice m 8 12
  let b2 := (byteAt m 2).toNat
  let ep := ofBe (slice m 4 4)
  decide (m.length = 48) && decide (byteAt m 0 = 0x31) && decide (byteAt m 1 = 1) && decide (b2 / 128 = s.pairUnit) &&
  decide (b2 % 4 ≠ 2) && (match s.pair.ak with | some k => tagOk k n m | none => false) &&
  decide (128 ≤ (byteAt n 0).toNat) && s.pair.nonces.contains (n.set 0 (byteAt n 0 &&& 0x7F)) &&
  decide (s.pair.epoch.toNat ≤ ep) &&
  !(s.pair.heard && decide (ep = s.pair.epoch.toNat) && decide (b2 % 4 ≠ s.pair.holder.toNat))
/-- A GRANT with HOLDER none changes no role (R324). [DEDUCED: log 98] -/
def State.grantNone (s : State) : State :=
  s.modPair (fun p => { p with granted := false, linkAck := false, holderNone := true })
/-- A GRANT that names this unit (R323). [DEDUCED: log 98] -/
def State.grantSelf (s : State) (prev : BitVec 2) : State :=
  match s.pair.role with
  | .seek =>
    if s.pairPrimary || s.pair.ready then s.promote prev
    else (s.modPair (fun p => { p with yieldFlag := true })).evt 232 1
  | .standby =>
    if s.pair.ready then s.promote prev
    else ((s.modPair (fun p => { p with yieldFlag := true })).setFlag .pair 0x40 10).evt 232 1
  | .active => s.modPair (fun p => { p with granted := true })
  | _ => s
/-- A GRANT that names the peer (R323). [DEDUCED: log 98] -/
def State.grantPeer (s : State) (higher : Bool) : State :=
  let s := s.modPair (fun p => { p with granted := false, yieldFlag := if p.role = .active then p.yieldFlag else false })
  match s.pair.role with
  | .seek => (s.modPair (fun p => { p with role := .standby })).toStandby
  | .active => if higher then (((s.leaveActive .standby).setFlag .pair 0x40 5).evt 230 1).toStandby else s
  | _ => s
/-- An accepted GRANT: its record, and what it does to the role. [DEDUCED: log 96] -/
def State.grantTake (s : State) (m : Bytes) : State :=
  let h := (byteAt m 2).toNat % 4
  let f := (byteAt m 3).toNat
  let ep := ofBe (slice m 4 4)
  let higher := decide (s.pair.epoch.toNat < ep)
  let s := s.modPair (fun p => { p with
    epoch := BitVec.ofNat 32 ep, holder := BitVec.ofNat 2 h, heard := true, arbLost := false, holderNone := false,
    linkAck := decide (f % 2 = 1) })
  if h = 3 then s.grantNone
  else if h = s.pairUnit then s.grantSelf (BitVec.ofNat 2 (f / 2 % 4)) else s.grantPeer higher
/-- A GRANT is received. -/
def execGrant (msg : Bytes) (s : State) : Host.Outcome State Fault Refusal :=
  let s := s.begin
  .next (if s.pairOn then
      (if s.grantOk msg then (s.pairDo (·.grantTake msg)).settle else s.evt 225 1)
    else s)

/-! ### PAIR_CMD (R336, R340) -/

/-- PAIR_RESULT and CMD_DONE. -/
def State.pairDone (s : State) (code op : Nat) : State :=
  (s.setRo .pair 0x8C (atPos code 24 ||| atPos op 16)).setFlag .pair 0x40 12
/-- YIELD closes the role gate and gives the role up once every committed ceiling is acknowledged. [DEDUCED: log 102] -/
def State.pairYield (s : State) : State :=
  if s.pair.role = .active then
    (s.pairDo (fun s => (s.modPair (fun p => { p with yielding := true })).yieldCheck)).pairDone 0 1
  else s.pairDone 0x27 1
/-- REQUEST holds REQ for 100 ms. -/
def State.pairRequest (s : State) : State :=
  if s.pair.role = .standby then (s.pairDo (·.modPair (fun p => { p with reqHold := true }))).pairDone 0 2 else s.pairDone 0x27 2
/-- RESYNC sends SYNC_REQ. -/
def State.pairResync (s : State) : State :=
  if s.pair.role = .standby then (s.sendSyncReq).pairDone 0 3 else s.pairDone 0x27 3
/-- A write of PAIR_CMD. -/
def State.pairCmd (s : State) (op : Nat) : State :=
  match op with
  | 1 => s.pairYield
  | 2 => s.pairRequest
  | 3 => s.pairResync
  | _ => s.pairDone 0x01 op
/-- PAIR_CMD YIELD. -/
def execYield (s : State) : Host.Outcome State Fault Refusal := .next ((s.begin).through .pair 0x88 1 (·.pairYield))
/-- PAIR_CMD REQUEST. -/
def execRequest (s : State) : Host.Outcome State Fault Refusal := .next ((s.begin).through .pair 0x88 2 (·.pairRequest))
/-- PAIR_CMD RESYNC. -/
def execResync (s : State) : Host.Outcome State Fault Refusal := .next ((s.begin).through .pair 0x88 3 (·.pairResync))
/-- The 100 ms of REQUEST end. -/
def execRequestHoldExpiry (s : State) : Host.Outcome State Fault Refusal :=
  .next ((s.begin).pairDo (·.modPair (fun p => { p with reqHold := false })))

/-! ### PAIR_CFG and the keys (R313, R315, R323, R337) -/

/-- PK and AK from the KEKs that PAIR_CFG names, where they are available. [DEDUCED: log 97] -/
def State.pairKeys (s : State) : State :=
  let pk := (s.kek s.pairKek).map (fun k => kdf k labelPar 0 0)
  let ak := (s.kek s.arbKek).map (fun k => kdf k labelArb s.pairUnit 0)
  s.modPair (fun p => { p with pk := pk, ak := ak })
/-- READY, the grant and the unit's requests to the arbiter are cleared. -/
def State.leavePair (s : State) : State :=
  s.modPair (fun p => { p with ready := false, granted := false, yielding := false, yieldFlag := false, holderNone := false,
                               reqHold := false, promoWait := false })
/-- The unit becomes UNPAIRED: leases go on without a peer. -/
def State.toUnpaired (s : State) : State :=
  let was := s.pair.role
  let s := s.sessionEnd
  let s := s.leavePair.modPair (fun p => { p with role := .unpaired })
  if was = .active then s.forEach (s.slotsOfCause .blind) (fun s v => s.clearCause .blind v)
  else if was = .unpaired then s
  else s.forEach s.promoSlots (fun s v => s.restartLease v)
/-- PAIR_CFG has come into force (R313, R323): PK and AK follow its KEKs, and what `was` before it counts for STATUS (R320).
[DEDUCED: log 97, 101] -/
def State.pairCfgApplied (s was : State) : State :=
  if s.pair.role = .silent then s.modPair (fun p => { p with cfgSet := true })
  else
    let s := (s.modPair (fun p => { p with cfgSet := true })).when s.sys.kekReady (·.pairKeys)
    (if s.pairEn then (if s.pair.role = .unpaired then s.modPair (fun p => { p with role := .seek, peerLost := true }) else s)
     else s.toUnpaired).pairSince was

end Sys2Proof.Machine
end

