-- ==== Sys2Proof/Machine/Seasons.lean ====
section
/-! DEFINITION. The season governor's events: its evaluations, surges, the seasons of domains, and what the power manager
answers (R52, R134, R277 to R291). -/
namespace Sys2Proof.Machine

/-- The governor works: the third phase has ended and no AO reset is in progress (R308, R390). -/
def State.govUp (s : State) : Bool := decide (3 ≤ s.sys.phase) && !s.resetOn .ao
/-- GOV_EVALUATION: each direction is evaluated (R283, R284). -/
def execGovEvaluation (s : State) : Host.Outcome State Fault Refusal :=
  let s := s.begin
  .next (if s.govUp then ((s.govDir false).govDir true).settle else s)
/-- Bytes of a port in its ingress admission buffer. -/
def State.admHeld (s : State) (port : Nat) : Nat :=
  ((s.framesOf .ingress port).map (fun f => if f.stage = .waiting then f.bytes.length else 0)).sum
/-- The buffer of a port holds more than SURGE_PCT of 32 KiB for each lane unit (R285). -/
def State.surging (s : State) (port : Nat) : Bool :=
  decide (s.surgePct * 32768 * s.portLanes port < 100 * s.admHeld port)
/-- Slices of the last surge that are still on their way to SUMMER. -/
def State.surgeOpen (s : State) : Bool :=
  s.pwr.surge.any (fun n => decide ((s.sl n).st = .thaw) || decide ((s.dom (n + 4)).want = some .on))
/-- A surge wakes GOV_SURGE further ingress slices, at most up to V; a hold towards a sleep restarts (R285, R291). -/
def State.surgeNow (s : State) : State :=
  let k := min s.govSurge (s.serviceableCnt true - (s.awakeCnt true + s.wantCnt true))
  let l := (s.wakeOrder true).take k
  let s := (s.modPwr (fun p => { p with surge := l, overI := none })).wakeSlices true k
  (s.setFlag .pwr 0x40 3).evt 180 1
/-- SURGE: the ingress admission buffer of a port is over SURGE_PCT. -/
def execSurge (port : Fin 32) (s : State) : Host.Outcome State Fault Refusal :=
  let s := s.begin
  .next (if s.govUp && s.surging port && !s.surgeOpen then s.surgeNow.settle else s)

/-! ### Domains other than the slices' -/

/-- Domains that the governor switches, slices excepted (R276, R277). -/
def govDoms : List Nat := [1, 3, 44, 45, 46, 47, 48, 49, 50, 51, 52, 53]
/-- DOMAIN_IDLE_EXPIRY: a domain that has not been needed for IDLE_US enters AUTUMN (R279). -/
def execDomainIdleExpiry (dom : Fin 54) (s : State) : Host.Outcome State Fault Refusal :=
  let s := s.begin
  let d := dom.val
  .next (if s.govUp && decide (d ∈ govDoms) && decide ((s.dom d).season = .summer) && !s.needed d then
      ((s.modDom d (fun m => { m with season := .autumn })).when (decide (d = 45)) (fun s =>
        s.modStore (fun t => { t with wcbHeld := s.wcbUsed }))).evt 179 1
    else s)
/-- The work that a domain in AUTUMN holds has ended (R279). -/
def State.domDrained (s : State) (d : Nat) : Bool :=
  if d = 45 then s.store.out.isEmpty && s.store.wait.isEmpty && !s.wcbDirty
  else if d = 44 then s.keyx.queue.isEmpty && s.keyx.cores.isEmpty
  else if d = 1 then !s.dp.frames.any (·.holds) && s.pager.keyw.isNone && s.sys.derive.isEmpty
  else if d ∈ tableDoms then !s.tableWork
  else s.dp.frames.isEmpty
/-- A domain in AUTUMN: needed again it serves at once, drained it is put to sleep (R278, R279). -/
def State.autumnNext (s : State) (d : Nat) : State :=
  if s.needed d then s.wakeDom d
  else if (s.dom d).req.isNone && s.domDrained d then s.pmTry d (sleepOp d)
  else s
/-- DOMAIN_AUTUMN_DRAINED: OFF or RETAIN is requested. -/
def execDomainAutumnDrained (dom : Fin 54) (s : State) : Host.Outcome State Fault Refusal :=
  let s := s.begin
  .next (if s.govUp && decide (dom.val ∈ govDoms) && decide ((s.dom dom.val).season = .autumn) then s.autumnNext dom.val else s)
/-- What a domain that is switched OFF or to RETAIN does not keep: its mask generators, the cached key sets, the held
round keys (R245, R276, R286). [DEDUCED: log 59] -/
def State.domLost (s : State) (d : Nat) : State :=
  let s := s.modSys (fun y => { y with
    maskSeed := (domGens d).foldl Tab.del y.maskSeed, maskLate := (domGens d).foldl delNat y.maskLate })
  if d = 45 then s.modStore (fun t => { t with cache := [], wcb := [] })
  else if d = 44 then s.modKeyx (fun k => { k with held := [] })
  else s
/-- What a domain regains as it enters THAW: removed KEYX cores and store pipelines (R297). [DEDUCED: log 59] -/
def State.domBack (s : State) (d : Nat) : State :=
  if d = 44 then s.modKeyx (fun k => { k with removed := [], faults := [], maskFires := [4, 5, 6].foldl (fun t g =>
    Tab.set [] t g (Tab.get [] k.maskFires g)) [] })
  else if d = 45 then s.modStore (fun t => { t with pipesOut := [] })
  else s
/-- A domain can no longer be had: what waits for it ends (R281). -/
def State.pagesLost (s : State) : State :=
  s.when (s.domsLost pageDoms) (fun s => s.forEach (s.pager.ins.map (·.chix)) (fun s x => s.pageFail x 5 true))
/-- A domain becomes unavailable until an AO partition reset (R52, R281, R297). [DEDUCED: log 58] -/
def State.domUnavail (s : State) (d : Nat) : State :=
  (s.modDom d (fun m => { m with unavail := true, req := none, want := none, seedWait := false })).pagesLost
/-- A wake of a domain has not come about: it is back in WINTER. [DEDUCED: log 59] -/
def State.wakeFailed (s : State) (d : Nat) : State :=
  if isSliceDom d then s.modSl (d - 4) (fun c => if c.st = .thaw then { c with st := .winter } else c)
  else s.modDom d (fun m => if m.season = .thaw then { m with season := .winter } else m)
/-- The power manager has done what was asked (R52, R134, R286). [DEDUCED: log 58] -/
def State.pmDone (s : State) (d : Nat) (op : PmOp) : State :=
  let s := s.modDom d (fun m => { m with req := none })
  if op.wakes then
    if s.season d = .thaw then (s.domBack d).seedDom d else s
  else
    let s := s.domLost d
    if isSliceDom d then
      s.modSl (d - 4) (fun c => if c.st = .faulted then c else { c with st := .winter, winterAt := s.sys.aoClk })
    else
      let w := (s.dom d).want
      let s := s.modDom d (fun m => { m with season := .winter, want := none, seedWait := false })
      match w with
      | some o => if o.wakes then s.pmTry d o else s
      | none => s
/-- The wake of a slice has been refused: the next candidate takes its place, in the surge that it belonged to as well (R284, R285,
R291). -/
def State.wakeNext (s : State) (n : Nat) : State :=
  let ing := isIng n
  let s := s.modSl n (fun c => { c with testWake := false })
  if n ∈ s.pwr.surge ∨ s.awakeCnt ing + s.wantCnt ing < s.lastTarget ing then
    match s.wakeOrder ing with
    | k :: _ => (s.modPwr (fun p => { p with surge := p.surge.map (fun x => if x = n then k else x) })).wakeSlice k
    | [] => s
  else s
/-- The power manager has refused: the domain stays as it was and is not asked again for 1 ms (R52). [DEDUCED: log 58] -/
def State.pmRefused (s : State) (d : Nat) (op : PmOp) : State :=
  let w := (s.dom d).want
  let s := s.modDom d (fun m => { m with req := none, want := none, seedWait := false, refused := true })
  let s := if op.wakes then (s.wakeFailed d).when (isSliceDom d) (·.wakeNext (d - 4))
    else if isSliceDom d = false ∧ w.isSome = true then s.modDom d (fun m => { m with season := .summer })
    else s
  ((s.setFlag .pwr 0x40 0).evt 184 1).detect 0x41 d (BitVec.ofNat 32 d) 0
/-- PM_ACK: the acknowledgement of a domain's outstanding request. -/
def execPmAck (dom : Fin 54) (ok : Bool) (s : State) : Host.Outcome State Fault Refusal :=
  let s := s.begin
  match (s.dom dom.val).req with
  | some op => .next ((if ok then s.pmDone dom.val op else s.pmRefused dom.val op).settle)
  | none => .next s
/-- A domain may be asked again after its 1 ms (R52, R134). [DEDUCED: log 58] -/
def State.pmAgain (s : State) (d : Nat) : State :=
  let s := s.modDom d (fun m => { m with refused := false })
  if isSliceDom d then s.when (decide ((s.sl (d - 4)).st = .autumn)) (·.slDrained (d - 4))
  else match (s.dom d).season with
    | .autumn => s.autumnNext d
    | .winter => s.when (s.needed d) (·.wakeDom d)
    | _ => s
/-- PM_RETRY: the 1 ms after a refusal has passed. [DESIGN CHOICE: log 3] -/
def execPmRetry (dom : Fin 54) (s : State) : Host.Outcome State Fault Refusal :=
  let s := s.begin
  .next (if (s.dom dom.val).refused then (s.pmAgain dom.val).settle else s)
/-- PM_TIMEOUT: no acknowledgement has come within 20 µs. -/
def execPmTimeout (dom : Fin 54) (s : State) : Host.Outcome State Fault Refusal :=
  let s := s.begin
  let d := dom.val
  match (s.dom d).req with
  | some op =>
    let s := (((s.when op.wakes (·.wakeFailed d)).setFlag .pwr 0x40 1).evt 185 1).detect 0x42 d (BitVec.ofNat 32 d) 0
    .next ((s.domUnavail d).settle)
  | none => .next s
/-- A latent test that the check of a THAW makes up for (R286, R305). -/
def State.thawTests (s : State) (d : Nat) : State :=
  let done := fun (t : Nat) => s.modFlt (fun f => { f with
    latentAt := Tab.set none f.latentAt t (some s.sys.aoClk), latentLate := delNat f.latentLate t })
  if d = 44 then done 1 else if d = 45 then done 2 else s
/-- The steps of a THAW, seeding among them, have ended in a domain that holds no slice (R286, R287, R297).
[DEDUCED: log 59] -/
def State.thawEnd (s : State) (d : Nat) (pass late : Bool) : State :=
  let s := s.when late (fun s => (s.setFlag .pwr 0x40 5).evt 183 1)
  if !s.seeded d then s
  else if pass then (s.modDom d (fun m => { m with season := .summer })).thawTests d
  else ((s.modDom d (fun m => { m with season := .winter })).domUnavail d).detect 0x46 d (BitVec.ofNat 32 d) 0
/-- DOMAIN_THAW_DONE: a waking domain has been seeded and checked; `late` states that it took longer than R287 gives.
[DESIGN CHOICE: log 4] -/
def execDomainThawDone (dom : Fin 54) (pass late : Bool) (s : State) : Host.Outcome State Fault Refusal :=
  let s := s.begin
  let d := dom.val
  .next (
    if isSliceDom d then (s.when (decide ((s.sl (d - 4)).st = .thaw)) (·.slTested (d - 4) pass late)).settle
    else if (s.dom d).season = .thaw ∧ (s.dom d).req.isNone = true then (s.thawEnd d pass late).settle
    else s)

end Sys2Proof.Machine
end

