-- ==== Sys2Proof/Machine/SliceUnit.lean ====
section
/-! DEFINITION. Slices: self-test, rotation, faults of a slice, and the SL_CTL register (R129, R132, R134, R135, R137,
R138, R368). -/
namespace Sys2Proof.Machine

/-- SLICE_DRAINED: a slice in AUTUMN or DRAIN holds no frame any more. -/
def execSliceDrained (slice : Fin 40) (s : State) : Host.Outcome State Fault Refusal :=
  .next (((s.begin).slDrained slice.val).settle)
/-- SLICE_SELF_TEST_DONE: the known-answer test of a slice has ended. -/
def execSliceSelfTestDone (slice : Fin 40) (pass : Bool) (s : State) : Host.Outcome State Fault Refusal :=
  .next (((s.begin).slTested slice.val pass false).settle)
/-- ROTATION_TEST_DUE: the slice is taken out for its test, or the test is postponed. -/
def execRotationTestDue (slice : Fin 40) (s : State) : Host.Outcome State Fault Refusal :=
  .next (((s.begin).rotTry slice.val).settle)
/-- TEST_LATE: the last passed test of a slice that is not asleep is more than 100 ms old (R138, R305).
[DESIGN CHOICE: log 3] -/
def execTestLate (slice : Fin 40) (s : State) : Host.Outcome State Fault Refusal :=
  let s := s.begin
  .next (if decide ((s.sl slice.val).st ≠ .winter) && (s.sl slice.val).testAt.isSome then
      s.detect0 0x0A slice.val
    else s)
/-- The slice enters TEST: its generator is seeded and its records are clear (R118, R134). -/
def State.enterTest (s : State) (n : Nat) (byRun : Bool) : State :=
  ((s.modSl n (fun c => { c with byTestRun := byRun, rotPending := false })).slEnter n .test).seedTest n

/-! ### Faults of a slice -/

/-- The slice's frames end with FAULT or are voided, and the slice enters FAULTED (R20, R129, R134). -/
def State.sliceDown (s : State) (n : Nat) : State :=
  let s := s.stomp (fun f => f.inSl n)
  (s.modSl n (fun c => { c with susp := none, maskFault := false, rotPending := false, byTestRun := false })).slEnter n .faulted
/-- A slice detector other than SL_MASK_HLT fires. A fault during the slice's own reset acts when the reset is over
(R311). -/
def State.sliceFault (s : State) (inj : Bool) (n det : Nat) : State :=
  let s := s.detectAs inj det n (BitVec.ofNat 32 (s.slRecords n)) 0
  let s := s.when (decide (det = 8)) (fun s => (s.modSl n (fun c => { c with katPass := false })).setFlag (.slice n) 0x40 1)
  if s.resetOn (.slice (Fin.ofNat 40 n)) then
    s.modFlt (fun f => { f with afterReset := f.afterReset ++ [.slice (Fin.ofNat 40 n)] })
  else s.sliceDown n
/-- SLICE_FAULT: a detector of a slice fires; SL_MASK_HLT has its own command, and so has the register that SL_CFG_PAR
names. -/
def execSliceFault (slice : Fin 40) (det : BitVec 8) (s : State) : Host.Outcome State Fault Refusal :=
  let s := s.begin
  let d := det.toNat
  .next (if (1 ≤ d ∧ d ≤ 6) ∨ d = 8 ∨ d = 9 then (s.sliceFault false slice.val d).settle else s)
/-- A slice whose mask generator has failed drains towards FAULTED (R132, R134). [DEDUCED: log 56] -/
def State.maskDrain (s : State) (n : Nat) : State :=
  match (s.sl n).st with
  | .summer | .autumn | .test | .drain => (s.modSl n (fun c => { c with maskFault := true })).slEnter n .drain
  | _ => s
/-- SL_MASK_HLT: no frame is touched; the slice drains, after its own reset if that is in progress (R132, R134, R311). -/
def State.maskHalt (s : State) (inj : Bool) (n : Nat) : State :=
  let s := (s.detectAs inj 0x07 n 0 0).setFlag (.slice n) 0x40 2
  if s.resetOn (.slice (Fin.ofNat 40 n)) then s.modFlt (fun f => { f with afterMask := insNat f.afterMask n })
  else s.maskDrain n
/-- MASK_FAULT. -/
def execMaskFault (slice : Fin 40) (s : State) : Host.Outcome State Fault Refusal :=
  .next (((s.begin).maskHalt false slice.val).settle)

/-! ### SL_CTL (R134, R135, R368) -/

/-- SVC_OUT = 1 is refused: too few slices would stay serviceable. [DESIGN CHOICE: log 120] -/
def State.svcRefused (s : State) (n : Nat) (force : Bool) : Bool :=
  !force && decide (s.serviceableCnt (isIng n) - b2n (s.serviceable n) < s.spareMin (isIng n))
/-- SVC_OUT = 1. [DEDUCED: log 56] -/
def State.svcSet (s : State) (n : Nat) (force : Bool) : State :=
  if (s.sl n).svcOut then s
  else if s.svcRefused n force then s.setFlag (.slice n) 0x40 0
  else
    let s := s.modSl n (fun c => { c with svcOut := true })
    match (s.sl n).st with
    | .summer | .autumn => s.slEnter n .drain
    | _ => s
/-- SVC_OUT = 0. [DEDUCED: log 56] -/
def State.svcClear (s : State) (n : Nat) : State :=
  if (s.sl n).svcOut then
    let c := s.sl n
    let s := s.modSl n (fun c => { c with svcOut := false })
    match c.st with
    | .held => s.enterTest n false
    | .drain => if c.maskFault || c.rotPending then s else s.slEnter n .summer
    | _ => s
  else s
/-- A write of SL_CTL: SVC_OUT first, then TEST_RUN on a slice that is still HELD (R373). [DEDUCED: log 56] -/
def State.slCtl (s : State) (n : Nat) (data : W32) : State :=
  let s := if bit data 0 then s.svcSet n (bit data 1) else s.svcClear n
  s.when (bit data 2 && decide ((s.sl n).st = .held)) (·.enterTest n true)
/-- SVC_OUT: a write of SL_CTL. -/
def execSvcOut (slice : Fin 40) (data : W32) (s : State) : Host.Outcome State Fault Refusal :=
  .next (((s.begin).through (.slice slice.val) 0x80 data (·.slCtl slice.val data)).settle)
/-- TEST_RUN: a write of SL_CTL with TEST_RUN set. [DEDUCED: log 56] -/
def execTestRun (slice : Fin 40) (data : W32) (s : State) : Host.Outcome State Fault Refusal :=
  .next (((s.begin).through (.slice slice.val) 0x80 (data ||| 4) (·.slCtl slice.val (data ||| 4))).settle)

end Sys2Proof.Machine
end

