-- ==== Sys2Proof/Machine/Commits.lean ====
section
/-! DEFINITION. Staging, commit and lock of a page (R136, R139, R244, R275, R287, R299, R340, R349 to R353, R365, R366,
R369, R370, R391). -/
namespace Sys2Proof.Machine

/-! ### The express reserve (R136, R369) -/

/-- The slice that takes the role of a named slice: the named one in SUMMER, or when it holds the role; else the slice that
held this place, or the highest-numbered other one in SUMMER; else one that can be woken. [DEDUCED: log 37] -/
def State.rsvPick (s : State) (ing : Bool) (old named used : List Nat) (x prior : Nat) : Nat :=
  let free := fun (k : Nat) => !decide (k ∈ used) && !decide (k ∈ named)
  if (s.sl x).st = .summer ∨ x ∈ old then x
  else if (s.sl prior).st = .summer ∧ free prior = true then prior
  else match maxOf ((slicesOf ing).filter (fun k => free k && decide ((s.sl k).st = .summer))) with
    | some k => k
    | none =>
      if (s.sl x).st = .winter then x
      else (maxOf ((slicesOf ing).filter (fun k => free k && s.serviceable k && decide ((s.sl k).st = .winter)))).getD x
/-- The values of EXP_RSV in force move the role of a direction. [DEDUCED: log 37] -/
def State.rsvApply (s : State) (ing : Bool) : State :=
  match s.namedRsv ing, s.rsv ing with
  | [a, b], [h, k] =>
    let x := s.rsvPick ing [h, k] [a, b] [] a h
    let y := s.rsvPick ing [h, k] [a, b] [x] b k
    (s.setRsv ing [x, y]).when s.anyPort (fun s => (s.wakeSlice x).wakeSlice y)
  | _, _ => s

/-! ### Refusals (R351) -/

/-- LANES, EN and their overlap with the ports in force (R365), and READY for an enable (R391). -/
def State.portRefuses (s : State) (n : Nat) : Bool :=
  let w := s.stg (.port n) 0x80
  let code := fld w 2 0
  let en := bit w 8
  decide (4 < code) || decide (n % laneUnitsOf code ≠ 0) ||
  (s.portEn n && decide (code ≠ fld (s.cfg (.port n) 0x80) 2 0)) ||
  (en && (List.range 32).any (fun m => s.portEn m &&
    ((decide (m < n) && decide (n < m + s.portLanes m)) || (decide (n < m) && decide (m < n + laneUnitsOf code))))) ||
  (en && !s.portEn n && !(s.sys.rootKey.isSome && s.sys.kekReady && s.lease.scanDone && !decide (s.sys.zero = .done)))
/-- First and last line, and EN, that a range would have. -/
def State.rngStaged (s : State) (r : Nat) : Nat × Nat × Bool :=
  (fld (s.stg .store (0x200 + 16 * r)) 27 0 * 64, fld (s.stg .store (0x204 + 16 * r)) 27 0 * 64 + 63,
   bit (s.stg .store (0x208 + 16 * r)) 0)
/-- BASE, LIMIT or EN of a range would change. -/
def State.rngChanges (s : State) (r : Nat) : Bool :=
  decide (s.rngStaged r ≠ (s.rngFirst r, s.rngLast r, s.rngEn r))
/-- The refusals of R244. -/
def State.storeRefuses (s : State) : Bool :=
  let top := min 1024 (fld (s.stg .store 0x84) 10 0) * 2 ^ 24
  (List.range 16).any (fun r =>
    let a := s.rngStaged r
    (a.2.2 && (decide (a.2.1 < a.1) || decide (top ≤ a.2.1) ||
      (List.range r).any (fun q => let b := s.rngStaged q
        b.2.2 && decide (a.1 ≤ b.2.1) && decide (b.1 ≤ a.2.1)))) ||
    (s.rngChanges r && !s.large && s.marchHolds r))
/-- The refusals of R340: UNIT, PAIR_KEK or ARB_KEK would change in STANDBY or ACTIVE. -/
def State.pairRefuses (s : State) : Bool :=
  (decide (s.pair.role = .standby) || decide (s.pair.role = .active)) &&
  decide ((s.stg .pair 0x80 ^^^ s.cfg .pair 0x80) &&& 0x3F3F02 ≠ 0)
/-- The refusals of R369. -/
def State.sliceRefuses (s : State) : Bool :=
  let w := s.stg (.slice 0) 0x104
  let e0 := fld w 5 0
  let e1 := fld w 13 8
  let i0 := fld w 21 16
  let i1 := fld w 29 24
  decide (20 ≤ e0) || decide (20 ≤ e1) || decide (i0 < 20) || decide (40 ≤ i0) || decide (i1 < 20) || decide (40 ≤ i1) ||
  decide (e0 = e1) || decide (i0 = i1)
/-- A register of a page has failed its parity check and has not been written since (R299). -/
def State.parityBad (s : State) (p : Page) : Bool := s.regs.parBad.any (fun a => addrPage a == some p)
/-- A commit of a page is refused. -/
def State.commitRefuses (s : State) (p : Page) : Bool :=
  s.parityBad p ||
  (match p with
   | .port n => s.portRefuses n
   | .store => s.storeRefuses
   | .pair => s.pairRefuses
   | .slice n => decide (n = 0) && s.sliceRefuses
   | _ => false)

/-! ### Boundaries (R350) -/

/-- Frames whose EOF a commit waits for: those open on the input buses of the port, or of every port for LEG, also when they
have ended inside. [DEDUCED: log 38] -/
def State.commitFrames (s : State) (p : Page) : List Nat :=
  let open_ := fun (q : Nat → Bool) =>
    (s.dp.frames.filter (fun f => !f.eof && !f.void_ && !decide (f.kind = .report) && q f.port)).map (·.id) ++
    (s.dp.stubs.filter (fun t => q t.port)).map (·.id)
  match p with
  | .port n => open_ (fun m => decide (m = n))
  | .leg => open_ (fun _ => true)
  | _ => []
/-- The frames that a pending commit waits for have all had their EOF admitted. [DEDUCED: log 38] -/
def State.framesClosed (s : State) (p : Page) : Bool :=
  (s.hdr p).waits.all (fun id => !s.dp.stubs.any (fun t => decide (t.id = id)) &&
    (match s.frame id with | some f => f.eof | none => true))
/-- The domains that an enabled port needs (R279, R287). -/
def portDoms : List Nat := [1, 3, 51, 52] ++ tableDoms
/-- Slices whose role a pending commit of EXP_RSV concerns: those named, and those that hold the role. [DEDUCED: log 37] -/
def State.rsvConcerned (s : State) : List Nat :=
  let w := s.stg (.slice 0) 0x104
  [fld w 5 0, fld w 13 8, fld w 21 16, fld w 29 24] ++ s.rsv false ++ s.rsv true
/-- The natural boundary of a page has come. [DEDUCED: log 38] -/
def State.commitReady (s : State) (p : Page) : Bool :=
  match p with
  | .port n =>
    s.framesClosed p && (s.portEn n || !bit (s.stg p 0x80) 8 || s.domsUp portDoms)
  | .leg => s.framesClosed p
  | .slice n =>
    decide (n ≠ 0) || decide (s.stg p 0x104 = s.cfg p 0x104) ||
      s.rsvConcerned.all (fun k => !s.dp.frames.any (fun f => decide (f.stage = .inSlice k 0)))
  | .store => !s.store.out.any (fun r => s.commitHolds r.line && !decide (r.who = .gone))
  | _ => true

/-! ### Application -/

/-- The staged registers of a page take effect. -/
def State.applyRows (s : State) (p : Page) : State :=
  s.forEach (rowsOf p) (fun s r =>
    if r.rw &&& r.s = 0 then s
    else s.forEach (List.range r.n) (fun s i =>
      let off := r.off + i * r.step
      s.setCfg p off (mergeBits r.s (s.stg p off) (s.cfg p off))))
/-- The staged entries of the bypass policy take effect. -/
def State.applyByp (s : State) : State :=
  (s.forEach s.dp.bypStaged (fun s q => match q.2 with
    | some w => s.modDp (fun d => { d with byp := Tab.set 0 d.byp q.1 w })
    | none => s)).modDp (fun d => { d with bypStaged := [] })
/-- EN of a port has changed (R366). -/
def State.portSwitched (s : State) (n : Nat) (was : Bool) : State :=
  if s.portEn n = was then s else s.rseInit n (s.portEn n)
/-- What a change of a page's configuration brings about at once: `was` is the state before. A change of LANES can change
LINK_UP (R364). [DEDUCED: log 38] -/
def State.cfgActs (s : State) (was : State) (p : Page) : State :=
  match p with
  | .port n => (s.portSwitched n (was.portEn n)).when (s.linkUp n != was.linkUp n) (·.portBFlag n 1)
  | .slice n => if n = 0 ∧ s.cfg p 0x104 ≠ was.cfg p 0x104 then (s.rsvApply false).rsvApply true else s
  | .pair => s.when s.pair.cfgStaged (fun s => (s.modPair (fun q => { q with cfgStaged := false })).pairCfgApplied was)
  | _ => s
/-- The commit is refused (R351). [DEDUCED: log 36] -/
def State.commitRefuse (s : State) (p : Page) : State :=
  (s.modHdr p (fun h => { h with refused := true, pending := false, dirty := false, waits := [] })).evt 115 1
/-- The commit is applied: the digest, then PG_EPOCH, then COMMIT_PENDING (R350). [DEDUCED: log 36] -/
def State.commitApply (s : State) (p : Page) : State :=
  let t := (s.applyRows p).when (decide (p = .byp)) (·.applyByp)
  let t := ((t.modHdr p (fun h => { h with pending := false, dirty := false, waits := [] })).bumpEpoch p).evt 116 1
  t.cfgActs s p
/-- A write of 1 to COMMIT (R349, R350). [DEDUCED: log 36] -/
def State.commitWrite (s : State) (p : Page) : State :=
  let h := s.hdr p
  if h.pending then s.collide p
  else if !h.dirty then s
  else if s.commitRefuses p then s.commitRefuse p
  else s.modHdr p (fun h => { h with pending := true, waits := s.commitFrames p })
/-- PG_COMMIT: a write of 1 to COMMIT of a page. -/
def execPgCommit (page : BitVec 8) (s : State) : Host.Outcome State Fault Refusal :=
  let s := s.begin
  .next (match pageOf page.toNat with
    | some p => s.through p 0x08 1 (fun s => (s.commitWrite p).settle)
    | none => if s.cpUp then s.answer false else s)
/-- COMMIT_APPLY: the natural boundary of a page with a pending commit has come. -/
def execCommitApply (page : BitVec 8) (s : State) : Host.Outcome State Fault Refusal :=
  let s := s.begin
  .next (match pageOf page.toNat with
    | some p =>
      if (s.hdr p).pending && !s.resetOn p.part && s.commitReady p then
        (if s.commitRefuses p then s.commitRefuse p else s.commitApply p).settle
      else s
    | none => s)

/-! ### Locks (R353) -/

/-- The unlock code of a page. -/
def Page.unlockCode (p : Page) : W32 := 0xC1E00000 + BitVec.ofNat 32 p.num
/-- A write of PG_UNLOCK. -/
def State.unlockWrite (s : State) (p : Page) (data : W32) : State :=
  if data = p.unlockCode then s.setUnlocked p true else s.lockViol p
/-- PG_UNLOCK. -/
def execPgUnlock (page : BitVec 8) (data : W32) (s : State) : Host.Outcome State Fault Refusal :=
  let s := s.begin
  .next (match pageOf page.toNat with
    | some p => s.through p 0x0C data (·.unlockWrite p data)
    | none => if s.cpUp then s.answer false else s)
/-- UNLOCK_EXPIRY: 256 CK_CTL cycles have passed since the unlocking write. -/
def execUnlockExpiry (page : BitVec 8) (s : State) : Host.Outcome State Fault Refusal :=
  let s := s.begin
  .next (match pageOf page.toNat with
    | some p => s.setUnlocked p false
    | none => s)

end Sys2Proof.Machine
end

