-- ==== Sys2Proof/Machine/Counting.lean ====
section
/-! DEFINITION. Commands of the counters: outcomes and spill retries, the update slots and presets of the event
counters, the clears of port counters, and the bandwidth windows (R367, R378, R379, R383 to R385, R388). -/
namespace Sys2Proof.Machine

/-- 100 µs have passed for a spill, or for a zero write, that ended with a bus error (R378). [DESIGN CHOICE: log 4] -/
def execSpillRetry (chix : BitVec 20) (line : Fin 4) (s : State) : Host.Outcome State Fault Refusal :=
  .next (((s.begin).spillAgain chix.toNat line.val).settle)
/-- The record of a channel's page-out has been formed: its leaves no longer change. [DEDUCED: log 90] -/
def State.recorded (s : State) (x : Nat) : Bool :=
  match s.pageOut x with
  | some o => o.writing || o.draining
  | none => false
/-- The oldest outcome that can reach the tree: its channel is resident, or is gone. [DEDUCED: log 90] -/
def State.nextOutcome (s : State) : Option Counted :=
  s.cnt.queue.find? (fun o => !s.known o.chix || ((s.resident o.chix).isSome && !s.recorded o.chix))
/-- An outcome reaches the counter tree (R379). -/
def State.countNext (s : State) : State :=
  match s.nextOutcome with
  | some o => ((s.modCnt (fun c => { c with queue := c.queue.erase o })).applyOutcome o).settle
  | none => s
/-- A counted outcome reaches the counter tree. [DEDUCED: log 90] -/
def execCounterOutcome (s : State) : Host.Outcome State Fault Refusal := .next ((s.begin).countNext)
/-- The update slot of an event counter (R383, R384, R385). -/
def execEvcUpdateSlot (ctr : BitVec 9) (s : State) : Host.Outcome State Fault Refusal :=
  .next ((s.begin).evcUpdate ctr.toNat)
/-- A write of EVC_k_HI: with the held LO word, the preset that lands at the next update slot (R384). [DEDUCED: log 39] -/
def State.presetCtr (s : State) (n : Nat) (data : W32) : State :=
  let p := evcPage n
  let a := p.at (0x100 + 8 * (n % 64))
  let lo := (Tab.get 0 s.regs.held a).toNat
  (s.modRegs (·.dropHeld a)).modCnt (fun c => { c with
    preset := Tab.set none c.preset n (some (BitVec.ofNat 48 (fld data 15 0 * 2 ^ 32 + lo))) })
/-- A write of EVC_k_HI (R384). [DEDUCED: log 39] -/
def execEvcPreset (ctr : BitVec 9) (data : W32) (s : State) : Host.Outcome State Fault Refusal :=
  .next ((s.begin).through (evcPage ctr.toNat) (0x104 + 8 * (ctr.toNat % 64)) data (·.presetCtr ctr.toNat data))
/-- The bandwidth window closes (R388). -/
def execBwWindowClose (s : State) : Host.Outcome State Fault Refusal := .next ((s.begin).bwClose)
/-- PCNT_SEL of a port. -/
def State.pcntSel (s : State) (port : Nat) : Nat := fld (s.cfg (.port port) 0xA0) 6 0
/-- A port counter returns to 0. -/
def State.pcntClear (s : State) (k : Nat) : State :=
  s.modCnt (fun c => { c with port := Tab.set 0 c.port k 0, portPoison := delNat c.portPoison k })
/-- Every counter of a port returns to 0. -/
def State.pcntClearAll (s : State) (port : Nat) : State :=
  s.modCnt (fun c => { c with port := c.port.filter (fun q => decide (q.1 / 128 ≠ port)),
                              portPoison := c.portPoison.filter (fun k => decide (k / 128 ≠ port)) })
/-- PCNT_CLR with bit 0: the selected counter (R367). -/
def execPcntClrSelected (port : Fin 32) (s : State) : Host.Outcome State Fault Refusal :=
  .next ((s.begin).through (.port port.val) 0xAC 1 (fun s => s.pcntClear (port.val * 128 + s.pcntSel port.val)))
/-- PCNT_CLR with bit 1: every counter of the port (R367). -/
def execPcntClrAll (port : Fin 32) (s : State) : Host.Outcome State Fault Refusal :=
  .next ((s.begin).through (.port port.val) 0xAC 2 (fun s => s.pcntClearAll port.val))

end Sys2Proof.Machine
end

