-- ==== Sys2Proof/Machine/Paging.lean ====
section
/-! DEFINITION. Paging commands: the start and the time limit of page-ins, page-outs and group jobs, KEYX jobs, the
calendar and its floors, the settling of slots, and the timed ends of key changes (R162, R168, R206, R211, R228, R229,
R233, R236 to R241, R288, R289). -/
namespace Sys2Proof.Machine

/-! ### Page-ins and page-outs -/

/-- A page-out may start now: its slots have settled, and it is not under way (R233). -/
def State.outWaits (s : State) (o : PageOut) : Bool :=
  !o.started && !o.draining && !o.discard &&
  (match s.resident o.chix with
   | some e => s.outReady o.chix e
   | none => false)
/-- The pager has a place for one more page-in or page-out. -/
def State.pagerFree (s : State) : Bool := s.pagerUp && decide (s.pagerRunning < 32)
/-- Class of a page-out: commanded, or of a group job (R228). [DEDUCED: log 94] -/
def PageOut.rank (o : PageOut) : Nat := if o.byCmd then 2 else 3
/-- A page-out that could start goes before a job of a class and place (R228). -/
def State.outBefore (s : State) (rank ser : Nat) : Bool :=
  s.pager.outs.any (fun o => s.outWaits o && (decide (o.rank < rank) || (decide (o.rank = rank) && decide (o.ser < ser))))
/-- A page-in that could start goes before a job of a class and place (R228). -/
def State.inBefore (s : State) (rank ser : Nat) : Bool :=
  match s.nextIn with
  | some p => decide (p.rank < rank) || (decide (p.rank = rank) && decide (p.ser < ser))
  | none => false
/-- Start the next waiting page-in, unless a page-out goes first (R228). -/
def State.pageNext (s : State) : State :=
  match s.nextIn with
  | some p =>
    if s.pagerFree && (s.domsLost pageDoms || s.domsUp (1 :: tableDoms)) && !s.outBefore p.rank p.ser then s.pageStart p
    else s
  | none => s
/-- Start the next waiting page-in. -/
def execPageInStart (s : State) : Host.Outcome State Fault Refusal := .next ((s.begin).pageNext).settle
/-- PAGE_TIMEOUT_US in CK_AO cycles. -/
def State.pageLimit (s : State) : Nat := max 1 (fld (s.cfg .pager 0x90) 15 0) * 50
/-- PAGE_TIMEOUT_US is over for a page-in that has not reached step 7 (R229): the command carries the passing of time.
[DESIGN CHOICE: log 3] -/
def execPageInTimeout (chix : BitVec 20) (s : State) : Host.Outcome State Fault Refusal :=
  let s := s.begin
  .next (match s.pageIn chix.toNat with
    | some p => if p.started then (s.pageFail chix.toNat 5 true).settle else s
    | none => s)
/-- A page-out goes first: behind page-ins and page-outs of a higher class or an earlier arrival (R228). -/
def State.outFirst (s : State) (o : PageOut) : Bool := !s.inBefore o.rank o.ser && !s.outBefore o.rank o.ser
/-- Start a page-out whose slots have settled and whose lease requests are done (R233). -/
def execPageOutStart (chix : BitVec 20) (s : State) : Host.Outcome State Fault Refusal :=
  let s := s.begin
  let x := chix.toNat
  .next (match s.pageOut x, s.resident x with
    | some o, some e =>
      if s.outWaits o && s.pagerFree && s.outFirst o && s.domsUp (1 :: tableDoms) then (s.outStart x e).settle else s
    | _, _ => s)
/-- Run the oldest group job when none runs (R236). -/
def execGroupJobStart (s : State) : Host.Outcome State Fault Refusal :=
  let s := s.begin
  .next (match s.pager.jobs with
    | j :: _ => if !s.pager.running && s.pagerUp && s.domsUp tableDoms then (s.runJob j).settle else s
    | [] => s)
/-- GRP_GO: a job from GRP_CTL. -/
def State.grpGo (s : State) : State :=
  let w := s.cfg .pager 0xA8
  s.pushJob { evict := bit w 28, group := BitVec.ofNat 12 (fld w 27 16), mask := BitVec.ofNat 12 (fld w 11 0) }
/-- A write of 1 to GRP_GO (R236, R241). -/
def execGrpGo (s : State) : Host.Outcome State Fault Refusal :=
  .next ((s.begin).through .pager 0xAC 1 (fun s => s.grpGo.settle))

/-! ### The calendar (R237, R238, R288, R289) -/

/-- Bits of a calendar entry. -/
def calFld (w : W128) (hi lo : Nat) : Nat := (w.toNat >>> lo) % 2 ^ (hi + 1 - lo)
/-- The entry that follows a firing at a time: empty without a period, else with the next due time above the time. -/
def calNext (w : W128) (due now : Nat) : W128 :=
  let p := calFld w 99 80
  if p = 0 then 0
  else
    let k := (now - due) / (p * 1000000000) + 1
    let sec := (calFld w 79 32 + k * p) % 2 ^ 48
    BitVec.ofNat 128 (w.toNat / 2 ^ 80 * 2 ^ 80 + sec * 2 ^ 32 + w.toNat % 2 ^ 32)
/-- Put a floor in force; a ninth replaces the one that ends soonest (R289). -/
def State.addFloor (s : State) (f : Floor) : State :=
  let l := s.pager.floors
  if l.length < 8 then s.modPager (fun p => { p with floors := p.floors ++ [f] })
  else
    let ends := l.map (·.ends)
    let soon := ends.foldl min (ends.headD 0)
    let s := s.modPager (fun p => { p with floors := p.floors.eraseP (fun q => decide (q.ends = soon)) ++ [f] })
    (s.setFlag .pwr 0x40 4).evt 182 1
/-- A season entry fires: a floor starts, or every floor ends. -/
def State.fireSeason (s : State) (w : W128) (due : Nat) : State :=
  let s := s.evt 181 1
  let dur := calFld w 111 100
  if dur = 0 then s.modPager (fun p => { p with floors := [] })
  else s.addFloor { ef := min 20 (calFld w 125 121), ifl := min 20 (calFld w 120 116), kx := w.getLsbD 115,
                    ends := due + dur * 1000000000 }
/-- One entry that is due fires. -/
def State.fireEntry (s : State) (n : Nat) (w : W128) (due : Nat) : State :=
  let s :=
    if calFld w 127 126 = 1 then
      s.pushJob { evict := w.getLsbD 125, group := BitVec.ofNat 12 (calFld w 123 112), mask := BitVec.ofNat 12 (calFld w 111 100) }
    else s.fireSeason w due
  s.setCal n (calNext w due s.sys.tmA.ns)
/-- Every entry that is due fires, in entry order. -/
def State.fireAll (s : State) : State :=
  s.forEach s.pager.cal (fun s p => match calDue p.2 with
    | some t => if t ≤ s.sys.tmA.ns then s.fireEntry p.1 p.2 t else s
    | none => s)
/-- TM_A_ has reached the earliest due time: with the calendar awake the entries fire, else it is woken first (R238). -/
def execCalendarFire (s : State) : Host.Outcome State Fault Refusal :=
  let s := s.begin
  .next (if s.calReady then (if s.domUp 53 then s.fireAll.settle else (s.wakeDom 53).pmPump) else s)
/-- Floors whose end TM_A_ has reached end (R289). -/
def execSeasonFloorEnd (s : State) : Host.Outcome State Fault Refusal :=
  let s := s.begin
  .next (if s.sys.tmA.vld then s.modPager (fun p => { p with floors := p.floors.filter (fun f => decide (s.sys.tmA.ns < f.ends)) })
    else s)
/-- CAL_DATA as one entry. [DEDUCED: log 35] -/
def State.calData (s : State) : W128 :=
  BitVec.ofNat 128 ((s.cfg .pager 0xC4).toNat + (s.cfg .pager 0xC8).toNat * 2 ^ 32 + (s.cfg .pager 0xCC).toNat * 2 ^ 64 +
    (s.cfg .pager 0xD0).toNat * 2 ^ 96)
/-- CAL_WR: the entry CAL_SEL is replaced whole, when PD_SRAM7 serves (R237, R281). [DEDUCED: log 35] -/
def State.calWrite (s : State) : State :=
  let n := fld (s.cfg .pager 0xC0) 7 0
  let w := s.calData
  if s.domUp 53 then s.setCal n w else (s.modPager (fun p => { p with calPut := p.calPut ++ [(n, w)] })).settle
/-- A write of 1 to CAL_WR (R237, R241). -/
def execCalWr (s : State) : Host.Outcome State Fault Refusal :=
  .next ((s.begin).through .pager 0xD4 1 (·.calWrite))
/-- CAL_SEL: the entry is loaded into CAL_DATA, when PD_SRAM7 serves (R241, R281). [DEDUCED: log 35] -/
def State.calLoad (s : State) (n : Nat) : State :=
  let s := s.setCfg .pager 0xC0 (BitVec.ofNat 32 n)
  if s.domUp 53 then s.calShow else (s.modPager (fun p => { p with calRead := true })).settle
/-- A write of CAL_SEL (R241). -/
def execCalSel (data : W32) (s : State) : Host.Outcome State Fault Refusal :=
  .next ((s.begin).through .pager 0xC0 data (fun s => s.calLoad (fld data 7 0)))

/-! ### KEYX (R162, R163, R168) -/

/-- A core takes the next job (R22, R228). -/
def State.keyxStart (s : State) : State :=
  if s.domUp 44 then
    match s.nextJob with
    | none => s
    | some j => match s.coreFor j with
      | none => s
      | some c =>
        let k := s.jobKek j
        (s.setCore c (some j)).modKeyx (fun x => { x with
          queue := x.queue.erase j, held := Tab.ins x.held c k,
          ahead := match j with
            | .unwrap _ _ => if x.queue.contains .install then x.ahead + 1 else x.ahead
            | _ => 0 })
  else s
/-- A core takes the next job. -/
def execKeyxJobStart (s : State) : Host.Outcome State Fault Refusal := .next ((s.begin).keyxStart)
/-- An install ends at KEYX (R168 orders 10 to 12, R169): the slot is written, or drains first; a channel that has left
meanwhile is fetched again. -/
def State.installDone (s : State) (c : W32) : State :=
  let x := cmdChix c
  let b := cmdB28 c
  match s.whereIs x with
  | .here e en =>
    let bl := s.blob
    let klc := (byteAt bl 2).toNat
    let ref := ofBe (slice bl 4 2)
    let xpn := suiteXpn (cSuite en.cfg0)
    let pn := (s.cfg .keyw 0x94).toNat * 2 ^ 32 + (s.cfg .keyw 0x90).toNat
    match s.kek ((byteAt bl 1).toNat) with
    | none => s.keywDone 0x11 s.keywGen
    | some k => match unwrapBlob k (bl.drop 8) (usageOf en.cfg0 false) klc x ref 1 b with
      | .error r => s.keywDone r s.keywGen
      | .ok (key, salt) =>
        s.installSlot e b (keyMat en.cfg0 key salt (BitVec.ofNat 2 (fld (s.cfg .keyw 0x88) 1 0))
          (if xpn then s.cfg .keyw 0x8C else 0) (BitVec.ofNat 8 klc) (BitVec.ofNat 16 ref) pn)
  | _ => s.keywRun
/-- A job has ended on a core. -/
def State.keyxEnd (s : State) (c : Nat) : State :=
  match s.core c with
  | none => s
  | some j =>
    let s := s.setCore c none
    if s.kekWaits j then s.keyxPush j
    else match j with
    | .install => (match s.pager.keyw with
      | some w => s.installDone w
      | none => s)
    | .unwrap x b => s.pageUnwrapped x b
    | .wrap x b => s.outWrapped x b
/-- A KEYX core finishes its job. [DESIGN CHOICE: log 4] -/
def execKeyxJobDone (core : Fin 4) (s : State) : Host.Outcome State Fault Refusal :=
  .next (((s.begin).keyxEnd core.val).settle)

/-! ### Slots and key changes that end with time -/

/-- No frame holds the old GEN of a slot (R150): a drain or a clearing ends, and a page-out that waited goes on.
[DEDUCED: log 62] -/
def execSlotDrainDone (chix : BitVec 20) (slotB : Bool) (s : State) : Host.Outcome State Fault Refusal :=
  let s := s.begin
  .next (match s.resident chix.toNat with
    | some e => ((s.settleSlot e slotB).outTry chix.toNat).settle
    | none => s.settle)
/-- TM_L_ reaches R of an armed Solstice of a resident channel (R211, R213). -/
def execSolsticeRetire (chix : BitVec 20) (s : State) : Host.Outcome State Fault Refusal :=
  let s := s.begin
  .next (match s.resident chix.toNat with
    | some e => (match s.entry e with
      | some en => (match en.sol with
        | some q => if s.solDue q then s.retire e q else s
        | none => s)
      | none => s)
    | none => s)
/-- A deferred Equinox has waited EQX_STALL_US: counted once, and STALL is set (R206). -/
def execEqxStall (chix : BitVec 20) (s : State) : Host.Outcome State Fault Refusal :=
  let s := s.begin
  .next (match s.resident chix.toNat with
    | some e => (match s.entry e with
      | some en => (match en.eqx with
        | some q =>
          if q.deferred && !q.stalled then
            ((s.modEntry e (fun x => { x with eqx := some { q with stalled := true } })).setFlag .glb 0x50 2).evt 148 1
          else s
        | none => s)
      | none => s)
    | none => s)

end Sys2Proof.Machine
end

