-- ==== Sys2Proof/Machine/Leasing.lean ====
section
/-! DEFINITION. Commands of the lease unit: the answers of the NV macro and the end of the start-up scan (R44, R178,
R188 to R193, R197, R400). -/
namespace Sys2Proof.Machine

/-- The oldest journal write is answered. -/
def State.nvWritten (s : State) (err : Bool) : State :=
  match s.lease.staleW, s.lease.nvw with
  | w :: t, _ =>
    let s := s.modLease (fun l => { l with staleW := t })
    if err then s.nvErr w true else s
  | [], w :: t =>
    let s := s.modLease (fun l => { l with nvw := t })
    if err then s.nvErr w false else s.nvOk w
  | [], [] => s
/-- An NV write completes: a request may commit, or its sector fails (R44). [DEDUCED, DESIGN CHOICE: log 4, 83, 86] -/
def execNvWriteResponse (err : Bool) (s : State) : Host.Outcome State Fault Refusal :=
  .next (((s.begin).nvWritten err).settle)
/-- The oldest journal read is answered. -/
def State.nvRead (s : State) (err : Bool) (data : Bytes) : State :=
  if 0 < s.lease.staleR then (s.modLease (fun l => { l with staleR := l.staleR - 1 })).scanAsk
  else if s.lease.scanning ∧ s.lease.got < s.lease.asked then s.scanAnswer err data
  else s
/-- An NV read completes: a header or an entry of the scan (R192, R193). [DESIGN CHOICE: log 86] -/
def execNvReadResponse (err : Bool) (data : Bytes) (s : State) : Host.Outcome State Fault Refusal :=
  .next ((s.begin).nvRead err data)
/-- LIVE transmit slots, by vault slot. -/
def State.txLive (s : State) : List Nat :=
  (s.ch.slots.filter (fun p => decide (p.2.st = .live) &&
    (match s.entry (p.1 / 2) with | some en => en.live && !cRx en.cfg0 | none => false))).map (·.1)
/-- The scan is done: the directory stands, the head is taken, and every LIVE transmit slot restarts (R192, R197, R400), as
R334 states when the unit was promoted meanwhile. -/
def execLeaseScanDone (s : State) : Host.Outcome State Fault Refusal :=
  let s := s.begin
  .next (if s.lease.scanRead then
      let s := s.scanEnd
      (if s.pair.promoWait then s.promoLeases else s.forEach s.txLive (fun s v => s.restartLease v)).settle
    else s)

end Sys2Proof.Machine
end

