-- ==== Sys2Proof/Machine/Security.lean ====
section
/-! DEFINITION. Reset, bring-up, the key ladder, the KEKs, zeroisation, and the random source with the mask generators
(R49 to R51, R58, R59, R118, R153 to R157, R173, R245, R390). -/
namespace Sys2Proof.Machine

/-! ### Zeroisation (R58, R173) -/

/-- The schedules of every resident channel end: a pending Equinox is counted as cancelled (R207, R213, R219).
[DEDUCED: log 64] -/
def State.zeroScheds (s : State) : State :=
  s.forEach s.ch.entries (fun s p => match p.2 with
    | some en =>
      let s := s.when en.eqx.isSome (fun s => (s.evt 149 1).setFlag .glb 0x50 3)
      s.modEntry p.1 (fun x => { x with eqx := none, sol := none })
    | none => s)
/-- Every slot is EMPTY, every lease ends; entries already bound for the journal are still written (R149, R198).
[DEDUCED: log 64] -/
def State.zeroSlots (s : State) : State :=
  ((s.forEach (s.ch.slots.map (·.1)) (fun s v => s.modSlot v Slot.zeroised)).modLease (fun l => { l with waits := [] })).modPair
    (fun p => { p with exposed := [] })
/-- KEYX ends its jobs: an install with its command, an unwrap with an EMPTY slot, a wrap with none (R173, R240). -/
def State.zeroKeyx (s : State) : State :=
  let jobs := s.keyx.cores.filterMap (·.2) ++ s.keyx.queue
  let s := s.modKeyx (fun k => { k with cores := [], held := [], queue := [], ahead := 0 })
  let s := s.modPager (fun p => { p with outs := p.outs.map (fun o => { o with blobs := o.blobs.map (fun b => (b.1, [])) }) })
  s.forEach jobs (fun s j => match j with
    | .install => s
    | .unwrap x b => s.pageUnwrapped x b
    | .wrap x b => s.outWrapped x b)
/-- The key of a selector is lost: its set, its buffer entries, and the requests in flight under it (R245, R262, R298). -/
def State.selLost (s : State) (p : Nat → Bool) : State :=
  let gone := ((s.store.sels.filter (fun q => p q.1)).map (·.1))
  let s := s.when (decide (s.store.march.st ≠ .idle) && p s.store.march.tgt) (·.marchIdle)
  let s := s.forEach gone (fun s n => s.setKey n {})
  let s := (s.modStore (fun t => { t with cache := t.cache.filter (fun n => !p n), missed := t.missed.filter (fun n => !p n) })).dropWcb p
  s.forEach (s.store.out.filter (fun r => p r.sel && decide (r.who ≠ .gone))) (fun s r => s.endOut r)
/-- The selectors without ZKEEP lose their keys, and KEYS_CLEARED is set (R245, R261). [DEDUCED: log 64] -/
def State.zeroStore (s : State) : State :=
  (s.selLost (fun n => !(s.keySel n).zkeep)).setFlag .store 0x40 6
/-- Zeroisation starts: 0 by command, 1 by the filter in PD_AO, 2 by the filter in PD_SEC. A further start has no effect. -/
def State.zeroise (s : State) (inst : Nat) : State :=
  if s.sys.zero ≠ .no then s
  else
    let s := ((s.evt 109 1).detect0 0x36 inst).modFlt (fun f => { f with alarmHard := true })
    let s := if s.pager.keyw.isSome then s.keywDone 0x1A s.keywGen else s
    let s := s.modSys (fun y => { y with
      zero := .running, rootKey := none, klPartial := 0, klDead := true, keks := [], kek63 := none, derive := [],
      rederive := false, kekReady := false, vaultMask := none })
    let s := s.endFrames (fun _ => true) .abort (fun f => some (if f.dir = .egress then 0x10 else 0x4D))
    let s := (s.zeroScheds.zeroSlots.zeroKeyx).zeroStore
    let s := (s.modPair (fun p => { p with pk := none, ak := none })).pairDo (·.sessionEnd)
    s.when (decide (3 ≤ s.sys.phase)) (fun s => ((s.wakeDom 1).wakeDom 53).settle)
/-- The filter in PD_SEC has power: PD_SEC is in SUMMER or AUTUMN (R58, R278, R291). -/
def State.secOn (s : State) : Bool := decide (s.season 1 = .summer) || decide (s.season 1 = .autumn)
/-- TAMPER_N has been low for 40 ns at a filter; the filter in PD_SEC works while PD_SEC is on (R58, R291). -/
def execTamper (filter : Fin 2) (s : State) : Host.Outcome State Fault Refusal :=
  let s := s.begin
  .next (if filter.val = 0 then s.zeroise 1 else if s.secOn then s.zeroise 2 else s)
/-- ZEROISE: a write of the register. -/
def execZeroise (data : W32) (s : State) : Host.Outcome State Fault Refusal :=
  .next ((s.begin).through .sec 0xA4 data (·.zeroise 0))
/-- ZEROISE_COMPLETE: a fault event for each bank that did not read back as zero, then ZEROISED (R173). -/
def execZeroiseComplete (badBanks : List (BitVec 8)) (s : State) : Host.Outcome State Fault Refusal :=
  let s := s.begin
  .next (if s.sys.zero = .running then
      (s.forEach badBanks (fun s b => s.detect 0x32 b.toNat (BitVec.ofNat 32 b.toNat) 0)).modSys (fun y => { y with zero := .done })
    else s)

/-! ### Reset and bring-up (R59, R390) -/

/-- RST_N: everything is reset; a tamper seen meanwhile by the filter in PD_AO starts zeroisation as RST_N rises (R58).
[DESIGN CHOICE: log 7] -/
def State.coldReset (s : State) (tamperSeen : Bool) : State :=
  let t := { State.reset with pending := s.pending, freeCtr := s.freeCtr }
  if tamperSeen then (t.modSys (fun y => { y with tamperHeld := true })).zeroise 1 else t
/-- RST_N. [DESIGN CHOICE: log 7] -/
def execRstN (tamperSeen : Bool) (s : State) : Host.Outcome State Fault Refusal := .next (s.coldReset tamperSeen)
/-- The first 2n words of the seed buffer as n 256-bit values, the earlier word most significant. -/
def pairSeeds : List W128 → List (BitVec 256)
  | a :: b :: t => (a ++ b) :: pairSeeds t
  | _ => []
/-- PD_SEC serves and its generator has no seed: it is seeded when there are words (R286, R390). [DEDUCED: log 18] -/
def State.seedSec (s : State) : State :=
  s.when (s.domUp 1 && !s.sys.maskSeed.any (fun p => decide (p.1 = 46)) && decide (2 ≤ s.seedsFree.length)) (·.seedGen 46)
/-- The draws of the third phase: vault mask key, KEK 63, store master key; PD_SEC's generator is seeded (R153, R155,
R245, R286). After a tamper nothing secret is drawn. [DEDUCED: log 18] -/
def State.bootDraw (s : State) : State :=
  let l := s.sys.seeds
  if s.sys.zero = .no then
    let k := pairSeeds l
    ((s.modSys (fun y => { y with seeds := l.drop 6, vaultMask := k[0]?, kek63 := k[1]? })).modStore (fun t =>
      { t with master := k.getD 2 0 })).seedSec
  else
    ((s.modSys (fun y => { y with seeds := l.drop 2 })).modStore (fun t => { t with master := (pairSeeds l).getD 0 0 })).seedSec
/-- Domains that the recovery sequencer switches on in its third phase. [DEDUCED: log 19] -/
def bootDoms : List Nat := [1, 46, 47, 48, 49, 50, 53]
/-- The recovery sequencer requests domains ON (R52, R390). -/
def State.bootAsk (s : State) (l : List Nat) : State := s.forEach l (fun s d => s.pmIssue d .on)
/-- The phase that needs domains has ended, so those that can be had serve. [DEDUCED: log 19] -/
def State.domsSummer (s : State) (l : List Nat) : State :=
  s.forEach l (fun s d => s.modDom d (fun m => if m.unavail then m else { m with season := .summer, req := none, want := none }))
/-- A latent test has passed. -/
def State.latentPassed (s : State) (t : Nat) : State :=
  s.modFlt (fun f => { f with latentAt := Tab.set none f.latentAt t (some s.sys.aoClk), latentLate := delNat f.latentLate t })
/-- The fifth phase ends: the buses are enabled, and every port enabled before sends its initial credits (R34, R59, R390).
[DEDUCED: log 17] -/
def State.portsStart (s : State) : State :=
  (s.modSys (fun y => { y with phase := 5 })).forEach ((List.range 32).filter s.portEn) (fun s p => s.rseInit p true)
/-- The next phase of bring-up ends. The second does not end before the seed buffer holds 16 words. With the fourth,
GLB_DIGEST is first computed, and GLB_DIG_CNT stays 0 (R358). [DEDUCED: log 18, 19] -/
def State.phaseEnd (s : State) : State :=
  let up := fun (s : State) => s.modSys (fun y => { y with phase := y.phase + 1 })
  match s.sys.phase with
  | 0 => (((up s).latentPassed 5).latentPassed 6).bootAsk [2]
  | 1 => if s.sys.seeds.length < 16 then s
    else ((up s).domsSummer [2]).bootAsk bootDoms
  | 2 => ((up s).domsSummer bootDoms).bootDraw
  | 3 => ((up s).startScan).modRegs (fun r => { r with glbDigest := s.glbDigestNow })
  | 4 => s.portsStart
  | _ => s
/-- SEQ_PHASE_END. -/
def execSeqPhaseEnd (s : State) : Host.Outcome State Fault Refusal := .next (((s.begin).phaseEnd).settle)

/-! ### The key ladder (R50, R51) -/

/-- A beat in order: the eighth completes the root key. -/
def State.klTake (s : State) (data : W32) : State :=
  let v := s.sys.klPartial <<< 32 ||| BitVec.ofNat 256 (ofBe (leBytes 4 data.toNat))
  if s.sys.klTaken = 7 then
    s.modSys (fun y => { y with rootKey := some v, klPartial := 0, klTaken := 8, klAck := true })
  else s.modSys (fun y => { y with klPartial := v, klTaken := y.klTaken + 1 })
/-- A beat of the key ladder, which is listened to from the end of the fourth phase (R390).
[DEDUCED, DESIGN CHOICE: log 22, 115] -/
def State.klBeat (s : State) (beat : Nat) (data : W32) : State :=
  if s.sys.phase < 4 then s
  else if s.sys.klTaken = 8 then s.detect0 0x35 0
  else if s.sys.klDead then s
  else if beat = s.sys.klTaken then s.klTake data
  else (s.modSys (fun y => { y with klPartial := 0, klTaken := 0, klDead := true })).detect0 0x33 0
/-- KL_BEAT. -/
def execKlBeat (beat : BitVec 3) (data : W32) (s : State) : Host.Outcome State Fault Refusal :=
  .next ((s.begin).klBeat beat.toNat data)
/-- KL_FAIL: KL_ERR rises, or beat 7 has not come within 10 ms of RST_N. [DESIGN CHOICE: log 115] -/
def execKlFail (s : State) : Host.Outcome State Fault Refusal :=
  let s := s.begin
  .next (if s.sys.klTaken = 8 ∨ s.sys.klDead = true then s
    else (s.modSys (fun y => { y with klPartial := 0, klTaken := 0, klDead := true })).detect0 0x34 0)

/-! ### KEKs (R154 to R157) -/

/-- KEK_EPOCH. -/
def State.kekEpoch (s : State) : Nat := (s.cfg .sec 0x84).toNat * 2 ^ 32 + (s.cfg .sec 0x80).toNat
/-- KEKs 0 to 62 that are enabled. [DEDUCED: log 27] -/
def State.kekEnabled (s : State) : NatSet :=
  (List.range 63).filter (fun n => if n < 32 then bit (s.cfg .sec 0x88) n else bit (s.cfg .sec 0x8C) (n - 32))
/-- The security core can derive: a root key is held, the block is not zeroised, SEC is not held. -/
def State.canDerive (s : State) : Bool := s.sys.rootKey.isSome && decide (s.sys.zero = .no) && !s.held .sec
/-- The last KEK has been derived. -/
def State.deriveEnd (s : State) : State :=
  if s.sys.rederive then s.modSys (fun y => { y with rederive := false })
  else (s.modSys (fun y => { y with kekReady := true })).pairDo (·.pairKeys)
/-- Derive the enabled KEKs. [DEDUCED: log 70] -/
def State.deriveStart (s : State) : State :=
  let l := s.kekEnabled
  let s := s.modSys (fun y => { y with derive := l, kekReady := false, rederive := false })
  if l.isEmpty then s.deriveEnd else s
/-- A write of KEK_DERIVE; a refused one sets DERIVE_ERR and keeps the register's one write. -/
def execKekDerive (data : W32) (s : State) : Host.Outcome State Fault Refusal :=
  let s := s.begin
  .next (if s.cpUp then
      ((s.answer false).gated .sec 0x90 data s.canDerive (fun t =>
        if s.canDerive then t.deriveStart else t.setFlag .sec 0x40 3)).settle
    else s)
/-- One KEK has been derived. [DEDUCED: log 70] -/
def State.deriveOne (s : State) (root : BitVec 256) (n : Nat) (rest : NatSet) : State :=
  let k := BitVec.ofNat 256 (ofBe (kdf (beBytes 32 root.toNat) labelKek n s.kekEpoch))
  let s := (s.modSys (fun y => { y with keks := Tab.ins y.keks n k, derive := rest })).evt 108 1
  if rest.isEmpty then s.deriveEnd else s
/-- KEK_DERIVED: the next KEK of the derivation is available. -/
def execKekDerived (s : State) : Host.Outcome State Fault Refusal :=
  let s := s.begin
  match s.sys.derive, s.sys.rootKey with
  | n :: rest, some root =>
    .next (if s.domUp 1 && !s.held .sec then (s.deriveOne root n rest).settle else s)
  | _, _ => .next s
/-- KEK_CHK_IDX takes an index: the check value is computed, or waits for PD_SEC to serve (R157, R278, R281). -/
def State.chkWrite (s : State) (data : W32) : State :=
  let s := s.setCfg .sec 0x9C (BitVec.ofNat 32 (fld data 5 0))
  if s.domUp 1 then s.chkShow else (s.modSys (fun y => { y with chkWait := true })).settle
/-- A write of KEK_CHK_IDX (R157). -/
def execKekCheck (data : W32) (s : State) : Host.Outcome State Fault Refusal :=
  .next ((s.begin).through .sec 0x9C data (·.chkWrite data))

/-! ### Random source and mask generators (R48, R49, R118) -/

/-- RN_FAULT: RN_ERR rises. -/
def execRnFault (s : State) : Host.Outcome State Fault Refusal :=
  .next (((s.begin).modSys (fun y => { y with rnErr := true })).detect0 0x40 0)
/-- The domain of a mask generator. -/
def genDom (g : Nat) : Nat := if g < 40 then g + 4 else if g < 44 then 44 else if g < 46 then 45 else 1
/-- A generator runs: its domain has power and has been seeded. -/
def State.genOn (s : State) (g : Nat) : Bool := decide (s.season (genDom g) ≠ .winter) && s.sys.maskSeed.any (fun p => decide (p.1 = g))
/-- Reseed a generator; without seed words it goes on from its state, and the reseed is late (R118). [DEDUCED: log 10] -/
def State.reseed (s : State) (g : Nat) (again : Bool) : State :=
  let t := s.seedGen g
  if g ∈ t.sys.maskLate then (if again then t else t.evt 120 1) else t.evt 300 1
/-- MASK_RESEED: the period of a generator ends. -/
def execMaskReseed (gen : Fin 47) (s : State) : Host.Outcome State Fault Refusal :=
  let s := s.begin
  .next (if s.genOn gen.val then s.reseed gen.val false else s)
/-- MASK_RESEED_RETRY: a late reseed is tried again. -/
def execMaskReseedRetry (gen : Fin 47) (s : State) : Host.Outcome State Fault Refusal :=
  let s := s.begin
  .next (if gen.val ∈ s.sys.maskLate then s.reseed gen.val true else s)
/-- A seed word is taken into the buffer of 16 (R49): RN_ERR was 0. [DESIGN CHOICE: log 115] -/
def State.seedTaken (s : State) (w : W128) : State :=
  if 1 ≤ s.sys.phase ∧ s.sys.seeds.length < 16 then
    ((((s.modSys (fun y => { y with rnErr := false, seeds := y.seeds ++ [w] })).seedSec).masterDraw).settle)
  else s
/-- SEED_WORD_TAKEN. -/
def execSeedWordTaken (word : W128) (s : State) : Host.Outcome State Fault Refusal := .next ((s.begin).seedTaken word)

end Sys2Proof.Machine
end

