-- ==== Sys2Proof/Machine/FaultOps.lean ====
section
/-! DEFINITION. The fault aggregator and its page: events, records, injections, and the faults of units and of KEYX cores
(R57, R163, R297, R301 to R304, R307). -/
namespace Sys2Proof.Machine

/-! ### Records (R301 to R303) -/

/-- A record. -/
def State.rec_ (s : State) (i : Nat) : Option FRec := Tab.get none s.flt.recs i
/-- Set or free a record. -/
def State.setRec (s : State) (i : Nat) (r : Option FRec) : State :=
  s.modFlt (fun f => { f with recs := Tab.set none f.recs i r })
/-- The records that are valid, with their numbers. -/
def State.recsValid (s : State) : List (Nat × FRec) :=
  s.flt.recs.filterMap (fun p => p.2.map (fun r => (p.1, r)))
/-- The oldest record of a list. -/
def oldestRec (l : List (Nat × FRec)) : Option (Nat × FRec) :=
  l.foldl (fun b p => match b with
    | none => some p
    | some q => if p.2.serial < q.2.serial then some p else some q) none
/-- The words of a record (R301). -/
def recWords : Option FRec → List W32
  | none => [0, 0, 0, 0, 0]
  | some r =>
    let e := r.ev
    [atBit true 31 ||| atPos e.cls.toNat 28 ||| atBit e.alarm 27 ||| atPos e.det.toNat 19 ||| atPos e.inst.toNat 10 |||
      atBit e.inj 9 ||| atPos r.count 0,
     e.infoA, e.infoB, atBit e.at_.vld 31 ||| BitVec.ofNat 32 (nsNs e.at_.ns), BitVec.ofNat 32 (nsSec e.at_.ns % 2 ^ 32)]
/-- FLT_REC_SEL. -/
def State.recSel (s : State) : Nat := fld (s.cfg .flt 0x84) 5 0
/-- Load the selected record into FLT_REC0 to FLT_REC4 (R304). [DEDUCED: log 77] -/
def State.recLoad (s : State) : State :=
  let w := recWords (s.rec_ s.recSel)
  s.forEach (List.range 5) (fun s i => s.setRo .flt (0x88 + 4 * i) (w.getD i 0))
/-- Two events fill the same record (R302, R311). [DEDUCED: log 77] -/
def FEvent.same (a b : FEvent) : Bool :=
  decide (a.det = b.det) && decide (a.inst = b.inst) && decide (a.infoA = b.infoA) && decide (a.infoB = b.infoB) && (a.inj == b.inj)
/-- PG_FAULT_EN of the owning page keeps an event out of the records (R303). [DEDUCED: log 77] -/
def State.recMasked (s : State) (e : FEvent) : Bool :=
  !e.alarm && decide (e.cls ≠ 4) &&
  (match pageOf e.page with
   | some p => !bit (s.cfg p 0x20) e.cls.toNat
   | none => false)
/-- LATENT_LATE or TEST_LATE has been recorded (R304). [DEDUCED: log 77] -/
def State.recNoted (s : State) (e : FEvent) : State :=
  s.when (decide (e.det = 0x0A) || decide (e.det = 0x47)) (·.setFlag .flt 0x40 7)
/-- Write a new record. -/
def State.putRec (s : State) (i : Nat) (e : FEvent) : State :=
  ((s.setRec i (some { ev := e, count := 1, serial := s.flt.serial })).modFlt (fun f => { f with serial := f.serial + 1 })).recNoted e
/-- The lowest-numbered free record. [DEDUCED: log 77] -/
def State.recFree (s : State) : Option Nat := (List.range 64).find? (fun i => (s.rec_ i).isNone)
/-- The aggregator takes one event (R302). [DEDUCED: log 77] -/
def State.takeEvent (s : State) (e : FEvent) : State :=
  if s.recMasked e then s
  else match s.recsValid.find? (fun p => p.2.ev.same e) with
    | some (i, r) => (s.setRec i (some { r with count := min 255 (r.count + 1) })).recNoted e
    | none => match s.recFree with
      | some i => s.putRec i e
      | none => match oldestRec (s.recsValid.filter (fun p => !p.2.ev.alarm)) with
        | some (i, _) => s.putRec i e
        | none => (s.setFlag .flt 0x40 2).modFlt (fun f => { f with alarmOvf := f.alarmOvf || e.alarm })
/-- FAULT_EVENT: the aggregator takes the oldest event that waits. -/
def execFaultEvent (s : State) : Host.Outcome State Fault Refusal :=
  let s := s.begin
  .next (match s.flt.queue with
    | e :: rest => (s.modFlt (fun f => { f with queue := rest })).takeEvent e
    | [] => s)
/-- A write of FLT_REC_SEL (R304). -/
def execFltRecSel (data : W32) (s : State) : Host.Outcome State Fault Refusal :=
  .next ((s.begin).through .flt 0x84 data (fun s => (s.setCfg .flt 0x84 (BitVec.ofNat 32 (fld data 5 0))).recLoad))
/-- Clearing a record that held ALARM does not release ALARM_N while REC_OVF is set (R303). -/
def State.recLet (s : State) (was : State) : State :=
  s.when (s.flag .flt 0x40 2 && was.alarm) (·.modFlt (fun f => { f with alarmOvf := true }))
/-- A write of FLT_REC_CLR: bit 0 the selected record, bit 1 every record (R303). [DEDUCED: log 77] -/
def State.recClr (s : State) (data : W32) : State :=
  let t := s.when (bit data 0) (fun s => s.setRec s.recSel none)
  ((t.when (bit data 1) (·.modFlt (fun f => { f with recs := [] }))).recLet s).recLoad
/-- FLT_REC_CLR with bit 0. -/
def execFltRecClrOne (s : State) : Host.Outcome State Fault Refusal := .next ((s.begin).through .flt 0x9C 1 (·.recClr 1))
/-- FLT_REC_CLR with bit 1. -/
def execFltRecClrAll (s : State) : Host.Outcome State Fault Refusal := .next ((s.begin).through .flt 0x9C 2 (·.recClr 2))

/-! ### Units (R307) -/

/-- UNIT_FAULT_HOLD: the control detector of a partition fires. A slice has commands of its own; pair, AO and global have
no such detector. The store engine's record names one of its two pipelines. [DEDUCED: log 76] -/
def execUnitFaultHold (part : Part) (s : State) : Host.Outcome State Fault Refusal :=
  let s := s.begin
  .next ((if part = .store then s.draw.unitFault false part (Config.freePipe s.freeCtr % 2) else s.unitFault false part 0).settle)

/-! ### KEYX cores and mask generators (R163, R297) -/

/-- One second of CK_AO. [DEDUCED, DESIGN CHOICE: log 3, 81] -/
def oneSecond : Nat := 50000000
/-- The instants of a list less than a second old. [DEDUCED: log 81] -/
def lately (now : Nat) (l : List Nat) : List Nat := l.filter (fun t => decide (now < t + oneSecond))
/-- INFO_A of KEYX_FAULT: slot and CHIX of the job, 0 for an idle core (R301). -/
def State.jobInfo (s : State) : Option KJob → W32
  | some .install => (match s.pager.keyw with
    | some c => atBit (cmdB28 c) 20 ||| atPos (cmdChix c) 0
    | none => 0)
  | some (.unwrap x b) | some (.wrap x b) => atBit b 20 ||| atPos x 0
  | none => 0
/-- The job of a core that has failed ends (R163). [DEDUCED: log 71] -/
def State.jobFail (s : State) : Option KJob → State
  | some .install => s.keywDone 0x1B s.keywGen
  | some (.unwrap x _) => s.pageFail x 4 true
  | some (.wrap x _) => s.outFail x
  | none => s
/-- A KEYX core detects a fault: its job ends, its state is cleared, and the third fault within a second removes it.
[DEDUCED: log 71] -/
def State.keyxFault (s : State) (inj : Bool) (c : Nat) : State :=
  let j := s.core c
  let s := s.detectAs inj 0x30 c (s.jobInfo j) (if j.isSome then 0x1B else 0)
  let l := s.sys.aoClk :: lately s.sys.aoClk (Tab.get [] s.keyx.faults c)
  let gone := decide (3 ≤ l.length)
  let s := (s.setCore c none).modKeyx (fun k => { k with
    held := Tab.del k.held c, faults := Tab.set [] k.faults c (if gone then [] else l),
    removed := if gone then insNat k.removed c else k.removed })
  s.jobFail j
/-- KEYX_FAULT. -/
def execKeyxFault (core : Fin 4) (s : State) : Host.Outcome State Fault Refusal :=
  .next (((s.begin).keyxFault false core.val).settle)
/-- The unit of a generator is removed: a KEYX core, a store pipeline, or the security core by a hold. [DEDUCED: log 71] -/
def State.genRemoved (s : State) (g : Nat) : State :=
  if g < 4 then s.modKeyx (fun k => { k with removed := insNat k.removed g })
  else if g < 6 then s.modStore (fun t => { t with pipesOut := insNat t.pipesOut (g - 4) })
  else s.holdUnit .sec
/-- MASK_HLT_X: a generator outside the slices is reseeded; a second firing within a second removes its unit. -/
def State.maskHltX (s : State) (inj : Bool) (g : Nat) (again : Bool) : State :=
  let s := (s.detectAs inj 0x37 g 0 0).seedGen (40 + g)
  let l := lately s.sys.aoClk (Tab.get [] s.keyx.maskFires g)
  if again || !l.isEmpty then (s.modKeyx (fun k => { k with maskFires := Tab.set [] k.maskFires g [] })).genRemoved g
  else s.modKeyx (fun k => { k with maskFires := Tab.set [] k.maskFires g [s.sys.aoClk] })
/-- MASK_HLT_X; `second` states that an earlier firing lies less than 1 s back. -/
def execMaskHltX (gen : Fin 7) (second : Bool) (s : State) : Host.Outcome State Fault Refusal :=
  .next (((s.begin).maskHltX false gen.val second).settle)

/-! ### Injection (R304) -/

/-- An injected detection of a detector that exists acts on the unit that INST names; a detector whose action concerns a
particular item makes the record and the count only. -/
def State.injectNow (s : State) (det inst : Nat) : State :=
  if det = 7 then s.maskHalt true inst
  else if (1 ≤ det ∧ det ≤ 6) ∨ det = 8 ∨ det = 9 then s.sliceFault true inst det
  else if det = 0x15 then s.unitFault true (.port (Fin.ofNat 32 inst)) 0
  else if det = 0x2C then s.unitFault true .store inst
  else if det = 0x31 then s.unitFault true .sec 0
  else if det = 0x39 then s.unitFault true .lease 0
  else if det = 0x3C then s.unitFault true .pager 0
  else if det = 0x3D then s.unitFault true .march 0
  else if det = 0x30 then s.keyxFault true inst
  else if det = 0x37 then s.maskHltX true inst false
  else s.detectAs true det inst 0 0
/-- The effect of a write of FLT_INJECT. -/
def State.inject (s : State) (data : W32) : State :=
  let det := fld data 26 19
  let inst := fld data 18 10
  if !bit data 0 then s
  else if (detClass det).1 = 7 ∨ det = 0x50 ∨ instExists det inst = false then s.accessErr .flt
  else (s.injectNow det inst).settle
/-- A write of FLT_INJECT. -/
def execFltInject (data : W32) (s : State) : Host.Outcome State Fault Refusal :=
  .next ((s.begin).through .flt 0xA8 data (·.inject data))

end Sys2Proof.Machine
end

