-- ==== Sys2Proof/Machine/Resets.lean ====
section
/-! DEFINITION. Partition resets: what each ends, clears, keeps and restores, and the automatic ones (R23, R34, R134, R138,
R149, R156, R173, R192, R197, R240, R253, R261, R264, R307 to R311, R338, R339, R364, R368). -/
namespace Sys2Proof.Machine

/-! ### Registers (R308, R309) -/

/-- Registers that a reset of their page's partition keeps; MARCH keeps its span while a split exists (R156, R241, R263,
R264, R309, R340, R364, R368, R371). -/
def keptReg (split : Bool) (p : Page) (off : Nat) : Bool :=
  match p with
  | .ao => decide (0x80 ≤ off) && decide (off < 0x90)
  | .sec => decide (0x80 ≤ off) && decide (off ≤ 0x90)
  | .pair | .pager => decide (off = 0x80) || decide (off = 0x84)
  | .store => decide (off = 0x80) || decide (off = 0x84) || decide (0x200 ≤ off)
  | .march => split && decide (0x80 ≤ off) && decide (off < 0x94)
  | .port n => decide (n = 0) && decide (off = 0x94)
  | .slice n => decide (off = 0x88) || (decide (n = 0) && decide (0x100 ≤ off))
  | _ => false
/-- The pages of a partition. -/
def partPages (q : Part) : List Page := allPages.filter (fun p => decide (p.part = q))
/-- The page of a register address belongs to a partition. -/
def inPart (q : Part) (a : Nat) : Bool := match addrPage a with | some p => decide (p.part = q) | none => false
/-- A register of a partition that its reset keeps. -/
def keptAddr (split : Bool) (a : Nat) : Bool := match addrPage a with | some p => keptReg split p (a % 0x1000) | none => false
/-- The Clear phase for the registers of a partition: every register, flag, staged copy and pending commit, but for what is
kept and for PG_EPOCH (R308, R352). -/
def State.clearPages (s : State) (q : Part) : State :=
  let split := s.store.march.split
  let stays := fun (a : Nat) => !inPart q a || keptAddr split a
  let s := s.modRegs (fun r => { r with
    cfg := r.cfg.filter (fun x => stays x.1), staged := r.staged.filter (fun x => !inPart q x.1),
    ro := r.ro.filter (fun x => !inPart q x.1), sticky := r.sticky.filter (fun x => !inPart q x.1),
    latch := r.latch.filter (fun x => !inPart q x.1), held := r.held.filter (fun x => !inPart q x.1),
    once := r.once.filter stays, parBad := r.parBad.filter stays, digestStale := true })
  let s := s.modRegs (fun r => { r with
    staged := (r.cfg.filter (fun x => inPart q x.1)).foldl (fun t x => Tab.set (regReset x.1) t x.1 x.2) r.staged })
  s.forEach (partPages q) (fun s p => s.modHdr p (fun h => { epoch := h.epoch }))

/-! ### What each partition ends and clears -/

/-- A port: its frames end with ABORT, and its tickets, credits, buffer space, bucket and counters are cleared; its black
lanes take Lane control RESET (R10, R23, R34). -/
def State.resetPort (s : State) (n : Nat) : State :=
  let lanes := (List.range (s.portLanes n)).map (n + ·)
  let s := (s.clearPages (.port (Fin.ofNat 32 n))).endFrames (fun f => decide (f.port = n)) .abort (fun _ => none)
  let keys := [chanKey .egress n false, chanKey .egress n true, chanKey .ingress n false, chanKey .ingress n true]
  let s := s.modDp (fun d => { d with
    ticketNext := keys.foldl Tab.del d.ticketNext, credit := keys.foldl Tab.del d.credit,
    sent := keys.foldl Tab.del d.sent, crInit := keys.foldl delNat d.crInit
    stubs := d.stubs.filter (fun t => decide (t.port ≠ n)), bufFree := keys.foldl Tab.del d.bufFree, bucket := Tab.del d.bucket n })
  (s.pcntClearAll n).forEach (lanes.filter (· < 32)) (fun s l => s.emit (.laneCtl l .reset))
/-- A slice: its frames end with FAULT; a powered slice goes to TEST, one in WINTER or still waiting for power stays
(R134, R309). -/
def State.resetSlice (s : State) (n : Nat) : State :=
  let s := (s.stomp (fun f => f.inSl n)).clearPages (.slice (Fin.ofNat 40 n))
  let c := s.sl n
  if c.st = .winter ∨ (c.st = .thaw ∧ (s.dom (n + 4)).req.isSome = true) then
    s.modSl n (fun c => { st := c.st, winterAt := c.winterAt, info := c.info })
  else (s.modSl n (fun c => { st := c.st, winterAt := c.winterAt })).enterTest n false
/-- The pager: page-ins, page-outs and group jobs end; the calendar stays (R240). -/
def State.resetPager (s : State) : State :=
  (s.pagerEnd.clearPages .pager).modPager (fun p => { p with
    ins := [], outs := [], fails := [], failInfo := 0, wseq := 0, jobs := [], running := false })
/-- The host's command ends without a result. -/
def State.hostDrop (s : State) : State :=
  (s.forgetReqs (fun q => decide (q = .host))).modStore (fun t => { t with
    cmd := none,
    wcb := t.wcb.map (fun w => { w with waiters := w.waiters.map (fun r => if r.who = .host then { r with who := .gone } else r) }) })
/-- The store engine stops taking requests and writes its dirty entries back (R253). -/
def State.resetStore (s : State) : State :=
  let s := s.hostDrop
  let dirty := s.store.wcb.filter (fun w => decide (w.dirty ≠ 0) && !w.writing && !w.filling)
  let s := (s.forEach dirty (fun s w => s.writeBack w)).clearPages .store
  s.modStore (fun t => { t with failAddr := 0, failInfo := 0, rstMark := t.nextId })
/-- MARCH: the walk stops; without a split nothing of it is kept (R261, R264). -/
def State.resetMarch (s : State) : State :=
  let s := s.marchDrop
  (s.clearPages .march).when (!s.store.march.split) (·.modMarch (fun _ => {}))
/-- The lease unit: every request in flight ends, every lease waits, and the journal is scanned (R181, R192, R197). -/
def State.resetLease (s : State) : State :=
  let s := (s.clearPages .lease).modLease (fun l => { l with cmd := none, waits := [] })
  let s := s.modCh (fun c => { c with slots := c.slots.map (fun p =>
    (p.1, if p.2.lst = .none then p.2 else { p.2 with lst := .wait, cause := .none })) })
  s.startScan
/-- The pair engine: as a failure of the pair link; what the recovery sequencer holds stays, and MIRROR_DROP counts since RST_N (R309,
R319, R338). [DEDUCED: log 80] -/
def State.resetPair (s : State) : State :=
  let s := (s.pairDo (·.peerLose)).clearPages .pair
  let s := s.modPair (fun p => { p with
    inbox := [], jnlWait := [], skewed := [], peerHealth := 0, healthStale := false, arbLost := false, reqHold := false,
    peerJnlFail := false, jnlFail := false, echo := 0, nonces := [], yielding := false, yieldFlag := false, cfgStaged := false,
    exposed := [], unseen := [], floorLate := false })
  s.modCh (fun c => { c with slots := c.slots.map (fun p => (p.1, { p.2 with floorAt := none })) })
/-- Jobs on KEYX cores start over, ahead of those that wait; an install is dropped (R23, R173). -/
def State.keyxRestart (s : State) : State :=
  let page := fun (j : KJob) => !decide (j = .install)
  let run := (s.keyx.cores.filterMap (·.2)).filter page
  s.modKeyx (fun k => { k with cores := [], held := [], queue := run ++ k.queue.filter page, ahead := 0 })
/-- Vault slots that hold a parked key. -/
def State.parked (s : State) : List Nat := (s.ch.slots.filter (fun p => decide (p.2.st = .draining))).map (·.1)
/-- The security core: KEKs 0 to 62 are derived again when KEK_DERIVE has been used; the root key, KEK 63 and the vault stay
(R23, R149, R156, R309). [DEDUCED: log 22] -/
def State.resetSec (s : State) : State :=
  let s := (s.keyxRestart).modPager (fun p => { p with keyw := none })
  let s := (s.forEach s.parked (fun s v => s.unparkSlot (v / 2) (decide (v % 2 = 1)))).clearPages .sec
  let again := decide (Page.at .sec 0x90 ∈ s.regs.once) && s.sys.rootKey.isSome && decide (s.sys.zero = .no)
  let l := if again then s.kekEnabled else []
  s.modSys (fun y => { y with
    keks := [], derive := l, rederive := false, kekReady := false, klPartial := 0, klTaken := if y.klTaken = 8 then 8 else 0 })
/-- The always-on partition: the governor, the calendar compare, the time captures and the aggregator's registers; seasons
in force and records stay (R289, R291, R309). -/
def State.resetAo (s : State) : State :=
  let s := (s.clearPages .ao).modPager (fun p => { p with floors := [] })
  let s := s.modPwr (fun _ => { dom := s.pwr.dom.map (fun q =>
    (q.1, { q.2 with unavail := false, refused := false, want := none, seedWait := false })) })
  s.modSys (fun y => { y with capHi := [], capNs := [], clkMeas := [], stepTime := 0, stepCopyA := false })
/-- The global fields that PORT 0 and SLICE 0 hold take their reset values; PG_EPOCH counts a change (R364, R368). -/
def State.resetShared (s : State) (p : Page) (offs : List Nat) : State :=
  let changed := offs.any (fun o => decide (s.cfg p o ≠ regReset (p.at o)))
  let t := s.forEach offs (fun s o => (s.setCfg p o (regReset (p.at o))).setStaged p o (regReset (p.at o)))
  (t.when changed (·.bumpEpoch p)).cfgActs s p
/-- Requests of the channel tables. -/
def Req.ofTables : Req → Bool
  | .host | .wcbFill | .wcbBack | .march | .gone => false
  | _ => true
/-- Work in progress ends with a global reset. [DEDUCED: log 53] -/
def State.globEnd (s : State) : State :=
  let s := if s.pager.keyw.isSome then (s.keywDone 0x1A 0).zeroBlob else s
  (s.endFrames (fun _ => true) .abort (fun _ => none)).forgetReqs Req.ofTables
/-- The tables that a global reset empties. [DEDUCED: log 48] -/
def State.globTables (s : State) : State :=
  ((((((s.modKeyx (fun k => { k with cores := [], queue := [], ahead := 0 })).modCh (fun _ => {})).modPager (fun p => { p with
    ins := [], outs := [], saw := none, sawLines := [], sawLeft := [], sawFail := false })).modStore (fun t =>
    { t with spills := [], zeros := [], fin := [] })).modLease (fun l => { l with waits := [] })).modCnt (fun _ => {})).modDp (fun d =>
    { d with byp := [], bypStaged := [], catchTab := [] })
/-- The pages and the shared settings that a global reset returns to their reset values. -/
def State.globPages (s : State) : State :=
  let s := (s.clearPages .glob).modRegs (fun r => { r with glbDigCnt := 0 })
  (s.resetShared (.port 0) [0x94]).resetShared (.slice 0) [0x100, 0x104, 0x108, 0x10C]
/-- The global partition: every frame, channel, slot, counter and bypass entry; the root key, the journal, the calendar and
the store's seeds stay (R23, R110, R165, R173, R213, R221, R240, R261, R309, R339). [DEDUCED: log 39, 53] -/
def State.resetGlob (s : State) : State :=
  ((s.globEnd.globTables.pairDo (·.modPair (fun p => { p with
    ready := false, skewed := [], qFloor := [], exposed := [], unseen := [],
    resync := decide (p.role = .standby) }))).globPages).startScan

/-! ### Start and end -/

/-- A partition reset begins: quiesce, end and clear (R308). [DEDUCED: log 80] -/
def State.resetBegin (s : State) (q : Part) : State :=
  let s := (s.modRegs (fun r => { r with resetting := r.resetting ++ [q] })).modFlt (fun f => { f with held := f.held.filter (· ≠ q) })
  match q with
  | .port n => s.resetPort n.val
  | .slice n => s.resetSlice n.val
  | .pager => s.resetPager
  | .store => s.resetStore
  | .march => s.resetMarch
  | .lease => s.resetLease
  | .pair => s.resetPair
  | .sec => s.resetSec
  | .ao => s.resetAo
  | .glob => s.resetGlob
/-- A reset is asked for. While the global reset runs or waits others are ignored; it waits for those that run (R311).
[DEDUCED: log 80] -/
def State.askReset (s : State) (q : Part) : State :=
  if s.resetOn q ∨ .glob ∈ s.regs.resetting ∨ .glob ∈ s.regs.resetWait then s
  else if q = .glob ∧ s.regs.resetting.isEmpty = false then s.modRegs (fun r => { r with resetWait := [.glob] })
  else s.resetBegin q
/-- PG_RESET: a write of GO. -/
def execPgReset (page : BitVec 8) (s : State) : Host.Outcome State Fault Refusal :=
  let s := s.begin
  .next (match pageOf page.toNat with
    | some p => s.through p 0x1C 1 (fun s => (s.askReset p.part).settle)
    | none => if s.cpUp then s.answer false else s)
/-- What a partition restores before it returns has been restored (R309). [DEDUCED: log 80] -/
def State.restored (s : State) (q : Part) : Bool :=
  match q with
  | .lease | .glob => s.lease.scanDone
  | .sec => s.sys.derive.isEmpty
  | _ => true
/-- The store engine ends what was outstanding and discards what is left of its buffer; the pager reads the page-ins that
were in progress again (R23, R253). [DEDUCED: log 80] -/
def State.storeReturn (s : State) : State :=
  let mark := s.store.rstMark
  let redo := (s.pager.ins.filter (fun p => p.started && !p.whole)).map (·.chix)
  let s := s.forgetReqs (fun q => match q with | .pagerIn x _ => decide (x ∈ redo) | _ => false)
  let s := s.forEach (s.store.out.filter (fun r => decide (r.ser < mark) && !decide (r.who = .gone))) (fun s r => s.endOut r)
  let old := s.store.wait.filter (fun r => decide (r.ser < mark))
  let s := (s.modStore (fun t => { t with wait := t.wait.filter (fun r => decide (mark ≤ r.ser)) })).forEach old (fun s r => s.finish r .bus)
  let s := s.forEach s.store.wcb (fun s w => if w.dirty = 0 ∧ w.writing = false then s.freeWcb w.line else s.wcbLost w)
  s.forEach redo (fun s x => (s.modIn x (fun p => { p with lines := [], queued := [], done := [] })).modKeyx (fun k =>
    { k with queue := k.queue.filter (fun j => match j with | .unwrap y _ => decide (y ≠ x) | _ => true),
             cores := k.cores.filter (fun c => match c.2 with | some (.unwrap y _) => decide (y ≠ x) | _ => true) }) |>.pageReads x)
/-- What follows once a partition is back. -/
def State.backInService (s : State) (q : Part) : State :=
  match q with
  | .store => s.storeReturn
  | .sec => s.when (decide (Page.at .sec 0x90 ∈ s.regs.once) && s.sys.rootKey.isSome && decide (s.sys.zero = .no) && !s.sys.kekReady) (·.deriveEnd)
  | .ao => s.forEach (List.range 40) (fun s n => s.slDrained n)
  | _ => s
/-- An automatic reset has completed (R307). [DEDUCED: log 81] -/
def State.autoDone (s : State) (q : Part) : State :=
  if q ∈ s.flt.autoNow then
    (s.modFlt (fun f => { f with autoNow := f.autoNow.filter (· ≠ q) })).setFlag .flt 0x40 6
  else s
/-- The action of a fault that met its partition's own reset (R311). [DEDUCED: log 81] -/
def State.lateFault (s : State) (q : Part) : State :=
  let s := match q with
    | .slice n => s.modFlt (fun f => { f with
        afterMask := if q ∈ f.afterReset then delNat f.afterMask n.val else f.afterMask })
    | _ => s
  if q ∈ s.flt.afterReset then
    let s := s.modFlt (fun f => { f with afterReset := f.afterReset.filter (· ≠ q) })
    match q with
    | .slice n => s.sliceDown n.val
    | _ => s.holdUnit q
  else match q with
    | .slice n =>
      if n.val ∈ s.flt.afterMask then (s.modFlt (fun f => { f with afterMask := delNat f.afterMask n.val })).maskDrain n.val else s
    | _ => s
/-- Return (R308): PG_EPOCH of each page counts, ACTIVE clears, and a global reset that waits begins. -/
def State.resetReturn (s : State) (q : Part) : State :=
  let s := s.forEach (partPages q) (fun s p => s.bumpEpoch p)
  let s := s.modRegs (fun r => { r with resetting := r.resetting.filter (· ≠ q) })
  let s := ((s.backInService q).autoDone q).lateFault q
  if s.regs.resetWait.isEmpty ∨ s.regs.resetting.isEmpty = false then s
  else (s.modRegs (fun r => { r with resetWait := [] })).resetBegin .glob
/-- PARTITION_RESET_DONE. -/
def execPartitionResetDone (part : Part) (s : State) : Host.Outcome State Fault Refusal :=
  let s := s.begin
  .next (if s.resetOn part && s.restored part then (s.resetReturn part).settle else s)

/-! ### Automatic resets (R138, R307) -/

/-- Bit of FLT_AUTO_EN of a partition. -/
def autoBit : Part → Option Nat
  | .port _ => some 0 | .pager => some 1 | .store => some 2 | .lease => some 3 | .march => some 4
  | _ => none
/-- A held partition may be reset automatically: FLT_AUTO_EN allows it, and its last automatic reset is not less than 1 s
back. [DEDUCED: log 81] -/
def State.autoMay (s : State) (q : Part) : Bool :=
  s.held q && (match autoBit q with | some b => bit (s.cfg .flt 0xA4) b | none => false) &&
  !s.flt.autoAt.any (fun a => decide (a.1 = q) && decide (s.sys.aoClk < a.2 + oneSecond))
/-- AUTO_PARTITION_RESET: 10 µs have passed since the fault. -/
def execAutoPartitionReset (part : Part) (s : State) : Host.Outcome State Fault Refusal :=
  let s := s.begin
  .next (if s.autoMay part && !s.resetOn part && !decide (.glob ∈ s.regs.resetting) && !decide (.glob ∈ s.regs.resetWait) then
      ((s.modFlt (fun f => { f with
        autoAt := (part, s.sys.aoClk) :: f.autoAt.filter (fun a => decide (a.1 ≠ part)), autoNow := f.autoNow ++ [part] })).askReset part).settle
    else s)
/-- SLICE_AUTO_REPAIR: 1 ms after a slice entered FAULTED it resets itself while its budget lasts (R138). -/
def execSliceAutoRepair (slice : Fin 40) (s : State) : Host.Outcome State Fault Refusal :=
  let s := s.begin
  let p := Page.slice slice.val
  let b := fld (s.cfg p 0x88) 3 0
  .next (if decide ((s.sl slice.val).st = .faulted) && decide (b ≠ 0) && !s.resetOn (.slice slice) &&
      !decide (.glob ∈ s.regs.resetting) && !decide (.glob ∈ s.regs.resetWait) then
      (((s.setCfg p 0x88 (BitVec.ofNat 32 (b - 1))).askReset (.slice slice)).setFlag p 0x40 4).settle
    else s)

end Sys2Proof.Machine
end

