-- ==== Sys2Proof/Machine/FaultCmds.lean ====
section
/-! DEFINITION. Memory errors by the contents of the word, register parity, output parity, latent tests and the loss of
lockstep (R13, R149, R151, R298 to R300, R305, R306, R355, R382, R386). -/
namespace Sys2Proof.Machine

/-! ### Records of memory errors -/

/-- SRAM_UE of a domain: word address and, where the contents belong to a channel, its CHIX (R301).
[DESIGN CHOICE: log 14] -/
def State.sramUe (s : State) (dom : Nat) (addr : W32) (chix : Option Nat) : State :=
  s.detect 0x21 dom addr (chixInfo chix.isSome (chix.getD 0))
/-- The channel of a resident entry. -/
def State.chanOf (s : State) (e : Nat) : Option Nat :=
  match s.entry e with
  | some en => if en.live then some en.chix else none
  | none => none
/-- SRAM_CE: the word is corrected and written back; a counter-tree word is counted CT_CE (R297, R382).
[DEDUCED, DESIGN CHOICE: log 14, 74] -/
def execSramCe (dom : Fin 54) (addr : W32) (ctEntry : Bool) (s : State) : Host.Outcome State Fault Refusal :=
  let s := s.begin
  let x := (Config.sramOwner dom.val addr).bind s.chanOf
  .next ((s.detect 0x20 dom.val addr (chixInfo x.isSome (x.getD 0))).when ctEntry (·.evt 240 1))

/-! ### Keys (R149, R151, R298) -/

/-- KEKs 0 to 62 are derived again under the present KEK_EPOCH; jobs that need one of them wait. [DEDUCED: log 70] -/
def State.kekAgain (s : State) : State :=
  if s.sys.rootKey.isSome && decide (s.sys.zero = .no) && (s.sys.kekReady || !s.sys.derive.isEmpty) then
    s.modSys (fun y => { y with derive := s.kekEnabled, rederive := y.kekReady })
  else s
/-- A word of the KEK store is lost. [DEDUCED: log 70] -/
def State.kekUe (s : State) (n : Nat) : State :=
  let s := s.detect 0x23 1 (BitVec.ofNat 32 n) 0
  if n = 63 then s.modSys (fun y => { y with kek63 := none })
  else (s.modSys (fun y => { y with keks := Tab.del y.keks n })).kekAgain
/-- The root key is lost. -/
def State.rootUe (s : State) : State :=
  (s.detect 0x23 1 (atBit true 8) 0).modSys (fun y => { y with rootKey := none })
/-- A frame that waits for a slice and whose slot has lost its key is dropped as KEY_GONE (R151). [DEDUCED: log 73] -/
def State.keyGone (s : State) (f : Frame) : State := s.dropStat f [(if f.dir = .egress then 4 else 11, 1)]
/-- The frames of a lost slot that have not read their key yet, and the one whose read met the error: the newest in a slice
whose ICV is not done. [DEDUCED: log 73] -/
def State.vaultFrames (s : State) (v : Nat) (g : BitVec 8) : List Frame :=
  let mine := s.dp.frames.filter (fun f => f.holds && decide (f.vslot = v) && decide (f.gen = g) && !f.void_)
  mine.filter (fun f => decide (f.stage = .waiting)) ++
    (match (mine.filter (fun f => decide (f.stage ≠ .waiting) && !f.icvDone)).getLast? with
     | some f => [f]
     | none => [])
/-- A vault read meets an uncorrectable error: the slot is lost, and the frame that read it ends with FAULT or is dropped
as KEY_GONE. [DEDUCED: log 73] -/
def State.vaultUe (s : State) (v : Nat) : State :=
  let x := s.chanOf (v / 2)
  let s := s.detect 0x22 1 (BitVec.ofNat 32 v) (chixInfo x.isSome (x.getD 0))
  let g := (s.slot v).gen
  let s := s.loseSlot (v / 2) (decide (v % 2 = 1))
  s.forEach (s.vaultFrames v g) (fun s f => match s.frame f.id with
    | some f => if f.sofOut then s.endFrame f .fault (faultCtr f) else s.keyGone f
    | none => s)
/-- VAULT_UE. -/
def execVaultUe (vslot : BitVec 17) (s : State) : Host.Outcome State Fault Refusal :=
  .next (((s.begin).vaultUe vslot.toNat).settle)

/-! ### Channels and counters (R298, R382, R386) -/

/-- The slot's transmit PN state is lost: the slot alone restarts from the ceiling of its half (R197). -/
def State.pnUe (s : State) (v : Nat) : State :=
  let s := s.sramUe 46 (Config.sramWord 2 v) (s.chanOf (v / 2))
  match s.entry (v / 2) with
  | some en => s.when (en.live && !cRx en.cfg0 && decide ((s.slot v).st = .live)) (·.restartLease v)
  | none => s
/-- The slot's receive PN state, in PD_SRAM0, or its replay bitmap, in PD_SRAM2, is lost: the slot is lost as by a vault error,
without ALARM_N. -/
def State.rxUe (s : State) (v : Nat) (bitmap : Bool) : State :=
  let s := s.sramUe (if bitmap then 48 else 46) (Config.sramWord (if bitmap then 15 else 2) v) (s.chanOf (v / 2))
  match s.entry (v / 2) with
  | some en => s.when (en.live && cRx en.cfg0) (·.loseSlot (v / 2) (decide (v % 2 = 1)))
  | none => s
/-- A slot of a lost channel record: its schedules and its lease end, and its key goes when no frame holds it.
[DEDUCED: log 72] -/
def State.slotOrphan (s : State) (e : Nat) (b : Bool) : State :=
  let v := vslotOf e b
  if (s.slot v).keyed then
    let s := ((s.schedOnSlot e b .lost).endLease v).modSlot v (fun o =>
      { o with st := .erased, clearing := true, retired := false, retAt := 0, park := none })
    s.slotChanged e b
  else s
/-- A CHIX becomes unknown: a page-in or page-out of it ends, and its lease handle is taken back from the lease directory.
[DEDUCED: log 72] -/
def State.chixLost (s : State) (x : Nat) : State :=
  let s := match s.pageIn x with
    | some p => (((s.when p.started (·.freeEntry p.entry)).dropIn x).mirrorFail x)
    | none => s
  (((((s.dropOut x).setResi x {}).syncHandle x).unexpose x false).unexpose x true).jobCheck
/-- A channel record is lost: frames already looked up complete, and the entry is free once its slots have drained.
[DEDUCED: log 72] -/
def State.recordUe (s : State) (e : Nat) : State :=
  let s := s.sramUe 47 (Config.sramWord 3 e) (s.chanOf e)
  match s.entry e with
  | none => s
  | some en =>
    if en.live then
      let s := (s.slotOrphan e false).slotOrphan e true
      (s.modEntry e (fun x => { x with live := false, evicting := true, pinned := false, eqx := none, sol := none })).chixLost en.chix
    else s
/-- A word of the counter tree is lost: the fields it holds restart; the last word keeps the statistics (R382).
[DESIGN CHOICE: log 14] -/
def State.treeUe (s : State) (e w : Nat) : State :=
  let s := (s.sramUe (if e * 16 + w < 524288 then 49 else 50) (Config.sramWord 4 (e * 16 + w)) (s.chanOf e)).evt 241 1
  match s.entry e with
  | none => s
  | some en =>
    if en.live = false then s
    else if w = 15 then s.modEntry e (fun x => (x.setField 30 0x40000000).setField 31 0x01000000)
    else
      let fs := [2 * w, 2 * w + 1]
      (s.restartLeaves en.chix fs).zeroTrunks en.chix fs (fun l => .restartWr en.chix l)
/-- An event counter is lost: it restarts from 0, and its next read sets POISON (R386). -/
def State.evcUe (s : State) (n : Nat) : State :=
  ((s.sramUe 2 (Config.sramWord 5 n) none).evt 241 1).modCnt (fun c => { c with
    evc := Tab.set 0 c.evc n 0, evcPoison := insNat c.evcPoison n })
/-- A port counter is lost. -/
def State.pcntUe (s : State) (port idx : Nat) : State :=
  ((s.sramUe 2 (Config.sramWord 6 (port * 128 + idx)) none).evt 241 1).modCnt (fun c => { c with
    port := Tab.set 0 c.port (port * 128 + idx) 0,
    portPoison := if portCtrNamed idx then insNat c.portPoison (port * 128 + idx) else c.portPoison })
/-- A frame's buffer word is lost: the frame is stomped, or dropped from the miss queue (R298, R300).
[DESIGN CHOICE: log 55] -/
def State.bufferUe (s : State) (id : Nat) : State :=
  match s.frame id with
  | some f =>
    let dom := match f.stage with | .waiting => 2 | .missq => 52 | _ => 51
    (s.sramUe dom (Config.sramWord 7 id) (if f.hasChan then some f.chix else none)).stomp (fun g => decide (g.id = id))
  | none => s

/-! ### The tables of PD_SRAM7 (R298) -/

/-- CHIXs whose fields of a width a 64-bit word holds, whole or in part. -/
def wordChixs (width w : Nat) : List Nat :=
  ((List.range 8).map (64 * w / width + ·)).filter (fun x =>
    decide (x < 2 ^ 20) && decide (width * x < 64 * (w + 1)) && decide (64 * w < width * x + width))
/-- A word of the residency map is lost: channels with an entry are restored, the others become unknown; meanwhile their
frames are dropped. -/
def State.residencyUe (s : State) (w : Nat) : State :=
  let s := (s.sramUe 53 (Config.sramBase 0 + BitVec.ofNat 32 w) none).modCh (fun c => { c with rebuilding := insNat c.rebuilding w })
  s.forEach ((wordChixs 17 w).filter (fun x => s.stored x)) (fun s x => s.chixLost x)
/-- A word of the group map is lost: its channels take group 0. -/
def State.groupUe (s : State) (w : Nat) : State :=
  (s.sramUe 53 (Config.sramBase 1 + BitVec.ofNat 32 w) none).modCh (fun c => { c with
    group := (wordChixs 12 w).foldl Tab.del c.group })
/-- A bypass entry is lost: its VALID is cleared. [DEDUCED: log 33] -/
def State.bypassUe (s : State) (n : Nat) : State :=
  ((s.sramUe 53 (Config.sramWord 8 n) none).modDp (fun d => { d with
    byp := Tab.modify 0 d.byp n (fun w => w &&& ~~~((1#128) <<< 127)) })).modRegs (fun r => { r with digestStale := true })
/-- Every selector loses its key, and a new store master key is drawn. [DEDUCED: log 74] -/
def State.masterUe (s : State) : State :=
  (((s.sramUe 53 (Config.sramWord 9 0) none).selLost (fun _ => true)).modStore (fun t => { t with masterLost := true })).masterDraw
/-- A word of the write-combining buffer is lost: the entry's unwritten bytes are lost (R252). [DEDUCED: log 74] -/
def State.wcbUe (s : State) (line : Nat) : State :=
  let s := s.sramUe 45 (Config.sramWord 10 line) none
  match s.wcb line with
  | some w =>
    let s := if w.dirty = 0 ∧ w.writing = false then s.freeWcb line else s.wcbLost w
    s.forEach w.waiters (fun s q => s.endReq q .bus)
  | none => s

/-- The effect of an uncorrectable error by the contents of its word (R298). -/
def State.ue (s : State) (loc : UeLoc) : State :=
  match loc with
  | .kek n => s.kekUe n.toNat
  | .rootKey => s.rootUe
  | .pnTx v => s.pnUe v.toNat
  | .rxState v m => s.rxUe v.toNat m
  | .chanRecord e => s.recordUe e.toNat
  | .counterWord e w => s.treeUe e.toNat w.toNat
  | .frameBuffer f => s.bufferUe f
  | .residencyWord w => s.residencyUe w.toNat
  | .groupWord w => s.groupUe w.toNat
  | .bypass n => s.bypassUe n.toNat
  | .calendar n => (s.sramUe 53 (Config.sramWord 11 n.toNat) none).setCal n.toNat 0
  | .leaseDir => (s.sramUe 53 (Config.sramWord 12 0) none).askReset .lease
  | .storeSeed sel => (s.sramUe 53 (Config.sramWord 13 sel.toNat) none).selLost (fun n => decide (n = sel.toNat))
  | .storeMaster => s.masterUe
  | .wcb line => s.wcbUe line.toNat
  | .eventCounter n => s.evcUe n.toNat
  | .portCounter p i => s.pcntUe p.val i.toNat
/-- SRAM_UE. -/
def execSramUe (loc : UeLoc) (s : State) : Host.Outcome State Fault Refusal := .next (((s.begin).ue loc).settle)
/-- RESIDENCY_MAP_REBUILD_DONE: the word is rebuilt (R298). -/
def execResidencyMapRebuildDone (word : BitVec 19) (s : State) : Host.Outcome State Fault Refusal :=
  .next ((s.begin).modCh (fun c => { c with rebuilding := delNat c.rebuilding word.toNat }))

/-! ### Registers and output stages (R299, R300, R355) -/

/-- A register carries parity: it has an RW field and lies at 0x080 or above, or is PG_FAULT_EN or PG_IRQ_EN; the event
counters themselves are memory (R355, R386). [DEDUCED: log 75] -/
def hasParity (p : Page) (off : Nat) : Bool :=
  match rowAt p off with
  | none => false
  | some r => decide (r.rw ≠ 0) && (decide (0x80 ≤ off) || decide (off = 0x20) || decide (off = 0x24)) &&
    (match p with | .evc _ => decide (off < 0x100) | _ => true)
/-- A register acts as its reset value, in both copies, until it is next written (R299). [DEDUCED: log 75] -/
def State.parityLoss (s : State) (p : Page) (off : Nat) : State :=
  let a := p.at off
  s.modRegs (fun r => { ((r.setCfg a (regReset a)).setStaged a (regReset a)) with
    parBad := insNat r.parBad a, digestStale := true })
/-- CFG_PAR of a page, or SL_CFG_PAR of a slice. [DEDUCED: log 75] -/
def State.cfgPar (s : State) (p : Page) (off : Nat) : State :=
  let t := s.parityLoss p off
  let t := match p with
    | .slice n =>
      (t.when (decide (off = 0x80)) (fun t => t.modSl n (fun c => { c with svcOut := false }))).sliceFault false n 9
    | _ => t.detect 0x45 p.num (BitVec.ofNat 32 off) 0
  let t := t.when (decide (p = .pair) && decide (off = 0x80) && s.pair.cfgSet) (·.modPair (fun q => { q with cfgStaged := true }))
  t.cfgActs s p
/-- CFG_PAR: a configuration register fails its parity check. -/
def execCfgPar (page : BitVec 8) (off : BitVec 12) (s : State) : Host.Outcome State Fault Refusal :=
  let s := s.begin
  .next (match pageOf page.toNat with
    | some p => if hasParity p off.toNat then (s.cfgPar p off.toNat).settle else s
    | none => s)
/-- OUT_PAR: a segment of the frame in progress on an output fails its parity check, and the frame is stomped.
[DESIGN CHOICE: log 55] -/
def execOutPar (dir : Dir) (port : Fin 32) (cls : Bool) (s : State) : Host.Outcome State Fault Refusal :=
  let s := s.begin
  .next (match s.headFrame (chanKey dir port.val cls) with
    | some f => if f.sofOut then (s.frameFault 0x14 f).endFrame f .fault (faultCtr f) else s
    | none => s)

/-! ### Latent tests (R305) -/

/-- The unit that a comparator of latent test 5 belongs to: slices, ports, then the units in this order, with the voters of RED_TMR of
each direction last. [DEDUCED: log 76] -/
def State.comparatorFault (s : State) (inst : Nat) : State :=
  if inst < 40 then s.sliceFault false inst 6
  else if inst < 72 then s.unitFault false (.port (Fin.ofNat 32 (inst - 40))) 0
  else match inst - 72 with
    | 0 => s.unitFault false .store 0
    | 1 => s.unitFault false .sec 0
    | 2 => s.unitFault false .lease 0
    | 3 => s.unitFault false .pager 0
    | 4 => s.unitFault false .march 0
    | 5 => s.unitFault false .store 1
    | 6 => s.detect0 0x18 0
    | 7 => s.detect0 0x18 1
    | _ => s
/-- Quiet, ALARM_N and SILENT, until RST_N (R13, R57, R306). [DEDUCED: log 40] -/
def State.aoLock (s : State) (pair : Nat) : State :=
  let gate := s.roleOpen
  let s := ((s.detect0 0x50 pair).modDp (fun d => { d with quiet := true })).modFlt (fun f => { f with alarmHard := true, silent := true })
  (s.modPair (fun p => { p with role := .silent, silentOpen := gate })).quietDrop
/-- The registers of a page that carry parity. -/
def parityRegs (p : Page) : List Nat := ((List.range 1024).map (4 * ·)).filter (hasParity p)
/-- Latent test 7 fails at a register of a page (R299, R305). [DEDUCED: log 76] -/
def State.parityTest (s : State) (p : Page) (n : Nat) : State :=
  match (parityRegs p)[n % (parityRegs p).length]? with
  | some off => s.cfgPar p off
  | none => s
/-- A failed latent test takes the action of the detector that it exercises. [DEDUCED: log 76] -/
def State.latentFailed (s : State) (t inst : Nat) : State :=
  match t with
  | 1 => if inst < 4 then s.keyxFault false inst else s
  | 2 => if inst < 2 then s.unitFault false .store inst else s
  | 3 => s.unitFault false .sec 0
  | 4 => if inst < 54 then s.sramUe inst (Config.sramWord 14 inst) none else s
  | 5 => s.comparatorFault inst
  | 6 => if inst < 5 then s.aoLock inst else s
  | 7 => (match pageOf inst with
    | some p => s.draw.parityTest p (Config.freeReg s.freeCtr)
    | none => s)
  | _ => s
/-- LATENT_TEST: tests 1 to 7; test 0 is that of the slices and has its own commands. [DEDUCED: log 76] -/
def execLatentTest (test : Fin 8) (inst : BitVec 9) (pass : Bool) (s : State) : Host.Outcome State Fault Refusal :=
  let s := s.begin
  .next (if test.val = 0 then s
    else if pass then s.latentPassed test.val
    else (s.latentFailed test.val inst.toNat).settle)
/-- The domain whose rest suspends a latent test. [DEDUCED: log 76] -/
def latentDom : Nat → Option Nat
  | 1 => some 44 | 2 => some 45 | 3 => some 1
  | _ => none
/-- LATENT_LATE: a test of a unit that is on has not passed by its deadline; it is recorded once until the test passes.
[DEDUCED: log 76] -/
def execLatentLate (test : Fin 8) (s : State) : Host.Outcome State Fault Refusal :=
  let s := s.begin
  let t := test.val
  let on := match latentDom t with | some d => s.domUp d | none => true
  .next (if decide (t ≠ 0) && on && !decide (t ∈ s.flt.latentLate) then
      (s.modFlt (fun f => { f with latentLate := insNat f.latentLate t })).detect0 0x47 t
    else s)
/-- AO_LOCK: the two copies of a lockstep pair differ. -/
def execAoLock (pair : Fin 5) (s : State) : Host.Outcome State Fault Refusal := .next ((s.begin).aoLock pair.val)

end Sys2Proof.Machine
end

