-- ==== Sys2Proof/Machine/Times.lean ====
section
/-! DEFINITION. Time and clocks: samples of the two copies of time, the clock measurement, and the captures of the TIME
page (R46, R47, R61, R289, R371). -/
namespace Sys2Proof.Machine

/-- A copy of time is listened to: TM_A_ from the first phase, TM_L_ from the last (R390). -/
def State.timeUp (s : State) (copyA : Bool) : Bool := decide ((if copyA then 1 else 5) ≤ s.sys.phase)
/-- The copy's last sample. -/
def State.tm (s : State) (copyA : Bool) : Stamp := if copyA then s.sys.tmA else s.sys.tmL
/-- Take a sample of a copy. -/
def State.setTm (s : State) (copyA : Bool) (t : Stamp) : State :=
  s.modSys (fun y => if copyA then { y with tmA := t } else { y with tmL := t })
/-- A valid sample departs from the previous valid one (R47). -/
def timeStep (old new elapsed : Nat) : Bool :=
  decide (new < old) || decide (old + elapsed + 1000 < new) || decide (new + 1000 < old + elapsed)
/-- A step of a copy: TIME_STEP, the sample kept, and the floors' ends moved with TM_A_ (R47, R289). [DEDUCED: log 20] -/
def State.stepped (s : State) (copyA : Bool) (old new elapsed : Nat) : State :=
  let s := ((s.setFlag .time 0x40 2).evt 118 1).modSys (fun y => { y with stepTime := new, stepCopyA := copyA })
  s.when copyA (·.modPager (fun p => { p with floors := p.floors.map (fun f => { f with ends := f.ends + new - (old + elapsed) }) }))
/-- A sample is taken (R46, R47). One with 10^9 nanoseconds or more is ignored and counted; its VLD, when 0, still stands for the copy.
[DEDUCED: log 20] -/
def State.takeSample (s : State) (copyA vld : Bool) (sec ns elapsed : Nat) : State :=
  if 1000000000 ≤ ns then
    ((s.setFlag .time 0x40 3).evt 119 1).setTm copyA { s.tm copyA with vld := vld && (s.tm copyA).vld }
  else
    let old := s.tm copyA
    let new := sec * 1000000000 + ns
    let s := s.when (vld && old.vld && timeStep old.ns new elapsed) (·.stepped copyA old.ns new elapsed)
    s.setTm copyA { vld := vld, ns := new }
/-- A sample of TM_L_ or TM_A_; `elapsed` is the clock time in nanoseconds since the copy's previous sample. -/
def execTimeSample (copyA vld : Bool) (sec : BitVec 48) (ns elapsed : W32) (s : State) : Host.Outcome State Fault Refusal :=
  let s := s.begin
  .next (if s.timeUp copyA then s.takeSample copyA vld sec.toNat ns.toNat elapsed.toNat else s)
/-- Nominal frequencies in kHz (R60). [DEDUCED: log 23] -/
def clkNominal : List Nat := [1600000, 800000, 200000]
/-- A frequency deviates from its nominal value by more than 2 %. [DEDUCED: log 23] -/
def clkOff (f nominal : Nat) : Bool := decide (50 * f < 49 * nominal) || decide (51 * nominal < 50 * f)
/-- One clock has been measured (R61). [DEDUCED: log 23] -/
def State.clkOne (s : State) (i : Nat) (f : W32) : State :=
  let s := s.modSys (fun y => { y with clkMeas := Tab.set 0 y.clkMeas i f })
  s.when (clkOff f.toNat (clkNominal.getD i 0)) (fun s => (s.setFlag .ao 0x40 2).detect0 0x43 i)
/-- A measurement window of 10 µs ends with the three frequencies in kHz. -/
def execClkFreqWindow (line ctl sec : W32) (s : State) : Host.Outcome State Fault Refusal :=
  .next ((((s.begin).clkOne 0 line).clkOne 1 ctl).clkOne 2 sec)
/-- Number of a captured time. -/
def capIdx : TimeReg → Nat
  | .tmL => 0 | .tmA => 1 | .step => 2
/-- The time a SEC_LO register shows, and the top bit of its HI register. -/
def State.capTime (s : State) (r : TimeReg) : Nat × Bool :=
  match r with
  | .tmL => (s.sys.tmL.ns, false)
  | .tmA => (s.sys.tmA.ns, false)
  | .step => (s.sys.stepTime, s.sys.stepCopyA)
/-- A read of a SEC_LO register of TIME latches the other two words of its time (R371). [DEDUCED: log 20] -/
def State.capture (s : State) (r : TimeReg) : State :=
  let (t, top) := s.capTime r
  s.modSys (fun y => { y with
    capHi := Tab.set 0 y.capHi (capIdx r) (BitVec.ofNat 32 (nsSec t / 2 ^ 32 % 65536) ||| atBit top 31),
    capNs := Tab.set 0 y.capNs (capIdx r) (BitVec.ofNat 32 (nsNs t)) })

end Sys2Proof.Machine
end

