-- ==== Sys2Proof/Machine/Flags.lean ====
section
/-! DEFINITION. The flags that follow a condition, PG_STATUS, the interrupt sources and the interrupt lines (R56, R156, R173,
R187, R191, R199, R220, R241, R263, R264, R292, R304, R340, R344, R359, R363, R364, R368, R370 to R372). -/
namespace Sys2Proof.Machine

/-- Bits of a word, bit 0 first. -/
def bitsW (l : List Bool) : W32 := orAll ((List.range l.length).map (fun i => atBit (l.getD i false) i))

/-! ### Conditions -/

/-- READY of GLB_FLAGS (R363). -/
def State.glbReady (s : State) : Bool :=
  s.sys.rootKey.isSome && s.sys.kekReady && s.lease.scanDone && !decide (s.sys.zero = .done)
/-- Blind operation is in force: the active unit's peer is lost and the arbiter has acknowledged it (R178, R179).
[DEDUCED: log 100] -/
def State.blind (s : State) : Bool :=
  decide (s.pair.role = .active) && s.peerGone && s.pair.linkAck && !s.noPeer
/-- The peer cannot take over as a standby should: its health says so or is stale (R333). -/
def State.peerUnfit (s : State) : Bool :=
  decide (s.pair.role = .active) && (bit s.pair.peerHealth 26 || s.pair.healthStale)
/-- Some slot is in HOLD. -/
def State.holdAny (s : State) : Bool := s.ch.slots.any (fun p => decide (p.2.lst = .hold))
/-- Some counter of an event-counter page has wrapped (R372). -/
def State.wrapAny (s : State) (n : Nat) : Bool := decide (s.stickyW (.evc n) 0x80 ≠ 0) || decide (s.stickyW (.evc n) 0x84 ≠ 0)
/-- A partition other than a port or a slice is held: PAGER, STORE, MARCH, LEASE, SEC in the order of FLT_HELD2. -/
def State.heldUnits (s : State) : List Bool := [Part.pager, .store, .march, .lease, .sec].map s.held
/-- A slice is FAULTED (R134). -/
def State.slFaulted (s : State) (n : Nat) : Bool := decide ((s.sl n).st = .faulted)
/-- A slice is held or FAULTED (R304). -/
def State.slHeld (s : State) (n : Nat) : Bool := s.slFaulted n || decide ((s.sl n).st = .held)
/-- Every lane unit of a port reports express-capable; some lane unit reports a MAC fault (R364). -/
def State.lanesAll (s : State) (w : W32) (p : Nat) : Bool := w &&& s.portMask p == s.portMask p

/-! ### Flag registers -/

/-- The bits of a flag register that follow a condition. [DEDUCED: log 31] -/
def State.levels (s : State) (p : Page) (off : Nat) : W32 :=
  match p, off with
  | .glb, 0x40 => bitsW [s.glbReady, s.rateShort false, s.rateShort true]
  | .glb, 0x50 => bitsW [!s.ch.eqxLog.isEmpty]
  | .ao, 0x40 => bitsW [decide (s.sys.phase = 5), decide (s.sys.klTaken ≠ 8)]
  | .sec, 0x40 => bitsW [s.sys.rootKey.isSome, s.sys.kekReady, decide (s.sys.zero = .done)]
  | .pwr, 0x40 => bitsW [false, false, s.seedWait, false, false, false, s.pwr.dom.any (fun q => q.2.unavail)]
  | .time, 0x40 => bitsW [s.sys.tmL.vld, s.sys.tmA.vld]
  | .flt, 0x40 => bitsW [!s.flt.recs.isEmpty, s.alarm, false, false, s.flt.silent, s.heldAny]
  | .flt, 0x44 => s.heldPorts
  | .flt, 0x48 => bitsW ((List.range 32).map s.slHeld)
  | .flt, 0x4C => bitsW ((List.range 8).map (fun n => s.slHeld (32 + n)) ++ s.heldUnits)
  | .pair, 0x40 => bitsW [s.pair.session.isSome, s.pair.ready, false, s.blind, false, false, s.pair.arbLost, s.peerUnfit,
      !s.pair.skewed.isEmpty]
  | .lease, 0x40 =>
    if s.lease.scanDone then
      let u := s.usableSectors.length
      bitsW [true, decide (u < 16), decide (u = 0), decide (s.lease.dir.length = s.liveMax), s.blind, s.holdAny]
    else bitsW [false, false, false, false, s.blind, s.holdAny]
  | .pager, 0x40 => bitsW [decide (s.freeEntries = 0), decide (s.freeEntries < s.freeLowAt), false, false, false, s.pager.running]
  | .store, 0x40 => bitsW [s.large]
  | .march, 0x40 => bitsW [s.store.march.split]
  | .byp, 0x40 => bitsW [!s.dp.bypStaged.isEmpty]
  | .port n, 0x40 => atBit (s.portEn n) 0 ||| atBit (s.held (.port (Fin.ofNat 32 n))) 14
  | .port n, 0x44 =>
    bitsW [s.linkUp n, false, decide (s.dp.macFault &&& s.portMask n ≠ 0), s.lanesAll s.dp.expCap n]
  | .slice n, 0x40 =>
    let f := s.slFaulted n
    bitsW [false, false, false, f, false, f && decide (fld (s.cfg p 0x88) 3 0 = 0)]
  | .evc n, 0x40 => bitsW [s.wrapAny n]
  | _, _ => 0
/-- A flag register. [DEDUCED: log 31] -/
def State.flags (s : State) (p : Page) (off : Nat) : W32 := s.stickyW p off ||| s.levels p off
/-- How many bits of each flag register of a page are defined; those with an interrupt source come first. -/
def flagRegs : Page → List (Nat × Nat)
  | .glb => [(0x40, 4), (0x50, 6)] | .ao => [(0x40, 3)] | .sec => [(0x40, 5)] | .pwr => [(0x40, 7)] | .time => [(0x40, 4)]
  | .flt => [(0x40, 8), (0x44, 32), (0x48, 32), (0x4C, 13)] | .pair => [(0x40, 13)] | .lease => [(0x40, 9)] | .saw => [(0x40, 1)]
  | .keyw => [(0x40, 1)] | .pager => [(0x40, 6)] | .store => [(0x40, 9)] | .march => [(0x40, 4)] | .perf => [(0x40, 1)]
  | .byp => [(0x40, 3)] | .leg => [(0x40, 1)] | .port _ => [(0x40, 15), (0x44, 7)] | .slice _ => [(0x40, 6)] | .evc _ => [(0x40, 3)]
/-- A flag bit is defined. -/
def flagBit (p : Page) (off b : Nat) : Bool := (flagRegs p).any (fun q => decide (q.1 = off) && decide (b < q.2))

/-! ### PG_STATUS and the interrupts -/

/-- DOMAIN_OFF (R282). -/
def State.domainOff (s : State) (p : Page) : Bool := !s.domUp p.dom
/-- PG_STATUS (R344). -/
def State.pgStatus (s : State) (p : Page) : W32 :=
  let h := s.hdr p
  bitsW [h.busy, h.pending, h.refused, s.parityBad p, h.lockViol, h.wrCollide, h.accessErr, h.poison, h.unlocked, s.domainOff p]
/-- The flag sources of a page, packed from bit 0 (R359); FLT_HELD0 to FLT_HELD2 carry none (R362). -/
def State.flagSources (s : State) (p : Page) : W32 :=
  match p with
  | .glb => s.flags p 0x40 ||| s.flags p 0x50 <<< 4
  | .port _ => s.flags p 0x40 ||| s.flags p 0x44 <<< 15
  | _ => s.flags p 0x40
/-- PG_IRQ_STAT (R359). [DEDUCED: log 106] -/
def State.irqStat (s : State) (p : Page) : W32 :=
  let h := s.hdr p
  s.flagSources p ||| atBit h.refused 24 ||| atBit (s.parityBad p) 25 ||| atBit h.lockViol 26 ||| atBit h.wrCollide 27 |||
    atBit h.accessErr 28 ||| atBit h.poison 29
/-- Sources that are set and enabled. [DEDUCED: log 106] -/
def State.irqOn (s : State) (p : Page) : W32 := s.irqStat p &&& s.cfg p 0x24
/-- Sources of a PORT page that drive IRQ_BLK: PORT_BFLAGS. -/
def blackSources : W32 := 0x003F8000
/-- The interrupt lines (R56). -/
inductive Line where
  | red | blk | sec | ao
  deriving DecidableEq, Repr
/-- The line of a page's sources, but for the black ones of a PORT page. -/
def Page.line : Page → Line
  | .sec | .keyw => .sec
  | .ao | .pwr | .time | .flt | .pair => .ao
  | _ => .red
/-- What a page drives on a line. -/
def State.drives (s : State) (l : Line) (p : Page) : Bool :=
  match p with
  | .port _ =>
    if l = .blk then decide (s.irqOn p &&& blackSources ≠ 0) else decide (l = .red) && decide (s.irqOn p &&& ~~~blackSources ≠ 0)
  | _ => decide (p.line = l) && decide (s.irqOn p ≠ 0)
/-- An interrupt line is asserted. [DESIGN CHOICE: log 6] -/
def State.irq (s : State) (l : Line) : Bool := allPages.any (s.drives l)
/-- IRQ_PAGES0 to IRQ_PAGES7 (R359). -/
def State.irqPages (s : State) (k : Nat) : W32 :=
  orAll (allPages.map (fun p => if p.num / 32 = k then atBit (decide (s.irqOn p ≠ 0)) (p.num % 32) else 0))

end Sys2Proof.Machine
end

