-- ==== Sys2Proof/Machine/StoreCmds.lean ====
section
/-! DEFINITION. Responses of the store and the commands of MARCH (R43, R245, R249 to R252, R256 to R261, R264). -/
namespace Sys2Proof.Machine

/-! ### Responses -/

/-- A store read completes; one that took longer than 500 ns is counted (R43). [DESIGN CHOICE: log 4, 86] -/
def execStoreReadResponse (id : BitVec 8) (err : Bool) (data side : Bytes) (slow : Bool) (s : State) :
    Host.Outcome State Fault Refusal :=
  let s := s.begin
  .next (match s.takeOut false id.toNat with
    | some (r, s) => (((s.when slow (·.evt 198 1)).readResp r err data side)).settle
    | none => s)
/-- A store write is acknowledged (R251). -/
def execStoreWriteAck (id : BitVec 8) (err : Bool) (s : State) : Host.Outcome State Fault Refusal :=
  let s := s.begin
  .next (match s.takeOut true id.toNat with
    | some (r, s) => (s.writeResp r err).settle
    | none => s)
/-- The expanded set of a selector that requests wait for is in the cache (R245). -/
def State.cacheFill (s : State) (sel : Nat) : State :=
  s.modStore (fun t => { t with missed := delNat t.missed sel, cache := (sel :: t.cache.filter (· ≠ sel)).take s.cacheRoom })
/-- A key set that requests wait for has been expanded. -/
def execKeyCacheFill (sel : BitVec 12) (s : State) : Host.Outcome State Fault Refusal :=
  let s := s.begin
  .next (if sel.toNat ∈ s.store.missed ∧ s.domUp 45 = true then (s.cacheFill sel.toNat).settle else s)
/-- No write has reached a dirty entry for WCB_FLUSH_US: it is written back (R252). -/
def execWcbIdleFlush (line : BitVec 34) (s : State) : Host.Outcome State Fault Refusal :=
  let s := s.begin
  .next (match s.wcb line.toNat with
    | some w =>
      if s.mayBack w && s.domUp 45 && s.freeId.isSome then (s.writeBack w).settle else s
    | none => s)

/-! ### MARCH -/

/-- The span of a START (R256): the target range, or MARCH_FIRST to MARCH_LAST; none when it breaks R256.
[DEDUCED: log 91] -/
def State.marchSpan (s : State) : Option (Nat × Nat) :=
  let tgt := fld (s.cfg .march 0x80) 11 0
  let addr := fun (o : Nat) => fld (s.cfg .march (o + 4)) 7 0 * 2 ^ 32 + (s.cfg .march o).toNat
  let f := if s.large then addr 0x84 else s.rngFirst tgt * 64
  let l := if s.large then addr 0x8C else s.rngLast tgt * 64
  if (s.large = true ∨ (tgt < 16 ∧ s.rngEn tgt = true)) ∧ f % 64 = 0 ∧ l % 64 = 0 ∧ f ≤ l ∧ l / 64 < s.storeTop then
    some (f / 64, l / 64)
  else none
/-- MARCH_RATE (R264). [DESIGN CHOICE: log 93] -/
def State.marchRate (s : State) : Nat := min 60 (fld (s.cfg .march 0x94) 5 0)
/-- The effect of a MARCH command, and its result code (R261); a held MARCH stays STOPPED (R307). [DEDUCED: log 92] -/
def State.marchRun (s : State) (op : Nat) : State × Nat :=
  let m := s.store.march
  if s.held .march && decide (1 ≤ op) && decide (op ≤ 6) then (s, 0x40)
  else if op = 1 then
    match s.marchSpan with
    | none => (s, 0x02)
    | some (f, l) =>
      let tgt := fld (s.cfg .march 0x80) 11 0
      let same := decide (m.tgt = tgt ∧ m.first = f ∧ m.last = l)
      if m.split && !same then (s, 0x41)
      else if m.st = .stopped ∧ m.split = true then
        (s.modMarch (fun m => { m with st := .run, reason := 0, failed := none }), 0)
      else if m.st ≠ .idle then (s, 0x40)
      else if (s.keySel tgt).seed.isNone then (s, 0x21)
      else (s.modMarch (fun m => { m with st := .keygen, tgt := tgt, first := f, last := l, bound := f, hwm := f,
                                          rekeyed := [], flight := [], redo := [], reason := 0, failed := none }), 0)
  else if op = 2 then
    if m.st = .run ∧ m.stopping = false then ((s.modMarch (fun m => { m with pausing := true })).marchSettle, 0) else (s, 0x40)
  else if op = 3 then
    if m.st = .paused then (s.modMarch (fun m => { m with st := .run }), 0) else (s, 0x40)
  else if op = 4 then
    if m.st = .halted ∧ m.stopping = false then
      match m.failed with
      | some k =>
        ((s.modMarch (fun m => { m with
            st := .run, reason := 0, failed := none, flight := insNat m.flight k, redo := insNat m.redo k })).storeRead k m.tgt .march, 0)
      | none => (s.modMarch (fun m => { m with st := .run, reason := 0 }), 0)
    else (s, 0x40)
  else if op = 5 then
    if m.st = .halted ∧ m.stopping = false then
      match m.failed with
      | some k =>
        ((((s.modMarch (fun m => { m with st := .run, reason := 0, failed := none, flight := insNat m.flight k })).storeWrite k
          m.tgt .march (zeros 64)).setFlag .march 0x40 3).evt 203 1, 0)
      | none => (s, 0x40)
    else (s, 0x40)
  else if op = 6 then
    if m.st = .run ∨ m.st = .paused ∨ m.st = .halted then
      ((s.modMarch (fun m => { m with stopping := true })).marchSettle, 0)
    else (s, 0x40)
  else (s, 0x01)
/-- A MARCH command and its result. [DEDUCED: log 92] -/
def State.marchCmd (s : State) (op : Nat) : State :=
  let r := s.marchRun op
  (r.1.setRo .march 0x9C (atPos r.2 24 ||| atPos (op % 256) 16)).settle
/-- A write of MARCH_CMD (R264). [DEDUCED: log 91] -/
def State.marchStart (s : State) (op : Nat) : State :=
  s.through .march 0x98 (BitVec.ofNat 32 op) (·.marchCmd op)
/-- MARCH_CMD START. -/
def execMarchStart (s : State) : Host.Outcome State Fault Refusal := .next ((s.begin).marchStart 1)
/-- MARCH_CMD PAUSE. -/
def execMarchPause (s : State) : Host.Outcome State Fault Refusal := .next ((s.begin).marchStart 2)
/-- MARCH_CMD RESUME. [DEDUCED: log 92] -/
def execMarchResume (s : State) : Host.Outcome State Fault Refusal := .next ((s.begin).marchStart 3)
/-- MARCH_CMD RETRY. -/
def execMarchRetry (s : State) : Host.Outcome State Fault Refusal := .next ((s.begin).marchStart 4)
/-- MARCH_CMD ZERO. -/
def execMarchZero (s : State) : Host.Outcome State Fault Refusal := .next ((s.begin).marchStart 5)
/-- MARCH_CMD STOP. -/
def execMarchStop (s : State) : Host.Outcome State Fault Refusal := .next ((s.begin).marchStart 6)
/-- The next seed is drawn and its set cached: KEYGEN ends (R261). [DEDUCED: log 91] -/
def State.marchKeygen (s : State) : State :=
  match s.seedsFree with
  | w :: _ => (s.dropSeeds 1).modMarch (fun m => { m with st := .run, split := true, nextSeed := some w })
  | [] => s
/-- KEYGEN ends. -/
def execMarchKeygenDone (s : State) : Host.Outcome State Fault Refusal :=
  let s := s.begin
  .next (if s.store.march.st = .keygen ∧ s.domUp 45 = true then s.marchKeygen.pmPump else s)
/-- The line MARCH takes next: one below HWM that was abandoned, else HWM while fewer than 128 lines are open and no
PAUSE waits (R258, R261). [DESIGN CHOICE: log 93] -/
def March.nextLine (m : March) : Option Nat :=
  match (List.range (m.hwm - m.bound)).find? (fun i => !decide (m.bound + i ∈ m.rekeyed) && !decide (m.bound + i ∈ m.flight)) with
  | some i => some (m.bound + i)
  | none => if m.hwm ≤ m.last ∧ m.hwm < m.bound + 128 ∧ m.pausing = false then some m.hwm else none
/-- MARCH locks and reads its next line (R258, R260). [DESIGN CHOICE: log 93] -/
def State.marchIssue (s : State) : State :=
  let m := s.store.march
  match m.nextLine with
  | some k => (s.modMarch (fun m => { m with
      hwm := max m.hwm (k + 1), flight := insNat m.flight k,
      redo := if k < m.hwm then insNat m.redo k else m.redo })).storeRead k m.tgt .march
  | none => s
/-- MARCH issues a line. -/
def execMarchLineIssue (s : State) : Host.Outcome State Fault Refusal :=
  let s := s.begin
  let m := s.store.march
  .next (if decide (m.st = .run) && !m.stopping && decide (s.marchRate ≠ 0) && s.domUp 45 && !s.held .march &&
      !s.resetOn .march && !s.resetOn .store then s.marchIssue.settle else s)

end Sys2Proof.Machine
end

