-- ==== Sys2Proof/Machine/Registers.lean ====
section
/-! DEFINITION. The register port: what each register reads as, the side effects of reads, and what a write does (R39, R282,
R299, R308, R342 to R358, R361 to R372, R384, R386). -/
namespace Sys2Proof.Machine

/-! ### LO/HI pairs (R347) -/

/-- The HI register of a LO register. [DEDUCED: log 26] -/
def hiOf (p : Page) (off : Nat) : Option Nat :=
  match rowAt p off with
  | some r => if r.hi = 0 then none else some (r.hi + (off - r.off))
  | none => none
/-- The LO register of a HI register. -/
def loOf (p : Page) (off : Nat) : Option Nat :=
  ((rowsHdr ++ rowsOf p).find? (fun r => decide (r.hi ≠ 0) && decide (r.hi ≤ off) && decide ((off - r.hi) % r.step = 0) &&
    decide ((off - r.hi) / r.step < r.n))).map (fun r => r.off + (off - r.hi))

/-! ### What each register holds -/

/-- A configuration register as a read returns it: the staged copy of S fields, the value in force of the others (R349). -/
def State.cfgView (s : State) (p : Page) (off : Nat) : W32 :=
  match rowAt p off with
  | some r => mergeBits r.s (s.stg p off) (s.cfg p off) &&& (r.rw ||| r.rst)
  | none => 0
/-- The common header. -/
def State.hdrView (s : State) (p : Page) (off : Nat) : W32 :=
  match off with
  | 0x00 => p.id
  | 0x04 => s.pgStatus p
  | 0x10 => (s.hdr p).epoch
  | 0x14 => lo32 (s.pageDigest p).toNat
  | 0x18 => hi32 (s.pageDigest p).toNat
  | 0x1C => atBit (s.resetOn p.part) 8
  | 0x20 | 0x24 => s.cfg p off
  | 0x28 => s.irqStat p
  | 0x2C => atPos (s.season p.dom).code 8 ||| atPos p.dom 0
  | _ => 0
/-- The oldest entry of the Equinox log, 0 when it is empty. -/
def State.logHead (s : State) : W32 × W32 := s.ch.eqxLog.headD (0, 0)
/-- GLB (R363). EQX_LOG_HI is word HI of the entry last removed, so a read of an empty log leaves its latch as it is
(R220). -/
def State.glbView (s : State) (off : Nat) : W32 :=
  match off with
  | 0x80 | 0x84 => regReset off
  | 0x88 => lo32 s.regs.glbDigest.toNat
  | 0x8C => hi32 s.regs.glbDigest.toNat
  | 0x90 => s.regs.glbDigCnt
  | 0x208 => s.logHead.1
  | 0x20C => if s.ch.eqxLog.isEmpty then Tab.get 0 s.regs.latch (Page.glb.at 0x20C) else s.logHead.2
  | 0x210 => BitVec.ofNat 32 s.ch.eqxLog.length
  | _ => if 0xA0 ≤ off ∧ off < 0xC0 then s.irqPages ((off - 0xA0) / 4) else s.cfgView .glb off
/-- AO (R371). -/
def State.aoView (s : State) (off : Nat) : W32 :=
  match off with
  | 0x90 => Tab.get 0 s.sys.clkMeas 0
  | 0x94 => Tab.get 0 s.sys.clkMeas 1
  | 0x98 => Tab.get 0 s.sys.clkMeas 2
  | 0x9C => atBit s.sys.rnErr 8 ||| atPos s.sys.seeds.length 0
  | _ => s.cfgView .ao off
/-- KEK_VALID, from a KEK on (R156). -/
def State.kekValid (s : State) (k : Nat) : W32 := bitsW ((List.range 32).map (fun i => (s.kek (k + i)).isSome))
/-- SEC (R156). -/
def State.secView (s : State) (off : Nat) : W32 :=
  match off with
  | 0x94 => s.kekValid 0
  | 0x98 => s.kekValid 32
  | 0xA0 => s.roW .sec off
  | _ => s.cfgView .sec off
/-- Seasons of 16 domains (R292). -/
def State.seasonWord (s : State) (d : Nat) : W32 :=
  orAll ((List.range 16).map (fun i => if d + i < 54 then atPos (s.season (d + i)).code (2 * i) else 0))
/-- Unavailable domains (R292). -/
def State.unavailWord (s : State) (d : Nat) : W32 := bitsW ((List.range 32).map (fun i => (s.dom (d + i)).unavail))
/-- PWR (R292). -/
def State.pwrView (s : State) (off : Nat) : W32 :=
  match off with
  | 0xA0 => atPos s.pwr.targetI 16 ||| atPos s.pwr.targetE 0
  | 0xA4 => atPos (s.awakeCnt true) 16 ||| atPos (s.awakeCnt false) 0
  | 0xA8 => atBit s.kxHold 31 ||| atPos s.pager.floors.length 24 ||| atPos (s.calFloor true) 16 ||| atPos (s.calFloor false) 0
  | 0xC0 => s.seasonWord 0
  | 0xC4 => s.seasonWord 16
  | 0xC8 => s.seasonWord 32
  | 0xCC => s.seasonWord 48
  | 0xD0 => s.unavailWord 0
  | 0xD4 => s.unavailWord 32
  | _ => s.cfgView .pwr off
/-- The captured time that a register of TIME belongs to. -/
def timeRegOf (off : Nat) : TimeReg := if off < 0x8C then .tmL else if off < 0x98 then .tmA else .step
/-- TIME (R371). -/
def State.timeView (s : State) (off : Nat) : W32 :=
  let r := timeRegOf off
  match (off - 0x80) % 12 / 4 with
  | 0 => BitVec.ofNat 32 (nsSec (s.capTime r).1)
  | 1 => Tab.get 0 s.sys.capHi (capIdx r)
  | _ => Tab.get 0 s.sys.capNs (capIdx r)
/-- FLT_OLDEST (R304). -/
def State.fltOldest (s : State) : W32 :=
  match oldestRec s.recsValid with
  | some (i, _) => atBit true 6 ||| atPos i 0
  | none => 0
/-- FLT (R304). -/
def State.fltView (s : State) (off : Nat) : W32 :=
  match off with
  | 0x80 => BitVec.ofNat 32 s.recsValid.length
  | 0xA0 => s.fltOldest
  | _ => if 0x88 ≤ off ∧ off < 0x9C then s.roW .flt off else s.cfgView .flt off
/-- EXPOSED_CNT (R332). [DEDUCED: log 100] -/
def State.exposedCnt (s : State) : Nat :=
  ((s.pair.exposed.map (· / 2)).eraseDups).length
/-- FLOOR_AGE in microseconds (R331). -/
def State.floorAge (s : State) : Nat :=
  if s.pair.role = .active then s.floorOldest / 50 else 0
/-- PAIR (R340). -/
def State.pairView (s : State) (off : Nat) : W32 :=
  let p := s.pair
  match off with
  | 0x80 => atBit p.cfgSet 31 ||| s.cfgView .pair off
  | 0x8C => s.roW .pair off
  | 0x90 => atPos p.holder.toNat 4 ||| atPos p.role.code 0
  | 0x94 => p.epoch
  | 0x98 => atBit p.granted 3 ||| atPos p.prevBlind.toNat 1 ||| atBit p.linkAck 0
  | 0x9C => lo32 p.promoAdd
  | 0xA0 => hi32 p.promoAdd
  | 0xA4 => BitVec.ofNat 32 s.exposedCnt
  | 0xA8 => BitVec.ofNat 32 s.skewCnt
  | 0xAC => BitVec.ofNat 32 (min 0xFFFFFF s.floorAge)
  | 0xB0 => mergeBits 0x08000000 (atBit p.healthStale 27) p.peerHealth
  | 0xB4 => BitVec.ofNat 32 (min 0xFFFF p.sentSeqs.length)
  | _ => s.cfgView .pair off
/-- LEASE (R199). [DEDUCED: log 31] -/
def State.leaseView (s : State) (off : Nat) : W32 :=
  let h := s.lease.sector (s.lease.head.getD 1024)
  if 0x8C ≤ off ∧ off ≤ 0xA4 ∧ s.lease.scanDone = false then 0
  else match off with
  | 0x8C => BitVec.ofNat 32 s.usableSectors.length
  | 0x90 => BitVec.ofNat 32 s.lease.dir.length
  | 0x94 => BitVec.ofNat 32 s.liveMax
  | 0x98 => BitVec.ofNat 32 ((s.lease.sectors.map (fun q => q.2.wcount)).foldl max 0)
  | 0x9C => BitVec.ofNat 32 (s.lease.head.getD 0)
  | 0xA0 => lo32 h.openSeq
  | 0xA4 => hi32 h.openSeq
  | _ => if 0xC4 ≤ off then s.roW .lease off else s.cfgView .lease off
/-- The calendar entry due next, the lower number first (R241). -/
def State.calNextDue (s : State) : Option (Nat × Nat) :=
  (s.pager.cal.filterMap (fun p => (calDue p.2).map (fun t => (p.1, t)))).foldl (fun b p => match b with
    | none => some p
    | some q => if p.2 < q.2 then some p else some q) none
/-- PAGER (R241). -/
def State.pagerView (s : State) (off : Nat) : W32 :=
  match off with
  | 0x94 => s.useMs
  | 0x98 => BitVec.ofNat 32 s.residentCnt
  | 0x9C => BitVec.ofNat 32 s.pinnedCnt
  | 0xA0 => BitVec.ofNat 32 (s.missUsed none / 64)
  | 0xA4 => s.pager.failInfo
  | 0xB0 => BitVec.ofNat 32 s.pager.jobs.length
  | 0xD8 => atBit s.calReady 8 ||| (match s.calNextDue with | some (n, _) => BitVec.ofNat 32 n | none => 0)
  | _ => s.cfgView .pager off
/-- The RO bits of RNG_CFG (R263). -/
def State.rngState (s : State) (r : Nat) : W32 :=
  let k := s.keySel r
  let m := s.store.march
  let tgt := decide (r = m.tgt)
  atBit k.seed.isSome 8 ||| atBit k.zkeep 9 ||| atBit (tgt && s.marchHolds r) 10 ||| atBit (tgt && m.split) 11
/-- STORE (R263); while PD_STORE is out of SUMMER, WCB_USED reads as it stood (R282). -/
def State.storeView (s : State) (off : Nat) : W32 :=
  match off with
  | 0x8C => if s.domUp 45 then s.wcbUsed else s.store.wcbHeld
  | 0x90 => lo32 s.store.failAddr
  | 0x94 => hi32 s.store.failAddr
  | 0x98 => s.store.failInfo
  | 0xD4 => s.roW .store off
  | _ => s.cfgView .store off ||| (if 0x200 ≤ off ∧ off % 16 = 8 then s.rngState ((off - 0x200) / 16) else 0)
/-- Code of a state of MARCH (R261). -/
def MState.code : MState → Nat
  | .idle => 0 | .keygen => 1 | .run => 2 | .paused => 3 | .halted => 4 | .stopped => 5
/-- MARCH (R264). -/
def State.marchView (s : State) (off : Nat) : W32 :=
  let m := s.store.march
  match off with
  | 0x9C => s.roW .march off
  | 0xA0 => lo32 (64 * m.bound)
  | 0xA4 => hi32 (64 * m.bound)
  | 0xA8 => lo32 (64 * m.hwm)
  | 0xAC => hi32 (64 * m.hwm)
  | 0xB0 => atPos m.reason 4 ||| atPos m.st.code 0
  | _ => s.cfgView .march off
/-- PERF (R371, R388). -/
def State.perfView (s : State) (off : Nat) : W32 :=
  if off = 0x88 ∨ 0x100 ≤ off then s.roW .perf off else s.cfgView .perf off
/-- BYP (R370). -/
def State.bypView (s : State) (off : Nat) : W32 :=
  if off = 0x98 then BitVec.ofNat 32 (s.dp.byp.filter (fun q => q.2.getLsbD 127)).length else s.cfgView .byp off
/-- The port counter that PCNT_SEL shows. -/
def State.pcnt (s : State) (n : Nat) : BitVec 48 := Tab.get 0 s.cnt.port (n * 128 + s.pcntSel n)
/-- PORT_LINK: the lane units of the port, from its own number on (R364). -/
def State.portLink (s : State) (n : Nat) : W32 :=
  let k := s.portLanes n
  let at_ := fun (w : W32) => w.toNat / 2 ^ n % 2 ^ min k 16
  atPos (at_ s.dp.macFault) 16 ||| atPos (at_ s.dp.linkUp) 0
/-- PORT (R364). -/
def State.portView (s : State) (n off : Nat) : W32 :=
  match off with
  | 0x98 => s.portLink n
  | 0xA4 => lo32 (s.pcnt n).toNat
  | 0xA8 => hi32 (s.pcnt n).toNat
  | _ => s.cfgView (.port n) off
/-- SLICE (R368); out of SUMMER, SL_INFO reads as it stood (R282). -/
def State.sliceView (s : State) (n off : Nat) : W32 :=
  let c := s.sl n
  match off with
  | 0x80 => atBit c.svcOut 0
  | 0x84 => atPos c.st.code 0
  | 0x8C => if c.st = .autumn ∨ c.st = .winter ∨ c.st = .thaw then c.info else s.slInfo n
  | _ => s.cfgView (.slice n) off
/-- The number of an event counter by its page and the offset of one of its words. -/
def evcNum (e off : Nat) : Nat := 64 * e + (off - 0x100) / 8
/-- The event counters that R387 names, as ranges; every other number is reserved and reads 0. -/
def evcRanges : List (Nat × Nat) :=
  [(0, 124), (128, 140), (144, 168), (176, 188), (192, 209), (224, 237), (240, 246), (256, 300), (320, 487)]
/-- An event counter has an event. -/
def evcNamed (n : Nat) : Bool := evcRanges.any (fun r => decide (r.1 ≤ n) && decide (n ≤ r.2))
/-- An event-counter page (R372, R387). -/
def State.evcView (s : State) (e off : Nat) : W32 :=
  match off with
  | 0x80 | 0x84 => s.stickyW (.evc e) off
  | 0x90 | 0x94 => s.roW (.evc e) off
  | _ =>
    if 0x100 ≤ off then
      let v := if evcNamed (evcNum e off) then (Tab.get 0 s.cnt.evc (evcNum e off)).toNat else 0
      if off % 8 = 0 then lo32 v else hi32 v
    else s.cfgView (.evc e) off
/-- What a register holds now; of a HI register, the upper word of its pair. -/
def State.raw (s : State) (p : Page) (off : Nat) : W32 :=
  if off < 0x40 then s.hdrView p off
  else if off < 0x80 then s.flags p off
  else match p with
    | .glb => s.glbView off
    | .ao => s.aoView off
    | .sec => s.secView off
    | .pwr => s.pwrView off
    | .time => s.timeView off
    | .flt => s.fltView off
    | .pair => s.pairView off
    | .lease => s.leaseView off
    | .saw => if off = 0x84 then s.roW p off else s.cfgView p off
    | .keyw => if off = 0x84 then s.roW p off else s.cfgView p off
    | .pager => s.pagerView off
    | .store => s.storeView off
    | .march => s.marchView off
    | .perf => s.perfView off
    | .byp => s.bypView off
    | .leg => s.cfgView p off
    | .port n => s.portView n off
    | .slice n => s.sliceView n off
    | .evc e => s.evcView e off
/-- Registers that a partition reset in progress leaves readable: PG_ID, PG_EPOCH, PG_DIGEST, PG_RESET and PG_DOMAIN, and the
season and state codes, which are always current (R282, R308, R344). [DEDUCED: log 29] -/
def liveInReset (p : Page) (off : Nat) : Bool :=
  match p, off with
  | _, 0x00 | _, 0x10 | _, 0x14 | _, 0x18 | _, 0x1C | _, 0x2C => true
  | .pwr, 0xC0 | .pwr, 0xC4 | .pwr, 0xC8 | .pwr, 0xCC => true
  | .slice _, 0x84 => true
  | _, _ => false
/-- What a register holds, as a read sees it: nothing at an unimplemented offset, reset values while the page's partition
is being reset. [DEDUCED: log 26, 29] -/
def State.value (s : State) (p : Page) (off : Nat) : W32 :=
  if (rowAt p off).isNone then 0
  else if s.resetOn p.part && !liveInReset p off then regReset (p.at off)
  else s.raw p off
/-- What a 4 B read returns: a HI register returns the latch of its pair (R347). -/
def State.readReg (s : State) (p : Page) (off : Nat) : W32 :=
  match loOf p off with
  | some _ => Tab.get 0 s.regs.latch (p.at off)
  | none => s.value p off

/-! ### Reads (R346, R347, R386) -/

/-- Remove the oldest entry of the Equinox log (R220). [DEDUCED: log 28] -/
def State.logPop (s : State) : State := s.modCh (fun c => { c with eqxLog := c.eqxLog.drop 1 })
/-- A read of a poisoned counter sets POISON, once (R386). [DEDUCED: log 30] -/
def State.poisonRead (s : State) (p : Page) (off : Nat) : State :=
  match p with
  | .evc e =>
    let n := evcNum e off
    if 0x100 ≤ off ∧ off % 8 = 0 ∧ n ∈ s.cnt.evcPoison then
      (s.poison p).modCnt (fun c => { c with evcPoison := delNat c.evcPoison n })
    else s
  | .port q =>
    let k := q * 128 + s.pcntSel q
    if off = 0xA4 ∧ k ∈ s.cnt.portPoison then
      (s.poison p).modCnt (fun c => { c with portPoison := delNat c.portPoison k })
    else s
  | _ => s
/-- What a read does besides returning its data: a LO register latches its HI register, and some registers act.
[DEDUCED: log 26, 30] -/
def State.readActs (s : State) (p : Page) (off : Nat) : State :=
  let s := match hiOf p off with
    | some h => s.modRegs (·.setLatch (p.at h) (s.value p h))
    | none => s
  let s := s.poisonRead p off
  match p, off with
  | .glb, 0x208 => s.logPop
  | .time, 0x80 => s.capture .tmL
  | .time, 0x8C => s.capture .tmA
  | .time, 0x98 => s.capture .step
  | _, _ => s
/-- The page, flag register and bit of an alias address (R356). -/
def aliasOf (a : Nat) : Option (Page × Nat × Nat) :=
  if a < 0x100000 then none
  else
    let k := a - 0x100000
    match (if k / 0x800 < 256 then pageOf (k / 0x800) else none) with
    | some p =>
      let off := 0x40 + 4 * (k % 0x800 / 0x80)
      let b := k % 0x80 / 4
      if flagBit p off b then some (p, off, b) else none
    | none => none
/-- A 4 B read of an aligned address: its data, and the state after its side effects. [DEDUCED: log 24] -/
def State.readAt (s : State) (a : Nat) : W32 × State :=
  if a < 0x100000 then
    match pageOf (a / 0x1000) with
    | some p => (s.readReg p (a % 0x1000), s.readActs p (a % 0x1000))
    | none => (0, s)
  else match aliasOf a with
    | some (p, off, b) => (atBit (bit (s.readReg p off) b) 0, s.readActs p off)
    | none => (0, s)
/-- The byte lanes of a read of 1, 2 or 4 bytes (R39). -/
def laneMask (a size : Nat) : W32 :=
  match size with
  | 0 => 0xFF#32 <<< (8 * (a % 4))
  | 1 => 0xFFFF#32 <<< (8 * (a % 4))
  | _ => BitVec.allOnes 32
/-- A read of 1, 2, 4 or 8 bytes: a narrow one has the side effects of the 4 B read, and one of 8 B is two of 4 B, LO first (R39,
R346). [DEDUCED: log 24] -/
def State.cpRead (s : State) (a size : Nat) : State :=
  if a % 2 ^ size ≠ 0 then s.answerRead true 0
  else
    let r := s.readAt (a / 4 * 4)
    let s := r.2.answerRead false (r.1 &&& laneMask a size)
    if size = 3 then (s.readAt (a + 4)).2.answerRead false (s.readAt (a + 4)).1 else s
/-- LO_REGISTER_READ: a read; LO registers latch their HI register (R39, R346, R347). [DEDUCED: log 24] -/
def execLoRegisterRead (addr : ReadAt) (s : State) : Host.Outcome State Fault Refusal :=
  let s := s.begin
  .next (if s.cpUp then s.cpRead addr.addr.toNat addr.size.toNat else s)
/-- EQX_LOG_READ: a read of EQX_LOG_LO (R220). [DEDUCED: log 28] -/
def execEqxLogRead (s : State) : Host.Outcome State Fault Refusal :=
  let s := s.begin
  .next (if s.cpUp then (s.readAt 0x208).2.answerRead false (s.readAt 0x208).1 else s)

/-- The SEC_LO register of a captured time. -/
def secLoOff : TimeReg → Nat
  | .tmL => 0x80 | .tmA => 0x8C | .step => 0x98
/-- TIME_CAPTURE_READ: a read of TM_L_SEC_LO, TM_A_SEC_LO or STEP_SEC_LO (R371). -/
def execTimeCaptureRead (which : TimeReg) (s : State) : Host.Outcome State Fault Refusal :=
  let s := s.begin
  let r := s.readAt (0x4000 + secLoOff which)
  .next (if s.cpUp then r.2.answerRead false r.1 else s)

/-! ### Digest of all pages (R358) -/

/-- GLB_DIGEST_RECOMPUTE: after a change of a PG_DIGEST. [DEDUCED: log 33] -/
def State.glbRecompute (s : State) : State :=
  let d := s.glbDigestNow
  let s := s.when (decide (d ≠ s.regs.glbDigest)) (fun s => (s.setFlag .glb 0x40 3).evt 124 1)
  s.modRegs (fun r => { r with glbDigest := d, glbDigCnt := r.glbDigCnt + 1, digestStale := false })
/-- GLB_DIGEST_RECOMPUTE. -/
def execGlbDigestRecompute (s : State) : Host.Outcome State Fault Refusal :=
  let s := s.begin
  .next (if s.regs.digestStale && decide (4 ≤ s.sys.phase) && !s.resetOn .glob then s.glbRecompute else s)

/-! ### The bypass window (R109, R370) -/

/-- The staged copy of a bypass entry. -/
def State.bypCopy (s : State) (n : Nat) : W128 := (Tab.get none s.dp.bypStaged n).getD (Tab.get 0 s.dp.byp n)
/-- A write of BYP_SEL loads BYP_DATA. -/
def State.bypLoad (s : State) (n : Nat) : State := (s.setCfg .byp 0x80 (BitVec.ofNat 32 n)).putWords .byp 0x84 (s.bypCopy n)
/-- BYP_SEL. -/
def execBypSel (data : W32) (s : State) : Host.Outcome State Fault Refusal :=
  .next ((s.begin).through .byp 0x80 data (fun s => s.bypLoad (fld data 7 0)))
/-- BYP_DATA as one entry, its reserved bits 0. -/
def State.bypData (s : State) : W128 :=
  bypMask (BitVec.ofNat 128 ((s.cfg .byp 0x84).toNat + (s.cfg .byp 0x88).toNat * 2 ^ 32 + (s.cfg .byp 0x8C).toNat * 2 ^ 64 +
    (s.cfg .byp 0x90).toNat * 2 ^ 96))
/-- A write of BYP_WR stages an entry. -/
def State.bypStage (s : State) : State :=
  let n := fld (s.cfg .byp 0x80) 7 0
  let w := s.bypData
  (s.modDp (fun d => { d with bypStaged := Tab.set none d.bypStaged n (some w) })).modHdr .byp (fun h => { h with dirty := true })
/-- BYP_WR. -/
def execBypWr (s : State) : Host.Outcome State Fault Refusal := .next ((s.begin).through .byp 0x94 1 (·.bypStage))

/-! ### Writes (R39, R342, R345 to R349, R384) -/

/-- A write of PG_STATUS clears its W1C bits (R344). -/
def State.statusWrite (s : State) (p : Page) (data : W32) : State :=
  let keep := fun (b : Bool) (n : Nat) => b && !bit data n
  s.modHdr p (fun h => { h with
    refused := keep h.refused 2, lockViol := keep h.lockViol 4, wrCollide := keep h.wrCollide 5,
    accessErr := keep h.accessErr 6, poison := keep h.poison 7 })
/-- A write of a flag register clears its W1C bits; REC_OVF also lets go of ALARM_N (R302, R345). [DEDUCED: log 32] -/
def State.flagWrite (s : State) (p : Page) (off : Nat) (data : W32) : State :=
  (s.clearFlags p off data).when (decide (p = .flt) && decide (off = 0x40) && bit data 2)
    (·.modFlt (fun f => { f with alarmOvf := false }))
/-- A staged write (R349). [DEDUCED: log 101] -/
def State.stageWrite (s : State) (p : Page) (off : Nat) (m data : W32) : State :=
  let s := (s.setStaged p off (mergeBits m data (s.stg p off))).modHdr p (fun h => { h with dirty := true })
  s.when (decide (p = .pair) && decide (off = 0x80)) (·.modPair (fun q => { q with cfgStaged := true }))
/-- A write that takes effect at once; a HI register takes the held LO word with it, and a field that the digest covers
counts in PG_EPOCH (R347, R350). -/
def State.plainWrite (s : State) (p : Page) (off : Nat) (m data : W32) (covered : Bool) : State :=
  let s : State := match loOf p off with
    | some l => (match (s.regs.held.find? (fun (q : Nat × W32) => decide (q.1 = p.at l))) with
      | some q => (s.setCfg p l q.2).modRegs (·.dropHeld (p.at l))
      | none => s)
    | none => s
  (s.setCfg p off (mergeBits m data (s.cfg p off))).when covered (·.bumpEpoch p)
/-- A LO register of a pair that is not staged holds its write until HI is written (R347); KEK_EN_LO takes effect alone, as
the bring-up procedure uses it (R393). -/
def holdsLo (p : Page) (off : Nat) : Bool := (hiOf p off).isSome && !(decide (p = .sec) && decide (off = 0x88))
/-- A write of a register without an action of its own. [DEDUCED: log 32, 34] -/
def State.fieldWrite (s : State) (p : Page) (off : Nat) (data : W32) : State :=
  match rowAt p off with
  | none => s
  | some r =>
    if r.w1c ≠ 0 then s.flagWrite p off data
    else if r.rw &&& r.s ≠ 0 then s.stageWrite p off r.rw data
    else if holdsLo p off then s.modRegs (·.setHeld (p.at off) (mergeBits r.rw data 0))
    else s.plainWrite p off (r.rw ||| r.wo) data (decide (r.rw &&& (r.l ||| r.o) ≠ 0))
/-- The pages that hold a command register, and every other register with an action: what an accepted write does.
[DEDUCED: log 26, 27] -/
def State.writeAct (s : State) (p : Page) (off : Nat) (data : W32) : State :=
  match p, off with
  | _, 0x04 => s.statusWrite p data
  | _, 0x08 => s.commitWrite p
  | _, 0x0C => s.unlockWrite p data
  | _, 0x1C => s.askReset p.part
  | .sec, 0x90 => if s.canDerive then s.deriveStart else s.setFlag .sec 0x40 3
  | .sec, 0x9C => s.chkWrite data
  | .sec, 0xA4 => s.zeroise 0
  | .flt, 0x84 => (s.setCfg .flt 0x84 (BitVec.ofNat 32 (fld data 5 0))).recLoad
  | .flt, 0x9C => s.recClr data
  | .flt, 0xA8 => s.inject data
  | .pair, 0x88 => s.pairCmd (fld data 7 0)
  | .lease, 0xC0 => s.leaseTake data
  | .saw, 0x80 => s.sawTake data
  | .keyw, 0x80 => s.keywTake data
  | .pager, 0xAC => s.grpGo
  | .pager, 0xC0 => s.calLoad (fld data 7 0)
  | .pager, 0xD4 => s.calWrite
  | .store, 0xD0 => s.storeTake data
  | .march, 0x98 => s.marchCmd (fld data 7 0)
  | .byp, 0x80 => s.bypLoad (fld data 7 0)
  | .byp, 0x94 => s.bypStage
  | .port n, 0xAC =>
    (s.when (bit data 0) (fun s => s.pcntClear (n * 128 + s.pcntSel n))).when (bit data 1) (fun s => s.pcntClearAll n)
  | .slice n, 0x80 => s.slCtl n data
  | .evc e, _ => if 0x100 ≤ off ∧ off % 8 = 4 then s.presetCtr (evcNum e off) data else s.fieldWrite p off data
  | _, _ => s.fieldWrite p off data
/-- A 4 B write of a register. -/
def State.writeReg (s : State) (p : Page) (off : Nat) (data : W32) : State :=
  s.gated p off data (!(decide (p = .sec) && decide (off = 0x90)) || s.canDerive) (fun s => s.writeAct p off data)
/-- A 4 B write of an aligned address; an alias writes its one bit (R356). [DEDUCED: log 24] -/
def State.writeAt (s : State) (a : Nat) (data : W32) : State :=
  if a < 0x100000 then
    match pageOf (a / 0x1000) with
    | some p => s.writeReg p (a % 0x1000) data
    | none => s
  else match aliasOf a with
    | some (p, off, b) => s.writeReg p off (atBit (bit data 0) b)
    | none => s
/-- A narrow write is ignored, with ACCESS_ERR where a register stands (R39, R342, R346). [DEDUCED: log 25] -/
def State.narrowWrite (s : State) (a : Nat) : State :=
  if a < 0x100000 then
    match pageOf (a / 0x1000) with
    | some p => if (rowAt p (a % 0x1000 / 4 * 4)).isSome then s.accessErr p else s
    | none => s
  else match aliasOf a with
    | some (p, _, _) => s.accessErr p
    | none => s
/-- A write of 1, 2, 4 or 8 bytes (R39). [DEDUCED: log 24] -/
def State.cpWrite (s : State) (a size : Nat) (data : W64) : State :=
  if a % 2 ^ size ≠ 0 then s.answer true
  else
    let s := s.answer false
    match size with
    | 3 => (s.writeAt a (lo32 data.toNat)).writeAt (a + 4) (hi32 data.toNat)
    | 2 => s.writeAt a (lo32 data.toNat)
    | _ => s.narrowWrite a
/-- REGISTER_WRITE. [DEDUCED: log 24] -/
def execRegisterWrite (addr : BitVec 21) (size : BitVec 2) (data : W64) (s : State) : Host.Outcome State Fault Refusal :=
  let s := s.begin
  .next (if s.cpUp then (s.cpWrite addr.toNat size.toNat data).settle else s)

end Sys2Proof.Machine
end

