-- ==== Sys2Proof/Machine/Dispatch.lean ====
section
/-! DEFINITION. One arm for each command: the meaning it calls. -/
namespace Sys2Proof.Machine

/-- The effect of a command on everything but the queue. [DEDUCED, DESIGN CHOICE: log 107, 108] -/
def exec (i : Instr) (s : State) : Host.Outcome State Fault Refusal :=
  match i with
  | .rstN tamperSeen => Sys2Proof.Machine.execRstN tamperSeen s
  | .seqPhaseEnd => Sys2Proof.Machine.execSeqPhaseEnd s
  | .tamper filter => Sys2Proof.Machine.execTamper filter s
  | .zeroise data => Sys2Proof.Machine.execZeroise data s
  | .zeroiseComplete badBanks => Sys2Proof.Machine.execZeroiseComplete badBanks s
  | .klBeat beat data => Sys2Proof.Machine.execKlBeat beat data s
  | .klFail => Sys2Proof.Machine.execKlFail s
  | .rnFault => Sys2Proof.Machine.execRnFault s
  | .maskReseed gen => Sys2Proof.Machine.execMaskReseed gen s
  | .maskReseedRetry gen => Sys2Proof.Machine.execMaskReseedRetry gen s
  | .timeSample copyA vld sec ns elapsed => Sys2Proof.Machine.execTimeSample copyA vld sec ns elapsed s
  | .clkFreqWindow line ctl sec => Sys2Proof.Machine.execClkFreqWindow line ctl sec s
  | .egressFrameAdmit port cls desc bytes dpBad upErr eof => Sys2Proof.Machine.execEgressFrameAdmit port cls desc bytes dpBad upErr eof s
  | .busFraming dir port => Sys2Proof.Machine.execBusFraming dir port s
  | .ingressFrameAdmit port cls desc bytes dpBad upErr eof => Sys2Proof.Machine.execIngressFrameAdmit port cls desc bytes dpBad upErr eof s
  | .catchEntryExpiry sci port => Sys2Proof.Machine.execCatchEntryExpiry sci port s
  | .sliceDispatch frame => Sys2Proof.Machine.execSliceDispatch frame s
  | .bulkResume slice => Sys2Proof.Machine.execBulkResume slice s
  | .egressIcvWritten frame => Sys2Proof.Machine.execEgressIcvWritten frame s
  | .ingressIcvCompare frame => Sys2Proof.Machine.execIngressIcvCompare frame s
  | .bseSofRelease port cls => Sys2Proof.Machine.execBseSofRelease port cls s
  | .rsiSofRelease port cls => Sys2Proof.Machine.execRsiSofRelease port cls s
  | .eofRelease dir port cls => Sys2Proof.Machine.execEofRelease dir port cls s
  | .bseUnderrun port cls => Sys2Proof.Machine.execBseUnderrun port cls s
  | .rsiUnderrun port cls => Sys2Proof.Machine.execRsiUnderrun port cls s
  | .recordTimeout frame => Sys2Proof.Machine.execRecordTimeout frame s
  | .creditReturn dir port cls init cnt => Sys2Proof.Machine.execCreditReturn dir port cls init cnt s
  | .laneControl lane code fmtOk => Sys2Proof.Machine.execLaneControl lane code fmtOk s
  | .linkStatus lane up macFault expCap fmtOk => Sys2Proof.Machine.execLinkStatus lane up macFault expCap fmtOk s
  | .bufferLevel lane cls free fmtOk => Sys2Proof.Machine.execBufferLevel lane cls free fmtOk s
  | .blackCounterIncrement lane ctr inc fmtOk => Sys2Proof.Machine.execBlackCounterIncrement lane ctr inc fmtOk s
  | .blackFaultEvent lane det fmtOk => Sys2Proof.Machine.execBlackFaultEvent lane det fmtOk s
  | .missQueueRelease dir chix => Sys2Proof.Machine.execMissQueueRelease dir chix s
  | .pageInStart => Sys2Proof.Machine.execPageInStart s
  | .storeReadResponse id err data side slow => Sys2Proof.Machine.execStoreReadResponse id err data side slow s
  | .storeWriteAck id err => Sys2Proof.Machine.execStoreWriteAck id err s
  | .keyCacheFill sel => Sys2Proof.Machine.execKeyCacheFill sel s
  | .keyxJobStart => Sys2Proof.Machine.execKeyxJobStart s
  | .keyxJobDone core => Sys2Proof.Machine.execKeyxJobDone core s
  | .pageInTimeout chix => Sys2Proof.Machine.execPageInTimeout chix s
  | .pageOutStart chix => Sys2Proof.Machine.execPageOutStart chix s
  | .groupJobStart => Sys2Proof.Machine.execGroupJobStart s
  | .calendarFire => Sys2Proof.Machine.execCalendarFire s
  | .seasonFloorEnd => Sys2Proof.Machine.execSeasonFloorEnd s
  | .solsticeRetire chix => Sys2Proof.Machine.execSolsticeRetire chix s
  | .eqxStall chix => Sys2Proof.Machine.execEqxStall chix s
  | .slotDrainDone chix slotB => Sys2Proof.Machine.execSlotDrainDone chix slotB s
  | .nvWriteResponse err => Sys2Proof.Machine.execNvWriteResponse err s
  | .nvReadResponse err data => Sys2Proof.Machine.execNvReadResponse err data s
  | .leaseScanDone => Sys2Proof.Machine.execLeaseScanDone s
  | .wcbIdleFlush line => Sys2Proof.Machine.execWcbIdleFlush line s
  | .marchKeygenDone => Sys2Proof.Machine.execMarchKeygenDone s
  | .marchLineIssue => Sys2Proof.Machine.execMarchLineIssue s
  | .spillRetry chix line => Sys2Proof.Machine.execSpillRetry chix line s
  | .counterOutcome => Sys2Proof.Machine.execCounterOutcome s
  | .evcUpdateSlot ctr => Sys2Proof.Machine.execEvcUpdateSlot ctr s
  | .bwWindowClose => Sys2Proof.Machine.execBwWindowClose s
  | .govEvaluation => Sys2Proof.Machine.execGovEvaluation s
  | .surge port => Sys2Proof.Machine.execSurge port s
  | .domainIdleExpiry dom => Sys2Proof.Machine.execDomainIdleExpiry dom s
  | .domainAutumnDrained dom => Sys2Proof.Machine.execDomainAutumnDrained dom s
  | .sliceDrained slice => Sys2Proof.Machine.execSliceDrained slice s
  | .pmAck dom ok => Sys2Proof.Machine.execPmAck dom ok s
  | .pmRetry dom => Sys2Proof.Machine.execPmRetry dom s
  | .pmTimeout dom => Sys2Proof.Machine.execPmTimeout dom s
  | .domainThawDone dom pass late => Sys2Proof.Machine.execDomainThawDone dom pass late s
  | .sliceSelfTestDone slice pass => Sys2Proof.Machine.execSliceSelfTestDone slice pass s
  | .rotationTestDue slice => Sys2Proof.Machine.execRotationTestDue slice s
  | .testLate slice => Sys2Proof.Machine.execTestLate slice s
  | .sliceAutoRepair slice => Sys2Proof.Machine.execSliceAutoRepair slice s
  | .sliceFault slice det => Sys2Proof.Machine.execSliceFault slice det s
  | .maskFault slice => Sys2Proof.Machine.execMaskFault slice s
  | .sramCe dom addr ctEntry => Sys2Proof.Machine.execSramCe dom addr ctEntry s
  | .sramUe loc => Sys2Proof.Machine.execSramUe loc s
  | .vaultUe vslot => Sys2Proof.Machine.execVaultUe vslot s
  | .cfgPar page off => Sys2Proof.Machine.execCfgPar page off s
  | .outPar dir port cls => Sys2Proof.Machine.execOutPar dir port cls s
  | .unitFaultHold part => Sys2Proof.Machine.execUnitFaultHold part s
  | .keyxFault core => Sys2Proof.Machine.execKeyxFault core s
  | .maskHltX gen second => Sys2Proof.Machine.execMaskHltX gen second s
  | .latentTest test inst pass => Sys2Proof.Machine.execLatentTest test inst pass s
  | .latentLate test => Sys2Proof.Machine.execLatentLate test s
  | .aoLock pair => Sys2Proof.Machine.execAoLock pair s
  | .faultEvent => Sys2Proof.Machine.execFaultEvent s
  | .autoPartitionReset part => Sys2Proof.Machine.execAutoPartitionReset part s
  | .partitionResetDone part => Sys2Proof.Machine.execPartitionResetDone part s
  | .ppLinkDown => Sys2Proof.Machine.execPpLinkDown s
  | .peerLost => Sys2Proof.Machine.execPeerLost s
  | .hello msg => Sys2Proof.Machine.execHello msg s
  | .helloTimer => Sys2Proof.Machine.execHelloTimer s
  | .beat msg => Sys2Proof.Machine.execBeat msg s
  | .beatTimer => Sys2Proof.Machine.execBeatTimer s
  | .health msg => Sys2Proof.Machine.execHealth msg s
  | .healthTimer => Sys2Proof.Machine.execHealthTimer s
  | .healthStale => Sys2Proof.Machine.execHealthStale s
  | .ack msg => Sys2Proof.Machine.execAck msg s
  | .syncReq msg => Sys2Proof.Machine.execSyncReq msg s
  | .lease msg => Sys2Proof.Machine.execLease msg s
  | .slot msg => Sys2Proof.Machine.execSlot msg s
  | .sched msg => Sys2Proof.Machine.execSched msg s
  | .floor msg => Sys2Proof.Machine.execFloor msg s
  | .syncEnd msg => Sys2Proof.Machine.execSyncEnd msg s
  | .mirrorFlush kind => Sys2Proof.Machine.execMirrorFlush kind s
  | .floorTimer => Sys2Proof.Machine.execFloorTimer s
  | .statusTimer => Sys2Proof.Machine.execStatusTimer s
  | .grant msg => Sys2Proof.Machine.execGrant msg s
  | .arbLost => Sys2Proof.Machine.execArbLost s
  | .requestHoldExpiry => Sys2Proof.Machine.execRequestHoldExpiry s
  | .yield => Sys2Proof.Machine.execYield s
  | .request => Sys2Proof.Machine.execRequest s
  | .resync => Sys2Proof.Machine.execResync s
  | .chWrite cmd => Sys2Proof.Machine.execChWrite cmd s
  | .chRead cmd => Sys2Proof.Machine.execChRead cmd s
  | .chEvict cmd => Sys2Proof.Machine.execChEvict cmd s
  | .chEvictDiscard cmd => Sys2Proof.Machine.execChEvictDiscard cmd s
  | .chPin cmd => Sys2Proof.Machine.execChPin cmd s
  | .chUnpin cmd => Sys2Proof.Machine.execChUnpin cmd s
  | .eqxScheduleTime cmd => Sys2Proof.Machine.execEqxScheduleTime cmd s
  | .eqxSchedulePn cmd => Sys2Proof.Machine.execEqxSchedulePn cmd s
  | .eqxScheduleNow cmd => Sys2Proof.Machine.execEqxScheduleNow cmd s
  | .eqxScheduleCancel cmd => Sys2Proof.Machine.execEqxScheduleCancel cmd s
  | .eqxScheduleQuery cmd => Sys2Proof.Machine.execEqxScheduleQuery cmd s
  | .solScheduleTime cmd => Sys2Proof.Machine.execSolScheduleTime cmd s
  | .solScheduleFirstValid cmd => Sys2Proof.Machine.execSolScheduleFirstValid cmd s
  | .solScheduleNow cmd => Sys2Proof.Machine.execSolScheduleNow cmd s
  | .solScheduleCancel cmd => Sys2Proof.Machine.execSolScheduleCancel cmd s
  | .solScheduleQuery cmd => Sys2Proof.Machine.execSolScheduleQuery cmd s
  | .statRead cmd => Sys2Proof.Machine.execStatRead cmd s
  | .statClear cmd => Sys2Proof.Machine.execStatClear cmd s
  | .bucketDigest cmd => Sys2Proof.Machine.execBucketDigest cmd s
  | .slotInstall cmd => Sys2Proof.Machine.execSlotInstall cmd s
  | .slotErase cmd => Sys2Proof.Machine.execSlotErase cmd s
  | .jnlRead cmd => Sys2Proof.Machine.execJnlRead cmd s
  | .jnlDrop cmd => Sys2Proof.Machine.execJnlDrop cmd s
  | .hswRead cmd => Sys2Proof.Machine.execHswRead cmd s
  | .hswWrite cmd => Sys2Proof.Machine.execHswWrite cmd s
  | .keyNew cmd => Sys2Proof.Machine.execKeyNew cmd s
  | .keyErase cmd => Sys2Proof.Machine.execKeyErase cmd s
  | .wcbFlush cmd => Sys2Proof.Machine.execWcbFlush cmd s
  | .keyQuery cmd => Sys2Proof.Machine.execKeyQuery cmd s
  | .marchStart => Sys2Proof.Machine.execMarchStart s
  | .marchPause => Sys2Proof.Machine.execMarchPause s
  | .marchResume => Sys2Proof.Machine.execMarchResume s
  | .marchRetry => Sys2Proof.Machine.execMarchRetry s
  | .marchZero => Sys2Proof.Machine.execMarchZero s
  | .marchStop => Sys2Proof.Machine.execMarchStop s
  | .kekDerive data => Sys2Proof.Machine.execKekDerive data s
  | .kekDerived => Sys2Proof.Machine.execKekDerived s
  | .kekCheck data => Sys2Proof.Machine.execKekCheck data s
  | .svcOut slice data => Sys2Proof.Machine.execSvcOut slice data s
  | .testRun slice data => Sys2Proof.Machine.execTestRun slice data s
  | .pcntClrSelected port => Sys2Proof.Machine.execPcntClrSelected port s
  | .pcntClrAll port => Sys2Proof.Machine.execPcntClrAll port s
  | .grpGo => Sys2Proof.Machine.execGrpGo s
  | .calWr => Sys2Proof.Machine.execCalWr s
  | .calSel data => Sys2Proof.Machine.execCalSel data s
  | .fltRecSel data => Sys2Proof.Machine.execFltRecSel data s
  | .fltRecClrOne => Sys2Proof.Machine.execFltRecClrOne s
  | .fltRecClrAll => Sys2Proof.Machine.execFltRecClrAll s
  | .fltInject data => Sys2Proof.Machine.execFltInject data s
  | .bypSel data => Sys2Proof.Machine.execBypSel data s
  | .bypWr => Sys2Proof.Machine.execBypWr s
  | .evcPreset ctr data => Sys2Proof.Machine.execEvcPreset ctr data s
  | .eqxLogRead => Sys2Proof.Machine.execEqxLogRead s
  | .loRegisterRead addr => Sys2Proof.Machine.execLoRegisterRead addr s
  | .timeCaptureRead which => Sys2Proof.Machine.execTimeCaptureRead which s
  | .pgCommit page => Sys2Proof.Machine.execPgCommit page s
  | .commitApply page => Sys2Proof.Machine.execCommitApply page s
  | .pgUnlock page data => Sys2Proof.Machine.execPgUnlock page data s
  | .unlockExpiry page => Sys2Proof.Machine.execUnlockExpiry page s
  | .pgReset page => Sys2Proof.Machine.execPgReset page s
  | .registerWrite addr size data => Sys2Proof.Machine.execRegisterWrite addr size data s
  | .glbDigestRecompute => Sys2Proof.Machine.execGlbDigestRecompute s
  | .seedWordTaken word => Sys2Proof.Machine.execSeedWordTaken word s
  | .pairRxBad arbiter seqOnly => Sys2Proof.Machine.execPairRxBad arbiter seqOnly s
  | .residencyMapRebuildDone word => Sys2Proof.Machine.execResidencyMapRebuildDone word s

end Sys2Proof.Machine
end

