-- ==== Sys2Proof/Machine/Issue.lean ====
section
/-! DEFINITION. What the datapath does in one CK_AO cycle, which is 32 cycles of CK_LINE: the input buses bring more of the frames that
are open, the issue stage of each slice that holds frames sends counter blocks, and the combiner and GHASH follow (R17, R33, R75, R84,
R101, R112, R119 to R123). -/
namespace Sys2Proof.Machine

/-! ### The input buses (R17) -/

/-- Cycles of CK_LINE in one of CK_AO (R60). -/
def lineCycles : Nat := 32
/-- Bytes that a port's input bus brings in one CK_AO cycle: a quarter of a 32 B segment for each lane unit and CK_LINE cycle
(R17). [DESIGN CHOICE: log 2] -/
def State.portBytes (s : State) (port : Nat) : Nat := s.portLanes port * (lineCycles * 8)
/-- The EOF of an open frame has come. -/
def State.eofTaken (s : State) (id : Nat) : State :=
  match s.frame id with
  | some f =>
    let s := (s.closeFrame f).vfCheck id
    match s.frame id with
    | some g => (s.passTry g).voidLong id
    | none => s
  | none => s
/-- An egress frame that is still arriving has been found too long (R84): it is dropped before its SOF, and cut after it. -/
def State.longFound (s : State) (f : Frame) : State :=
  if f.dir = .egress ∧ f.tooLong ∧ f.mtu < f.got + 4 + (f.outLen - f.bytes.length) ∧ f.sofOut = false then s.dropFrame f 0x09 else s
/-- More bytes of an open frame arrive; RSE segments of a frame that has left its admission buffer are paid at once (R33). -/
def State.arriveFrame (s : State) (f : Frame) (k : Nat) : State :=
  let g := { f with got := min f.busLen (f.got + k) }
  let s := (s.modFrame f.id (fun h => { h with got := g.got })).bwIn f.dir f.port (g.got - f.got)
  if f.busLen ≤ g.got then s.eofTaken f.id
  else (s.when (decide (f.stage ≠ .waiting)) (·.rseReturn g)).longFound g
/-- More bytes of a frame arrive that has ended inside; at its EOF its port and class are closed, and a report of it takes its
place (R31, R112). -/
def State.arriveStub (s : State) (t : Stub) (k : Nat) : State :=
  let u := { t with got := min t.busLen (t.got + k) }
  let fin := decide (t.busLen ≤ u.got)
  let rest := s.dp.stubs.erase t
  let s := (s.modDp (fun d => { d with stubs := if fin then rest else rest ++ [u] })).bwIn t.dir t.port (u.got - t.got)
  let s := s.when (decide (t.dir = .egress)) (·.payRse t.port t.express
    ((if fin then segsOf t.busLen else u.got / 32) - t.got / 32))
  match fin, t.rep with
  | true, some r => s.addReport r
  | _, _ => s
/-- What a port and class still awaits of its open frame. -/
def State.openLeft (s : State) (d : Dir) (port : Nat) (cls : Bool) : Nat :=
  match (s.openFrames d port).find? (fun f => f.express == cls) with
  | some f => f.busLen - f.got
  | none => match s.dp.stubs.find? (fun t => decide (t.dir = d) && decide (t.port = port) && (t.express == cls)) with
    | some t => t.busLen - t.got
    | none => 0
/-- The input bus of a port brings up to `k` bytes of its open frame of a class. -/
def State.arriveClass (s : State) (d : Dir) (port : Nat) (cls : Bool) (k : Nat) : State :=
  match (s.openFrames d port).find? (fun f => f.express == cls) with
  | some f => s.arriveFrame f k
  | none => match s.dp.stubs.find? (fun t => decide (t.dir = d) && decide (t.port = port) && (t.express == cls)) with
    | some t => s.arriveStub t k
    | none => s
/-- The input bus of a port for one CK_AO cycle: its express frame first, the rest of the rate to its bulk frame.
[DESIGN CHOICE: log 2] -/
def State.arrivePort (s : State) (d : Dir) (port : Nat) : State :=
  let k := s.portBytes port
  let e := min k (s.openLeft d port true)
  (s.arriveClass d port true k).arriveClass d port false (k - e)
/-- Every input bus on which a frame is open. -/
def State.arrive (s : State) : State :=
  let keys := ((s.dp.frames.filter (fun f => !f.eof && !f.void_ && !decide (f.kind = .report))).map (fun f => (f.dir, f.port)) ++
    s.dp.stubs.map (fun t => (t.dir, t.port))).dedup
  s.forEach keys (fun s p => s.arrivePort p.1 p.2)

/-! ### The slices (R119 to R123) -/

/-- The additional authenticated data of a frame (R70, R95, R119). -/
def Frame.aad (f : Frame) : Bytes :=
  if f.dir = .egress then
    let a := 12 + 4 * cClear f.cfg0
    f.bytes.take a ++ secTag f ++ slice f.bytes a f.clear
  else f.bytes.take (f.hdr + f.clear)
/-- Absorb blocks into a GHASH accumulator (R120). -/
def absorb (f : Frame) (acc : W128) (l : List Bytes) : W128 :=
  l.foldl (fun y b => gfMul (y ^^^ blockOf (padTo 16 b)) (f.h.headD 0)) acc
/-- The issue stage sends the next counter block of a frame: J0 yields E_K(J0), a later one its keystream (R119, R122). -/
def Frame.issue (f : Frame) : Frame :=
  if f.kind = .t10 then { f with issued := f.issued + 1 }
  else if f.issued = 0 then { f with issued := 1, ekj0 := blockOf (aes f.key (gcmIv f ++ [0, 0, 0, 1])) }
  else { f with issued := f.issued + 1, ks := f.ks ++ aes f.key (gcmIv f ++ beBytes 4 (f.issued + 1)) }
/-- The combiner and GHASH take what has been admitted: the AAD, then each whole data block, or at the end the last, that has its
keystream (R119, R120). [DEDUCED: log 46] -/
def Frame.combine (f : Frame) : Frame :=
  if f.kind = .t10 ∨ f.issued = 0 then f
  else
    let a := chunks16 f.aad
    let whole := f.eof || decide (f.dataAt ≤ f.got)
    let n := if whole then a.length else min (a.length - 1) (f.got / 16)
    let upto := if whole then max f.pos (min (16 * (f.issued - 1)) (if f.eof then f.dataIn else f.dataIn / 16 * 16)) else f.pos
    let d := slice f.bytes (f.dataAt + f.pos) (upto - f.pos)
    let c := if f.dir = .egress then xorBytes d f.ks else d
    { f with
      aadN := max f.aadN n, acc := absorb f (absorb f f.acc ((a.drop f.aadN).take (n - f.aadN))) (chunks16 c), pos := upto
      ks := f.ks.drop (upto - f.pos) }
/-- One cycle of the issue stage of a slice (R123). -/
def State.issueOne (s : State) (n : Nat) : State :=
  match s.nextIssue n with
  | some f =>
    let s := (s.modFrame f.id Frame.issue).modSl n (fun c => { c with last := if f.stage = .inSlice n 0 then c.last else some f.id })
    (s.modSlices (fun c => if isIng n then { c with issuedI := c.issuedI + 1 } else { c with issuedE := c.issuedE + 1 })).evtF
      (320 + n) (some f.chix, f.port, f.dir)
  | none => s
/-- A slice for one CK_AO cycle. -/
def State.issueSlice (s : State) (n : Nat) : State :=
  let s := s.forEach (List.range lineCycles) (fun s _ => s.issueOne n)
  s.modDp (fun d => { d with frames := d.frames.map (fun f => if f.inSl n && !f.icvDone && !f.void_ then f.combine else f) })
/-- Every slice that holds a frame. -/
def State.issueAll (s : State) : State :=
  s.forEach ((List.range 40).filter (fun n => s.dp.frames.any (fun f => f.inSl n && !f.void_))) (fun s n => s.issueSlice n)
/-- The datapath for one CK_AO cycle. [DESIGN CHOICE: log 2] -/
def State.flow (s : State) : State :=
  if s.dp.frames.isEmpty && s.dp.stubs.isEmpty then s
  else ((s.arrive).issueAll).passAll (fun _ => true)

end Sys2Proof.Machine
end

