-- ==== Sys2Proof/Machine/Tick.lean ====
section
/-! DEFINITION. What a cycle of CK_AO does while no command waits. -/
namespace Sys2Proof.Machine

/-- Pages in PD_AO, whose posted writes finish at a CK_AO cycle (R348). -/
def aoPages : List Page := [.ao, .pwr, .time, .flt, .pair]
/-- A posted write has reached its page in CK_AO. [DESIGN CHOICE: log 2] -/
def State.posted (s : State) (p : Page) : State :=
  if (s.hdr p).busy then s.modHdr p (fun h => { h with busy := false }) else s
/-- An event counted for as long as a condition holds. -/
def State.evtIf (s : State) (c : Bool) (n k : Nat) : State := if c then s.evt n k else s
/-- Slots in WAIT. -/
def State.waitSlots (s : State) : Nat := (s.ch.slots.filter (fun p => decide (p.2.lst = .wait))).length
/-- A frame is in the miss queue. -/
def State.missBusy (s : State) : Bool := s.dp.frames.any (fun f => decide (f.stage = .missq))
/-- The level counters gather a cycle of CK_AO, which is 16 cycles of CK_CTL (R60, R387). [DESIGN CHOICE: log 2] -/
def State.gather (s : State) : State :=
  let a := s.waitSlots
  let e := s.summerCnt false
  let i := s.summerCnt true
  (((((s.evtIf (s.rateShort false) 121 1).evtIf (s.rateShort true) 122 1).evtIf (a ≠ 0) 140 (16 * a)).evtIf s.missBusy 167 16).evtIf
    (e ≠ 0) 187 e).evtIf (i ≠ 0) 188 i
/-- One CK_AO cycle (assumption 2): the datapath goes on, posted writes finish, and the counters of cycles gather the cycle
(R348, R387). [DESIGN CHOICE: log 2, 107] -/
def tick (s : State) : State :=
  ((((s.begin).modSys (fun y => { y with aoClk := y.aoClk + 1 })).flow).forEach aoPages State.posted).gather

end Sys2Proof.Machine
end

