-- ==== Sys2Proof/Machine/Step.lean ====
section
/-! DEFINITION. One step: the command at the front of the queue, or one CK_AO cycle when none waits. -/
namespace Sys2Proof.Machine

/-- Take the command at the front of the queue; with none waiting, one CK_AO cycle passes (assumption 2).
[DEDUCED, DESIGN CHOICE: log 2, 95, 107, 108] -/
def step (s : State) : Host.Outcome State Fault Refusal :=
  match s.pending with
  | [] => .next (tick s)
  | c :: rest => exec c { s with pending := rest }

/-- The state with the command that a word spells at the front of its queue; the table gives no row any bits, so no
word spells a command. [DESIGN CHOICE: log 105] -/
def State.withFetchWord (s : State) (nbits w : Nat) : State :=
  match decodeTableWord nbits w with
  | some c => { s with pending := c :: s.pending }
  | none => s

end Sys2Proof.Machine
end

