-- ==== Sys2Proof/Safety.lean ====
section
/-! DEFINITION. What a safe state and a safe run are, in the terms the statements use. -/
namespace Sys2Proof.Machine

/-- The security core and the recovery sequencer are sound: at most 16 seed words (R49), five bring-up phases (R390),
eight beats of the root key, and a root key only after the eighth (R50); and once zeroisation has begun, no root key, no
KEK and no derivation is left, and no root key is taken any more (R51, R173). -/
def Sys.sound (y : Sys) : Prop :=
  y.seeds.length ≤ 16 ∧ y.phase ≤ 5 ∧ y.klTaken ≤ 8 ∧ (y.rootKey.isSome = true → y.klTaken = 8) ∧
  (y.zero ≠ .no → y.rootKey = none ∧ y.keks = [] ∧ y.kek63 = none ∧ y.derive = [] ∧ y.klDead = true)

/-- Every frame has a number of its own, below the next one to be given. -/
def Dp.numbered (d : Dp) : Prop := (∀ f ∈ d.frames, f.id < d.nextFrame) ∧ (d.frames.map Frame.id).Nodup

/-! ### A block with nothing under way

What a command leaves to be done is carried on at once (R21, R165, R187, R326), so a statement of a command's effect that
this could touch is made of a block in which nothing else is under way. -/

/-- No request waits in the store engine, and none has ended unseen. -/
def State.storeIdle (s : State) : Bool := s.store.wait.isEmpty && s.store.fin.isEmpty
/-- No window command is in progress, and no register command waits for its domain. -/
def State.windowsIdle (s : State) : Bool :=
  s.pager.saw.isNone && s.pager.keyw.isNone && s.lease.cmd.isNone && s.store.cmd.isNone &&
  !s.sys.chkWait && !s.pager.calRead && s.pager.calPut.isEmpty
/-- The lease unit has nothing to write: no item, no copy, no sector to retire (R187 to R189). -/
def State.journalIdle (s : State) : Bool :=
  !s.lease.scanDone || (s.lease.todo.isEmpty && s.lease.retiring.isEmpty && s.lease.nextCopy.isNone && s.wornSectors.isEmpty &&
    !s.followerBad && !s.lease.openDue && s.pair.jnlWait.isEmpty && !s.pair.jnlFail)
/-- A standby has nothing to apply or to acknowledge (R327, R328). -/
def State.mirrorIdle (s : State) : Bool := s.pair.inbox.isEmpty && s.pair.syncEnd.isNone && s.pair.ackOwed.isEmpty
/-- No entry waits to be freed after the loss of its record (R298). -/
def State.entriesIdle (s : State) : Bool :=
  s.ch.entries.all (fun p => match p.2 with | some en => en.live || !en.evicting | none => true)
/-- No domain is to be woken: every domain but the slices' is in SUMMER or on its way there, and no request to the power
manager is held back (R52, R279). -/
def State.domainsIdle (s : State) : Bool :=
  (decide (s.sys.phase < 3) || wakeList.all (fun d =>
    decide ((s.dom d).season = .summer) || decide ((s.dom d).season = .thaw))) &&
  s.pmOrder.all (fun d => (s.dom d).want.isNone)
/-- Nothing is under way. -/
def State.idle (s : State) : Bool :=
  s.storeIdle && s.windowsIdle && s.journalIdle && s.mirrorIdle && s.entriesIdle && s.domainsIdle

/-- Occurrences of an event gathered for its counter (R383). -/
def State.counted (s : State) (n : Nat) : Nat := Tab.get 0 s.cnt.acc n
/-- Nothing stands against a write to a page: CP_ is enabled, the page's partition is not in reset, and the page is not
BUSY (R308, R348, R390). -/
def State.free (s : State) (p : Page) : Bool := s.cpUp && !s.resetOn p.part && !(s.hdr p).busy

/-- What zeroisation leaves of the keys: nothing, and no root key is taken any more (R51, R173). -/
def Sys.erased (y : Sys) : Prop :=
  y.rootKey = none ∧ y.klPartial = 0 ∧ y.klDead = true ∧ y.keks = [] ∧ y.kek63 = none ∧ y.derive = [] ∧ y.kekReady = false ∧
  y.vaultMask = none

/-! ### How a window command ends or waits -/

/-- What follows once the window commands have run: the store is served, the journal is written, mirrored items are applied,
and domains that are needed are woken. `State.settle` is this after the window commands. -/
def State.carryOn (s : State) : State :=
  let s := ((storeSettle 8 s).pumpLease).pairPump
  (s.wakeNeeded).pmPump
/-- The tables that the window commands need are in SUMMER and available (R279, R281). [DEDUCED: log 69] -/
def State.tablesUp (s : State) : Bool := s.domsUp tableDoms && !s.domsLost tableDoms
/-- A write of the command register of a page is taken, and its command runs with nothing else under way. -/
def State.canRun (s : State) (p : Page) : Bool := s.idle && s.free p && s.tablesUp
/-- No line that an earlier SAW command has read is left over. -/
def State.sawClear (s : State) : Bool := s.pager.sawLeft.isEmpty && s.pager.sawLines.isEmpty && !s.pager.sawFail
/-- A window command has ended: BUSY is clear, the result register holds code, opcode and detail, and the flag of the page's
CMD_DONE is set (R165, R255). -/
def State.ended (t : State) (p : Page) (off flag code op detail : Nat) : Prop :=
  (t.hdr p).busy = false ∧
  t.roW p off = (atPos (code % 256) 24 ||| atPos (op % 256) 16 ||| atPos (detail % 65536) 0) ∧ t.flag p 0x40 flag = true

/-- Nothing refuses a frame at its SOF: bring-up has ended, its port is enabled and serves, the role gate is open, no frame of its class
is open on the bus, the descriptor is valid, and an ingress frame has room (R27, R59, R62, R88, R102). -/
def State.admits (s : State) (d : Dir) (port : Fin 32) (cls : Bool) (desc : W64) : Bool :=
  decide (5 ≤ s.sys.phase) && !s.held (.port port) && !s.resetOn (.port port) && !s.busOpen d port cls && s.portEn port &&
  s.roleOpen && descOk desc cls && (decide (d = .egress) || decide (16384 ≤ s.admFree port))

/-- A run of `k` steps from a state ends in a next state. -/
def runsFor : Nat → State → Prop
  | 0, _ => True
  | k + 1, s => ∃ t, step s = .next t ∧ runsFor k t

end Sys2Proof.Machine
end

