-- ==== Sys2Proof/Certificates/Slice0/Obligations.lean ====
section
/-! DEFINITION. The statements for the provers, family by family. `∃ u, exec c s = .next u.settle` says what the command itself
leaves; `State.settle` then carries what it made possible as far as it goes at once. -/
open Sys2Proof Sys2Proof.Machine

/-- With command c in front of the queue, a step is exec c on the state with the rest of the queue; with an empty queue (the
model's choice, log entry 2) one CK_AO cycle passes, which finishes posted writes, lets the frames in the block move on, and
leaves configuration, tables, units, faults and the pair as they are; with no frame about, the datapath and the slices too.
(01_architecture.md, 15_register_conventions.md) -/
def Obligations.StepTakesFront : Prop :=
  (∀ (c : Instr) (rest : List Instr) (s : State), s.pending = c :: rest → step s = exec c { s with pending := rest }) ∧
  (∀ s : State, s.pending = [] →
    ∃ t : State, step s = .next t ∧ t.sys = { s.sys with aoClk := s.sys.aoClk + 1 } ∧
      (∀ p ∈ aoPages, (t.hdr p).busy = false) ∧ t.regs.cfg = s.regs.cfg ∧ t.ch = s.ch ∧
      t.lease = s.lease ∧ t.pager = s.pager ∧ t.keyx = s.keyx ∧ t.store = s.store ∧ t.pwr = s.pwr ∧ t.flt = s.flt ∧
      t.pair = s.pair ∧ t.pending = [] ∧
      (s.dp.frames = [] → s.dp.stubs = [] → t.dp = s.dp ∧ t.slices = s.slices))

/-- Whatever the state and the commands that wait, every number of steps ends in a next state: no command stops the block with
a fault or a refusal. (01_architecture.md, 02_boundary.md, 13_faults.md) -/
def Obligations.EveryRunCompletes : Prop :=
  ∀ (k : Nat) (s : State), runsFor k s

/-- At reset the security core is sound, the frames are numbered, no command waits, and every configuration register holds the
reset value of its field map. (02_boundary.md, 15_register_conventions.md, 16_register_map.md, 18_bringup_and_procedures.md)
-/
def Obligations.ResetMeetsInvariants : Prop := State.reset.sys.sound ∧ State.reset.dp.numbered ∧ State.reset.pending = [] ∧
  ∀ (p : Page) (off : Nat), State.reset.cfg p off = regReset (p.at off)

/-- From every sound state a step leads to a sound state: at most 16 seed words, at most five phases, at most eight beats of
the root key and a root key only after the eighth, and no key left once zeroisation has begun. (02_boundary.md,
06_channels_and_keys.md, 18_bringup_and_procedures.md) -/
def Obligations.SoundKept : Prop :=
  ∀ s t : State, s.sys.sound → step s = .next t → t.sys.sound

/-- If every frame has a number of its own below the next one to be given, this holds after every step (the numbering is the
model's own means of naming a frame). (03_egress_encryption.md, 04_ingress_decryption.md) -/
def Obligations.FramesNumberedKept : Prop :=
  ∀ s t : State, s.dp.numbered → step s = .next t → t.dp.numbered

/-- Once zeroisation has begun, no command other than RST_N ends it, and after every such step there is still no root key and
no KEK. (02_boundary.md, 06_channels_and_keys.md) -/
def Obligations.ZeroisationLasts : Prop :=
  ∀ (c : Instr) (rest : List Instr) (s t : State), s.sys.sound → s.pending = c :: rest → (∀ b, c ≠ .rstN b) →
    s.sys.zero ≠ .no → step s = .next t →
    t.sys.zero ≠ .no ∧ t.sys.rootKey = none ∧ t.sys.keks = [] ∧ t.sys.kek63 = none

/-- Bus framing, releases, underruns, credit, the crossing messages, catch expiry, dispatch, resumption and the end of egress
work change no configuration register, no staged copy, and nothing of the security core, channels and vault, leases, pager,
KEYX, store, power and pair, nor the queue of commands; a release on ingress that makes the final checks of frames (R98) may
change a replay window, and changes nothing of channels and vault when every compared frame has been checked.
(01_architecture.md, 02_boundary.md, 03_egress_encryption.md, 04_ingress_decryption.md) -/
def Obligations.DatapathFrame : Prop :=
  ∀ (d : Dir) (port lane : Fin 32) (cls ini ok up mf ec : Bool) (n : Nat) (sl : Fin 40) (cnt : BitVec 10) (code : LaneCode)
    (free inc : BitVec 16) (ctr : BitVec 7) (sci : W64) (s t : State),
    (∀ c ∈ [Instr.busFraming d port, .bseSofRelease port cls, .rsiSofRelease port cls, .eofRelease d port cls,
      .bseUnderrun port cls, .rsiUnderrun port cls, .recordTimeout n, .creditReturn d port cls ini cnt,
      .laneControl lane code ok, .linkStatus lane up mf ec ok, .bufferLevel lane cls free ok,
      .blackCounterIncrement lane ctr inc ok, .catchEntryExpiry sci port, .outPar d port cls, .sliceDispatch n,
      .bulkResume sl, .egressIcvWritten n],
    exec c s = .next t →
    t.regs.cfg = s.regs.cfg ∧ t.regs.staged = s.regs.staged ∧ t.sys = s.sys ∧ t.lease = s.lease ∧
    t.pager = s.pager ∧ t.keyx = s.keyx ∧ t.store = s.store ∧ t.pwr = s.pwr ∧ t.pair = s.pair ∧ t.pending = s.pending ∧
    (c ∉ [Instr.rsiSofRelease port cls, .eofRelease .ingress port cls] → t.ch = s.ch) ∧
    ((∀ f ∈ s.dp.frames, f.icvDone = true → f.checked = true) → t.ch = s.ch))

/-- Locks, event and port counters, bandwidth windows, selections, the KEK check, fault records, corrected errors, late tests
and the digest of all pages change nothing of the security core, datapath, slices, channels and vault, leases, pager, KEYX,
store, power and pair, nor the queue of commands; the two that need a domain, CAL_SEL and KEK_CHK_IDX, while that domain
serves (asleep, they wake it). (13_faults.md, 15_register_conventions.md, 16_register_map.md,
17_counters.md) -/
def Obligations.RegisterFrame : Prop :=
  ∀ (page : BitVec 8) (data : W32) (ctr : BitVec 9) (port : Fin 32) (d : Fin 54) (ct : Bool) (test : Fin 8) (sl : Fin 40)
    (s t : State),
    ∀ c ∈ [Instr.pgUnlock page data, .unlockExpiry page, .evcUpdateSlot ctr, .bwWindowClose, .evcPreset ctr data,
      .pcntClrSelected port, .pcntClrAll port, .calSel data, .kekCheck data, .fltRecSel data, .fltRecClrOne, .fltRecClrAll,
      .sramCe d data ct, .latentLate test, .testLate sl, .bypSel data, .glbDigestRecompute],
    (c = .calSel data → s.domUp 53 = true) → (c = .kekCheck data → s.domUp 1 = true) → exec c s = .next t →
    t.sys = s.sys ∧ t.dp = s.dp ∧ t.slices = s.slices ∧ t.ch = s.ch ∧ t.lease = s.lease ∧ t.pager = s.pager ∧
    t.keyx = s.keyx ∧ t.store = s.store ∧ t.pwr = s.pwr ∧ t.pair = s.pair ∧ t.pending = s.pending

/-- The timers of HELLO, BEAT, HEALTH and STATUS, the mirror flush, the loss of the arbiter, stale health and RESYNC change no
configuration register, no staged copy, and nothing of the datapath, slices, leases, channels and vault, pager, KEYX, store,
power and faults, nor the queue of commands. (14_redundant_pair.md) -/
def Obligations.PairFrame : Prop :=
  ∀ (k : MirKind) (s t : State),
    ∀ c ∈ [Instr.helloTimer, .beatTimer, .healthTimer, .healthStale, .mirrorFlush k, .statusTimer, .arbLost, .resync],
    exec c s = .next t →
    t.regs.cfg = s.regs.cfg ∧ t.regs.staged = s.regs.staged ∧ t.dp = s.dp ∧ t.slices = s.slices ∧ t.lease = s.lease ∧
    t.ch = s.ch ∧ t.pager = s.pager ∧ t.keyx = s.keyx ∧ t.store = s.store ∧ t.pwr = s.pwr ∧ t.flt = s.flt ∧
    t.pending = s.pending

/-- Root-key beats and failure, faults of the random source, reseeds, the end of zeroisation and clock measurement, and on the
other hand the reads with side effects, change no configuration register, no staged copy, and nothing of the units they do not
belong to, nor the queue of commands. (02_boundary.md, 05_cipher_slices.md, 06_channels_and_keys.md, 16_register_map.md) -/
def Obligations.SecurityFrame : Prop :=
  (∀ (beat : BitVec 3) (data a b c' : W32) (gen : Fin 47) (banks : List (BitVec 8)) (s t : State),
    ∀ c ∈ [Instr.klBeat beat data, .klFail, .rnFault, .maskReseed gen, .maskReseedRetry gen, .zeroiseComplete banks,
      .clkFreqWindow a b c'],
    exec c s = .next t →
    t.regs.cfg = s.regs.cfg ∧ t.regs.staged = s.regs.staged ∧ t.dp = s.dp ∧ t.slices = s.slices ∧ t.ch = s.ch ∧
    t.lease = s.lease ∧ t.pager = s.pager ∧ t.keyx = s.keyx ∧ t.store = s.store ∧ t.pwr = s.pwr ∧ t.pair = s.pair ∧
    t.pending = s.pending) ∧
  (∀ (addr : ReadAt) (r : TimeReg) (s t : State), ∀ c ∈ [Instr.loRegisterRead addr, .eqxLogRead, .timeCaptureRead r],
    exec c s = .next t →
    t.regs.cfg = s.regs.cfg ∧ t.regs.staged = s.regs.staged ∧ t.dp = s.dp ∧ t.slices = s.slices ∧ t.lease = s.lease ∧
    t.pager = s.pager ∧ t.keyx = s.keyx ∧ t.store = s.store ∧ t.pwr = s.pwr ∧ t.flt = s.flt ∧ t.pair = s.pair ∧
    t.pending = s.pending)

/-- RST_N leaves the reset state (the queue of commands and the count of free values apart, the model's own); with a tamper
seen meanwhile zeroisation runs from it. Each phase end advances the phase; the second needs 16 seed words, and the third
draws the vault mask and KEK 63 unless a tamper has been seen. (02_boundary.md, 18_bringup_and_procedures.md) -/
def Obligations.BringUp : Prop :=
  (∀ s, exec (.rstN false) s = .next { State.reset with pending := s.pending, freeCtr := s.freeCtr } ∧
    ∃ t, exec (.rstN true) s = .next t ∧ t.sys.zero = .running ∧ t.sys.phase = 0 ∧ t.sys.seeds = [] ∧ t.sys.rootKey = none ∧
        t.sys.tamperHeld = true) ∧
  (∀ s, ∃ t, exec .seqPhaseEnd s = .next t ∧
    t.sys.phase = (if s.sys.phase = 1 ∧ s.sys.seeds.length < 16 then 1 else if 5 ≤ s.sys.phase then s.sys.phase else s.sys.phase + 1) ∧
    (s.sys.phase = 2 → s.sys.zero = .no → 4 ≤ s.sys.seeds.length → t.sys.vaultMask.isSome = true ∧ t.sys.kek63.isSome = true) ∧
    (s.sys.phase = 2 → s.sys.zero ≠ .no → t.sys.vaultMask = s.sys.vaultMask ∧ t.sys.kek63 = s.sys.kek63) ∧
    t.sys.rootKey = s.sys.rootKey ∧ t.sys.keks = s.sys.keks ∧ t.sys.zero = s.sys.zero)

/-- A tamper that its filter passes (the one of PD_SEC filters while PD_SEC is powered), and ZEROISE on an unlocked page,
start zeroisation: no root key, no KEK, no derivation and no vault mask is left and no root key is taken any more; its end
leaves zeroisation done. (02_boundary.md, 06_channels_and_keys.md) -/
def Obligations.ZeroisationErasesKeys : Prop :=
  (∀ f s, s.sys.zero = .no → (f.val = 0 ∨ s.secOn = true) →
    ∃ t, exec (.tamper f) s = .next t ∧ t.sys.zero = .running ∧ t.sys.erased) ∧
  (∀ data s, s.sys.zero = .no → s.free .sec = true → (s.hdr .sec).unlocked = true → bit data 0 = true →
    ∃ t, exec (.zeroise data) s = .next t ∧ t.sys.zero = .running ∧ t.sys.erased) ∧
  (∀ banks s, s.sys.zero = .running →
    ∃ t, exec (.zeroiseComplete banks) s = .next t ∧ t.sys = { s.sys with zero := .done })

/-- Beats in order gather the root key and the eighth completes it; a beat out of order or KL_ERR ends the delivery for good
and is counted, and once it has ended no beat and no KL_ERR changes anything (log entry 115), nor does KL_ERR after the eighth
beat, while a further beat is counted; RN_ERR is recorded and counted until a seed word is taken (log entry 115); a seed word
joins the buffer, is refused with 16 in it and before the first phase, and with nothing under way nothing takes it; a reseed
takes the two oldest free words, the later one as the more significant half (the model's choice, log entry 112), or with fewer
than two is late and counted. (02_boundary.md, 05_cipher_slices.md) -/
def Obligations.RootKeyAndSeeds : Prop :=
  (∀ beat data s, 4 ≤ s.sys.phase → s.sys.klTaken < 8 → s.sys.klDead = false → beat.toNat = s.sys.klTaken →
    ∃ t, exec (.klBeat beat data) s = .next t ∧
      t.sys = (let v := s.sys.klPartial <<< 32 ||| BitVec.ofNat 256 (ofBe (leBytes 4 data.toNat))
        if beat = 7 then { s.sys with rootKey := some v, klPartial := 0, klTaken := 8, klAck := true }
        else { s.sys with klPartial := v, klTaken := s.sys.klTaken + 1 })) ∧
  (∀ beat data s, 4 ≤ s.sys.phase → s.sys.klTaken < 8 → s.sys.klDead = false → beat.toNat ≠ s.sys.klTaken →
    ∃ t, exec (.klBeat beat data) s = .next t ∧ t.sys = { s.sys with klPartial := 0, klTaken := 0, klDead := true } ∧
      t.counted 0x32 = s.counted 0x32 + 1) ∧
  (∀ s, s.sys.klTaken < 8 → s.sys.klDead = false →
    ∃ t, exec .klFail s = .next t ∧ t.sys = { s.sys with klPartial := 0, klTaken := 0, klDead := true } ∧
      t.counted 0x33 = s.counted 0x33 + 1) ∧
  (∀ (beat : BitVec 3) (data : W32) (s : State), 4 ≤ s.sys.phase → s.sys.klTaken < 8 → s.sys.klDead = true →
    exec (.klBeat beat data) s = .next { s with out := [] }) ∧
  (∀ s : State, (s.sys.klTaken = 8 ∨ s.sys.klDead = true) → exec .klFail s = .next { s with out := [] }) ∧
  (∀ (beat : BitVec 3) (data : W32) (s : State), 4 ≤ s.sys.phase → s.sys.klTaken = 8 →
    ∃ t : State, exec (.klBeat beat data) s = .next t ∧ t.sys = s.sys ∧ t.counted 0x34 = s.counted 0x34 + 1) ∧
  (∀ s : State, ∃ t : State, exec .rnFault s = .next t ∧ t.sys = { s.sys with rnErr := true } ∧
      t.counted 0x3F = s.counted 0x3F + 1) ∧
  (∀ (w : W128) (s : State), 1 ≤ s.sys.phase → s.sys.seeds.length < 16 →
    ∃ t : State, exec (.seedWordTaken w) s = .next t ∧ t.sys.rnErr = false ∧ t.sys.seeds <:+ s.sys.seeds ++ [w]) ∧
  (∀ (w : W128) (s : State), 1 ≤ s.sys.phase → s.sys.seeds.length < 16 → s.idle = true → s.store.masterLost = false →
    (s.domUp 1 = false ∨ (s.sys.maskSeed.any (fun p => decide (p.1 = 46))) = true) →
    exec (.seedWordTaken w) s = .next { s with
      out := []
      sys := { s.sys with rnErr := false, seeds := s.sys.seeds ++ [w] } }) ∧
  (∀ (w : W128) (s : State), (s.sys.phase = 0 ∨ 16 ≤ s.sys.seeds.length) →
    exec (.seedWordTaken w) s = .next { s with out := [] }) ∧
  (∀ (g : Fin 47) (a b : W128) (rest : List W128) (s : State), s.genOn g.val = true → s.seedsFree = a :: b :: rest →
    ∃ t : State, exec (.maskReseed g) s = .next t ∧ t.sys = { s.sys with
        seeds := s.sys.seeds.drop 2, maskSeed := Tab.set 0 s.sys.maskSeed g.val (b ++ a)
        maskLate := s.sys.maskLate.filter (· ≠ g.val) } ∧
      t.counted 300 = s.counted 300 + 1) ∧
  (∀ (g : Fin 47) (s : State), s.genOn g.val = true → s.seedsFree.length < 2 →
    ∃ t : State, exec (.maskReseed g) s = .next t ∧ t.sys = { s.sys with maskLate := insNat s.sys.maskLate g.val } ∧
      t.counted 120 = s.counted 120 + 1) ∧
  (∀ (g : Fin 47) (a b : W128) (rest : List W128) (s : State), g.val ∈ s.sys.maskLate → s.seedsFree = a :: b :: rest →
    ∃ t : State, exec (.maskReseedRetry g) s = .next t ∧ t.sys = { s.sys with
        seeds := s.sys.seeds.drop 2, maskSeed := Tab.set 0 s.sys.maskSeed g.val (b ++ a)
        maskLate := s.sys.maskLate.filter (· ≠ g.val) } ∧
      t.counted 300 = s.counted 300 + 1)

/-- KEK_DERIVE on an unlocked page with a root key starts the derivation of the enabled KEKs and uses up its one write;
without a root key it sets DERIVE_ERR and does not; each derivation stores the KDF of root key, index and epoch.
(06_channels_and_keys.md) -/
def Obligations.KeksDerive : Prop :=
  (∀ (data : W32) (s : State), s.free .sec = true → (s.hdr .sec).unlocked = true → bit data 0 = true →
    Page.at .sec 0x90 ∉ s.regs.once → s.sys.rootKey.isSome = true → s.sys.zero = .no → s.held .sec = false → s.kekEnabled ≠ [] →
    ∃ u : State, exec (.kekDerive data) s = .next u.settle ∧ Page.at .sec 0x90 ∈ u.regs.once ∧ (u.hdr .sec).unlocked = false ∧
      u.sys = { s.sys with derive := s.kekEnabled, kekReady := false, rederive := false }) ∧
  (∀ (data : W32) (s : State), s.free .sec = true → (s.hdr .sec).unlocked = true → bit data 0 = true →
    Page.at .sec 0x90 ∉ s.regs.once → s.sys.rootKey.isSome = false →
    ∃ u : State, exec (.kekDerive data) s = .next u.settle ∧ u.regs.once = s.regs.once ∧ u.flag .sec 0x40 3 = true ∧
        u.sys = s.sys) ∧
  (∀ (n m : Nat) (rest : NatSet) (root : BitVec 256) (s : State), s.sys.derive = n :: m :: rest → s.sys.rootKey = some root →
    s.domUp 1 = true → s.held .sec = false →
    ∃ u : State, exec .kekDerived s = .next u.settle ∧ u.counted 108 = s.counted 108 + 1 ∧
      u.sys = { s.sys with
        keks := Tab.ins s.sys.keks n (BitVec.ofNat 256 (ofBe (kdf (beBytes 32 root.toNat) labelKek n s.kekEpoch)))
        derive := m :: rest })

/-- A write of KEK_CHK_IDX stores the index, places the first 4 bytes of AES of a zero block under that KEK in KEK_CHK_VAL
with byte 0 in bits [7:0], or 0 for an index without a KEK or 63, and sets CHK_DONE: at once while PD_SEC serves, and else once
it has been woken. (R157; the wait is R279 and R281.) -/
def Obligations.KekCheckValue : Prop :=
  (∀ (data : W32) (s : State), s.free .sec = true → s.held .sec = false → s.domUp 1 = false →
    ∃ u : State, exec (.kekCheck data) s = .next u.settle ∧ u.cfg .sec 0x9C = BitVec.ofNat 32 (fld data 5 0) ∧
      u.sys.chkWait = true) ∧
  ∀ (data : W32) (s : State), s.free .sec = true → s.held .sec = false → s.domUp 1 = true →
    ∃ t : State, exec (.kekCheck data) s = .next t ∧ t.flag .sec 0x40 4 = true ∧
      t.cfg .sec 0x9C = BitVec.ofNat 32 (fld data 5 0) ∧
      t.roW .sec 0xA0 = (match s.kek (fld data 5 0) with
        | some k => if fld data 5 0 = 63 then 0 else BitVec.ofNat 32 (ofLe ((aes k (zeros 16)).take 4))
        | none => 0)

/-- A valid sample becomes the time of its copy, one with too many nanoseconds is counted and ignored, and a step is recorded;
a clock window stores its counts and counts clocks off frequency; a read of a SEC_LO register captures the time.
(02_boundary.md, 16_register_map.md) -/
def Obligations.TimeSampled : Prop :=
  (∀ (a : Bool) (sec : BitVec 48) (ns el : W32) (s : State), 5 ≤ s.sys.phase → ns.toNat < 1000000000 → (s.tm a).vld = false →
    exec (.timeSample a true sec ns el) s =
      .next (({ s with out := [] } : State).setTm a { vld := true, ns := sec.toNat * 1000000000 + ns.toNat })) ∧
  (∀ (a v : Bool) (sec : BitVec 48) (ns el : W32) (s : State), 5 ≤ s.sys.phase → 1000000000 ≤ ns.toNat →
    ∃ t : State, exec (.timeSample a v sec ns el) s = .next t ∧ (v = true → t.sys = s.sys) ∧ (t.tm a).ns = (s.tm a).ns ∧
      t.flag .time 0x40 3 = true ∧ t.counted 119 = s.counted 119 + 1) ∧
  (∀ (a : Bool) (sec : BitVec 48) (ns el : W32) (s : State), 5 ≤ s.sys.phase → ns.toNat < 1000000000 → (s.tm a).vld = true →
    timeStep (s.tm a).ns (sec.toNat * 1000000000 + ns.toNat) el.toNat = true →
    ∃ t : State, exec (.timeSample a true sec ns el) s = .next t ∧
        t.tm a = { vld := true, ns := sec.toNat * 1000000000 + ns.toNat } ∧
      t.sys.stepTime = sec.toNat * 1000000000 + ns.toNat ∧ t.sys.stepCopyA = a ∧ t.flag .time 0x40 2 = true ∧
      t.counted 118 = s.counted 118 + 1) ∧
  (∀ (line ctl sec : W32) (s : State), ∃ t : State, exec (.clkFreqWindow line ctl sec) s = .next t ∧
    Tab.get 0 t.sys.clkMeas 0 = line ∧ Tab.get 0 t.sys.clkMeas 1 = ctl ∧ Tab.get 0 t.sys.clkMeas 2 = sec ∧
    t.counted 0x42 = s.counted 0x42 + b2n (clkOff line.toNat 1600000) + b2n (clkOff ctl.toNat 800000) + b2n (clkOff sec.toNat 200000)) ∧
  (∀ (r : TimeReg) (s : State), s.cpUp = true →
    ∃ t : State, exec (.timeCaptureRead r) s = .next t ∧
      Tab.get 0 t.sys.capHi (capIdx r) = (BitVec.ofNat 32 (nsSec (s.capTime r).1 / 2 ^ 32 % 65536) ||| atBit (s.capTime r).2 31) ∧
      Tab.get 0 t.sys.capNs (capIdx r) = BitVec.ofNat 32 (nsNs (s.capTime r).1))

/-- An admitted frame with a bypass action that a policy entry passes, with a ticket and space left for it, goes on unchanged,
takes the next ticket of its port and class, and is counted as bypassed. (03_egress_encryption.md, 04_ingress_decryption.md)
-/
def Obligations.BypassFrameAdmitted : Prop :=
  (∀ (port : Fin 32) (cls : Bool) (desc : W64) (bytes : Bytes) (dpBad upErr eof : Bool) (s : State), s.dp.numbered →
    s.admits .egress port cls desc = true → dAction desc = 1 →
    s.bypPass (s.newFrame .egress port cls desc bytes dpBad upErr eof) = true → bytes.length + 4 ≤ s.blkMtu port →
    s.ticketsOut (chanKey .egress port cls) < 4096 → s.ticketWaits (chanKey .egress port cls) s.dp.nextFrame = false →
    s.dp.quiet = false →
    ∃ t f, exec (.egressFrameAdmit port cls desc bytes dpBad upErr eof) s = .next t ∧ t.frame s.dp.nextFrame = some f ∧
      f.dir = .egress ∧ f.port = port ∧ f.express = cls ∧ f.kind = .bypass ∧ f.outcome = .bypassed ∧ f.stage = .written ∧
      f.outBytes = bytes.take 16348 ∧ f.ticket = some (Tab.get 0 s.dp.ticketNext (chanKey .egress port cls) % 4096)) ∧
  (∀ (port : Fin 32) (cls : Bool) (desc : W64) (bytes : Bytes) (dpBad upErr eof : Bool) (s : State), s.dp.numbered →
    s.admits .ingress port cls desc = true → dAction desc = 1 →
    s.bypPass (s.newFrame .ingress port cls desc bytes dpBad upErr eof) = true →
    s.ticketsOut (chanKey .ingress port cls) < 4096 → s.ticketWaits (chanKey .ingress port cls) s.dp.nextFrame = false →
    16352 ≤ s.rsiFree port →
    ∃ t f, exec (.ingressFrameAdmit port cls desc bytes dpBad upErr eof) s = .next t ∧ t.frame s.dp.nextFrame = some f ∧
      f.dir = .ingress ∧ f.port = port ∧ f.express = cls ∧ f.kind = .bypass ∧ f.outcome = .bypassed ∧ f.stage = .written ∧
      f.outBytes = bytes.take 16348 ∧ f.result = 1 ∧ f.noch = true ∧
      f.ticket = some (Tab.get 0 s.dp.ticketNext (chanKey .ingress port cls) % 4096))

/-- An admitted egress frame of a resident enabled channel whose active slot is LIVE and in RUN below its bound takes that
slot's key and salt (out of their mask), AN and next PN, holds the slot, waits for a slice, and raises the next PN by one.
(03_egress_encryption.md, 07_nonce_leases.md) -/
def Obligations.EgressFrameDrawsPn : Prop :=
  ∀ (port : Fin 32) (cls : Bool) (desc : W64) (bytes : Bytes) (dpBad upErr eof : Bool) (e : Nat) (en : Entry) (s : State),
    s.dp.numbered → s.admits .egress port cls desc = true → dAction desc = 0 →
    s.find (dChix desc) true = .entry e en → cEn en.cfg0 = true → cRx en.cfg0 = false → cPort en.cfg0 = port →
    cExpress en.cfg0 = cls → suiteT10 (cSuite en.cfg0) = false → cClear en.cfg0 ≤ dTags desc →
    tagsOk (bytes.take 16348) (cClear en.cfg0) = true → 14 + 4 * cClear en.cfg0 ≤ (bytes.take 16348).length → en.eqx = none →
    (s.slot (vslotOf e en.act)).st = .live → (s.slot (vslotOf e en.act)).lst = .run →
    (s.slot (vslotOf e en.act)).next < (s.slot (vslotOf e en.act)).bnd →
    (s.slot (vslotOf e en.act)).bnd ≤ (s.slot (vslotOf e en.act)).ceil →
    (s.slot (vslotOf e en.act)).next < s.forcedAt en →
    bytes.length + (if cScInc en.cfg0 then 16 else 8) + 20 ≤ s.blkMtu port →
    s.dp.quiet = false →
    ∃ t f, exec (.egressFrameAdmit port cls desc bytes dpBad upErr eof) s = .next t ∧ t.frame s.dp.nextFrame = some f ∧
      f.kind = .macsec ∧ f.stage = .waiting ∧ f.chix = dChix desc ∧ f.pn = (s.slot (vslotOf e en.act)).next ∧
      f.an = (s.slot (vslotOf e en.act)).an ∧ f.key = (s.maskSlot (vslotOf e en.act) (s.slot (vslotOf e en.act))).key ∧
      f.salt = (s.maskSlot (vslotOf e en.act) (s.slot (vslotOf e en.act))).salt ∧ f.holds = true ∧
      (t.slot (vslotOf e en.act)).next = (s.slot (vslotOf e en.act)).next + 1

/-- A waiting bulk frame with room goes to a free record of a slice in SUMMER of its direction and keeps PN and ticket; once
the blocks of the express frame are in, a resumption clears the suspended context, and until then it does nothing; a frame of
the miss queue is looked up again when its channel is there, and dropped when it is unknown. (05_cipher_slices.md,
09_channel_paging.md) -/
def Obligations.BulkFrameDispatched : Prop :=
  (∀ (id : Nat) (f : Frame) (s : State), s.dp.numbered → s.frame id = some f → f.waits = true → f.asExpress = false →
    s.roomFor f = true → (s.pickBulk f).isSome = true →
    ∃ t n r g, exec (.sliceDispatch id) s = .next t ∧ t.frame id = some g ∧ g.stage = .inSlice n r ∧
      n ∈ slicesOf (decide (f.dir = .ingress)) ∧ (s.sl n).st = .summer ∧ 1 ≤ r ∧ r ≤ 4 ∧ s.recTaken n r = false ∧
      g.pn = f.pn ∧ g.ticket = f.ticket) ∧
  (∀ (n : Fin 40) (s : State), s.expressIn n.val = false → exec (.bulkResume n) s = .next { s with out := [] }) ∧
  (∀ (n : Fin 40) (s : State), s.expressIn n.val = true → ∃ t, exec (.bulkResume n) s = .next t ∧ (t.sl n.val).susp = none ∧
    (∀ f ∈ t.dp.frames, f.inSl n.val = true → f.suspended = false) ∧
    t.dp.frames.map (·.id) = s.dp.frames.map (·.id) ∧ t.dp.frames.map (·.stage) = s.dp.frames.map (·.stage)) ∧
  (∀ (d : Dir) (x : BitVec 20) (f : Frame) (s : State), s.missReady x.toNat = true → s.frame f.id = some f →
    s.dp.frames.filter (fun g => decide (g.stage = .missq) && decide (g.chix = x.toNat) && decide (g.dir = d)) = [f] →
    exec (.missQueueRelease d x) s = .next (
      let g := { f with stage := FStage.waiting }
      let s' := { s with out := [], dp := { s.dp with frames := s.dp.frames.filter (fun (h : Frame) => decide (h.id ≠ f.id)) ++ [g] } }
      if d = .egress then s'.egLookup g false else s'.inLookup g false)) ∧
  (∀ (x : BitVec 20) (f : Frame) (s : State), s.find x.toNat false = .unknown → s.frame f.id = some f →
    s.dp.frames.filter (fun g => decide (g.stage = .missq) && decide (g.chix = x.toNat) && decide (g.dir = .egress)) = [f] →
    f.sofOut = false → f.ticket = none →
    ∃ t, exec (.missQueueRelease .egress x) s = .next t ∧ t.frame f.id = none)

/-- Once its blocks may go in, an egress frame leaves with its black form and gives up key and slot; an ingress frame leaves
with its red form and the result of the ICV compare. (03_egress_encryption.md, 04_ingress_decryption.md) -/
def Obligations.SliceWorkEnds : Prop :=
  (∀ (id n r : Nat) (f : Frame) (s : State), s.dp.numbered → s.frame id = some f → f.dir = .egress → f.stage = .inSlice n r →
    s.icvMay f = true → f.tooLong = false → s.dp.quiet = false →
    ∃ t g, exec (.egressIcvWritten id) s = .next t ∧ t.frame id = some g ∧ g.stage = .written ∧ g.icvDone = true ∧
      g.outBytes = f.black ∧ g.key = [] ∧ g.salt = [] ∧ g.holds = false ∧ g.eof = true) ∧
  (∀ (id n r : Nat) (f : Frame) (s : State), s.dp.numbered → s.frame id = some f → f.dir = .ingress → f.stage = .inSlice n r →
    s.icvMay f = true → f.verifyFirst = false →
    ∃ t g, exec (.ingressIcvCompare id) s = .next t ∧ t.frame id = some g ∧ g.stage = .written ∧ g.icvDone = true ∧
      g.icvBad = decide (f.rxTag ≠ f.rxIcv) ∧ g.outBytes = f.red.take 16348)

/-- The first frame of a port and class that may be released drives its SOF and takes credit for its segments; a checked frame
whose SOF is out drives its bytes and its code at EOF and is gone, unless on egress an express frame of its port is ready. On
ingress this is said of the state after the final checks of the frames that are whole (R98). (03_egress_encryption.md,
04_ingress_decryption.md, 02_boundary.md) -/
def Obligations.FramesReleased : Prop :=
  (∀ (port : Fin 32) (cls : Bool) (f : Frame) (s : State), s.dp.numbered → s.headFrame (chanKey .egress port cls) = some f →
    s.mayRelease .egress port f = true →
    ∃ t g, exec (.bseSofRelease port cls) s = .next t ∧ t.frame f.id = some g ∧ g.sofOut = true ∧
      .sof f.dir f.port f.express f.outDesc ∈ t.out ∧
      t.credit f.key_ = s.credit f.key_ - f.segs) ∧
  (∀ (port : Fin 32) (cls : Bool) (f : Frame) (s u : State), s.dp.numbered →
    u = ({ s with out := [] } : State).finalChecks (chanKey .ingress port cls) →
    u.headFrame (chanKey .ingress port cls) = some f → u.mayRelease .ingress port f = true →
    ∃ t g, exec (.rsiSofRelease port cls) s = .next t ∧ t.frame f.id = some g ∧ g.sofOut = true ∧
      .sof f.dir f.port f.express f.outDesc ∈ t.out ∧
      t.credit f.key_ = u.credit f.key_ - f.segs) ∧
  (∀ (d : Dir) (port : Fin 32) (cls : Bool) (f : Frame) (s u : State),
    u = (if d = .ingress then ({ s with out := [] } : State).finalChecks (chanKey d port cls) else { s with out := [] }) →
    u.headFrame (chanKey d port cls) = some f →
    f.sofOut = true → f.stage = .written → f.checked = true → u.expressReady d port cls = false →
    (f.dir = .egress → s.dp.quiet = false) →
    ∃ t, exec (.eofRelease d port cls) s = .next t ∧ .eof f.dir f.port f.express f.outBytes f.code ∈ t.out ∧
      t.frame f.id = none)

/-- An underrun of a frame whose SOF is out and whose last segment is not there ends it with BUS_ERR and is counted; a frame
whose segments come late, or whose output parity fails, ends; a bus framing error ends the open frames of its port and sets
the flag of its direction. (02_boundary.md, 03_egress_encryption.md, 04_ingress_decryption.md, 13_faults.md) -/
def Obligations.BrokenFramesEnd : Prop :=
  (∀ (port : Fin 32) (cls : Bool) (f : Frame) (s : State), s.headFrame (chanKey .egress port cls) = some f → f.dir = .egress →
    f.sofOut = true → (f.stage ≠ .written ∨ f.eof = false) → s.dp.quiet = false →
    ∃ t, exec (.bseUnderrun port cls) s = .next t ∧ t.frame f.id = none ∧ .eof .egress f.port f.express [] .busErr ∈ t.out ∧
      t.counted 0x12 = s.counted 0x12 + 1) ∧
  (∀ (port : Fin 32) (cls : Bool) (f : Frame) (s : State), s.headFrame (chanKey .ingress port cls) = some f → f.dir = .ingress →
    f.sofOut = true → (f.stage ≠ .written ∨ f.eof = false) →
    ∃ t, exec (.rsiUnderrun port cls) s = .next t ∧ t.frame f.id = none ∧ .eof .ingress f.port f.express [] .busErr ∈ t.out ∧
      t.counted 0x10 = s.counted 0x10 + 1) ∧
  (∀ (id n r : Nat) (f : Frame) (s : State), s.frame id = some f → f.stage = .inSlice n r →
    ∃ t, exec (.recordTimeout id) s = .next t ∧ t.frame id = none ∧
      t.counted (if f.dir = .egress then 0x12 else 0x10) = s.counted (if f.dir = .egress then 0x12 else 0x10) + 1) ∧
  (∀ (d : Dir) (port : Fin 32) (cls : Bool) (f : Frame) (s : State), s.headFrame (chanKey d port cls) = some f →
    f.sofOut = true → (f.dir = .egress → s.dp.quiet = false) →
    ∃ t, exec (.outPar d port cls) s = .next t ∧ t.frame f.id = none ∧ .eof f.dir f.port f.express [] .fault ∈ t.out ∧
      t.counted 0x13 = s.counted 0x13 + 1) ∧
  (∀ (d : Dir) (port : Fin 32) (s : State),
    ∃ t, exec (.busFraming d port) s = .next t ∧ t.counted 0x10 = s.counted 0x10 + 1 ∧
      (∀ f ∈ t.dp.frames, f.dir = d → f.port = port → f.eof = false → f.kind ≠ .report → f.void_ = true) ∧
      t.flag (.port port) (if d = .egress then 0x40 else 0x44) (if d = .egress then 5 else 4) = true)

/-- Once initial credit has come returned credit is added, before it nothing is; initial credit sets the count; each crossing
message has its effect, and one of a wrong format changes nothing of the datapath and is counted. (02_boundary.md,
01_architecture.md) -/
def Obligations.CreditsAndCrossings : Prop :=
  (∀ (d : Dir) (port : Fin 32) (cls : Bool) (n : BitVec 10) (s : State), chanKey d port cls ∉ s.dp.crInit →
    exec (.creditReturn d port cls false n) s = .next { s with out := [] }) ∧
  (∀ (d : Dir) (port : Fin 32) (cls : Bool) (n : BitVec 10) (s : State), chanKey d port cls ∈ s.dp.crInit →
    ∃ t, exec (.creditReturn d port cls false n) s = .next t ∧
      t.credit (chanKey d port cls) = s.credit (chanKey d port cls) + n.toNat) ∧
  (∀ (d : Dir) (port : Fin 32) (cls : Bool) (n : BitVec 10) (s : State),
    Tab.get 0 s.dp.sent (chanKey d port cls) ≤ n.toNat →
    ∃ t, exec (.creditReturn d port cls true n) s = .next t ∧ t.credit (chanKey d port cls) = n.toNat) ∧
  (∀ (lane : Fin 32) (s : State), exec (.laneControl lane .drain true) s = .next { s with out := [.laneCtl lane .drain] }) ∧
  (∀ (lane : Fin 32) (s : State),
    ∃ t, exec (.laneControl lane .reset true) s = .next t ∧ .laneCtl lane .reset ∈ t.out ∧
      t.credit (chanKey .egress lane false) = 0 ∧ t.credit (chanKey .egress lane true) = 0) ∧
  (∀ (lane : Fin 32) (up mf ec : Bool) (s : State),
    ∃ t, exec (.linkStatus lane up mf ec true) s = .next t ∧
      (∀ n, t.dp.linkUp.getLsbD n = if n = lane then up else s.dp.linkUp.getLsbD n) ∧
      (∀ n, t.dp.macFault.getLsbD n = if n = lane then mf else s.dp.macFault.getLsbD n) ∧
      (∀ n, t.dp.expCap.getLsbD n = if n = lane then ec else s.dp.expCap.getLsbD n)) ∧
  (∀ (lane : Fin 32) (cls : Bool) (free : BitVec 16) (s : State),
    ∃ t, exec (.bufferLevel lane cls free true) s = .next t ∧ t.bufSpace (chanKey .egress lane cls) = free.toNat) ∧
  (∀ (lane : Fin 32) (ctr : BitVec 7) (inc : BitVec 16) (s : State), portCtrNamed ctr.toNat = true →
    ∃ t, exec (.blackCounterIncrement lane ctr inc true) s = .next t ∧
      Tab.get 0 t.cnt.port ((s.portOfLane lane).getD lane * 128 + ctr.toNat) =
        Tab.get 0 s.cnt.port ((s.portOfLane lane).getD lane * 128 + ctr.toNat) + BitVec.ofNat 48 inc.toNat) ∧
  (∀ (lane : Fin 32) (det : BitVec 8) (s : State), det.toNat ∈ [0x10, 0x11, 0x13, 0x14, 0x15, 0x16] →
    ∃ t, exec (.blackFaultEvent lane det true) s = .next t ∧ t.counted (det.toNat - 1) = s.counted (det.toNat - 1) + 1 ∧
      t.flag (.port ((s.portOfLane lane).getD lane)) 0x44 6 = true ∧
      (0x15 ≤ det.toNat → s.resetOn (.port (Fin.ofNat 32 ((s.portOfLane lane).getD lane))) = false →
        t.held (.port (Fin.ofNat 32 ((s.portOfLane lane).getD lane))) = true)) ∧
  (∀ (lane : Fin 32) (up mf ec cls : Bool) (code : LaneCode) (free inc : BitVec 16) (ctr : BitVec 7) (det : BitVec 8) (s : State),
    ∀ c ∈ [Instr.laneControl lane code false, .linkStatus lane up mf ec false, .bufferLevel lane cls free false,
      .blackCounterIncrement lane ctr inc false, .blackFaultEvent lane det false],
    ∃ t, exec c s = .next t ∧ t.dp = s.dp ∧ t.counted 0x15 = s.counted 0x15 + 1)

/-- A page-in that may start takes the lowest free entry, asks the store for the lines of the record and is counted by its
class; one that times out is gone and leaves its reason. (09_channel_paging.md) -/
def Obligations.PageInsRun : Prop :=
  (∀ (p : PageIn) (e : Nat) (s : State), s.nextIn = some p → s.pageIn p.chix = some p → s.pagerFree = true →
    s.domsLost pageDoms = false → s.domsUp (1 :: tableDoms) = true → s.lowestFree = some e →
    s.outBefore p.rank p.ser = false → (p.cls = .prewarm → p.demand = false → s.freeLowAt + 1 ≤ s.freeEntries) →
    ∃ u : State, exec .pageInStart s = .next u.settle ∧ u.entry e = some { chix := p.chix, live := false } ∧
      (∃ q : PageIn, u.pageIn p.chix = some q ∧ q.started = true ∧ q.entry = e) ∧
      u.store.wait.map (fun r => (r.wr, r.line, r.kix, r.who)) = s.store.wait.map (fun r => (r.wr, r.line, r.kix, r.who)) ++
        lineOrder.map (fun l => (false, s.recLine p.chix l, s.pageKix, Req.pagerIn p.chix l)) ∧
      u.counted (match p.cls with | .demand => 152 | .command => 153 | .prewarm => 154) =
        s.counted (match p.cls with | .demand => 152 | .command => 153 | .prewarm => 154) + 1) ∧
  (∀ (x : BitVec 20) (p : PageIn) (s : State), s.pageIn x.toNat = some p → p.started = true →
    ∃ u : State, exec (.pageInTimeout x) s = .next u.settle ∧ u.pageIn x.toNat = none ∧
      u.pager.failInfo = (atPos 5 28 ||| atPos x.toNat 8))

/-- A verified read of the host fills HSW_DATA and ends the command with its corrected bit; a write acknowledgement ends it;
an expanded key set enters the cache; a dirty buffer entry that has been idle is written back. (10_store_encryption.md) -/
def Obligations.StoreAnswers : Prop :=
  (∀ (id : BitVec 8) (data side d : Bytes) (fx : Bool) (r : SReq) (c : W32) (s : State),
    s.store.out.find? (fun q => decide (q.id = id.toNat) && (q.wr == false)) = some r → r.who = .host → r.wr = false →
    s.store.cmd = some c → checkLine s.store.master r data side = .ok d fx → d.length = 64 →
    ∃ u : State, exec (.storeReadResponse id false data side false) s = .next u.settle ∧ u.store.cmd = none ∧
      u.store.out = s.store.out.filter (fun q => decide (q.id ≠ id.toNat)) ∧
      (∀ i, i < 16 → u.cfg .store (0x100 + 4 * i) = BitVec.ofNat 32 (ofLe (slice d (4 * i) 4))) ∧
      u.ended .store 0xD4 8 0 (cmdOp c) (b2n fx)) ∧
  (∀ (id : BitVec 8) (r : SReq) (c : W32) (s : State),
    s.store.out.find? (fun q => decide (q.id = id.toNat) && (q.wr == true)) = some r → r.who = .host → r.wr = true →
    s.store.cmd = some c →
    ∃ u : State, exec (.storeWriteAck id false) s = .next u.settle ∧ u.store.cmd = none ∧
      u.store.out = s.store.out.filter (fun q => decide (q.id ≠ id.toNat)) ∧ u.ended .store 0xD4 8 0 (cmdOp c) 0) ∧
  (∀ (sel : BitVec 12) (s : State), sel.toNat ∈ s.store.missed → s.domUp 45 = true →
    exec (.keyCacheFill sel) s = .next (State.settle { s with
      out := []
      store := { s.store with
        missed := delNat s.store.missed sel.toNat
        cache := (sel.toNat :: s.store.cache.filter (· ≠ sel.toNat)).take s.cacheRoom } })) ∧
  (∀ (line : BitVec 34) (w : Wcb) (i : Nat) (s : State), s.wcb line.toNat = some w → s.mayBack w = true →
    s.domUp 45 = true → s.freeId = some i →
    ∃ (u : State) (data side : Bytes), exec (.wcbIdleFlush line) s = .next u.settle ∧
        .stq true line.toNat w.sel i data side ∈ u.out ∧
      u.wcb line.toNat = some { w with dirty := 0, writing := true })

/-- The next job goes to a free core with its KEK; the unwrap of a page-in is noted; an install whose blob does not unwrap
ends SLOT_INSTALL with its code and leaves the vault as it was. (06_channels_and_keys.md, 09_channel_paging.md) -/
def Obligations.KeyxJobs : Prop :=
  (∀ (j : KJob) (c : Nat) (s : State), s.domUp 44 = true → s.nextJob = some j → s.coreFor j = some c →
    ∃ t : State, exec .keyxJobStart s = .next t ∧ t.core c = some j ∧ t.keyx.queue = s.keyx.queue.erase j ∧
      Tab.get 64 t.keyx.held c = s.jobKek j) ∧
  (∀ (c : Fin 4) (x : Nat) (b : Bool) (p : PageIn) (s : State), s.core c.val = some (.unwrap x b) →
    s.kekWaits (.unwrap x b) = false → s.pageIn x = some p → p.whole = false →
    ∃ (u : State) (q : PageIn), exec (.keyxJobDone c) s = .next u.settle ∧ u.core c.val = none ∧ u.pageIn x = some q ∧
        b ∈ q.done) ∧
  (∀ (c : Fin 4) (w : W32) (e : Nat) (en : Entry) (k : Bytes) (r : Nat) (s : State), s.core c.val = some .install →
    s.kekWaits .install = false → s.pager.keyw = some w → s.whereIs (cmdChix w) = .here e en →
    s.kek ((byteAt s.blob 1).toNat) = some k →
    unwrapBlob k (s.blob.drop 8) (usageOf en.cfg0 false) (byteAt s.blob 2).toNat (cmdChix w) (ofBe (slice s.blob 4 2)) 1
      (cmdB28 w) = .error r →
    ∃ (u : State) (g : Nat), exec (.keyxJobDone c) s = .next u.settle ∧ u.core c.val = none ∧ u.pager.keyw = none ∧
        u.ch = s.ch ∧
      u.ended .keyw 0x84 0 r (cmdOp w) g)

/-- A page-out that may start queues a wrap for each LIVE slot; an evicting group job sets the eviction point of its resident
channel and is counted. (09_channel_paging.md) -/
def Obligations.PageOutsRun : Prop :=
  (∀ (x : BitVec 20) (e : Nat) (o : PageOut) (s : State), s.pageOut x.toNat = some o → s.resident x.toNat = some e →
    s.outWaits o = true → s.pagerFree = true → s.outFirst o = true → s.domsUp (1 :: tableDoms) = true →
    s.outcomesOf x.toNat = [] → s.zerosLeft x.toNat = false → s.sys.kek63.isSome = true →
    [false, true].filter (fun b => decide ((s.slot (vslotOf e b)).st = .live)) ≠ [] →
    ∃ (u : State) (q : PageOut), exec (.pageOutStart x) s = .next u.settle ∧ u.pageOut x.toNat = some q ∧ q.started = true ∧
      u.keyx.queue = s.keyx.queue ++
        ([false, true].filter (fun b => decide ((s.slot (vslotOf e b)).st = .live))).map (fun b => .wrap x.toNat b)) ∧
  (∀ (j : GroupJob) (rest : List GroupJob) (x e : Nat) (en : Entry) (s : State), s.pager.jobs = j :: rest →
    s.pager.running = false → s.pagerUp = true → s.domsUp tableDoms = true → j.evict = true → s.jobChans j = [x] →
    s.resident x = some e → s.entry e = some en → en.pinned = false → en.evicting = false → s.pageOut x = none →
    ∃ u : State, exec .groupJobStart s = .next u.settle ∧ u.pager.running = true ∧
        u.entry e = some { en with evicting := true } ∧
      u.pager.outs = s.pager.outs ++ [{ chix := x, ser := s.pager.nextSer }] ∧ u.counted 168 = s.counted 168 + 1)

/-- A due entry queues its group job or opens its season floor and takes its next due time; floors whose end has been reached
are dropped. (09_channel_paging.md, 12_power_seasons.md) -/
def Obligations.CalendarFires : Prop :=
  (∀ (n t : Nat) (w : W128) (s : State), s.sys.tmA.vld = true → s.domUp 53 = true → s.pager.cal = [(n, w)] →
    calDue w = some t → t ≤ s.sys.tmA.ns → calFld w 127 126 = 1 → s.pager.jobs.length < 8 →
    ∃ u : State, exec .calendarFire s = .next u.settle ∧ u.calEntry n = calNext w t s.sys.tmA.ns ∧
      u.pager.jobs = s.pager.jobs ++
        [{ evict := w.getLsbD 125, group := BitVec.ofNat 12 (calFld w 123 112), mask := BitVec.ofNat 12 (calFld w 111 100) }]) ∧
  (∀ (n t : Nat) (w : W128) (s : State), s.sys.tmA.vld = true → s.domUp 53 = true → s.pager.cal = [(n, w)] →
    calDue w = some t → t ≤ s.sys.tmA.ns → calFld w 127 126 = 2 → calFld w 111 100 ≠ 0 → s.pager.floors.length < 8 →
    ∃ u : State, exec .calendarFire s = .next u.settle ∧ u.calEntry n = calNext w t s.sys.tmA.ns ∧
      u.counted 181 = s.counted 181 + 1 ∧
      u.pager.floors = s.pager.floors ++ [{
        ef := min 20 (calFld w 125 121), ifl := min 20 (calFld w 120 116), kx := w.getLsbD 115,
        ends := t + calFld w 111 100 * 1000000000 }]) ∧
  (∀ s : State, s.sys.tmA.vld = true → exec .seasonFloorEnd s = .next { s with
    out := []
    pager := { s.pager with floors := s.pager.floors.filter (fun f => decide (s.sys.tmA.ns < f.ends)) } }) ∧
  (∀ s : State, s.sys.tmA.vld = false → exec .seasonFloorEnd s = .next { s with out := [] })

/-- An armed Solstice that is due retires its slot at its time; a deferred Equinox that waits too long is flagged once; an
erased slot that no frame holds is cleared and its GEN raised. (08_equinox_key_change.md, 06_channels_and_keys.md) -/
def Obligations.KeyChangesEnd : Prop :=
  (∀ (x : BitVec 20) (e : Nat) (en : Entry) (q : Sol) (s : State), s.resident x.toNat = some e → s.entry e = some en →
    en.sol = some q → s.solDue q = true →
    ∃ t : State, exec (.solsticeRetire x) s = .next t ∧ t.entry e = some { en with sol := none } ∧
      t.slot (vslotOf e q.slotB) = { s.slot (vslotOf e q.slotB) with retired := true, retAt := q.val } ∧
      t.counted 150 = s.counted 150 + 1) ∧
  (∀ (x : BitVec 20) (e : Nat) (en : Entry) (q : Eqx) (s : State), s.resident x.toNat = some e → s.entry e = some en →
    en.eqx = some q → q.deferred = true → q.stalled = false →
    ∃ t : State, exec (.eqxStall x) s = .next t ∧ t.entry e = some { en with eqx := some { q with stalled := true } } ∧
      t.flag .glb 0x50 2 = true ∧ t.counted 148 = s.counted 148 + 1) ∧
  (∀ (x : BitVec 20) (b : Bool) (e : Nat) (en : Entry) (s : State), s.resident x.toNat = some e → s.entry e = some en →
    (s.slot (vslotOf e b)).st = .erased → (s.slot (vslotOf e b)).clearing = true →
    s.holders (vslotOf e b) (s.slot (vslotOf e b)).gen = false → s.pageOut x.toNat = none →
    ∃ u : State, exec (.slotDrainDone x b) s = .next u.settle ∧
      u.slot (vslotOf e b) = { (s.slot (vslotOf e b)).cleared with gen := (s.slot (vslotOf e b)).gen + 1 })

/-- Without a peer, the write of a request commits the slot's new ceiling; a failed write retires its sector and the item is
written anew; a header read by the scan is taken in; the end of the scan sets SCAN_DONE. (07_nonce_leases.md) -/
def Obligations.LeasesCommit : Prop :=
  (∀ (u : Nat) (je : JEnt) (it : JItem) (rest : List NvW) (v c : Nat) (b : Bool) (tag : W32) (w : Live) (s : State),
    s.lease.staleW = [] → s.lease.nvw = .entry u je it :: rest → it.why = .request [(b, v, tag, c)] →
    (je.av || je.bv) = true → s.lease.live je.chix = some w → s.noPeer = true → s.held .lease = false →
    s.lease.waits = [{ vslot := v, ceil := c, written := false, acked := false }] →
    ∃ t : State, exec (.nvWriteResponse false) s = .next t.settle ∧ 
        t.lease.nvw = (({ s.lease with nvw := rest } : Lease).noteDone je.chix it.top).nvw ∧ t.lease.waits = [] ∧
      t.lease.live je.chix = some { w with ent := je, unit := u, restart := false } ∧
      (t.slot v).ceil = c ∧ t.counted 128 = s.counted 128 + 1 ∧ t.counted 129 = s.counted 129 + 1) ∧
  (∀ (u : Nat) (je : JEnt) (it : JItem) (rest : List NvW) (s : State), s.lease.staleW = [] →
    s.lease.nvw = .entry u je it :: rest → it.why ≠ .copy →
    ∃ t : State, exec (.nvWriteResponse true) s = .next t.settle ∧ t.lease.nvw = rest ∧
      (t.lease.sector (u / 128)).retired = true ∧ t.lease.head ≠ some (u / 128) ∧
      t.lease.todo = redoInto { it with redo := true } s.lease.todo) ∧
  (∀ (data : Bytes) (ret : Bool) (seq wc : Nat) (s : State), s.lease.staleR = 0 → s.lease.scanning = true →
    s.lease.got < s.lease.asked → s.lease.got < 1024 → readHeader s.lease.got data = some (ret, seq, wc) →
    ∃ t : State, exec (.nvReadResponse false data) s = .next t ∧ t.lease.got = s.lease.got + 1 ∧
      t.lease.sector s.lease.got = {
        valid := true, retired := ret || decide (s.lease.got ∈ s.lease.retiring), openSeq := seq, wcount := wc }) ∧
  (∀ s : State, s.lease.scanRead = true →
    ∃ t : State, exec .leaseScanDone s = .next t.settle ∧ t.lease.scanDone = true ∧ t.lease.scanning = false)

/-- Each MARCH command in each state has the effect and the result code of its table, and with MARCH held 0x40 and no effect; key generation
ends with the next seed and the split; the walk locks and reads its next line. (10_store_encryption.md) -/
def Obligations.MarchWorks : Prop :=
  (∀ (w : W128) (rest : List W128) (s : State), s.store.march.st = .keygen → s.domUp 45 = true → s.seedsFree = w :: rest →
    s.domainsIdle = true →
    exec .marchKeygenDone s = .next { s with
      out := []
      sys := { s.sys with seeds := s.sys.seeds.drop 1 }
      store := { s.store with march := { s.store.march with st := .run, split := true, nextSeed := some w } } }) ∧
  (∀ (k : Nat) (s : State), s.store.march.st = .run → s.store.march.stopping = false → s.marchRate ≠ 0 → s.domUp 45 = true →
    s.held .march = false → s.resetOn .march = false → s.resetOn .store = false → s.store.march.nextLine = some k →
    exec .marchLineIssue s = .next (State.settle { s with
      out := []
      store := { s.store with
        nextId := s.store.nextId + 1
        wait := s.store.wait ++ [{ ser := s.store.nextId, wr := false, line := k, kix := s.store.march.tgt, who := .march }]
        march := { s.store.march with
          hwm := max s.store.march.hwm (k + 1), flight := insNat s.store.march.flight k
          redo := if k < s.store.march.hwm then insNat s.store.march.redo k else s.store.march.redo } } })) ∧
  (∀ (f l : Nat) (s : State), s.free .march = true → s.held .march = false → s.store.march.st = .idle → s.store.march.split = false →
    s.marchSpan = some (f, l) → (s.keySel (fld (s.cfg .march 0x80) 11 0)).seed.isSome = true →
    ∃ u : State, exec .marchStart s = .next u.settle ∧ u.roW .march 0x9C = (atPos 0 24 ||| atPos 1 16) ∧
      u.store.march = { s.store.march with
        st := .keygen, tgt := fld (s.cfg .march 0x80) 11 0, first := f, last := l, bound := f, hwm := f, rekeyed := []
        flight := [], redo := [], reason := 0, failed := none }) ∧
  (∀ s : State, s.free .march = true → s.held .march = false → s.marchSpan = none →
    ∃ u : State, exec .marchStart s = .next u.settle ∧ u.roW .march 0x9C = (atPos 0x02 24 ||| atPos 1 16) ∧
      u.store = s.store) ∧
  (∀ s : State, s.free .march = true → s.held .march = false → s.store.march.st = .run → s.store.march.stopping = false →
    ∃ u : State, exec .marchPause s = .next u.settle ∧ u.roW .march 0x9C = (atPos 0 24 ||| atPos 2 16) ∧
      u.store.march = if s.store.march.bound = s.store.march.hwm then { s.store.march with st := .paused, pausing := false }
        else { s.store.march with pausing := true }) ∧
  (∀ s : State, s.free .march = true → s.held .march = false → s.store.march.st = .paused →
    ∃ u : State, exec .marchResume s = .next u.settle ∧ u.roW .march 0x9C = (atPos 0 24 ||| atPos 3 16) ∧
      u.store.march = { s.store.march with st := .run }) ∧
  (∀ (k : Nat) (s : State), s.free .march = true → s.held .march = false → s.store.march.st = .halted →
    s.store.march.stopping = false → s.store.march.failed = some k →
    (∃ u : State, exec .marchRetry s = .next u.settle ∧ u.roW .march 0x9C = (atPos 0 24 ||| atPos 4 16) ∧
      u.store.march = { s.store.march with
        st := .run, reason := 0, failed := none, flight := insNat s.store.march.flight k
        redo := insNat s.store.march.redo k } ∧
      u.store.wait = s.store.wait ++ [{
        ser := s.store.nextId, wr := false, line := k, kix := s.store.march.tgt, who := .march }]) ∧
    ∃ u : State, exec .marchZero s = .next u.settle ∧ u.roW .march 0x9C = (atPos 0 24 ||| atPos 5 16) ∧
      u.store.march = { s.store.march with
        st := .run, reason := 0, failed := none, flight := insNat s.store.march.flight k } ∧
      u.flag .march 0x40 3 = true ∧ u.counted 203 = s.counted 203 + 1 ∧
      u.store.wait = s.store.wait ++ [{
        ser := s.store.nextId, wr := true, line := k, kix := s.store.march.tgt, who := .march, data := zeros 64
        mask := fullMask }]) ∧
  (∀ s : State, s.free .march = true → s.held .march = false → s.store.march.st ∈ [MState.run, .paused, .halted] →
    s.store.march.flight = [] →
    ∃ u : State, exec .marchStop s = .next u.settle ∧ u.roW .march 0x9C = (atPos 0 24 ||| atPos 6 16) ∧
      u.store.march = { s.store.march with
        st := .stopped, reason := 0, failed := none, stopping := false, pausing := false }) ∧
  (∀ s : State, s.free .march = true → s.store.march.st ∈ [MState.idle, .keygen, .stopped] →
    ∀ p ∈ [(Instr.marchPause, 2), (.marchResume, 3), (.marchRetry, 4), (.marchZero, 5), (.marchStop, 6)],
    ∃ u : State, exec p.1 s = .next u.settle ∧ u.roW .march 0x9C = (atPos 0x40 24 ||| atPos p.2 16) ∧ u.store = s.store) ∧
  (∀ s : State, s.free .march = true → s.held .march = true →
    ∀ p ∈ [(Instr.marchStart, 1), (.marchPause, 2), (.marchResume, 3), (.marchRetry, 4), (.marchZero, 5), (.marchStop, 6)],
    ∃ u : State, exec p.1 s = .next u.settle ∧ u.roW .march 0x9C = (atPos 0x40 24 ||| atPos p.2 16) ∧ u.store = s.store)

/-- A spill retry writes its line again; an outcome is added to the leaves of its channel; an update slot adds what has
gathered to the event counter or its preset; a window close shows the rates; an old catch entry is dropped. (17_counters.md,
04_ingress_decryption.md) -/
def Obligations.CountersUpdate : Prop :=
  (∀ (x : BitVec 20) (l : Fin 4) (s : State), s.zeroSt x.toNat l.val = some true →
    s.store.spills.any (fun p => decide (p.chix = x.toNat) && decide (p.line = l.val) && p.active) = false →
    ∃ u : State, exec (.spillRetry x l) s = .next u.settle ∧ u.zeroSt x.toNat l.val = some false ∧
      u.counted 244 = s.counted 244 + 1 ∧
      u.store.wait = s.store.wait ++ [{
        ser := s.store.nextId, wr := true, line := s.trunkLine x.toNat l.val, kix := s.pageKix
        who := .zeroWr x.toNat l.val, data := zeros 64, mask := fullMask }]) ∧
  (∀ (o : Counted) (e : Nat) (en : Entry) (s : State), s.nextOutcome = some o → s.resident o.chix = some e →
    s.entry e = some en →
    ∃ u : State, exec .counterOutcome s = .next u.settle ∧ u.cnt.queue = s.cnt.queue.erase o ∧
      u.entry e = some (o.incs.foldl (fun x p => x.addField p.1 p.2) en)) ∧
  (∀ (n : BitVec 9) (s : State),
    ((Tab.get none s.cnt.preset n.toNat).getD (Tab.get 0 s.cnt.evc n.toNat)).toNat + s.counted n.toNat < 2 ^ 48 →
    exec (.evcUpdateSlot n) s = .next { s with
      out := []
      cnt := { s.cnt with
        evc := Tab.set 0 s.cnt.evc n.toNat (BitVec.ofNat 48
          (((Tab.get none s.cnt.preset n.toNat).getD (Tab.get 0 s.cnt.evc n.toNat)).toNat + s.counted n.toNat))
        acc := Tab.set 0 s.cnt.acc n.toNat 0
        preset := Tab.set none s.cnt.preset n.toNat none
        occs := Tab.set [] s.cnt.occs n.toNat [] } }) ∧
  (∀ s : State, ∃ t : State, exec .bwWindowClose s = .next t ∧ t.cnt.bw = [] ∧ t.cnt.bwWin = s.bwWindow ∧
    t.roW .perf 0x88 = s.roW .perf 0x88 + 1 ∧ t.flag .perf 0x40 0 = true ∧
    (∀ p : Fin 32, t.roW .perf (0x100 + 4 * p.val) =
      if bit (s.cfg .perf 0x84) 0 then s.roW .perf (0x100 + 4 * p.val)
      else atPos (bwRate (Tab.get 0 s.cnt.bw (2 * p.val + 1)) s.cnt.bwWin) 16 |||
        atPos (bwRate (Tab.get 0 s.cnt.bw (2 * p.val)) s.cnt.bwWin) 0)) ∧
  (∀ (sci : W64) (port : Fin 32) (s : State), exec (.catchEntryExpiry sci port) s = .next { s with
    out := []
    dp := { s.dp with catchTab := s.dp.catchTab.filter (fun e =>
      !(decide (e.sci = sci) && decide (e.port = port.val) && decide (e.last.ns + s.catchAge ≤ s.sys.tmL.ns))) } })

/-- An evaluation sets the targets and clears the issue counts; a surge wakes further slices; an idle domain enters AUTUMN, is
put to sleep once drained, and returns to SUMMER when needed. (12_power_seasons.md) -/
def Obligations.GovernorEvaluates : Prop :=
  (∀ s : State, s.govUp = true →
    ∃ u : State, exec .govEvaluation s = .next u.settle ∧ u.pwr.targetE = s.target false ∧
      u.pwr.targetI = s.target true ∧ u.slices.issuedE = 0 ∧
      u.slices.issuedI = 0) ∧
  (∀ (port : Fin 32) (s : State), s.govUp = true → s.surging port.val = true → s.surgeOpen = false →
    ∃ u : State, exec (.surge port) s = .next u.settle ∧ u.flag .pwr 0x40 3 = true ∧ u.counted 180 = s.counted 180 + 1 ∧
      u.pwr.overI = none ∧
      u.pwr.surge = (s.wakeOrder true).take
        (min s.govSurge (s.serviceableCnt true - (s.awakeCnt true + s.wantCnt true))) ∧
      ∀ n ∈ u.pwr.surge, (u.sl n).st = .summer ∨ (u.sl n).st = .thaw ∨ (u.dom (n + 4)).want = some .on) ∧
  (∀ (d : Fin 54) (s : State), s.govUp = true → d.val ∈ govDoms → (s.dom d.val).season = .summer → s.needed d.val = false →
    ∃ t : State, exec (.domainIdleExpiry d) s = .next t ∧ t.dom d.val = { s.dom d.val with season := .autumn } ∧
      t.counted 179 = s.counted 179 + 1) ∧
  (∀ (d : Fin 54) (s : State), s.govUp = true → d.val ∈ govDoms → (s.dom d.val).season = .autumn → s.needed d.val = false →
    (s.dom d.val).req = none → s.domDrained d.val = true → (s.dom d.val).unavail = false → (s.dom d.val).refused = false →
    s.pmOut < 8 →
    ∃ t : State, exec (.domainAutumnDrained d) s = .next t ∧ t.out = [.pm d.val (sleepOp d.val)] ∧
      t.dom d.val = { s.dom d.val with req := some (sleepOp d.val), want := none, seedWait := false }) ∧
  (∀ (d : Fin 54) (s : State), s.govUp = true → d.val ∈ govDoms → (s.dom d.val).season = .autumn → s.needed d.val = true →
    (s.dom d.val).req = none → (s.dom d.val).unavail = false →
    ∃ t : State, exec (.domainAutumnDrained d) s = .next t ∧
      t.dom d.val = { s.dom d.val with season := .summer, want := none, seedWait := false })

/-- An acknowledged sleep leads to WINTER, an acknowledged wake of a slice takes two seed words, a refusal and a timeout are
flagged and counted, a retry asks again, and the end of a THAW leads to SUMMER or makes the domain unavailable, but not before
its generators have their seed words.
(02_boundary.md, 12_power_seasons.md) -/
def Obligations.PowerManagerAnswers : Prop :=
  (∀ (d : Fin 54) (s : State), isSliceDom d.val = false → (s.dom d.val).req = some (sleepOp d.val) → (s.dom d.val).want = none →
    ∃ u : State, exec (.pmAck d true) s = .next u.settle ∧
      u.dom d.val = { s.dom d.val with req := none, season := .winter, want := none, seedWait := false }) ∧
  (∀ (n : Fin 40) (d : Fin 54) (s : State), d.val = n.val + 4 → (s.dom d.val).req = some .off → (s.sl n.val).st = .autumn →
    ∃ u : State, exec (.pmAck d true) s = .next u.settle ∧ (u.dom d.val).req = none ∧
      u.sl n.val = { s.sl n.val with st := .winter, winterAt := s.sys.aoClk }) ∧
  (∀ (n : Fin 40) (d : Fin 54) (a b : W128) (rest : List W128) (s : State), d.val = n.val + 4 → (s.dom d.val).req = some .on →
    (s.sl n.val).st = .thaw → s.sys.seeds = a :: b :: rest →
    ∃ u : State, exec (.pmAck d true) s = .next u.settle ∧ (u.dom d.val).req = none ∧ u.sl n.val = s.sl n.val ∧
      u.sys.seeds = rest ∧ Tab.get 0 u.sys.maskSeed n.val = b ++ a) ∧
  (∀ (d : Fin 54) (op : PmOp) (s : State), (s.dom d.val).req = some op →
    ∃ u : State, exec (.pmAck d false) s = .next u.settle ∧ (u.dom d.val).req = none ∧ (u.dom d.val).refused = true ∧
      u.flag .pwr 0x40 0 = true ∧ u.counted 184 = s.counted 184 + 1 ∧ u.counted 0x40 = s.counted 0x40 + 1) ∧
  (∀ (d : Fin 54) (s : State), isSliceDom d.val = false → (s.dom d.val).refused = true → (s.dom d.val).season = .autumn →
    s.needed d.val = false → (s.dom d.val).req = none → s.domDrained d.val = true → (s.dom d.val).unavail = false →
        s.pmOut < 8 →
    ∃ u : State, exec (.pmRetry d) s = .next u.settle ∧ u.out = [.pm d.val (sleepOp d.val)] ∧
      (u.dom d.val).refused = false ∧ (u.dom d.val).req = some (sleepOp d.val)) ∧
  (∀ (d : Fin 54) (op : PmOp) (s : State), (s.dom d.val).req = some op →
    ∃ u : State, exec (.pmTimeout d) s = .next u.settle ∧ (u.dom d.val).unavail = true ∧ (u.dom d.val).req = none ∧
      u.flag .pwr 0x40 1 = true) ∧
  (∀ (d : Fin 54) (late : Bool) (s : State), isSliceDom d.val = false → (s.dom d.val).season = .thaw →
      (s.dom d.val).req = none → s.seeded d.val = true →
    ∃ u : State, exec (.domainThawDone d true late) s = .next u.settle ∧
      u.dom d.val = { s.dom d.val with season := .summer } ∧ u.counted 183 = s.counted 183 + b2n late) ∧
  (∀ (d : Fin 54) (late : Bool) (s : State), isSliceDom d.val = false → (s.dom d.val).season = .thaw →
      (s.dom d.val).req = none → s.seeded d.val = true →
    ∃ u : State, exec (.domainThawDone d false late) s = .next u.settle ∧ (u.dom d.val).season = .winter ∧
      (u.dom d.val).unavail = true) ∧
  (∀ (d : Fin 54) (pass late : Bool) (s : State), isSliceDom d.val = false → (s.dom d.val).season = .thaw →
      (s.dom d.val).req = none → s.seeded d.val = false →
    ∃ u : State, exec (.domainThawDone d pass late) s = .next u.settle ∧ u.dom d.val = s.dom d.val)

/-- A drained slice goes on to its test or to sleep; a passed test leads to SUMMER, a failed one to FAULTED; a rotation test
begins or is postponed; SVC_OUT drains a slice or is refused; TEST_RUN starts a test. (05_cipher_slices.md) -/
def Obligations.SlicesServed : Prop :=
  (∀ (n : Fin 40) (s : State), s.slEmpty n.val = true → (s.sl n.val).st = .drain → (s.sl n.val).maskFault = false →
    (s.sl n.val).svcOut = false → (s.sl n.val).rotPending = true →
    ∃ u : State, exec (.sliceDrained n) s = .next u.settle ∧ u.sl n.val = { s.sl n.val with st := .test, byTestRun := false }) ∧
  (∀ (n : Fin 40) (s : State), s.slEmpty n.val = true → (s.sl n.val).st = .autumn → (s.dom (n.val + 4)).req = none →
    (s.dom (n.val + 4)).unavail = false → (s.dom (n.val + 4)).refused = false → s.pmOut < 8 →
    ∃ u : State, exec (.sliceDrained n) s = .next u.settle ∧ u.out = [.pm (n.val + 4) .off] ∧
      (u.dom (n.val + 4)).req = some .off) ∧
  (∀ (n : Fin 40) (s : State), (s.sl n.val).st = .test → (s.sl n.val).svcOut = false → (s.sl n.val).byTestRun = false →
    (s.sl n.val).testWake = false → n.val ∉ s.sys.maskLate →
    ∃ u : State, exec (.sliceSelfTestDone n true) s = .next u.settle ∧
      u.sl n.val = { s.sl n.val with
        st := .summer, katPass := true, testAt := some s.sys.aoClk, byTestRun := false, rotPending := false }) ∧
  (∀ (n : Fin 40) (s : State), (s.sl n.val).st = .test → n.val ∉ s.rsv (isIng n.val) → n.val ∉ s.sys.maskLate →
    s.resetOn (.slice n) = false →
    ∃ u : State, exec (.sliceSelfTestDone n false) s = .next u.settle ∧ u.flag (.slice n.val) 0x40 1 = true ∧
      u.counted 7 = s.counted 7 + 1 ∧
      u.sl n.val = { s.sl n.val with
        st := .faulted, katPass := false, byTestRun := false, rotPending := false, testWake := false }) ∧
  (∀ (n : Fin 40) (s : State), (s.sl n.val).st = .summer →
    ∃ u : State, exec (.rotationTestDue n) s = .next u.settle ∧
      u.sl n.val = if s.rotAllowed n.val = true ∧ s.rotBusy (isIng n.val) = false
        then { s.sl n.val with st := .drain, rotPending := true, postponed := none }
        else { s.sl n.val with postponed := some ((s.sl n.val).postponed.getD s.sys.aoClk) }) ∧
  (∀ (n : Fin 40) (s : State), (s.sl n.val).st ≠ .winter → (s.sl n.val).testAt.isSome = true →
    ∃ t : State, exec (.testLate n) s = .next t ∧ t.counted 9 = s.counted 9 + 1) ∧
  (∀ (n : Fin 40) (data : W32) (s : State), s.free (.slice n.val) = true → bit data 0 = true → bit data 2 = false →
    (s.sl n.val).svcOut = false → s.svcRefused n.val (bit data 1) = false → (s.sl n.val).st = .summer →
    ∃ u : State, exec (.svcOut n data) s = .next u.settle ∧ u.out = [.cpDone false] ∧
      u.sl n.val = { s.sl n.val with svcOut := true, st := .drain }) ∧
  (∀ (n : Fin 40) (data : W32) (s : State), s.free (.slice n.val) = true → bit data 0 = true → bit data 2 = false →
    (s.sl n.val).svcOut = false → s.svcRefused n.val (bit data 1) = true →
    ∃ u : State, exec (.svcOut n data) s = .next u.settle ∧ u.out = [.cpDone false] ∧ u.sl n.val = s.sl n.val ∧
      u.flag (.slice n.val) 0x40 0 = true) ∧
  (∀ (n : Fin 40) (data : W32) (s : State), s.free (.slice n.val) = true → bit data 0 = true → (s.sl n.val).svcOut = true →
    (s.sl n.val).st = .held →
    ∃ u : State, exec (.testRun n data) s = .next u.settle ∧ u.out = [.cpDone false] ∧
      u.sl n.val = { s.sl n.val with st := .test, byTestRun := true, rotPending := false })

/-- A slice fault makes the slice FAULTED and voids its frames; a masking fault drains it and leaves the frames; the automatic
repair resets it and takes one of its budget. (05_cipher_slices.md, 13_faults.md) -/
def Obligations.SliceFaults : Prop :=
  (∀ (n : Fin 40) (det : BitVec 8) (s : State), ((1 ≤ det.toNat ∧ det.toNat ≤ 6) ∨ det.toNat = 8 ∨ det.toNat = 9) →
    s.resetOn (.slice n) = false → n.val ∉ s.rsv (isIng n.val) →
    ∃ u : State, exec (.sliceFault n det) s = .next u.settle ∧ (u.sl n.val).st = .faulted ∧ (u.sl n.val).susp = none ∧
      ∀ f ∈ u.dp.frames, f.inSl n.val = true → f.void_ = true) ∧
  (∀ (n : Fin 40) (s : State), (s.sl n.val).st ∈ [SlState.summer, .autumn, .test, .drain] → s.resetOn (.slice n) = false →
    ∃ u : State, exec (.maskFault n) s = .next u.settle ∧ u.sl n.val = { s.sl n.val with st := .drain, maskFault := true } ∧
      u.flag (.slice n.val) 0x40 2 = true ∧ u.counted 6 = s.counted 6 + 1 ∧ u.dp = s.dp) ∧
  (∀ (n : Fin 40) (s : State), (s.sl n.val).st = .faulted → fld (s.cfg (.slice n.val) 0x88) 3 0 ≠ 0 →
    s.resetOn (.slice n) = false → .glob ∉ s.regs.resetting → .glob ∉ s.regs.resetWait →
    ∃ u : State, exec (.sliceAutoRepair n) s = .next u.settle ∧ u.resetOn (.slice n) = true ∧ (u.sl n.val).st = .test ∧
      u.flag (.slice n.val) 0x40 4 = true ∧
      u.cfg (.slice n.val) 0x88 = BitVec.ofNat 32 (fld (s.cfg (.slice n.val) 0x88) 3 0 - 1))

/-- A corrected error is counted; an uncorrectable one takes the KEK, the root key, the counter, the bypass or calendar entry,
or the key slot that it hits, and is counted; a register whose parity fails acts as its reset value. (13_faults.md,
15_register_conventions.md) -/
def Obligations.MemoryErrors : Prop :=
  (∀ (d : Fin 54) (addr : W32) (ct : Bool) (s : State),
    ∃ t : State, exec (.sramCe d addr ct) s = .next t ∧ t.counted 0x1F = s.counted 0x1F + 1 ∧
      t.counted 240 = s.counted 240 + b2n ct) ∧
  (∀ (n : BitVec 6) (s : State), n ≠ 63 → s.sys.rootKey = none →
    ∃ u : State, exec (.sramUe (.kek n)) s = .next u.settle ∧ u.sys = { s.sys with keks := Tab.del s.sys.keks n.toNat } ∧
      u.counted 0x22 = s.counted 0x22 + 1) ∧
  (∀ s : State, ∃ u : State, exec (.sramUe .rootKey) s = .next u.settle ∧ u.sys = { s.sys with rootKey := none } ∧
    u.counted 0x22 = s.counted 0x22 + 1) ∧
  (∀ (n : BitVec 9) (s : State), ∃ u : State, exec (.sramUe (.eventCounter n)) s = .next u.settle ∧
    Tab.get 0 u.cnt.evc n.toNat = 0 ∧ n.toNat ∈ u.cnt.evcPoison ∧ u.counted 241 = s.counted 241 + 1 ∧
    u.counted 0x20 = s.counted 0x20 + 1) ∧
  (∀ (n : BitVec 8) (s : State), ∃ u : State, exec (.sramUe (.bypass n)) s = .next u.settle ∧
    (Tab.get 0 u.dp.byp n.toNat).getLsbD 127 = false ∧ u.counted 0x20 = s.counted 0x20 + 1) ∧
  (∀ (n : BitVec 8) (s : State), ∃ u : State, exec (.sramUe (.calendar n)) s = .next u.settle ∧ u.calEntry n.toNat = 0 ∧
    u.counted 0x20 = s.counted 0x20 + 1) ∧
  (∀ (w : BitVec 19) (s : State), exec (.residencyMapRebuildDone w) s = .next { s with
    out := []
    ch := { s.ch with rebuilding := delNat s.ch.rebuilding w.toNat } }) ∧
  (∀ (v : BitVec 17) (s : State), (s.slot v.toNat).st = .live →
    ∃ u : State, exec (.vaultUe v) s = .next u.settle ∧ (u.slot v.toNat).st = .erased ∧ (u.slot v.toNat).vaultErr = true ∧
      (u.slot v.toNat).key = [] ∧ (u.slot v.toNat).gen = (s.slot v.toNat).gen) ∧
  (∀ (page : BitVec 8) (off : BitVec 12) (p : Page) (s : State), pageOf page.toNat = some p → hasParity p off.toNat = true →
    ∃ u : State, exec (.cfgPar page off) s = .next u.settle ∧ p.at off.toNat ∈ u.regs.parBad ∧
      u.cfg p off.toNat = regReset (p.at off.toNat) ∧ u.stg p off.toNat = regReset (p.at off.toNat))

/-- A UNIT fault holds its partition; a KEYX fault ends the core's job and the second within a second removes it; a mask
generator that fires is reseeded, or its unit removed the second time; a held partition is reset automatically. (13_faults.md,
05_cipher_slices.md) -/
def Obligations.UnitFaults : Prop :=
  (∀ (q : Part) (s : State), (q = .pager ∨ q = .store ∨ q = .march ∨ q = .lease ∨ q = .sec ∨ ∃ n, q = .port n) →
    s.resetOn q = false →
    ∃ u : State, exec (.unitFaultHold q) s = .next u.settle ∧ u.held q = true) ∧
  (∀ (c : Fin 4) (s : State),
    ∃ u : State, exec (.keyxFault c) s = .next u.settle ∧ u.core c.val = none ∧
      (2 ≤ (lately s.sys.aoClk (Tab.get [] s.keyx.faults c.val)).length → c.val ∈ u.keyx.removed)) ∧
  (∀ (g : Fin 7) (a b : W128) (rest : List W128) (s : State), lately s.sys.aoClk (Tab.get [] s.keyx.maskFires g.val) = [] →
    s.seedsFree = a :: b :: rest →
    ∃ u : State, exec (.maskHltX g false) s = .next u.settle ∧ u.counted 0x36 = s.counted 0x36 + 1 ∧
      Tab.get 0 u.sys.maskSeed (40 + g.val) = b ++ a ∧ u.sys.seeds = s.sys.seeds.drop 2 ∧
      Tab.get [] u.keyx.maskFires g.val = [s.sys.aoClk]) ∧
  (∀ (g : Fin 7) (s : State), g.val < 4 →
    ∃ u : State, exec (.maskHltX g true) s = .next u.settle ∧ g.val ∈ u.keyx.removed ∧ u.counted 0x36 = s.counted 0x36 + 1) ∧
  (∀ (q : Part) (s : State), s.autoMay q = true → s.resetOn q = false → .glob ∉ s.regs.resetting → .glob ∉ s.regs.resetWait →
    ∃ u : State, exec (.autoPartitionReset q) s = .next u.settle ∧ u.resetOn q = true ∧ u.held q = false ∧ q ∈ u.flt.autoNow)

/-- A passed latent test is noted, a failed one takes its unit out, a late one is recorded once; a lockstep mismatch silences
the unit and raises ALARM_N. (13_faults.md) -/
def Obligations.LatentTests : Prop :=
  (∀ (t : Fin 8) (i : BitVec 9) (s : State), t.val ≠ 0 → exec (.latentTest t i true) s = .next { s with
    out := []
    flt := { s.flt with
      latentAt := Tab.set none s.flt.latentAt t.val (some s.sys.aoClk), latentLate := delNat s.flt.latentLate t.val } }) ∧
  (∀ (i : BitVec 9) (s : State), s.resetOn .sec = false →
    ∃ u : State, exec (.latentTest 3 i false) s = .next u.settle ∧ u.held .sec = true ∧ u.counted 0x30 = s.counted 0x30 + 1) ∧
  (∀ (t : Fin 8) (s : State), t.val ≠ 0 → (∀ d, latentDom t.val = some d → s.domUp d = true) → t.val ∉ s.flt.latentLate →
    ∃ u : State, exec (.latentLate t) s = .next u ∧ t.val ∈ u.flt.latentLate ∧ u.counted 0x46 = s.counted 0x46 + 1) ∧
  (∀ (i : Fin 5) (s : State),
    ∃ t : State, exec (.aoLock i) s = .next t ∧ t.dp.quiet = true ∧ t.alarm = true ∧ t.flt.silent = true ∧
      t.pair.role = .silent ∧ t.counted 0x4F = s.counted 0x4F + 1)

/-- An event makes a record or counts in the one it equals, unless it is masked; selection shows a record and clears empty it;
an injection counts as its detector and touches neither datapath nor security core. (13_faults.md) -/
def Obligations.FaultRecords : Prop :=
  (∀ (e : FEvent) (rest : List FEvent) (i : Nat) (s : State), s.flt.queue = e :: rest → s.recMasked e = false →
    (s.recsValid.find? (fun p => p.2.ev.same e)) = none → s.recFree = some i →
    ∃ t : State, exec .faultEvent s = .next t ∧ t.flt.queue = rest ∧
      t.rec_ i = some { ev := e, count := 1, serial := s.flt.serial }) ∧
  (∀ (e : FEvent) (rest : List FEvent) (i : Nat) (r : FRec) (s : State), s.flt.queue = e :: rest → s.recMasked e = false →
    (s.recsValid.find? (fun p => p.2.ev.same e)) = some (i, r) →
    ∃ t : State, exec .faultEvent s = .next t ∧ t.flt.queue = rest ∧
      t.rec_ i = some { r with count := min 255 (r.count + 1) }) ∧
  (∀ (e : FEvent) (rest : List FEvent) (s : State), s.flt.queue = e :: rest → s.recMasked e = true →
    exec .faultEvent s = .next { s with out := [], flt := { s.flt with queue := rest } }) ∧
  (∀ (data : W32) (s : State), s.free .flt = true →
    ∃ t : State, exec (.fltRecSel data) s = .next t ∧ t.recSel = fld data 5 0 ∧ (t.hdr .flt).busy = true ∧
      ∀ i, i < 5 → t.roW .flt (0x88 + 4 * i) = (recWords (s.rec_ (fld data 5 0))).getD i 0) ∧
  (∀ s : State, s.free .flt = true →
    ∃ t : State, exec .fltRecClrOne s = .next t ∧ t.rec_ s.recSel = none ∧ (t.hdr .flt).busy = true ∧
      (∀ j, j ≠ s.recSel → t.rec_ j = s.rec_ j) ∧ ∀ i, i < 5 → t.roW .flt (0x88 + 4 * i) = 0) ∧
  (∀ s : State, s.free .flt = true →
    ∃ t : State, exec .fltRecClrAll s = .next t ∧ t.flt.recs = [] ∧ (t.hdr .flt).busy = true ∧
      ∀ i, i < 5 → t.roW .flt (0x88 + 4 * i) = 0) ∧
  (∀ (data : W32) (s : State), s.free .flt = true → (s.hdr .flt).unlocked = true → bit data 0 = true →
    (detClass (fld data 26 19)).1 ≠ 7 → instExists (fld data 26 19) (fld data 18 10) = true →
    fld data 26 19 ∈ [0x0A, 0x10, 0x11, 0x12, 0x13, 0x14, 0x16, 0x18, 0x20, 0x21, 0x22, 0x23, 0x28, 0x29, 0x2B, 0x2D, 0x32, 0x33,
      0x34, 0x35, 0x36, 0x38, 0x40, 0x41, 0x42, 0x43, 0x45, 0x46, 0x47] →
    ∃ u : State, exec (.fltInject data) s = .next (u.settle.setBusy .flt true) ∧ (u.hdr .flt).unlocked = false ∧
      u.counted (fld data 26 19 - 1) = s.counted (fld data 26 19 - 1) + 1 ∧ u.dp = s.dp ∧ u.sys = s.sys) ∧
  (∀ (data : W32) (s : State), s.free .flt = true → (s.hdr .flt).unlocked = true → bit data 0 = true →
    instExists (fld data 26 19) (fld data 18 10) = false →
    ∃ t : State, exec (.fltInject data) s = .next t ∧ (t.hdr .flt).accessErr = true ∧ t.counted 114 = s.counted 114 + 1 ∧
      t.flt = s.flt)

/-- PG_RESET on an unlocked page starts its partition's reset, which drops a pending commit and a hold; at its end the
partition is back and PG_EPOCH of each of its pages has gone up by one. (13_faults.md, 15_register_conventions.md) -/
def Obligations.ResetsEnd : Prop :=
  (∀ (q : Part) (s : State), s.resetOn q = true → s.restored q = true → s.regs.resetWait = [] →
    ∃ u : State, exec (.partitionResetDone q) s = .next u.settle ∧ u.resetOn q = false ∧
      ∀ p ∈ partPages q, (u.hdr p).epoch = (s.hdr p).epoch + 1) ∧
  (∀ (page : BitVec 8) (p : Page) (s : State), pageOf page.toNat = some p → s.free p = true → (s.hdr p).unlocked = true →
    p.part ≠ .glob → .glob ∉ s.regs.resetting → .glob ∉ s.regs.resetWait → p.aoPosted = false →
    ∃ u : State, exec (.pgReset page) s = .next u.settle ∧ u.resetOn p.part = true ∧ (u.hdr p).pending = false ∧
      u.held p.part = false)

/-- A HELLO that echoes the unit's nonce brings up a session under keys of both nonces; the HELLO timer sends one; the loss of
the peer ends the session and is flagged and counted; a bad message is counted, and one wrong in SEQ ends the session.
(14_redundant_pair.md) -/
def Obligations.PeerHeardAndLost : Prop :=
  (∀ s : State, s.pair.peerLost = false → ∀ c ∈ [Instr.ppLinkDown, .peerLost],
    ∃ u : State, exec c s = .next u.settle ∧ u.pair.peerLost = true ∧ u.pair.session = none ∧ u.flag .pair 0x40 2 = true ∧
      u.counted 228 = s.counted 228 + 1) ∧
  (∀ (m k : Bytes) (s : State), s.pairListens = true → s.rxCheck 0x01 m = .ok → s.pair.session = none →
    s.pair.nonce = some (blockOf (slice m 40 16)) → s.pair.pk = some k →
    ∃ (u : State) (q : Session), exec (.hello m) s = .next u.settle ∧ u.pair.session = some q ∧
      q.sid = BitVec.ofNat 32 (ofBe ((ofBlock (blockOf (slice m 40 16) ^^^ blockOf (slice m 24 16))).take 4)) ∧
      q.keyTx = sessionKey k (blockOf (slice m 40 16) ^^^ blockOf (slice m 24 16)) s.pairUnit ∧
      q.keyRx = sessionKey k (blockOf (slice m 40 16) ^^^ blockOf (slice m 24 16)) (1 - s.pairUnit) ∧
      u.pair.peerLost = false ∧ u.counted 226 = s.counted 226 + 1) ∧
  (∀ (k : Bytes) (n : W128) (s : State), s.pairOn = true → s.resetOn .pair = false → s.pair.session = none →
    s.pair.pk = some k → s.pair.nonce = some n →
    exec .helloTimer s = .next { s with out := [.pp (
      let m := s.pairHeader 1 72 0 0 ++ ofBlock n ++ ofBlock s.pair.echo
      m ++ gmac k ((ofBlock n).take 12) m)] }) ∧
  (∀ (b : Bool) (s : State), s.pairListens = true →
    ∃ t : State, exec (.pairRxBad true b) s = .next t ∧ t.pair = s.pair ∧ t.counted 225 = s.counted 225 + 1) ∧
  (∀ s : State, s.pairListens = true →
    ∃ t : State, exec (.pairRxBad false false) s = .next t ∧ t.pair = s.pair ∧ t.counted 224 = s.counted 224 + 1) ∧
  (∀ s : State, s.pairListens = true → s.pair.session.isSome = true →
    ∃ t : State, exec (.pairRxBad false true) s = .next t ∧ t.pair.session = none ∧ t.counted 224 = s.counted 224 + 1 ∧
      t.counted 227 = s.counted 227 + 1)

/-- BEAT, HEALTH, the mirror messages and STATUS go out with the next SEQ or a fresh nonce, under their keys, and a changed
floor is queued. (14_redundant_pair.md) -/
def Obligations.PairMessagesSent : Prop :=
  (∀ (q : Session) (s : State), s.pairOn = true → s.resetOn .pair = false → s.pair.session = some q →
    exec .beatTimer s = .next { s with
      out := [.pp (
        let m := s.pairHeader 0x02 48 q.sid (q.txSeq + 1) ++ beBytes 8 s.ackNow
        m ++ gmac q.keyTx (sessionIv q.sid (q.txSeq + 1)) m)]
      pair := { s.pair with session := some { q with txSeq := q.txSeq + 1 } } }) ∧
  (∀ (q : Session) (s : State), s.pairOn = true → s.resetOn .pair = false → s.pair.session = some q → s.pair.role = .standby →
    exec .healthTimer s = .next { s with
      out := [.pp (
        let m := s.pairHeader 0x03 (40 + s.healthBody.length) q.sid (q.txSeq + 1) ++ s.healthBody
        m ++ gmac q.keyTx (sessionIv q.sid (q.txSeq + 1)) m)]
      pair := { s.pair with session := some { q with txSeq := q.txSeq + 1 } } }) ∧
  (∀ (k : MirKind) (q : Session) (s : State), s.pairOn = true → s.resetOn .pair = false → s.pair.session = some q →
    s.pair.role = .active → s.pair.queue k ≠ [] →
    (s.pair.syncing = false ∨ k = .lease ∨ s.pair.qLease = []) →
    ∃ (t : State) (m : Bytes), exec (.mirrorFlush k) s = .next t ∧ .pp m ∈ t.out ∧ byteAt m 0 = BitVec.ofNat 8 (mirType k) ∧
      t.pair.queue k = (s.pair.queue k).drop (mirMax k) ∧ t.pair.sentSeqs = s.pair.sentSeqs ++ [q.txSeq + 1] ∧
      t.counted 237 = s.counted 237 + 1) ∧
  (∀ (v at_ : Nat) (en : Entry) (s : State), s.mirrors = true → s.resetOn .pair = false → s.floorsDue = [(v, at_)] →
    s.entry (v / 2) = some en →
    ∃ t : State, exec .floorTimer s = .next t ∧ (t.slot v).floorAt = none ∧
      t.pair.qFloor = s.pair.qFloor ++ [{ (floorItem en.chix (decide (v % 2 = 1)) (s.slot v)) with at_ := some at_ }]) ∧
  (∀ (k : Bytes) (w : W128) (rest : List W128) (s : State), s.pairOn = true → s.pair.ak = some k → s.seedsFree = w :: rest →
    exec .statusTimer s = .next (
      let n := ((ofBlock w).take 12).set 0 (byteAt (ofBlock w) 0 &&& 0x7F)
      let m := s.statusHead ++ n ++ zeros 12
      { s with
        out := [.ab (m ++ gmac k n m)]
        sys := { s.sys with seeds := s.sys.seeds.drop 1 }
        pair := { s.pair with nonces := (n :: s.pair.nonces).take 4 } }))

/-- BEAT of a peer ACTIVE at a higher EPOCH demotes; HEALTH, ACK, SYNC_REQ, the mirror messages and SYNC_END each have their
effect on the side that takes them; stale health is noted. (14_redundant_pair.md) -/
def Obligations.PairMessagesTaken : Prop :=
  (∀ (m : Bytes) (s : State), s.pairListens = true → s.rxCheck 0x02 m = .ok → s.pair.role = .active → msgRole m = 3 →
    s.pair.epoch.toNat < msgEpoch m →
    ∃ u : State, exec (.beat m) s = .next u.settle ∧ u.pair.role = .standby ∧ u.pair.ready = false ∧
      u.flag .pair 0x40 5 = true ∧ u.counted 230 = s.counted 230 + 1) ∧
  (∀ (m : Bytes) (s : State), s.pairListens = true → s.rxCheck 0x03 m = .ok → s.pair.role = .active →
    ∃ u : State, exec (.health m) s = .next u.settle ∧ u.pair.peerHealth = healthWord (msgBody m) ∧
      u.pair.healthStale = false) ∧
  (∀ s : State, s.pair.role = .active →
    exec .healthStale s = .next { s with out := [], pair := { s.pair with healthStale := true } }) ∧
  (∀ (m : Bytes) (s : State), s.pairListens = true → s.rxCheck 0x04 m = .ok → s.pair.role = .active →
    ∃ u : State, exec (.ack m) s = .next u.settle ∧
      u.pair.sentSeqs = s.pair.sentSeqs.filter (fun n => decide (ofBe ((msgBody m).take 8) < n))) ∧
  (∀ (m : Bytes) (q : Session) (s : State), s.pairListens = true → s.rxCheck 0x06 m = .ok → s.pair.role = .active →
    s.pair.session = some q → s.lease.waits = [] →
    ∃ u : State, exec (.syncReq m) s = .next u.settle ∧ u.pair.qLease = s.pair.qLease ++ s.syncLease ∧
      u.pair.qSlot = s.pair.qSlot ++ s.syncSlot ∧ u.pair.qSched = s.pair.qSched ++ s.syncSched ∧
      u.pair.qFloor = s.pair.qFloor ++ s.syncFloor) ∧
  (∀ (m : Bytes) (s : State), s.pairListens = true → s.rxCheck 0x10 m = .ok → s.pair.role = .standby →
    ∃ u : State, exec (.lease m) s = .next u.settle ∧
      u.pair.jnlWait = s.pair.jnlWait ++ (msgItems .lease m).map (leaseJItem (msgSeq m)) ∧
      u.pair.ackOwed = s.pair.ackOwed ++ [msgSeq m]) ∧
  (∀ (m : Bytes) (s : State), s.pairListens = true → s.pair.role = .standby →
    ∀ p ∈ [(Instr.slot m, 0x11, MirKind.slot), (.sched m, 0x12, .sched), (.floor m, 0x13, .floor)], s.rxCheck p.2.1 m = .ok →
    ∃ u : State, exec p.1 s = .next u.settle ∧
      u.pair.inbox = s.pair.inbox ++ (msgItems p.2.2 m).map (fun it => (msgSeq m, p.2.2, it)) ∧
      u.pair.ackOwed = s.pair.ackOwed ++ [msgSeq m]) ∧
  (∀ (m : Bytes) (s : State), s.pairListens = true → s.rxCheck 0x14 m = .ok → s.pair.role = .standby →
    ∃ u : State, exec (.syncEnd m) s = .next u.settle ∧
      u.pair.syncEnd = some (msgSeq m, ofBe ((msgBody m).take 4), ofBe (slice (msgBody m) 4 4)))

/-- An accepted GRANT of nobody changes no role, one that names a ready standby or a primary in SEEK promotes it, one that
names the peer makes the unit STANDBY; others are counted; the loss of the arbiter and the end of a request are noted.
(14_redundant_pair.md) -/
def Obligations.GrantsObeyed : Prop :=
  (∀ (m : Bytes) (s : State), s.pairOn = true → s.grantOk m = true → (byteAt m 2).toNat % 4 = 3 →
    ∃ u : State, exec (.grant m) s = .next u.settle ∧ u.pair.role = s.pair.role ∧ u.pair.granted = false ∧
      u.pair.epoch = BitVec.ofNat 32 (ofBe (slice m 4 4)) ∧ u.pair.heard = true ∧ u.pair.arbLost = false) ∧
  (∀ (m : Bytes) (s : State), s.pairOn = true → s.grantOk m = true → (byteAt m 2).toNat % 4 = s.pairUnit →
    ((s.pair.role = .standby ∧ s.pair.ready = true) ∨ (s.pair.role = .seek ∧ (s.pairPrimary || s.pair.ready) = true)) →
    ∃ u : State, exec (.grant m) s = .next u.settle ∧ u.pair.role = .active ∧ u.pair.granted = true ∧
      u.pair.epoch = BitVec.ofNat 32 (ofBe (slice m 4 4)) ∧ u.flag .pair 0x40 4 = true ∧
      u.counted 229 = s.counted 229 + 1) ∧
  (∀ (m : Bytes) (s : State), s.pairOn = true → s.grantOk m = true → (byteAt m 2).toNat % 4 = 1 - s.pairUnit →
    (s.pair.role = .seek ∨ (s.pair.role = .active ∧ s.pair.epoch.toNat < ofBe (slice m 4 4))) →
    ∃ u : State, exec (.grant m) s = .next u.settle ∧ u.pair.role = .standby ∧ u.pair.granted = false) ∧
  (∀ (m : Bytes) (s : State), s.pairOn = true → s.grantOk m = false →
    ∃ t : State, exec (.grant m) s = .next t ∧ t.pair = s.pair ∧ t.counted 225 = s.counted 225 + 1) ∧
  (∀ s : State, s.pairOn = true →
    exec .arbLost s = .next { s with out := [], pair := { s.pair with arbLost := true } }) ∧
  (∀ s : State, ∃ t : State, exec .requestHoldExpiry s = .next t ∧ t.pair.reqHold = false ∧ t.pair.role = s.pair.role)

/-- YIELD, REQUEST and RESYNC have their effect in their role and end with code 0, and with code 0x27 and no effect in
another; PAIR is posted, so BUSY stays until the next CK_AO cycle. (14_redundant_pair.md) -/
def Obligations.PairCommands : Prop :=
  (∀ s : State, s.free .pair = true → s.pair.role = .active →
    ∃ t : State, exec .yield s = .next t ∧ t.pair.yielding = true ∧ t.pair.role = .active ∧ (t.hdr .pair).busy = true ∧
      t.roW .pair 0x8C = (atPos 0 24 ||| atPos 1 16) ∧ t.flag .pair 0x40 12 = true) ∧
  (∀ s : State, s.free .pair = true → s.pair.role = .standby →
    ∃ t : State, exec .request s = .next t ∧ t.pair.reqHold = true ∧ (t.hdr .pair).busy = true ∧
      t.roW .pair 0x8C = (atPos 0 24 ||| atPos 2 16) ∧ t.flag .pair 0x40 12 = true) ∧
  (∀ s : State, s.free .pair = true → s.pair.role = .standby →
    ∃ t : State, exec .resync s = .next t ∧ t.pair.gotHalves = [] ∧ t.pair.gotChans = [] ∧ t.pair.syncEnd = none ∧
      (t.hdr .pair).busy = true ∧ t.roW .pair 0x8C = (atPos 0 24 ||| atPos 3 16) ∧ t.flag .pair 0x40 12 = true) ∧
  (∀ s : State, s.free .pair = true →
    ∀ p ∈ [(Instr.yield, 1), (.request, 2), (.resync, 3)], s.pair.role ≠ (if p.2 = 1 then .active else .standby) →
    ∃ t : State, exec p.1 s = .next t ∧ t.pair = s.pair ∧ t.roW .pair 0x8C = (atPos 0x27 24 ||| atPos p.2 16) ∧
      t.flag .pair 0x40 12 = true)

/-- An image with a reserved encoding in SUITE, OFFSET, CLEAR_TAGS or VALIDATE, a reserved bit, REPLAY_WINDOW above
0x40000000, or transmit with ES and SC_INC ends CH_WRITE with BAD_FIELD, and no channel, slot or store request is made.
(R145.) -/
def Obligations.BadImageRefused : Prop :=
  ∀ (cmd : W32) (s : State), s.canRun .saw = true →
    (4 < cSuite (s.sawArg 0) ∨ cOffset (s.sawArg 0) = 3 ∨ cClear (s.sawArg 0) = 3 ∨ cValidate (s.sawArg 0) = 3 ∨
      s.sawArg 0 &&& 0x2FF ≠ 0 ∨ fld (s.sawArg 4) 31 12 ≠ 0 ∨ fld (s.sawArg 6) 27 16 ≠ 0 ∨ 0x40000000 < (s.sawArg 1).toNat ∨
      (cRx (s.sawArg 0) = false ∧ cEs (s.sawArg 0) = true ∧ cScInc (s.sawArg 0) = true)) →
    ∃ t : State, exec (.chWrite cmd) s = .next t ∧ t.ended .saw 0x84 0 0x02 0x01 0 ∧ t.ch = s.ch ∧ t.store = s.store

/-- A new channel takes the lowest free entry with its image and zeroes its trunk cell; the image of a resident channel is
rewritten with its ACTIVE kept; an identity field does not change while a slot holds a key. (06_channels_and_keys.md,
17_counters.md) -/
def Obligations.ChannelsWritten : Prop :=
  (∀ (cmd : W32) (e : Nat) (s : State), s.canRun .saw = true → s.imageOk = true → s.known (cmdChix cmd) = false →
    s.trunksServed (cmdChix cmd) = true → (cExpress (s.sawArg 0) = false ∨ s.pinnedCnt < 61440) → s.lowestFree = some e →
    ∃ u : State, exec (.chWrite cmd) s = .next u.carryOn ∧ u.ended .saw 0x84 0 0 0x01 e ∧
      u.resident (cmdChix cmd) = some e ∧ u.groupOf (cmdChix cmd) = BitVec.ofNat 12 (fld (s.sawArg 4) 11 0) ∧
      u.entry e = some {
        chix := cmdChix cmd, live := true, lastUsed := s.useMs, cfg0 := s.sawArg 0, window := (s.sawArg 1).toNat
        sci := s.imageSci, pinned := cExpress (s.sawArg 0) } ∧
      u.store.wait.map (fun r => (r.wr, r.line, r.mask, r.who)) = (List.range 4).map (fun l =>
        (true, s.trunkLine (cmdChix cmd) l, fullMask, Req.zeroWr (cmdChix cmd) l))) ∧
  (∀ (cmd : W32) (e : Nat) (en : Entry) (s : State), s.canRun .saw = true → s.imageOk = true →
    s.whereIs (cmdChix cmd) = .here e en →
    (identityDiffers (s.sawArg 0) en.cfg0 = false ∨
      ((s.slot (vslotOf e false)).keyed = false ∧ (s.slot (vslotOf e true)).keyed = false)) →
    (cExpress (s.sawArg 0) = false ∨ en.pinned = true ∨ s.pinnedCnt < 61440) →
    ∃ t : State, exec (.chWrite cmd) s = .next t ∧ t.ended .saw 0x84 0 0 0x01 e ∧ t.ch.slots = s.ch.slots ∧
      t.groupOf (cmdChix cmd) = BitVec.ofNat 12 (fld (s.sawArg 4) 11 0) ∧
      t.entry e = some { en with
        cfg0 := withActive (s.sawArg 0) en.act, window := (s.sawArg 1).toNat, sci := s.imageSci
        pinned := en.pinned || cExpress (withActive (s.sawArg 0) en.act) }) ∧
  (∀ (cmd : W32) (e : Nat) (en : Entry) (s : State), s.canRun .saw = true → s.imageOk = true →
    s.whereIs (cmdChix cmd) = .here e en → identityDiffers (s.sawArg 0) en.cfg0 = true →
    ((s.slot (vslotOf e false)).keyed = true ∨ (s.slot (vslotOf e true)).keyed = true) →
    ∃ t : State, exec (.chWrite cmd) s = .next t ∧ t.ended .saw 0x84 0 0x05 0x01 0 ∧ t.ch = s.ch)

/-- CH_READ of a resident channel shows its image and slots and changes nothing, of an unknown one ends with NOT_FOUND; CH_PIN
pins while places are left; CH_UNPIN unpins, but not an express channel. (06_channels_and_keys.md, 09_channel_paging.md) -/
def Obligations.ChannelsReadAndPinned : Prop :=
  (∀ (cmd : W32) (e : Nat) (en : Entry) (s : State), s.canRun .saw = true → s.sawClear = true →
    s.whereIs (cmdChix cmd) = .here e en →
    ∃ t : State, exec (.chRead cmd) s = .next t ∧ t.ended .saw 0x84 0 0 0x02 e ∧ t.ch = s.ch ∧
      t.sawArg 0 = en.cfg0 ∧ t.sawArg 1 = BitVec.ofNat 32 en.window ∧ t.sawArg 5 = en.lastUsed ∧
      t.sawArg 7 = (s.slot (vslotOf e false)).statusWord ∧ t.sawArg 8 = (s.slot (vslotOf e true)).statusWord ∧
      t.sawArg 12 = lo32 (slotPn (cRx en.cfg0) (s.slot (vslotOf e false))) ∧
      t.sawArg 14 = lo32 (slotPn (cRx en.cfg0) (s.slot (vslotOf e true)))) ∧
  (∀ (cmd : W32) (s : State), s.canRun .saw = true → s.sawClear = true → s.whereIs (cmdChix cmd) = .unknown →
    ∃ t : State, exec (.chRead cmd) s = .next t ∧ t.ended .saw 0x84 0 0x03 0x02 0 ∧ t.ch = s.ch) ∧
  (∀ (cmd : W32) (e : Nat) (en : Entry) (s : State), s.canRun .saw = true → s.whereIs (cmdChix cmd) = .here e en →
    en.pinned = false → s.pinnedCnt < 61440 →
    ∃ t : State, exec (.chPin cmd) s = .next t ∧ t.ended .saw 0x84 0 0 0x04 e ∧
      t.entry e = some { en with pinned := true } ∧ t.ch.slots = s.ch.slots ∧ t.ch.resi = s.ch.resi) ∧
  (∀ (cmd : W32) (e : Nat) (en : Entry) (s : State), s.canRun .saw = true → s.whereIs (cmdChix cmd) = .here e en →
    (en.pinned = true ∨ 61440 ≤ s.pinnedCnt) →
    ∃ t : State, exec (.chPin cmd) s = .next t ∧ t.ch = s.ch ∧
      t.ended .saw 0x84 0 (if en.pinned then 0 else 0x08) 0x04 (if en.pinned then e else 0)) ∧
  (∀ (cmd : W32) (e : Nat) (en : Entry) (s : State), s.canRun .saw = true → s.whereIs (cmdChix cmd) = .here e en →
    cExpress en.cfg0 = false →
    ∃ t : State, exec (.chUnpin cmd) s = .next t ∧ t.ended .saw 0x84 0 0 0x05 0 ∧
      t.entry e = some { en with pinned := false } ∧ t.ch.slots = s.ch.slots ∧ t.ch.resi = s.ch.resi) ∧
  (∀ (cmd : W32) (e : Nat) (en : Entry) (s : State), s.canRun .saw = true → s.whereIs (cmdChix cmd) = .here e en →
    cExpress en.cfg0 = true →
    ∃ t : State, exec (.chUnpin cmd) s = .next t ∧ t.ended .saw 0x84 0 0x07 0x05 0 ∧ t.ch = s.ch)

/-- CH_EVICT of a resident channel sets its eviction point and queues its page-out, of a pinned one is refused, of a stored
one ends at once; with DISCARD the channel, its entry and its slots are gone. (09_channel_paging.md) -/
def Obligations.ChannelsEvicted : Prop :=
  (∀ (cmd : W32) (e : Nat) (en : Entry) (s : State), s.canRun .saw = true → s.whereIs (cmdChix cmd) = .here e en →
    en.pinned = false → (s.slot (vslotOf e false)).unsettled = false → (s.slot (vslotOf e true)).unsettled = false →
    s.pageOut (cmdChix cmd) = none →
    ∃ u : State, exec (.chEvict cmd) s = .next u.carryOn ∧ (u.hdr .saw).busy = true ∧
      u.entry e = some { en with evicting := true } ∧
      u.pager.outs = s.pager.outs ++ [{ chix := cmdChix cmd, byCmd := true, ser := s.pager.nextSer }]) ∧
  (∀ (cmd : W32) (e : Nat) (en : Entry) (s : State), s.canRun .saw = true → s.whereIs (cmdChix cmd) = .here e en →
    en.pinned = true → s.pageOut (cmdChix cmd) = none → ∀ p ∈ [Instr.chEvict cmd, .chEvictDiscard cmd],
    ∃ t : State, exec p s = .next t ∧ t.ended .saw 0x84 0 0x06 0x03 0 ∧ t.ch = s.ch) ∧
  (∀ (cmd : W32) (s : State), s.canRun .saw = true → s.whereIs (cmdChix cmd) = .stored → s.pageIn (cmdChix cmd) = none →
    s.pageOut (cmdChix cmd) = none →
    (∃ t : State, exec (.chEvict cmd) s = .next t ∧ t.ended .saw 0x84 0 0 0x03 0 ∧ t.ch = s.ch) ∧
    ∃ u : State, exec (.chEvictDiscard cmd) s = .next u.carryOn ∧ u.ended .saw 0x84 0 0 0x03 0 ∧
      u.known (cmdChix cmd) = false ∧ ∀ y, y ≠ cmdChix cmd → u.resi y = s.resi y) ∧
  (∀ (cmd : W32) (e : Nat) (en : Entry) (s : State), s.canRun .saw = true → s.whereIs (cmdChix cmd) = .here e en →
    en.pinned = false → (s.slot (vslotOf e false)).unsettled = false → (s.slot (vslotOf e true)).unsettled = false →
    s.pageOut (cmdChix cmd) = none → s.pageIn (cmdChix cmd) = none →
    s.holders (vslotOf e false) (s.slot (vslotOf e false)).gen = false →
    s.holders (vslotOf e true) (s.slot (vslotOf e true)).gen = false →
    ∃ u : State, exec (.chEvictDiscard cmd) s = .next u.carryOn ∧ u.ended .saw 0x84 0 0 0x03 0 ∧
      u.known (cmdChix cmd) = false ∧ u.entry e = none ∧ u.slot (vslotOf e false) = {} ∧ u.slot (vslotOf e true) = {})

/-- On a transmit channel, TIME, PN and NOW set the pending Equinox, with PAST for a time that has passed; CANCEL removes it;
QUERY shows it and changes nothing; a standby refuses all but QUERY. (08_equinox_key_change.md) -/
def Obligations.EquinoxScheduled : Prop :=
  ∀ (cmd : W32) (e : Nat) (en : Entry) (s : State), s.canRun .saw = true → s.whereIs (cmdChix cmd) = .here e en →
    cRx en.cfg0 = false → fld (s.sawArg 0) 26 0 = 0 →
    (s.pair.role ≠ .standby → s.pair.role ≠ .seek → bit (s.sawArg 0) 28 = en.act →
      (s.slot (vslotOf e (!en.act))).keyed = true →
      (s.schedTimeOk = true → ∃ t : State, exec (.eqxScheduleTime cmd) s = .next t ∧
        t.ended .saw 0x84 0 (if s.schedTime ≤ s.sys.tmL.ns then 0x23 else 0) 0x10 0 ∧
        t.entry e = some { en with
          eqx := some { mode := .time, fromB := en.act, defer := bit (s.sawArg 0) 27, val := s.schedTime } }) ∧
      (1 ≤ s.schedPn → s.schedPn ≤ pnCap en.cfg0 → ∃ t : State, exec (.eqxSchedulePn cmd) s = .next t ∧
        t.ended .saw 0x84 0 0 0x10 0 ∧
        t.entry e = some { en with
          eqx := some { mode := .pn, fromB := en.act, defer := bit (s.sawArg 0) 27, val := s.schedPn } }) ∧
      (∃ t : State, exec (.eqxScheduleNow cmd) s = .next t ∧ t.ended .saw 0x84 0 0 0x10 0 ∧
        t.entry e = some { en with
          eqx := some { mode := .now, fromB := en.act, defer := bit (s.sawArg 0) 27, val := 0 } })) ∧
    (s.pair.role ≠ .standby → s.pair.role ≠ .seek →
      ∃ t : State, exec (.eqxScheduleCancel cmd) s = .next t ∧ t.ended .saw 0x84 0 0 0x10 0 ∧
        t.entry e = some { en with eqx := none } ∧ t.ch.slots = s.ch.slots) ∧
    (∃ t : State, exec (.eqxScheduleQuery cmd) s = .next t ∧ t.ended .saw 0x84 0 0 0x10 0 ∧ t.ch = s.ch ∧
      ∀ q : Eqx, en.eqx = some q → t.sawArg 0 =
        (atPos q.mode.code 29 ||| atBit q.fromB 28 ||| atBit q.defer 27 ||| atBit q.deferred 26 |||
          atBit (decide (s.forcedAt en ≤ (s.slot (vslotOf e en.act)).next) && !(s.slot (vslotOf e en.act)).forced &&
            decide ((s.slot (vslotOf e en.act)).st = .live)) 25)) ∧
    ((s.pair.role = .standby ∨ s.pair.role = .seek) →
      ∀ p ∈ [Instr.eqxSchedulePn cmd, .eqxScheduleNow cmd, .eqxScheduleCancel cmd],
      ∃ t : State, exec p s = .next t ∧ t.ended .saw 0x84 0 0x26 0x10 0 ∧ t.ch = s.ch)

/-- On a receive channel, TIME arms the Solstice or retires the slot at once when its time has passed, FIRST_VALID watches,
NOW retires; CANCEL removes it; QUERY shows it and changes nothing. (08_equinox_key_change.md) -/
def Obligations.SolsticeScheduled : Prop :=
  ∀ (cmd : W32) (e : Nat) (en : Entry) (b : Bool) (s : State), s.canRun .saw = true → s.whereIs (cmdChix cmd) = .here e en →
    cRx en.cfg0 = true → fld (s.sawArg 0) 27 0 = 0 → bit (s.sawArg 0) 28 = b →
    (s.pair.role ≠ .standby → s.pair.role ≠ .seek → (s.slot (vslotOf e b)).st = .live →
      (s.slot (vslotOf e b)).retired = false →
      (s.schedTimeOk = true → s.sys.tmL.vld = true →
        ∃ t : State, exec (.solScheduleTime cmd) s = .next t ∧
          t.ended .saw 0x84 0 (if s.schedTime ≤ s.sys.tmL.ns then 0x23 else 0) 0x11 0 ∧
          (s.sys.tmL.ns < s.schedTime → t.entry e = some { en with
            sol := some { mode := .time, slotB := b, watch := false, val := s.schedTime } }) ∧
          (s.schedTime ≤ s.sys.tmL.ns → t.entry e = some { en with sol := none } ∧
            (t.slot (vslotOf e b)).retired = true ∧ (t.slot (vslotOf e b)).retAt = s.schedTime)) ∧
      ((s.slot (vslotOf e (!b))).keyed = true → (s.sawArg 1).toNat ≤ 10000000 →
        ∃ t : State, exec (.solScheduleFirstValid cmd) s = .next t ∧ t.ended .saw 0x84 0 0 0x11 0 ∧
          t.entry e = some { en with
            sol := some { mode := .firstValid, slotB := b, watch := true, val := (s.sawArg 1).toNat } }) ∧
      (s.sys.tmL.vld = true →
        ∃ t : State, exec (.solScheduleNow cmd) s = .next t ∧ t.ended .saw 0x84 0 0 0x11 0 ∧
          t.entry e = some { en with sol := none } ∧ (t.slot (vslotOf e b)).retired = true ∧
          (t.slot (vslotOf e b)).retAt = s.sys.tmL.ns)) ∧
    (s.pair.role ≠ .standby → s.pair.role ≠ .seek →
      ∃ t : State, exec (.solScheduleCancel cmd) s = .next t ∧ t.ended .saw 0x84 0 0 0x11 0 ∧
        t.entry e = some { en with sol := none } ∧ t.ch.slots = s.ch.slots) ∧
    (∃ t : State, exec (.solScheduleQuery cmd) s = .next t ∧ t.ended .saw 0x84 0 0 0x11 0 ∧ t.ch = s.ch ∧
      ∀ q : Sol, en.sol = some q → t.sawArg 0 = (atPos q.mode.code 29 ||| atBit q.slotB 28 ||| atBit q.watch 27))

/-- STAT_READ returns the fields of a resident channel whose trunks are 0, STAT_CLEAR first writes zero trunks for the
selected fields and refuses a stored channel, BUCKET_DIGEST returns the digest and the count of a bucket of resident channels.
(17_counters.md, 09_channel_paging.md) -/
def Obligations.StatisticsCommands : Prop :=
  (∀ (cmd : W32) (e : Nat) (en : Entry) (s : State), s.canRun .saw = true → s.sawClear = true →
    s.whereIs (cmdChix cmd) = .here e en → s.spilling (cmdChix cmd) = false → s.outcomesOf (cmdChix cmd) = [] →
    s.domsLost [45] = false → (∀ l, l < 4 → s.zeroSt (cmdChix cmd) l = some true) →
    ∃ t : State, exec (.statRead cmd) s = .next t ∧ t.ended .saw 0x84 0 0 0x20 0 ∧ t.ch = s.ch ∧
      t.counted 245 = s.counted 245 + 1 ∧ t.sawArg 14 = en.field 30 ∧
      ∀ j, j < 7 → fld (s.sawArg 0) 4 0 + j < 30 →
        t.sawArg (2 * j) = en.field (fld (s.sawArg 0) 4 0 + j) ∧ t.sawArg (2 * j + 1) = 0) ∧
  (∀ (cmd : W32) (e : Nat) (en : Entry) (s : State), s.canRun .saw = true → s.sawClear = true →
    s.whereIs (cmdChix cmd) = .here e en → s.spilling (cmdChix cmd) = false → s.outcomesOf (cmdChix cmd) = [] →
    s.domsLost [45] = false →
    ∃ u : State, exec (.statClear cmd) s = .next u.carryOn ∧ (u.hdr .saw).busy = true ∧ u.ch = s.ch ∧
      u.store.wait.map (fun r => (r.wr, r.line, r.data, r.mask)) = (linesOf s.clearSet).map (fun l =>
        (true, s.trunkLine (cmdChix cmd) l, zeros 64, trunkMask l s.clearSet))) ∧
  (∀ (cmd : W32) (s : State), s.canRun .saw = true → s.sawClear = true → s.whereIs (cmdChix cmd) = .stored →
    s.pageIn (cmdChix cmd) = none → s.domsLost [45] = false →
    ∃ t : State, exec (.statClear cmd) s = .next t ∧ t.ended .saw 0x84 0 0x28 0x21 0 ∧ t.ch = s.ch) ∧
  (∀ (cmd : W32) (f : Nat → Bytes) (s : State), s.canRun .saw = true → s.sawClear = true →
    (∀ y ∈ s.bucketChans (cmdChix cmd / 1024), ∃ (e : Nat) (en : Entry), s.resident y = some e ∧ s.entry e = some en ∧
      f y = bucketString y en.cfg0 en.pinned en.window en.sci (s.groupOf y)) →
    ∃ t : State, exec (.bucketDigest cmd) s = .next t ∧ t.ended .saw 0x84 0 0 0x30 0 ∧ t.ch = s.ch ∧
      t.sawArg 2 = BitVec.ofNat 32 (s.bucketChans (cmdChix cmd / 1024)).length ∧ t.sawArg 3 = 0 ∧
      (s.bucketChans (cmdChix cmd / 1024) = [] → t.sawArg 0 = 0 ∧ t.sawArg 1 = 0) ∧
      (s.bucketChans (cmdChix cmd / 1024) ≠ [] →
        t.sawArg 0 = lo32 (crc64 ((s.bucketChans (cmdChix cmd / 1024)).map f).flatten).toNat ∧
        t.sawArg 1 = hi32 (crc64 ((s.bucketChans (cmdChix cmd / 1024)).map f).flatten).toNat))

/-- SLOT_INSTALL that passes its checks goes to KEYX, one that fails a check ends with its code, one without a root key with
NO_ROOT; SLOT_ERASE of a LIVE slot that no frame holds leaves it ERASED and empty with GEN raised. (06_channels_and_keys.md)
-/
def Obligations.SlotsInstalledAndErased : Prop :=
  (∀ (cmd : W32) (e : Nat) (en : Entry) (s : State), s.canRun .keyw = true → s.domsUp [1, 44] = true →
    s.domsLost [1, 44] = false → s.installing = false → s.sys.rootKey.isSome = true → s.sys.zero = .no →
    s.kekWaits .install = false → s.whereIs (cmdChix cmd) = .here e en →
    (s.slot (vslotOf e (cmdB28 cmd))).unsettled = false →
    (s.installCheck e en (cmdB28 cmd) = none →
      ∃ u : State, exec (.slotInstall cmd) s = .next u.carryOn ∧ (u.hdr .keyw).busy = true ∧ u.ch = s.ch ∧
        u.keyx.queue = s.keyx.queue ++ [.install]) ∧
    (∀ r, s.installCheck e en (cmdB28 cmd) = some r →
      ∃ t : State, exec (.slotInstall cmd) s = .next t ∧ t.ch = s.ch ∧ t.keyx = s.keyx ∧
        t.ended .keyw 0x84 0 r 1 ((s.slot (vslotOf e (cmdB28 cmd))).gen.toNat * 256))) ∧
  (∀ (cmd : W32) (s : State), s.canRun .keyw = true → s.installing = false → s.sys.rootKey = none →
    ∃ (t : State) (g : Nat), exec (.slotInstall cmd) s = .next t ∧ t.ch = s.ch ∧ t.ended .keyw 0x84 0 0x19 1 g) ∧
  (∀ (cmd : W32) (e : Nat) (en : Entry) (s : State), s.canRun .keyw = true → s.domUp 1 = true →
    s.domsLost [1] = false → s.installing = false → s.whereIs (cmdChix cmd) = .here e en →
    (s.slot (vslotOf e (cmdB28 cmd))).st = .live → (s.slot (vslotOf e (cmdB28 cmd))).clearing = false →
    s.holders (vslotOf e (cmdB28 cmd)) (s.slot (vslotOf e (cmdB28 cmd))).gen = false →
    ∃ u : State, exec (.slotErase cmd) s = .next u.carryOn ∧ (u.slot (vslotOf e (cmdB28 cmd))).st = .erased ∧
      (u.slot (vslotOf e (cmdB28 cmd))).key = [] ∧ (u.slot (vslotOf e (cmdB28 cmd))).h = [] ∧
      (u.slot (vslotOf e (cmdB28 cmd))).gen = (s.slot (vslotOf e (cmdB28 cmd))).gen + 1 ∧
      u.ended .keyw 0x84 0 0 2 (((s.slot (vslotOf e (cmdB28 cmd))).gen + 1).toNat * 256)) ∧
  (∀ (cmd : W32) (s : State), s.canRun .keyw = true → s.domUp 1 = true → s.domsLost [1] = false → s.installing = false →
    s.whereIs (cmdChix cmd) = .unknown →
    ∃ t : State, exec (.slotErase cmd) s = .next t ∧ t.ch = s.ch ∧ t.ended .keyw 0x84 0 0x03 2 0)

/-- JNL_READ shows a live entry, JNL_DROP invalidates that of an unknown channel; HSW_READ and HSW_WRITE go to the store;
KEY_NEW takes a seed word and KEY_ERASE erases, neither under MARCH; WCB_FLUSH ends with nothing dirty; KEY_QUERY shows the
selector. (07_nonce_leases.md, 10_store_encryption.md) -/
def Obligations.StoreAndJournalCommands : Prop :=
  (∀ (cmd : W32) (v : Live) (s : State), s.canRun .lease = true → s.dropping = false → s.lease.scanDone = true →
    s.lease.live (cmdChix cmd) = some v →
    ∃ t : State, exec (.jnlRead cmd) s = .next t ∧ t.ended .lease 0xC4 6 0 1 0 ∧ t.lease = s.lease ∧
      t.roW .lease 0xCC = lo32 v.ent.ceilA ∧ t.roW .lease 0xD0 = hi32 v.ent.ceilA ∧
      t.roW .lease 0xD4 = lo32 v.ent.ceilB ∧ t.roW .lease 0xD8 = hi32 v.ent.ceilB) ∧
  (∀ (cmd : W32) (s : State), s.canRun .lease = true → s.dropping = false → s.lease.scanDone = true →
    s.lease.live (cmdChix cmd) = none →
    ∃ t : State, exec (.jnlRead cmd) s = .next t ∧ t.ended .lease 0xC4 6 0x03 1 0 ∧ t.lease = s.lease) ∧
  (∀ (cmd : W32) (v : Live) (s : State), s.canRun .lease = true → s.dropping = false → s.lease.scanDone = true →
    s.known (cmdChix cmd) = false → s.lease.live (cmdChix cmd) = some v →
    (((s.lease.content (cmdChix cmd)).half false).isSome = true ∨ ((s.lease.content (cmdChix cmd)).half true).isSome = true) →
    ∃ u : State, exec (.jnlDrop cmd) s = .next u.carryOn ∧ (u.hdr .lease).busy = true ∧
      u.lease.todo = s.lease.todo ++ [{
        chix := cmdChix cmd
        why := .inval (((s.lease.content (cmdChix cmd)).half false).map (·.1))
          (((s.lease.content (cmdChix cmd)).half true).map (·.1)) true }]) ∧
  (∀ (cmd : W32) (s : State), s.canRun .lease = true → s.dropping = false → s.lease.scanDone = true →
    s.known (cmdChix cmd) = true →
    ∃ t : State, exec (.jnlDrop cmd) s = .next t ∧ t.ended .lease 0xC4 6 0x20 2 0 ∧ t.lease = s.lease) ∧
  (∀ (cmd : W32) (s : State), s.canRun .store = true → s.hostBusy = false → s.domUp 45 = true →
    (s.dom 45).unavail = false → fld cmd 31 29 = 0 → fld cmd 15 8 = 0 →
    (s.hswAddr % 64 = 0 →
      (∃ u : State, exec (.hswRead cmd) s = .next u.carryOn ∧ (u.hdr .store).busy = true ∧
        u.store.wait = [{
          ser := s.store.nextId, wr := false, line := s.hswAddr / 64, kix := cmdSel cmd, who := .host }]) ∧
      (s.hswMask ≠ 0 → ∃ u : State, exec (.hswWrite cmd) s = .next u.carryOn ∧ (u.hdr .store).busy = true ∧
        u.store.wait = [{
          ser := s.store.nextId, wr := true, line := s.hswAddr / 64, kix := cmdSel cmd, who := .host
          data := s.getBytes .store 0x100 16, mask := s.hswMask }]) ∧
      (s.hswMask = 0 → ∃ t : State, exec (.hswWrite cmd) s = .next t ∧ t.ended .store 0xD4 8 0 2 0)) ∧
    (s.hswAddr % 64 ≠ 0 → ∀ p ∈ [(Instr.hswRead cmd, 1), (.hswWrite cmd, 2)],
      ∃ t : State, exec p.1 s = .next t ∧ t.ended .store 0xD4 8 0x02 p.2 0 ∧
        (p.2 = 1 → ∀ i, i < 16 → t.cfg .store (0x100 + 4 * i) = 0)) ∧
    ((s.large = true ∨ cmdSel cmd < 16) → s.marchHolds (cmdSel cmd) = false →
      (∀ (w : W128) (rest : List W128), s.seedsFree = w :: rest → s.store.masterLost = false →
        ∃ u : State, exec (.keyNew cmd) s = .next u.carryOn ∧ u.ended .store 0xD4 8 0 3 0 ∧
          u.sys.seeds = s.sys.seeds.drop 1 ∧
          u.keySel (cmdSel cmd) = { seed := some w, zkeep := cmdB28 cmd } ∧
          (u.alwaysHeld (cmdSel cmd) = true ∨ cmdSel cmd ∈ u.store.cache) ∧
          ∀ w' ∈ u.store.wcb, w'.sel = cmdSel cmd → w'.filling = true ∧ w'.drop = true) ∧
      (s.sys.seeds = [] → s.sys.rnErr = true →
        ∃ t : State, exec (.keyNew cmd) s = .next t ∧ t.ended .store 0xD4 8 0x26 3 0 ∧ t.store.sels = s.store.sels) ∧
      (∃ u : State, exec (.keyErase cmd) s = .next u.carryOn ∧ u.ended .store 0xD4 8 0 4 0 ∧
        u.keySel (cmdSel cmd) = {} ∧ cmdSel cmd ∉ u.store.cache ∧
        ∀ w ∈ u.store.wcb, w.sel = cmdSel cmd → w.filling = true ∧ w.drop = true)) ∧
    ((s.large = true ∨ cmdSel cmd < 16) → s.marchHolds (cmdSel cmd) = true →
      ∀ p ∈ [(Instr.keyNew cmd, 3), (.keyErase cmd, 4)],
      ∃ t : State, exec p.1 s = .next t ∧ t.ended .store 0xD4 8 0x25 p.2 0 ∧ t.store.sels = s.store.sels) ∧
    (s.wcbDirty = false → ∃ t : State, exec (.wcbFlush cmd) s = .next t ∧ t.ended .store 0xD4 8 0 5 0) ∧
    ((s.large = true ∨ cmdSel cmd < 16) → ∃ t : State, exec (.keyQuery cmd) s = .next t ∧
      t.ended .store 0xD4 8 0 6 (b2n (s.keySel (cmdSel cmd)).seed.isSome + 2 * b2n (s.keySel (cmdSel cmd)).zkeep +
        4 * b2n (decide (cmdSel cmd = s.store.march.tgt) && s.marchHolds (cmdSel cmd)) +
        8 * b2n (decide (cmdSel cmd = s.store.march.tgt) && s.store.march.split))))

/-- A commit that would change EN of PORT_CFG from 0 to 1 while READY of GLB_FLAGS is 0 is refused, at the write of COMMIT and
again at its application: COMMIT_REFUSED is set, COMMIT_PENDING is clear, no field is applied, PG_EPOCH and the staged copies
stay. (R391.) -/
def Obligations.PortEnableRefused : Prop :=
  (∀ (page : BitVec 8) (n : Nat) (s : State), pageOf page.toNat = some (.port n) → s.free (.port n) = true →
    (s.hdr (.port n)).pending = false → (s.hdr (.port n)).dirty = true → s.portEn n = false →
    bit (s.stg (.port n) 0x80) 8 = true → bit (s.flags .glb 0x40) 0 = false →
    ∃ u : State, exec (.pgCommit page) s = .next u.settle ∧ (u.hdr (.port n)).refused = true ∧
      (u.hdr (.port n)).pending = false ∧ (u.hdr (.port n)).epoch = (s.hdr (.port n)).epoch ∧ u.regs.cfg = s.regs.cfg ∧
      u.regs.staged = s.regs.staged ∧ u.counted 115 = s.counted 115 + 1) ∧
  (∀ (page : BitVec 8) (n : Nat) (s : State), pageOf page.toNat = some (.port n) → (s.hdr (.port n)).pending = true →
    s.resetOn (Page.port n).part = false → s.commitReady (.port n) = true → s.portEn n = false →
    bit (s.stg (.port n) 0x80) 8 = true → bit (s.flags .glb 0x40) 0 = false →
    ∃ u : State, exec (.commitApply page) s = .next u.settle ∧ (u.hdr (.port n)).refused = true ∧
      (u.hdr (.port n)).pending = false ∧ (u.hdr (.port n)).epoch = (s.hdr (.port n)).epoch ∧ u.regs.cfg = s.regs.cfg ∧
      u.regs.staged = s.regs.staged ∧ u.counted 115 = s.counted 115 + 1)

/-- A commit that nothing refuses is pending with the frames it waits for, one of a page without staged writes has no effect;
at its boundary the staged values of a port come into force, PG_EPOCH counts and COMMIT_PENDING clears; the digest of all
pages follows a change. (15_register_conventions.md, 16_register_map.md) -/
def Obligations.PagesCommit : Prop :=
  (∀ (page : BitVec 8) (p : Page) (s : State), pageOf page.toNat = some p → s.free p = true → (s.hdr p).pending = false →
    (s.hdr p).dirty = true → s.commitRefuses p = false →
    ∃ u : State, exec (.pgCommit page) s = .next (u.settle.when p.aoPosted (·.setBusy p true)) ∧
      (u.hdr p).pending = true ∧ (u.hdr p).waits = s.commitFrames p ∧ u.regs.cfg = s.regs.cfg ∧
      u.regs.staged = s.regs.staged) ∧
  (∀ (page : BitVec 8) (p : Page) (s : State), pageOf page.toNat = some p → s.free p = true → (s.hdr p).pending = false →
    (s.hdr p).dirty = false →
    ∃ u : State, exec (.pgCommit page) s = .next (u.settle.when p.aoPosted (·.setBusy p true)) ∧ u.regs = s.regs) ∧
  (∀ (page : BitVec 8) (n : Nat) (s : State), pageOf page.toNat = some (.port n) → (s.hdr (.port n)).pending = true →
    s.resetOn (Page.port n).part = false → s.commitReady (.port n) = true → s.commitRefuses (.port n) = false →
    ∃ u : State, exec (.commitApply page) s = .next u.settle ∧ (u.hdr (.port n)).pending = false ∧
      (u.hdr (.port n)).epoch = (s.hdr (.port n)).epoch + 1 ∧ u.counted 116 = s.counted 116 + 1 ∧
      u.cfg (.port n) 0x80 = mergeBits 0x107 (s.stg (.port n) 0x80) (s.cfg (.port n) 0x80) ∧
      u.cfg (.port n) 0x84 = mergeBits 0x7FFF007F (s.stg (.port n) 0x84) (s.cfg (.port n) 0x84)) ∧
  (∀ s : State, s.regs.digestStale = true → 4 ≤ s.sys.phase → s.resetOn .glob = false →
    ∃ t : State, exec .glbDigestRecompute s = .next t ∧ t.regs.glbDigest = s.glbDigestNow ∧
      t.regs.glbDigCnt = s.regs.glbDigCnt + 1 ∧ t.regs.digestStale = false ∧
      (s.glbDigestNow ≠ s.regs.glbDigest → t.flag .glb 0x40 3 = true ∧ t.counted 124 = s.counted 124 + 1))

/-- PCNT_CLR, GRP_GO, CAL_SEL, CAL_WR (these two at once while the calendar's domain serves, else once it has been woken),
BYP_SEL, BYP_WR and a counter preset have their effect; a 4 B write of a staged
register changes its staged copy only; a misaligned write is answered with an error and has no effect.
(15_register_conventions.md, 16_register_map.md, 17_counters.md, 09_channel_paging.md) -/
def Obligations.RegistersWritten : Prop :=
  (∀ (port : Fin 32) (s : State), s.free (.port port) = true →
    exec (.pcntClrSelected port) s = .next { s with
      out := [.cpDone false]
      cnt := { s.cnt with
        port := Tab.set 0 s.cnt.port (port * 128 + s.pcntSel port) 0
        portPoison := delNat s.cnt.portPoison (port * 128 + s.pcntSel port) } }) ∧
  (∀ (port : Fin 32) (s : State), s.free (.port port) = true →
    ∃ t : State, exec (.pcntClrAll port) s = .next t ∧ (∀ k, k < 128 → Tab.get 0 t.cnt.port (port * 128 + k) = 0) ∧
      ∀ k, k / 128 ≠ port → Tab.get 0 t.cnt.port k = Tab.get 0 s.cnt.port k) ∧
  (∀ s : State, s.free .pager = true → s.pager.jobs.length < 8 →
    exec .grpGo s = .next (State.settle { s with
      out := [.cpDone false]
      pager := { s.pager with jobs := s.pager.jobs ++ [{
        evict := bit (s.cfg .pager 0xA8) 28, group := BitVec.ofNat 12 (fld (s.cfg .pager 0xA8) 27 16)
        mask := BitVec.ofNat 12 (fld (s.cfg .pager 0xA8) 11 0) }] } })) ∧
  (∀ s : State, s.free .pager = true → s.domUp 53 = true →
    exec .calWr s = .next { s with
      out := [.cpDone false]
      pager := { s.pager with cal := Tab.set 0 s.pager.cal (fld (s.cfg .pager 0xC0) 7 0) s.calData } }) ∧
  (∀ s : State, s.free .pager = true → s.domUp 53 = false →
    exec .calWr s = .next (State.settle { s with
      out := [.cpDone false]
      pager := { s.pager with calPut := s.pager.calPut ++ [(fld (s.cfg .pager 0xC0) 7 0, s.calData)] } })) ∧
  (∀ (data : W32) (s : State), s.free .pager = true → s.domUp 53 = false →
    ∃ u : State, exec (.calSel data) s = .next u.settle ∧ u.pager = { s.pager with calRead := true } ∧
      u.cfg .pager 0xC0 = BitVec.ofNat 32 (fld data 7 0)) ∧
  (∀ (data : W32) (s : State), s.free .pager = true → s.domUp 53 = true →
    ∃ t : State, exec (.calSel data) s = .next t ∧ t.pager = s.pager ∧
      t.cfg .pager 0xC0 = BitVec.ofNat 32 (fld data 7 0) ∧ t.calData = s.calEntry (fld data 7 0)) ∧
  (∀ (data : W32) (s : State), s.free .byp = true →
    ∃ t : State, exec (.bypSel data) s = .next t ∧ t.dp = s.dp ∧ t.cfg .byp 0x80 = BitVec.ofNat 32 (fld data 7 0) ∧
      t.bypData = bypMask (s.bypCopy (fld data 7 0))) ∧
  (∀ s : State, s.free .byp = true → (s.hdr .byp).unlocked = true → (s.hdr .byp).pending = false →
    ∃ t : State, exec .bypWr s = .next t ∧ t.bypCopy (fld (s.cfg .byp 0x80) 7 0) = s.bypData ∧ t.dp.byp = s.dp.byp ∧
      (t.hdr .byp).unlocked = false ∧ (t.hdr .byp).dirty = true) ∧
  (∀ (ctr : BitVec 9) (data : W32) (s : State), s.free (evcPage ctr.toNat) = true →
    ∃ t : State, exec (.evcPreset ctr data) s = .next t ∧ t.cnt.evc = s.cnt.evc ∧
      Tab.get none t.cnt.preset ctr.toNat = some (BitVec.ofNat 48 (fld data 15 0 * 2 ^ 32 +
        (Tab.get 0 s.regs.held ((evcPage ctr.toNat).at (0x100 + 8 * (ctr.toNat % 64)))).toNat))) ∧
  (∀ (addr : BitVec 21) (n : Nat) (data : W64) (s : State), pageOf (addr.toNat / 0x1000) = some (.port n) →
    addr.toNat % 0x1000 = 0x80 → addr.toNat < 0x100000 → s.free (.port n) = true → (s.hdr (.port n)).pending = false →
    ∃ u : State, exec (.registerWrite addr 2 data) s = .next u.settle ∧ u.out = [.cpDone false] ∧
      u.stg (.port n) 0x80 = mergeBits 0x107 (lo32 data.toNat) (s.stg (.port n) 0x80) ∧
      u.regs.cfg = s.regs.cfg ∧ (u.hdr (.port n)).dirty = true) ∧
  (∀ (addr : BitVec 21) (size : BitVec 2) (data : W64) (s : State), s.cpUp = true → addr.toNat % 2 ^ size.toNat ≠ 0 →
    ∃ u : State, exec (.registerWrite addr size data) s = .next u.settle ∧ u.out = [.cpDone true] ∧ u.regs = s.regs ∧
      u.counted 117 = s.counted 117 + 1)

/-- A read of EQX_LOG_LO removes the oldest entry and latches its other word; a read of a LO register, of any size, answers
its addressed bytes and latches its HI register; a misaligned read is an error; the unlock value unlocks its page, any other
is a lock violation, and the unlock expires. (15_register_conventions.md, 08_equinox_key_change.md) -/
def Obligations.RegistersRead : Prop :=
  (∀ (e : W32 × W32) (rest : List (W32 × W32)) (s : State), s.cpUp = true → s.resetOn .glob = false →
    s.ch.eqxLog = e :: rest →
    ∃ t : State, exec .eqxLogRead s = .next t ∧ t.out = [.cpData false e.1] ∧ t.ch = { s.ch with eqxLog := rest } ∧
      t.readReg .glb 0x20C = e.2) ∧
  (∀ s : State, s.cpUp = true → s.resetOn .glob = false → s.ch.eqxLog = [] →
    ∃ t : State, exec .eqxLogRead s = .next t ∧ t.out = [.cpData false 0] ∧ t.ch = s.ch) ∧
  (∀ (addr : ReadAt) (a : Nat) (p : Page) (h : Nat) (s : State), s.cpUp = true →
    addr.addr.toNat % 2 ^ addr.size.toNat = 0 → a = addr.addr.toNat / 4 * 4 → a < 0x100000 → pageOf (a / 0x1000) = some p →
    hiOf p (a % 0x1000) = some h → loOf p (a % 0x1000) = none →
    ∃ t : State, exec (.loRegisterRead addr) s = .next t ∧ Tab.get 0 t.regs.latch (p.at h) = s.value p h ∧
      (addr.size = 0 → t.out = [.cpData false (s.value p (a % 0x1000) &&& 0xFF#32 <<< (8 * (addr.addr.toNat % 4)))]) ∧
      (addr.size = 1 → t.out = [.cpData false (s.value p (a % 0x1000) &&& 0xFFFF#32 <<< (8 * (addr.addr.toNat % 4)))]) ∧
      (addr.size = 2 → t.out = [.cpData false (s.value p (a % 0x1000))]) ∧
      (addr.size = 3 → h = a % 0x1000 + 4 → loOf p h = some (a % 0x1000) →
        t.out = [.cpData false (s.value p (a % 0x1000)), .cpData false (s.value p h)])) ∧
  (∀ (addr : ReadAt) (s : State), s.cpUp = true → addr.addr.toNat % 2 ^ addr.size.toNat ≠ 0 →
    ∃ t : State, exec (.loRegisterRead addr) s = .next t ∧ t.out = [.cpData true 0] ∧ t.regs = s.regs ∧
      t.counted 117 = s.counted 117 + 1) ∧
  (∀ (page : BitVec 8) (p : Page) (s : State), s.cpUp = true → pageOf page.toNat = some p →
    ∃ t : State, exec (.pgUnlock page (0xC1E00000 + BitVec.ofNat 32 p.num)) s = .next t ∧ (t.hdr p).unlocked = true ∧
      (t.hdr p).lockViol = (s.hdr p).lockViol ∧ t.regs.cfg = s.regs.cfg) ∧
  (∀ (page : BitVec 8) (data : W32) (p : Page) (s : State), s.cpUp = true → pageOf page.toNat = some p →
    data ≠ 0xC1E00000 + BitVec.ofNat 32 p.num →
    ∃ t : State, exec (.pgUnlock page data) s = .next t ∧ (t.hdr p).unlocked = (s.hdr p).unlocked ∧
      (t.hdr p).lockViol = true ∧ t.counted 112 = s.counted 112 + 1) ∧
  (∀ (page : BitVec 8) (p : Page) (s : State), pageOf page.toNat = some p →
    ∃ t : State, exec (.unlockExpiry page) s = .next t ∧ (t.hdr p).unlocked = false ∧ (t.hdr p).epoch = (s.hdr p).epoch ∧
      t.regs.cfg = s.regs.cfg)
end

