-- ==== Sys2Proof/Laws/State.lean ====
section
/-! SUPPORT. One lemma for each part of State and each named update of it, so that no proof unfolds a record update. -/
namespace Sys2Proof.Machine

@[simp] theorem modSys_sys (s : State) (f : Sys → Sys) : (s.modSys f).sys = f s.sys := rfl
@[simp] theorem modSys_regs (s : State) (f : Sys → Sys) : (s.modSys f).regs = s.regs := rfl
@[simp] theorem modSys_dp (s : State) (f : Sys → Sys) : (s.modSys f).dp = s.dp := rfl
@[simp] theorem modSys_slices (s : State) (f : Sys → Sys) : (s.modSys f).slices = s.slices := rfl
@[simp] theorem modSys_ch (s : State) (f : Sys → Sys) : (s.modSys f).ch = s.ch := rfl
@[simp] theorem modSys_lease (s : State) (f : Sys → Sys) : (s.modSys f).lease = s.lease := rfl
@[simp] theorem modSys_pager (s : State) (f : Sys → Sys) : (s.modSys f).pager = s.pager := rfl
@[simp] theorem modSys_keyx (s : State) (f : Sys → Sys) : (s.modSys f).keyx = s.keyx := rfl
@[simp] theorem modSys_store (s : State) (f : Sys → Sys) : (s.modSys f).store = s.store := rfl
@[simp] theorem modSys_cnt (s : State) (f : Sys → Sys) : (s.modSys f).cnt = s.cnt := rfl
@[simp] theorem modSys_pwr (s : State) (f : Sys → Sys) : (s.modSys f).pwr = s.pwr := rfl
@[simp] theorem modSys_flt (s : State) (f : Sys → Sys) : (s.modSys f).flt = s.flt := rfl
@[simp] theorem modSys_pair (s : State) (f : Sys → Sys) : (s.modSys f).pair = s.pair := rfl
@[simp] theorem modSys_freeCtr (s : State) (f : Sys → Sys) : (s.modSys f).freeCtr = s.freeCtr := rfl
@[simp] theorem modSys_out (s : State) (f : Sys → Sys) : (s.modSys f).out = s.out := rfl
@[simp] theorem modSys_pending (s : State) (f : Sys → Sys) : (s.modSys f).pending = s.pending := rfl
@[simp] theorem modRegs_sys (s : State) (f : Regs → Regs) : (s.modRegs f).sys = s.sys := rfl
@[simp] theorem modRegs_regs (s : State) (f : Regs → Regs) : (s.modRegs f).regs = f s.regs := rfl
@[simp] theorem modRegs_dp (s : State) (f : Regs → Regs) : (s.modRegs f).dp = s.dp := rfl
@[simp] theorem modRegs_slices (s : State) (f : Regs → Regs) : (s.modRegs f).slices = s.slices := rfl
@[simp] theorem modRegs_ch (s : State) (f : Regs → Regs) : (s.modRegs f).ch = s.ch := rfl
@[simp] theorem modRegs_lease (s : State) (f : Regs → Regs) : (s.modRegs f).lease = s.lease := rfl
@[simp] theorem modRegs_pager (s : State) (f : Regs → Regs) : (s.modRegs f).pager = s.pager := rfl
@[simp] theorem modRegs_keyx (s : State) (f : Regs → Regs) : (s.modRegs f).keyx = s.keyx := rfl
@[simp] theorem modRegs_store (s : State) (f : Regs → Regs) : (s.modRegs f).store = s.store := rfl
@[simp] theorem modRegs_cnt (s : State) (f : Regs → Regs) : (s.modRegs f).cnt = s.cnt := rfl
@[simp] theorem modRegs_pwr (s : State) (f : Regs → Regs) : (s.modRegs f).pwr = s.pwr := rfl
@[simp] theorem modRegs_flt (s : State) (f : Regs → Regs) : (s.modRegs f).flt = s.flt := rfl
@[simp] theorem modRegs_pair (s : State) (f : Regs → Regs) : (s.modRegs f).pair = s.pair := rfl
@[simp] theorem modRegs_freeCtr (s : State) (f : Regs → Regs) : (s.modRegs f).freeCtr = s.freeCtr := rfl
@[simp] theorem modRegs_out (s : State) (f : Regs → Regs) : (s.modRegs f).out = s.out := rfl
@[simp] theorem modRegs_pending (s : State) (f : Regs → Regs) : (s.modRegs f).pending = s.pending := rfl
@[simp] theorem modDp_sys (s : State) (f : Dp → Dp) : (s.modDp f).sys = s.sys := rfl
@[simp] theorem modDp_regs (s : State) (f : Dp → Dp) : (s.modDp f).regs = s.regs := rfl
@[simp] theorem modDp_dp (s : State) (f : Dp → Dp) : (s.modDp f).dp = f s.dp := rfl
@[simp] theorem modDp_slices (s : State) (f : Dp → Dp) : (s.modDp f).slices = s.slices := rfl
@[simp] theorem modDp_ch (s : State) (f : Dp → Dp) : (s.modDp f).ch = s.ch := rfl
@[simp] theorem modDp_lease (s : State) (f : Dp → Dp) : (s.modDp f).lease = s.lease := rfl
@[simp] theorem modDp_pager (s : State) (f : Dp → Dp) : (s.modDp f).pager = s.pager := rfl
@[simp] theorem modDp_keyx (s : State) (f : Dp → Dp) : (s.modDp f).keyx = s.keyx := rfl
@[simp] theorem modDp_store (s : State) (f : Dp → Dp) : (s.modDp f).store = s.store := rfl
@[simp] theorem modDp_cnt (s : State) (f : Dp → Dp) : (s.modDp f).cnt = s.cnt := rfl
@[simp] theorem modDp_pwr (s : State) (f : Dp → Dp) : (s.modDp f).pwr = s.pwr := rfl
@[simp] theorem modDp_flt (s : State) (f : Dp → Dp) : (s.modDp f).flt = s.flt := rfl
@[simp] theorem modDp_pair (s : State) (f : Dp → Dp) : (s.modDp f).pair = s.pair := rfl
@[simp] theorem modDp_freeCtr (s : State) (f : Dp → Dp) : (s.modDp f).freeCtr = s.freeCtr := rfl
@[simp] theorem modDp_out (s : State) (f : Dp → Dp) : (s.modDp f).out = s.out := rfl
@[simp] theorem modDp_pending (s : State) (f : Dp → Dp) : (s.modDp f).pending = s.pending := rfl
@[simp] theorem modSlices_sys (s : State) (f : Slices → Slices) : (s.modSlices f).sys = s.sys := rfl
@[simp] theorem modSlices_regs (s : State) (f : Slices → Slices) : (s.modSlices f).regs = s.regs := rfl
@[simp] theorem modSlices_dp (s : State) (f : Slices → Slices) : (s.modSlices f).dp = s.dp := rfl
@[simp] theorem modSlices_slices (s : State) (f : Slices → Slices) : (s.modSlices f).slices = f s.slices := rfl
@[simp] theorem modSlices_ch (s : State) (f : Slices → Slices) : (s.modSlices f).ch = s.ch := rfl
@[simp] theorem modSlices_lease (s : State) (f : Slices → Slices) : (s.modSlices f).lease = s.lease := rfl
@[simp] theorem modSlices_pager (s : State) (f : Slices → Slices) : (s.modSlices f).pager = s.pager := rfl
@[simp] theorem modSlices_keyx (s : State) (f : Slices → Slices) : (s.modSlices f).keyx = s.keyx := rfl
@[simp] theorem modSlices_store (s : State) (f : Slices → Slices) : (s.modSlices f).store = s.store := rfl
@[simp] theorem modSlices_cnt (s : State) (f : Slices → Slices) : (s.modSlices f).cnt = s.cnt := rfl
@[simp] theorem modSlices_pwr (s : State) (f : Slices → Slices) : (s.modSlices f).pwr = s.pwr := rfl
@[simp] theorem modSlices_flt (s : State) (f : Slices → Slices) : (s.modSlices f).flt = s.flt := rfl
@[simp] theorem modSlices_pair (s : State) (f : Slices → Slices) : (s.modSlices f).pair = s.pair := rfl
@[simp] theorem modSlices_freeCtr (s : State) (f : Slices → Slices) : (s.modSlices f).freeCtr = s.freeCtr := rfl
@[simp] theorem modSlices_out (s : State) (f : Slices → Slices) : (s.modSlices f).out = s.out := rfl
@[simp] theorem modSlices_pending (s : State) (f : Slices → Slices) : (s.modSlices f).pending = s.pending := rfl
@[simp] theorem modCh_sys (s : State) (f : Chans → Chans) : (s.modCh f).sys = s.sys := rfl
@[simp] theorem modCh_regs (s : State) (f : Chans → Chans) : (s.modCh f).regs = s.regs := rfl
@[simp] theorem modCh_dp (s : State) (f : Chans → Chans) : (s.modCh f).dp = s.dp := rfl
@[simp] theorem modCh_slices (s : State) (f : Chans → Chans) : (s.modCh f).slices = s.slices := rfl
@[simp] theorem modCh_ch (s : State) (f : Chans → Chans) : (s.modCh f).ch = f s.ch := rfl
@[simp] theorem modCh_lease (s : State) (f : Chans → Chans) : (s.modCh f).lease = s.lease := rfl
@[simp] theorem modCh_pager (s : State) (f : Chans → Chans) : (s.modCh f).pager = s.pager := rfl
@[simp] theorem modCh_keyx (s : State) (f : Chans → Chans) : (s.modCh f).keyx = s.keyx := rfl
@[simp] theorem modCh_store (s : State) (f : Chans → Chans) : (s.modCh f).store = s.store := rfl
@[simp] theorem modCh_cnt (s : State) (f : Chans → Chans) : (s.modCh f).cnt = s.cnt := rfl
@[simp] theorem modCh_pwr (s : State) (f : Chans → Chans) : (s.modCh f).pwr = s.pwr := rfl
@[simp] theorem modCh_flt (s : State) (f : Chans → Chans) : (s.modCh f).flt = s.flt := rfl
@[simp] theorem modCh_pair (s : State) (f : Chans → Chans) : (s.modCh f).pair = s.pair := rfl
@[simp] theorem modCh_freeCtr (s : State) (f : Chans → Chans) : (s.modCh f).freeCtr = s.freeCtr := rfl
@[simp] theorem modCh_out (s : State) (f : Chans → Chans) : (s.modCh f).out = s.out := rfl
@[simp] theorem modCh_pending (s : State) (f : Chans → Chans) : (s.modCh f).pending = s.pending := rfl
@[simp] theorem modLease_sys (s : State) (f : Lease → Lease) : (s.modLease f).sys = s.sys := rfl
@[simp] theorem modLease_regs (s : State) (f : Lease → Lease) : (s.modLease f).regs = s.regs := rfl
@[simp] theorem modLease_dp (s : State) (f : Lease → Lease) : (s.modLease f).dp = s.dp := rfl
@[simp] theorem modLease_slices (s : State) (f : Lease → Lease) : (s.modLease f).slices = s.slices := rfl
@[simp] theorem modLease_ch (s : State) (f : Lease → Lease) : (s.modLease f).ch = s.ch := rfl
@[simp] theorem modLease_lease (s : State) (f : Lease → Lease) : (s.modLease f).lease = f s.lease := rfl
@[simp] theorem modLease_pager (s : State) (f : Lease → Lease) : (s.modLease f).pager = s.pager := rfl
@[simp] theorem modLease_keyx (s : State) (f : Lease → Lease) : (s.modLease f).keyx = s.keyx := rfl
@[simp] theorem modLease_store (s : State) (f : Lease → Lease) : (s.modLease f).store = s.store := rfl
@[simp] theorem modLease_cnt (s : State) (f : Lease → Lease) : (s.modLease f).cnt = s.cnt := rfl
@[simp] theorem modLease_pwr (s : State) (f : Lease → Lease) : (s.modLease f).pwr = s.pwr := rfl
@[simp] theorem modLease_flt (s : State) (f : Lease → Lease) : (s.modLease f).flt = s.flt := rfl
@[simp] theorem modLease_pair (s : State) (f : Lease → Lease) : (s.modLease f).pair = s.pair := rfl
@[simp] theorem modLease_freeCtr (s : State) (f : Lease → Lease) : (s.modLease f).freeCtr = s.freeCtr := rfl
@[simp] theorem modLease_out (s : State) (f : Lease → Lease) : (s.modLease f).out = s.out := rfl
@[simp] theorem modLease_pending (s : State) (f : Lease → Lease) : (s.modLease f).pending = s.pending := rfl
@[simp] theorem modPager_sys (s : State) (f : Pager → Pager) : (s.modPager f).sys = s.sys := rfl
@[simp] theorem modPager_regs (s : State) (f : Pager → Pager) : (s.modPager f).regs = s.regs := rfl
@[simp] theorem modPager_dp (s : State) (f : Pager → Pager) : (s.modPager f).dp = s.dp := rfl
@[simp] theorem modPager_slices (s : State) (f : Pager → Pager) : (s.modPager f).slices = s.slices := rfl
@[simp] theorem modPager_ch (s : State) (f : Pager → Pager) : (s.modPager f).ch = s.ch := rfl
@[simp] theorem modPager_lease (s : State) (f : Pager → Pager) : (s.modPager f).lease = s.lease := rfl
@[simp] theorem modPager_pager (s : State) (f : Pager → Pager) : (s.modPager f).pager = f s.pager := rfl
@[simp] theorem modPager_keyx (s : State) (f : Pager → Pager) : (s.modPager f).keyx = s.keyx := rfl
@[simp] theorem modPager_store (s : State) (f : Pager → Pager) : (s.modPager f).store = s.store := rfl
@[simp] theorem modPager_cnt (s : State) (f : Pager → Pager) : (s.modPager f).cnt = s.cnt := rfl
@[simp] theorem modPager_pwr (s : State) (f : Pager → Pager) : (s.modPager f).pwr = s.pwr := rfl
@[simp] theorem modPager_flt (s : State) (f : Pager → Pager) : (s.modPager f).flt = s.flt := rfl
@[simp] theorem modPager_pair (s : State) (f : Pager → Pager) : (s.modPager f).pair = s.pair := rfl
@[simp] theorem modPager_freeCtr (s : State) (f : Pager → Pager) : (s.modPager f).freeCtr = s.freeCtr := rfl
@[simp] theorem modPager_out (s : State) (f : Pager → Pager) : (s.modPager f).out = s.out := rfl
@[simp] theorem modPager_pending (s : State) (f : Pager → Pager) : (s.modPager f).pending = s.pending := rfl
@[simp] theorem modKeyx_sys (s : State) (f : Keyx → Keyx) : (s.modKeyx f).sys = s.sys := rfl
@[simp] theorem modKeyx_regs (s : State) (f : Keyx → Keyx) : (s.modKeyx f).regs = s.regs := rfl
@[simp] theorem modKeyx_dp (s : State) (f : Keyx → Keyx) : (s.modKeyx f).dp = s.dp := rfl
@[simp] theorem modKeyx_slices (s : State) (f : Keyx → Keyx) : (s.modKeyx f).slices = s.slices := rfl
@[simp] theorem modKeyx_ch (s : State) (f : Keyx → Keyx) : (s.modKeyx f).ch = s.ch := rfl
@[simp] theorem modKeyx_lease (s : State) (f : Keyx → Keyx) : (s.modKeyx f).lease = s.lease := rfl
@[simp] theorem modKeyx_pager (s : State) (f : Keyx → Keyx) : (s.modKeyx f).pager = s.pager := rfl
@[simp] theorem modKeyx_keyx (s : State) (f : Keyx → Keyx) : (s.modKeyx f).keyx = f s.keyx := rfl
@[simp] theorem modKeyx_store (s : State) (f : Keyx → Keyx) : (s.modKeyx f).store = s.store := rfl
@[simp] theorem modKeyx_cnt (s : State) (f : Keyx → Keyx) : (s.modKeyx f).cnt = s.cnt := rfl
@[simp] theorem modKeyx_pwr (s : State) (f : Keyx → Keyx) : (s.modKeyx f).pwr = s.pwr := rfl
@[simp] theorem modKeyx_flt (s : State) (f : Keyx → Keyx) : (s.modKeyx f).flt = s.flt := rfl
@[simp] theorem modKeyx_pair (s : State) (f : Keyx → Keyx) : (s.modKeyx f).pair = s.pair := rfl
@[simp] theorem modKeyx_freeCtr (s : State) (f : Keyx → Keyx) : (s.modKeyx f).freeCtr = s.freeCtr := rfl
@[simp] theorem modKeyx_out (s : State) (f : Keyx → Keyx) : (s.modKeyx f).out = s.out := rfl
@[simp] theorem modKeyx_pending (s : State) (f : Keyx → Keyx) : (s.modKeyx f).pending = s.pending := rfl
@[simp] theorem modStore_sys (s : State) (f : Store → Store) : (s.modStore f).sys = s.sys := rfl
@[simp] theorem modStore_regs (s : State) (f : Store → Store) : (s.modStore f).regs = s.regs := rfl
@[simp] theorem modStore_dp (s : State) (f : Store → Store) : (s.modStore f).dp = s.dp := rfl
@[simp] theorem modStore_slices (s : State) (f : Store → Store) : (s.modStore f).slices = s.slices := rfl
@[simp] theorem modStore_ch (s : State) (f : Store → Store) : (s.modStore f).ch = s.ch := rfl
@[simp] theorem modStore_lease (s : State) (f : Store → Store) : (s.modStore f).lease = s.lease := rfl
@[simp] theorem modStore_pager (s : State) (f : Store → Store) : (s.modStore f).pager = s.pager := rfl
@[simp] theorem modStore_keyx (s : State) (f : Store → Store) : (s.modStore f).keyx = s.keyx := rfl
@[simp] theorem modStore_store (s : State) (f : Store → Store) : (s.modStore f).store = f s.store := rfl
@[simp] theorem modStore_cnt (s : State) (f : Store → Store) : (s.modStore f).cnt = s.cnt := rfl
@[simp] theorem modStore_pwr (s : State) (f : Store → Store) : (s.modStore f).pwr = s.pwr := rfl
@[simp] theorem modStore_flt (s : State) (f : Store → Store) : (s.modStore f).flt = s.flt := rfl
@[simp] theorem modStore_pair (s : State) (f : Store → Store) : (s.modStore f).pair = s.pair := rfl
@[simp] theorem modStore_freeCtr (s : State) (f : Store → Store) : (s.modStore f).freeCtr = s.freeCtr := rfl
@[simp] theorem modStore_out (s : State) (f : Store → Store) : (s.modStore f).out = s.out := rfl
@[simp] theorem modStore_pending (s : State) (f : Store → Store) : (s.modStore f).pending = s.pending := rfl
@[simp] theorem modCnt_sys (s : State) (f : Counts → Counts) : (s.modCnt f).sys = s.sys := rfl
@[simp] theorem modCnt_regs (s : State) (f : Counts → Counts) : (s.modCnt f).regs = s.regs := rfl
@[simp] theorem modCnt_dp (s : State) (f : Counts → Counts) : (s.modCnt f).dp = s.dp := rfl
@[simp] theorem modCnt_slices (s : State) (f : Counts → Counts) : (s.modCnt f).slices = s.slices := rfl
@[simp] theorem modCnt_ch (s : State) (f : Counts → Counts) : (s.modCnt f).ch = s.ch := rfl
@[simp] theorem modCnt_lease (s : State) (f : Counts → Counts) : (s.modCnt f).lease = s.lease := rfl
@[simp] theorem modCnt_pager (s : State) (f : Counts → Counts) : (s.modCnt f).pager = s.pager := rfl
@[simp] theorem modCnt_keyx (s : State) (f : Counts → Counts) : (s.modCnt f).keyx = s.keyx := rfl
@[simp] theorem modCnt_store (s : State) (f : Counts → Counts) : (s.modCnt f).store = s.store := rfl
@[simp] theorem modCnt_cnt (s : State) (f : Counts → Counts) : (s.modCnt f).cnt = f s.cnt := rfl
@[simp] theorem modCnt_pwr (s : State) (f : Counts → Counts) : (s.modCnt f).pwr = s.pwr := rfl
@[simp] theorem modCnt_flt (s : State) (f : Counts → Counts) : (s.modCnt f).flt = s.flt := rfl
@[simp] theorem modCnt_pair (s : State) (f : Counts → Counts) : (s.modCnt f).pair = s.pair := rfl
@[simp] theorem modCnt_freeCtr (s : State) (f : Counts → Counts) : (s.modCnt f).freeCtr = s.freeCtr := rfl
@[simp] theorem modCnt_out (s : State) (f : Counts → Counts) : (s.modCnt f).out = s.out := rfl
@[simp] theorem modCnt_pending (s : State) (f : Counts → Counts) : (s.modCnt f).pending = s.pending := rfl
@[simp] theorem modPwr_sys (s : State) (f : Pwr → Pwr) : (s.modPwr f).sys = s.sys := rfl
@[simp] theorem modPwr_regs (s : State) (f : Pwr → Pwr) : (s.modPwr f).regs = s.regs := rfl
@[simp] theorem modPwr_dp (s : State) (f : Pwr → Pwr) : (s.modPwr f).dp = s.dp := rfl
@[simp] theorem modPwr_slices (s : State) (f : Pwr → Pwr) : (s.modPwr f).slices = s.slices := rfl
@[simp] theorem modPwr_ch (s : State) (f : Pwr → Pwr) : (s.modPwr f).ch = s.ch := rfl
@[simp] theorem modPwr_lease (s : State) (f : Pwr → Pwr) : (s.modPwr f).lease = s.lease := rfl
@[simp] theorem modPwr_pager (s : State) (f : Pwr → Pwr) : (s.modPwr f).pager = s.pager := rfl
@[simp] theorem modPwr_keyx (s : State) (f : Pwr → Pwr) : (s.modPwr f).keyx = s.keyx := rfl
@[simp] theorem modPwr_store (s : State) (f : Pwr → Pwr) : (s.modPwr f).store = s.store := rfl
@[simp] theorem modPwr_cnt (s : State) (f : Pwr → Pwr) : (s.modPwr f).cnt = s.cnt := rfl
@[simp] theorem modPwr_pwr (s : State) (f : Pwr → Pwr) : (s.modPwr f).pwr = f s.pwr := rfl
@[simp] theorem modPwr_flt (s : State) (f : Pwr → Pwr) : (s.modPwr f).flt = s.flt := rfl
@[simp] theorem modPwr_pair (s : State) (f : Pwr → Pwr) : (s.modPwr f).pair = s.pair := rfl
@[simp] theorem modPwr_freeCtr (s : State) (f : Pwr → Pwr) : (s.modPwr f).freeCtr = s.freeCtr := rfl
@[simp] theorem modPwr_out (s : State) (f : Pwr → Pwr) : (s.modPwr f).out = s.out := rfl
@[simp] theorem modPwr_pending (s : State) (f : Pwr → Pwr) : (s.modPwr f).pending = s.pending := rfl
@[simp] theorem modFlt_sys (s : State) (f : Faults → Faults) : (s.modFlt f).sys = s.sys := rfl
@[simp] theorem modFlt_regs (s : State) (f : Faults → Faults) : (s.modFlt f).regs = s.regs := rfl
@[simp] theorem modFlt_dp (s : State) (f : Faults → Faults) : (s.modFlt f).dp = s.dp := rfl
@[simp] theorem modFlt_slices (s : State) (f : Faults → Faults) : (s.modFlt f).slices = s.slices := rfl
@[simp] theorem modFlt_ch (s : State) (f : Faults → Faults) : (s.modFlt f).ch = s.ch := rfl
@[simp] theorem modFlt_lease (s : State) (f : Faults → Faults) : (s.modFlt f).lease = s.lease := rfl
@[simp] theorem modFlt_pager (s : State) (f : Faults → Faults) : (s.modFlt f).pager = s.pager := rfl
@[simp] theorem modFlt_keyx (s : State) (f : Faults → Faults) : (s.modFlt f).keyx = s.keyx := rfl
@[simp] theorem modFlt_store (s : State) (f : Faults → Faults) : (s.modFlt f).store = s.store := rfl
@[simp] theorem modFlt_cnt (s : State) (f : Faults → Faults) : (s.modFlt f).cnt = s.cnt := rfl
@[simp] theorem modFlt_pwr (s : State) (f : Faults → Faults) : (s.modFlt f).pwr = s.pwr := rfl
@[simp] theorem modFlt_flt (s : State) (f : Faults → Faults) : (s.modFlt f).flt = f s.flt := rfl
@[simp] theorem modFlt_pair (s : State) (f : Faults → Faults) : (s.modFlt f).pair = s.pair := rfl
@[simp] theorem modFlt_freeCtr (s : State) (f : Faults → Faults) : (s.modFlt f).freeCtr = s.freeCtr := rfl
@[simp] theorem modFlt_out (s : State) (f : Faults → Faults) : (s.modFlt f).out = s.out := rfl
@[simp] theorem modFlt_pending (s : State) (f : Faults → Faults) : (s.modFlt f).pending = s.pending := rfl
@[simp] theorem modPair_sys (s : State) (f : Pair → Pair) : (s.modPair f).sys = s.sys := rfl
@[simp] theorem modPair_regs (s : State) (f : Pair → Pair) : (s.modPair f).regs = s.regs := rfl
@[simp] theorem modPair_dp (s : State) (f : Pair → Pair) : (s.modPair f).dp = s.dp := rfl
@[simp] theorem modPair_slices (s : State) (f : Pair → Pair) : (s.modPair f).slices = s.slices := rfl
@[simp] theorem modPair_ch (s : State) (f : Pair → Pair) : (s.modPair f).ch = s.ch := rfl
@[simp] theorem modPair_lease (s : State) (f : Pair → Pair) : (s.modPair f).lease = s.lease := rfl
@[simp] theorem modPair_pager (s : State) (f : Pair → Pair) : (s.modPair f).pager = s.pager := rfl
@[simp] theorem modPair_keyx (s : State) (f : Pair → Pair) : (s.modPair f).keyx = s.keyx := rfl
@[simp] theorem modPair_store (s : State) (f : Pair → Pair) : (s.modPair f).store = s.store := rfl
@[simp] theorem modPair_cnt (s : State) (f : Pair → Pair) : (s.modPair f).cnt = s.cnt := rfl
@[simp] theorem modPair_pwr (s : State) (f : Pair → Pair) : (s.modPair f).pwr = s.pwr := rfl
@[simp] theorem modPair_flt (s : State) (f : Pair → Pair) : (s.modPair f).flt = s.flt := rfl
@[simp] theorem modPair_pair (s : State) (f : Pair → Pair) : (s.modPair f).pair = f s.pair := rfl
@[simp] theorem modPair_freeCtr (s : State) (f : Pair → Pair) : (s.modPair f).freeCtr = s.freeCtr := rfl
@[simp] theorem modPair_out (s : State) (f : Pair → Pair) : (s.modPair f).out = s.out := rfl
@[simp] theorem modPair_pending (s : State) (f : Pair → Pair) : (s.modPair f).pending = s.pending := rfl
@[simp] theorem emit_sys (s : State) (e : Emit) : (s.emit e).sys = s.sys := rfl
@[simp] theorem begin_sys (s : State) : s.begin.sys = s.sys := rfl
@[simp] theorem draw_sys (s : State) : s.draw.sys = s.sys := rfl
@[simp] theorem emit_regs (s : State) (e : Emit) : (s.emit e).regs = s.regs := rfl
@[simp] theorem begin_regs (s : State) : s.begin.regs = s.regs := rfl
@[simp] theorem draw_regs (s : State) : s.draw.regs = s.regs := rfl
@[simp] theorem emit_dp (s : State) (e : Emit) : (s.emit e).dp = s.dp := rfl
@[simp] theorem begin_dp (s : State) : s.begin.dp = s.dp := rfl
@[simp] theorem draw_dp (s : State) : s.draw.dp = s.dp := rfl
@[simp] theorem emit_slices (s : State) (e : Emit) : (s.emit e).slices = s.slices := rfl
@[simp] theorem begin_slices (s : State) : s.begin.slices = s.slices := rfl
@[simp] theorem draw_slices (s : State) : s.draw.slices = s.slices := rfl
@[simp] theorem emit_ch (s : State) (e : Emit) : (s.emit e).ch = s.ch := rfl
@[simp] theorem begin_ch (s : State) : s.begin.ch = s.ch := rfl
@[simp] theorem draw_ch (s : State) : s.draw.ch = s.ch := rfl
@[simp] theorem emit_lease (s : State) (e : Emit) : (s.emit e).lease = s.lease := rfl
@[simp] theorem begin_lease (s : State) : s.begin.lease = s.lease := rfl
@[simp] theorem draw_lease (s : State) : s.draw.lease = s.lease := rfl
@[simp] theorem emit_pager (s : State) (e : Emit) : (s.emit e).pager = s.pager := rfl
@[simp] theorem begin_pager (s : State) : s.begin.pager = s.pager := rfl
@[simp] theorem draw_pager (s : State) : s.draw.pager = s.pager := rfl
@[simp] theorem emit_keyx (s : State) (e : Emit) : (s.emit e).keyx = s.keyx := rfl
@[simp] theorem begin_keyx (s : State) : s.begin.keyx = s.keyx := rfl
@[simp] theorem draw_keyx (s : State) : s.draw.keyx = s.keyx := rfl
@[simp] theorem emit_store (s : State) (e : Emit) : (s.emit e).store = s.store := rfl
@[simp] theorem begin_store (s : State) : s.begin.store = s.store := rfl
@[simp] theorem draw_store (s : State) : s.draw.store = s.store := rfl
@[simp] theorem emit_cnt (s : State) (e : Emit) : (s.emit e).cnt = s.cnt := rfl
@[simp] theorem begin_cnt (s : State) : s.begin.cnt = s.cnt := rfl
@[simp] theorem draw_cnt (s : State) : s.draw.cnt = s.cnt := rfl
@[simp] theorem emit_pwr (s : State) (e : Emit) : (s.emit e).pwr = s.pwr := rfl
@[simp] theorem begin_pwr (s : State) : s.begin.pwr = s.pwr := rfl
@[simp] theorem draw_pwr (s : State) : s.draw.pwr = s.pwr := rfl
@[simp] theorem emit_flt (s : State) (e : Emit) : (s.emit e).flt = s.flt := rfl
@[simp] theorem begin_flt (s : State) : s.begin.flt = s.flt := rfl
@[simp] theorem draw_flt (s : State) : s.draw.flt = s.flt := rfl
@[simp] theorem emit_pair (s : State) (e : Emit) : (s.emit e).pair = s.pair := rfl
@[simp] theorem begin_pair (s : State) : s.begin.pair = s.pair := rfl
@[simp] theorem draw_pair (s : State) : s.draw.pair = s.pair := rfl
@[simp] theorem emit_freeCtr (s : State) (e : Emit) : (s.emit e).freeCtr = s.freeCtr := rfl
@[simp] theorem begin_freeCtr (s : State) : s.begin.freeCtr = s.freeCtr := rfl
@[simp] theorem draw_freeCtr (s : State) : s.draw.freeCtr = s.freeCtr + 1 := rfl
@[simp] theorem emit_out (s : State) (e : Emit) : (s.emit e).out = s.out ++ [e] := rfl
@[simp] theorem begin_out (s : State) : s.begin.out = [] := rfl
@[simp] theorem draw_out (s : State) : s.draw.out = s.out := rfl
@[simp] theorem emit_pending (s : State) (e : Emit) : (s.emit e).pending = s.pending := rfl
@[simp] theorem begin_pending (s : State) : s.begin.pending = s.pending := rfl
@[simp] theorem draw_pending (s : State) : s.draw.pending = s.pending := rfl
@[simp] theorem when_true (s : State) (f : State → State) : s.when true f = f s := rfl
@[simp] theorem when_false (s : State) (f : State → State) : s.when false f = s := rfl
@[simp] theorem forEach_nil {α : Type} (s : State) (f : State → α → State) : s.forEach [] f = s := rfl
theorem forEach_cons {α : Type} (s : State) (a : α) (l : List α) (f : State → α → State) :
    s.forEach (a :: l) f = (f s a).forEach l f := rfl
/-- What each turn of a loop keeps, the loop keeps. -/
theorem forEach_keeps {α β : Type} (k : State → β) (f : State → α → State) (h : ∀ s a, k (f s a) = k s) (l : List α)
    (s : State) : k (s.forEach l f) = k s := by
  induction l generalizing s with
  | nil => rfl
  | cons a l ih => rw [forEach_cons, ih, h]
/-- What each turn of a loop keeps true, the loop keeps true. -/
theorem forEach_inv {α : Type} (p : State → Prop) (f : State → α → State) (h : ∀ s a, p s → p (f s a)) (l : List α)
    (s : State) (hs : p s) : p (s.forEach l f) := by
  induction l generalizing s with
  | nil => exact hs
  | cons a l ih => exact ih _ (h _ _ hs)
/-- What an action keeps, the action under a condition keeps. -/
theorem when_keeps {β : Type} (k : State → β) (f : State → State) (h : ∀ s, k (f s) = k s) (c : Bool) (s : State) :
    k (s.when c f) = k s := by cases c <;> simp [h]

end Sys2Proof.Machine
end

