-- ==== Sys2Proof/Laws/DpKeep.lean ====
section
/-! SUPPORT. Which operations leave the datapath alone: one lemma for each operation. -/
namespace Sys2Proof.Machine

@[simp] theorem ite_dp (c : Prop) [Decidable c] (a b : State) : (if c then a else b).dp = if c then a.dp else b.dp := by split <;> rfl
@[simp] theorem forEach_dp {α : Type} (f : State → α → State) (l : List α) (s : State) (h : ∀ s a, (f s a).dp = s.dp) : (s.forEach l f).dp = s.dp := forEach_keeps (·.dp) f h l s
@[simp] theorem when_dp (f : State → State) (c : Bool) (s : State) (h : ∀ s, (f s).dp = s.dp) : (s.when c f).dp = s.dp := when_keeps (·.dp) f h c s

@[simp] theorem setCfg_dp (s : State) (p : Page) (off : Nat) (v : W32) : (State.setCfg s p off v).dp = s.dp := by
  unfold State.setCfg
  simp
@[simp] theorem setStaged_dp (s : State) (p : Page) (off : Nat) (v : W32) : (State.setStaged s p off v).dp = s.dp := by
  unfold State.setStaged
  simp
@[simp] theorem setRo_dp (s : State) (p : Page) (off : Nat) (v : W32) : (State.setRo s p off v).dp = s.dp := by
  unfold State.setRo
  simp
@[simp] theorem setFlags_dp (s : State) (p : Page) (off : Nat) (m : W32) : (State.setFlags s p off m).dp = s.dp := by
  unfold State.setFlags
  simp
@[simp] theorem setFlag_dp (s : State) (p : Page) (off n : Nat) : (State.setFlag s p off n).dp = s.dp := by
  unfold State.setFlag
  simp
@[simp] theorem clearFlags_dp (s : State) (p : Page) (off : Nat) (m : W32) : (State.clearFlags s p off m).dp = s.dp := by
  unfold State.clearFlags
  simp
@[simp] theorem modHdr_dp (s : State) (p : Page) (f : Hdr → Hdr) : (State.modHdr s p f).dp = s.dp := by
  unfold State.modHdr
  simp
@[simp] theorem bumpEpoch_dp (s : State) (p : Page) : (State.bumpEpoch s p).dp = s.dp := by
  unfold State.bumpEpoch
  simp
@[simp] theorem evt_dp (s : State) (n k : Nat) : (State.evt s n k).dp = s.dp := by
  unfold State.evt
  simp
@[simp] theorem evtF_dp (s : State) (n : Nat) (who : Option Nat × Nat × Dir) : (State.evtF s n who).dp = s.dp := by
  unfold State.evtF
  simp
@[simp] theorem collide_dp (s : State) (p : Page) : (State.collide s p).dp = s.dp := by
  unfold State.collide
  simp
@[simp] theorem lockViol_dp (s : State) (p : Page) : (State.lockViol s p).dp = s.dp := by
  unfold State.lockViol
  simp
@[simp] theorem accessErr_dp (s : State) (p : Page) : (State.accessErr s p).dp = s.dp := by
  unfold State.accessErr
  simp
@[simp] theorem poison_dp (s : State) (p : Page) : (State.poison s p).dp = s.dp := by
  unfold State.poison
  simp
@[simp] theorem portAdd_dp (s : State) (port idx k : Nat) : (State.portAdd s port idx k).dp = s.dp := by
  unfold State.portAdd
  simp
@[simp] theorem portCount_dp (s : State) (port idx : Nat) : (State.portCount s port idx).dp = s.dp := by
  unfold State.portCount
  simp
@[simp] theorem portFlag_dp (s : State) (port n : Nat) : (State.portFlag s port n).dp = s.dp := by
  unfold State.portFlag
  simp
@[simp] theorem portBFlag_dp (s : State) (port n : Nat) : (State.portBFlag s port n).dp = s.dp := by
  unfold State.portBFlag
  simp
@[simp] theorem outcome_dp (s : State) (chix : Nat) (incs : List (Nat × Nat)) : (State.outcome s chix incs).dp = s.dp := by
  unfold State.outcome
  simp
@[simp] theorem detectAs_dp (s : State) (inj : Bool) (det inst : Nat) (infoA infoB : W32) : (State.detectAs s inj det inst infoA infoB).dp = s.dp := by
  unfold State.detectAs
  simp
@[simp] theorem detect_dp (s : State) (det inst : Nat) (infoA infoB : W32) : (State.detect s det inst infoA infoB).dp = s.dp := by
  unfold State.detect
  simp
@[simp] theorem detect0_dp (s : State) (det inst : Nat) : (State.detect0 s det inst).dp = s.dp := by
  unfold State.detect0
  simp
@[simp] theorem answer_dp (s : State) (err : Bool) : (State.answer s err).dp = s.dp := by
  unfold State.answer
  simp
@[simp] theorem answerRead_dp (s : State) (err : Bool) (w : W32) : (State.answerRead s err w).dp = s.dp := by
  unfold State.answerRead
  simp
@[simp] theorem setBusy_dp (s : State) (p : Page) (b : Bool) : (State.setBusy s p b).dp = s.dp := by
  unfold State.setBusy
  simp
@[simp] theorem setUnlocked_dp (s : State) (p : Page) (b : Bool) : (State.setUnlocked s p b).dp = s.dp := by
  unfold State.setUnlocked
  simp
@[simp] theorem useOnce_dp (s : State) (p : Page) (off : Nat) : (State.useOnce s p off).dp = s.dp := by
  unfold State.useOnce
  (repeat' split) <;> simp
theorem gated_dp (s : State) (p : Page) (off : Nat) (data : W32) (uses : Bool) (act : State → State) (h : ∀ s, (act s).dp = s.dp) : (s.gated p off data uses act).dp = s.dp := by
  unfold State.gated
  dsimp only
  repeat' first | (simp [h]; done) | split
theorem through_dp (s : State) (p : Page) (off : Nat) (data : W32) (act : State → State) (h : ∀ s, (act s).dp = s.dp) : (s.through p off data act).dp = s.dp := by
  unfold State.through
  split
  · rw [gated_dp _ _ _ _ _ _ h, answer_dp]
  · rfl
@[simp] theorem mirrorLease_dp (s : State) (chix : Nat) (slotB valid : Bool) (tag : W32) (ceil : Nat) : (State.mirrorLease s chix slotB valid tag ceil).dp = s.dp := by
  unfold State.mirrorLease
  repeat' first | (simp) | intro _ | (refine (forEach_dp _ _ _ ?_).trans ?_) | (refine (when_dp _ _ _ ?_).trans ?_) | split | simp
@[simp] theorem mirrorSlot_dp (s : State) (it : MItem) : (State.mirrorSlot s it).dp = s.dp := by
  unfold State.mirrorSlot
  repeat' first | (simp) | intro _ | (refine (forEach_dp _ _ _ ?_).trans ?_) | (refine (when_dp _ _ _ ?_).trans ?_) | split | simp
@[simp] theorem mirrorSched_dp (s : State) (it : MItem) : (State.mirrorSched s it).dp = s.dp := by
  unfold State.mirrorSched
  repeat' first | (simp) | intro _ | (refine (forEach_dp _ _ _ ?_).trans ?_) | (refine (when_dp _ _ _ ?_).trans ?_) | split | simp
@[simp] theorem skew_dp (s : State) (k : Nat) : (State.skew s k).dp = s.dp := by
  unfold State.skew
  simp
@[simp] theorem unskew_dp (s : State) (k : Nat) : (State.unskew s k).dp = s.dp := by
  unfold State.unskew
  simp
@[simp] theorem mirrorLose_dp (s : State) (it : Bytes) : (State.mirrorLose s it).dp = s.dp := by
  unfold State.mirrorLose
  simp
@[simp] theorem mirrorFail_dp (s : State) (x : Nat) : (State.mirrorFail s x).dp = s.dp := by
  unfold State.mirrorFail
  simp
@[simp] theorem setEntry_dp (s : State) (e : Nat) (v : Option Entry) : (State.setEntry s e v).dp = s.dp := by
  unfold State.setEntry
  simp
@[simp] theorem modEntry_dp (s : State) (e : Nat) (f : Entry → Entry) : (State.modEntry s e f).dp = s.dp := by
  unfold State.modEntry
  simp
@[simp] theorem modSlot_dp (s : State) (v : Nat) (f : Slot → Slot) : (State.modSlot s v f).dp = s.dp := by
  unfold State.modSlot
  simp
@[simp] theorem setResi_dp (s : State) (x : Nat) (r : Resi) : (State.setResi s x r).dp = s.dp := by
  unfold State.setResi
  simp
@[simp] theorem syncHandle_dp (s : State) (x : Nat) : (State.syncHandle s x).dp = s.dp := by
  unfold State.syncHandle
  simp
@[simp] theorem eqxLog_dp (s : State) (kind chix : Nat) (b : Bool) (an : BitVec 2) (t : Nat) : (State.eqxLog s kind chix b an t).dp = s.dp := by
  unfold State.eqxLog
  simp
@[simp] theorem unexpose_dp (s : State) (x : Nat) (b : Bool) : (State.unexpose s x b).dp = s.dp := by
  unfold State.unexpose
  repeat' first | (simp) | intro _ | (refine (forEach_dp _ _ _ ?_).trans ?_) | (refine (when_dp _ _ _ ?_).trans ?_) | split | simp
@[simp] theorem slotChanged_dp (s : State) (e : Nat) (b : Bool) : (State.slotChanged s e b).dp = s.dp := by
  unfold State.slotChanged
  (repeat' split) <;> simp
@[simp] theorem schedCancelled_dp (s : State) (chix e : Nat) (b : Bool) : (State.schedCancelled s chix e b).dp = s.dp := by
  unfold State.schedCancelled
  simp
@[simp] theorem eqxOnSlot_dp (s : State) (e : Nat) (b : Bool) (c : SlotChange) : (State.eqxOnSlot s e b c).dp = s.dp := by
  unfold State.eqxOnSlot
  (repeat' split) <;> simp
@[simp] theorem solOnSlot_dp (s : State) (e : Nat) (b : Bool) : (State.solOnSlot s e b).dp = s.dp := by
  unfold State.solOnSlot
  (repeat' split) <;> simp
@[simp] theorem schedOnSlot_dp (s : State) (e : Nat) (b : Bool) (c : SlotChange) : (State.schedOnSlot s e b c).dp = s.dp := by
  unfold State.schedOnSlot
  simp
@[simp] theorem modDom_dp (s : State) (d : Nat) (f : Dom → Dom) : (State.modDom s d f).dp = s.dp := by
  unfold State.modDom
  simp
@[simp] theorem modSl_dp (s : State) (n : Nat) (f : Slice → Slice) : (State.modSl s n f).dp = s.dp := by
  unfold State.modSl
  simp
@[simp] theorem dropSeeds_dp (s : State) (k : Nat) : (State.dropSeeds s k).dp = s.dp := by
  unfold State.dropSeeds
  simp
@[simp] theorem pmIssue_dp (s : State) (d : Nat) (op : PmOp) : (State.pmIssue s d op).dp = s.dp := by
  unfold State.pmIssue
  simp
@[simp] theorem pmTry_dp (s : State) (d : Nat) (op : PmOp) : (State.pmTry s d op).dp = s.dp := by
  unfold State.pmTry
  simp
@[simp] theorem pmPump_dp (s : State) : (State.pmPump s).dp = s.dp := by
  unfold State.pmPump
  repeat' first | (simp) | intro _ | (refine (forEach_dp _ _ _ ?_).trans ?_) | (refine (when_dp _ _ _ ?_).trans ?_) | split | simp
@[simp] theorem wakeDom_dp (s : State) (d : Nat) : (State.wakeDom s d).dp = s.dp := by
  unfold State.wakeDom
  dsimp only; (repeat' split) <;> simp
@[simp] theorem wakeNeeded_dp (s : State) : (State.wakeNeeded s).dp = s.dp := by
  unfold State.wakeNeeded
  simp
@[simp] theorem setRsv_dp (s : State) (ing : Bool) (l : NatSet) : (State.setRsv s ing l).dp = s.dp := by
  unfold State.setRsv
  simp
@[simp] theorem rsvReturn_dp (s : State) (n : Nat) : (State.rsvReturn s n).dp = s.dp := by
  unfold State.rsvReturn
  dsimp only; (repeat' split) <;> simp
@[simp] theorem wakeSlice_dp (s : State) (n : Nat) : (State.wakeSlice s n).dp = s.dp := by
  unfold State.wakeSlice
  (repeat' split) <;> simp
@[simp] theorem rsvLeave_dp (s : State) (n : Nat) : (State.rsvLeave s n).dp = s.dp := by
  unfold State.rsvLeave
  dsimp only; (repeat' split) <;> simp
@[simp] theorem slEnter_dp (s : State) (n : Nat) (st : SlState) : (State.slEnter s n st).dp = s.dp := by
  unfold State.slEnter
  (repeat' split) <;> simp
@[simp] theorem wakeSlices_dp (s : State) (ing : Bool) (k : Nat) : (State.wakeSlices s ing k).dp = s.dp := by
  unfold State.wakeSlices
  simp
@[simp] theorem sleepSlice_dp (s : State) (n : Nat) : (State.sleepSlice s n).dp = s.dp := by
  unfold State.sleepSlice
  simp
@[simp] theorem setOver_dp (s : State) (ing : Bool) (v : Option Nat) : (State.setOver s ing v).dp = s.dp := by
  unfold State.setOver
  simp
@[simp] theorem rotTry_dp (s : State) (n : Nat) : (State.rotTry s n).dp = s.dp := by
  unfold State.rotTry
  simp
@[simp] theorem govDir_dp (s : State) (ing : Bool) : (State.govDir s ing).dp = s.dp := by
  unfold State.govDir
  dsimp only; (repeat' split) <;> simp
@[simp] theorem seedGenFrom_dp (s : State) (l : List W128) (g : Nat) : (State.seedGenFrom s l g).dp = s.dp := by
  unfold State.seedGenFrom
  (repeat' split) <;> simp
@[simp] theorem seedGen_dp (s : State) (g : Nat) : (State.seedGen s g).dp = s.dp := by
  unfold State.seedGen
  (repeat' split) <;> simp
@[simp] theorem seedTest_dp (s : State) (n : Nat) : (State.seedTest s n).dp = s.dp := by
  unfold State.seedTest
  simp
@[simp] theorem seedDom_dp (s : State) (d : Nat) : (State.seedDom s d).dp = s.dp := by
  unfold State.seedDom
  simp
@[simp] theorem slDrained_dp (s : State) (n : Nat) : (State.slDrained s n).dp = s.dp := by
  unfold State.slDrained
  dsimp only; (repeat' split) <;> simp
@[simp] theorem slFailed_dp (s : State) (n : Nat) : (State.slFailed s n).dp = s.dp := by
  unfold State.slFailed
  repeat' first | (simp) | intro _ | (refine (forEach_dp _ _ _ ?_).trans ?_) | (refine (when_dp _ _ _ ?_).trans ?_) | split | simp
@[simp] theorem slPassed_dp (s : State) (n : Nat) : (State.slPassed s n).dp = s.dp := by
  unfold State.slPassed
  simp
@[simp] theorem slTested_dp (s : State) (n : Nat) (pass late : Bool) : (State.slTested s n pass late).dp = s.dp := by
  unfold State.slTested
  simp
@[simp] theorem cmdDone_dp (s : State) (p : Page) (off flag code op detail : Nat) : (State.cmdDone s p off flag code op detail).dp = s.dp := by
  unfold State.cmdDone
  simp
@[simp] theorem storeDone_dp (s : State) (code detail : Nat) : (State.storeDone s code detail).dp = s.dp := by
  unfold State.storeDone
  simp
@[simp] theorem putBytes_dp (s : State) (p : Page) (off : Nat) (b : Bytes) : (State.putBytes s p off b).dp = s.dp := by
  unfold State.putBytes
  simp
@[simp] theorem setKey_dp (s : State) (n : Nat) (k : KeySel) : (State.setKey s n k).dp = s.dp := by
  unfold State.setKey
  simp
@[simp] theorem useKey_dp (s : State) (sel : Nat) : (State.useKey s sel).dp = s.dp := by
  unfold State.useKey
  simp
@[simp] theorem storeReq_dp (s : State) (wr : Bool) (line kix : Nat) (who : Req) (data : Bytes) (mask : W64) : (State.storeReq s wr line kix who data mask).dp = s.dp := by
  unfold State.storeReq
  simp
@[simp] theorem storeRead_dp (s : State) (line kix : Nat) (who : Req) : (State.storeRead s line kix who).dp = s.dp := by
  unfold State.storeRead
  simp
@[simp] theorem storeWrite_dp (s : State) (line kix : Nat) (who : Req) (d : Bytes) : (State.storeWrite s line kix who d).dp = s.dp := by
  unfold State.storeWrite
  simp
@[simp] theorem issueRead_dp (s : State) (r : SReq) (sel : Nat) : (State.issueRead s r sel).dp = s.dp := by
  unfold State.issueRead
  (repeat' split) <;> simp
@[simp] theorem issueWrite_dp (s : State) (r : SReq) (sel : Nat) (d : Bytes) : (State.issueWrite s r sel d).dp = s.dp := by
  unfold State.issueWrite
  (repeat' split) <;> simp
@[simp] theorem modWcb_dp (s : State) (line : Nat) (f : Wcb → Wcb) : (State.modWcb s line f).dp = s.dp := by
  unfold State.modWcb
  simp
@[simp] theorem freeWcb_dp (s : State) (line : Nat) : (State.freeWcb s line).dp = s.dp := by
  unfold State.freeWcb
  simp
@[simp] theorem touchWcb_dp (s : State) (line : Nat) : (State.touchWcb s line).dp = s.dp := by
  unfold State.touchWcb
  (repeat' split) <;> simp
@[simp] theorem mergeWrite_dp (s : State) (r : SReq) : (State.mergeWrite s r).dp = s.dp := by
  unfold State.mergeWrite
  simp
@[simp] theorem writeBack_dp (s : State) (w : Wcb) : (State.writeBack s w).dp = s.dp := by
  unfold State.writeBack
  simp
@[simp] theorem wcbLost_dp (s : State) (w : Wcb) : (State.wcbLost s w).dp = s.dp := by
  unfold State.wcbLost
  simp
theorem wcbRoom_dp (s t : State) (h : s.wcbRoom = some t) : t.dp = s.dp := by
  unfold State.wcbRoom at h
  split at h
  · cases h; rfl
  · split at h
    · cases h; simp
    · cases h
@[simp] theorem hostEnd_dp (s : State) (r : SReq) (f : FinRes) : (State.hostEnd s r f).dp = s.dp := by
  unfold State.hostEnd
  (repeat' split) <;> simp
@[simp] theorem lineFail_dp (s : State) (r : SReq) (f : FinRes) : (State.lineFail s r f).dp = s.dp := by
  unfold State.lineFail
  repeat' first | (simp) | intro _ | (refine (forEach_dp _ _ _ ?_).trans ?_) | (refine (when_dp _ _ _ ?_).trans ?_) | split | simp
@[simp] theorem endReq_dp (s : State) (r : SReq) (f : FinRes) : (State.endReq s r f).dp = s.dp := by
  unfold State.endReq
  (repeat' split) <;> simp
@[simp] theorem fillEnd_dp (s : State) (r : SReq) (f : FinRes) : (State.fillEnd s r f).dp = s.dp := by
  unfold State.fillEnd
  (repeat' split) <;> simp
@[simp] theorem backEnd_dp (s : State) (r : SReq) (f : FinRes) : (State.backEnd s r f).dp = s.dp := by
  unfold State.backEnd
  (repeat' split) <;> simp
@[simp] theorem wholeEnd_dp (s : State) (r : SReq) (f : FinRes) : (State.wholeEnd s r f).dp = s.dp := by
  unfold State.wholeEnd
  (repeat' split) <;> simp
@[simp] theorem modMarch_dp (s : State) (f : March → March) : (State.modMarch s f).dp = s.dp := by
  unfold State.modMarch
  simp
@[simp] theorem marchSettle_dp (s : State) : (State.marchSettle s).dp = s.dp := by
  unfold State.marchSettle
  simp
@[simp] theorem marchDone_dp (s : State) : (State.marchDone s).dp = s.dp := by
  unfold State.marchDone
  simp
@[simp] theorem marchRekeyed_dp (s : State) (line : Nat) : (State.marchRekeyed s line).dp = s.dp := by
  unfold State.marchRekeyed
  simp
@[simp] theorem marchFail_dp (s : State) (line reason : Nat) : (State.marchFail s line reason).dp = s.dp := by
  unfold State.marchFail
  simp
@[simp] theorem marchEnd_dp (s : State) (r : SReq) (f : FinRes) : (State.marchEnd s r f).dp = s.dp := by
  unfold State.marchEnd
  (repeat' split) <;> simp
@[simp] theorem finish_dp (s : State) (r : SReq) (f : FinRes) : (State.finish s r f).dp = s.dp := by
  unfold State.finish
  (repeat' split) <;> simp
@[simp] theorem serveHit_dp (s : State) (r : SReq) (sel : Nat) (w : Wcb) : (State.serveHit s r sel w).dp = s.dp := by
  unfold State.serveHit
  simp
@[simp] theorem serveFill_dp (s : State) (r : SReq) (sel : Nat) : (State.serveFill s r sel).dp = s.dp := by
  unfold State.serveFill
  simp
@[simp] theorem serveFull_dp (s : State) (r : SReq) : (State.serveFull s r).dp = s.dp := by
  unfold State.serveFull
  dsimp only; (repeat' split) <;> simp
@[simp] theorem serveMiss_dp (s : State) (r : SReq) (sel : Nat) : (State.serveMiss s r sel).dp = s.dp := by
  unfold State.serveMiss
  repeat' first | (simp; done) | split
  all_goals (rename_i hr; simp [wcbRoom_dp _ _ hr])
@[simp] theorem serveSel_dp (s : State) (r : SReq) (sel : Nat) : (State.serveSel s r sel).dp = s.dp := by
  unfold State.serveSel
  (repeat' split) <;> simp
@[simp] theorem serveNow_dp (s : State) (r : SReq) : (State.serveNow s r).dp = s.dp := by
  unfold State.serveNow
  (repeat' split) <;> simp
@[simp] theorem notePassed_dp (s : State) (r : SReq) : (State.notePassed s r).dp = s.dp := by
  unfold State.notePassed
  simp
@[simp] theorem serve_dp (s : State) (r : SReq) : (State.serve s r).dp = s.dp := by
  unfold State.serve
  simp
@[simp] theorem pumpStoreN_dp (k : Nat) (s : State) : (pumpStoreN k s).dp = s.dp := by
  induction k generalizing s with
  | zero => rfl
  | succ k ih => unfold pumpStoreN; split <;> simp [ih]
@[simp] theorem countWaits_dp (s : State) : (State.countWaits s).dp = s.dp := by
  unfold State.countWaits
  repeat' first | (simp) | intro _ | (refine (forEach_dp _ _ _ ?_).trans ?_) | (refine (when_dp _ _ _ ?_).trans ?_) | split | simp
@[simp] theorem flushCheck_dp (s : State) : (State.flushCheck s).dp = s.dp := by
  unfold State.flushCheck
  (repeat' split) <;> simp
@[simp] theorem pumpStore_dp (s : State) : (State.pumpStore s).dp = s.dp := by unfold State.pumpStore; simp [pumpStoreN_dp]
theorem takeOut_dp (s : State) (wr : Bool) (id : Nat) (p : SReq × State) (h : s.takeOut wr id = some p) : p.2.dp = s.dp := by
  unfold State.takeOut at h
  split at h
  · cases h; simp
  · cases h
@[simp] theorem readResp_dp (s : State) (r : SReq) (err : Bool) (data side : Bytes) : (State.readResp s r err data side).dp = s.dp := by
  unfold State.readResp
  dsimp only; (repeat' split) <;> simp
@[simp] theorem writeResp_dp (s : State) (r : SReq) (err : Bool) : (State.writeResp s r err).dp = s.dp := by
  unfold State.writeResp
  simp
@[simp] theorem endOut_dp (s : State) (r : SReq) : (State.endOut s r).dp = s.dp := by
  unfold State.endOut
  simp
@[simp] theorem forgetReqs_dp (s : State) (p : Req → Bool) : (State.forgetReqs s p).dp = s.dp := by
  unfold State.forgetReqs
  simp
@[simp] theorem marchAbandon_dp (s : State) : (State.marchAbandon s).dp = s.dp := by
  unfold State.marchAbandon
  simp
@[simp] theorem marchHold_dp (s : State) : (State.marchHold s).dp = s.dp := by
  unfold State.marchHold
  simp
@[simp] theorem marchDrop_dp (s : State) : (State.marchDrop s).dp = s.dp := by
  unfold State.marchDrop
  simp
@[simp] theorem marchIdle_dp (s : State) : (State.marchIdle s).dp = s.dp := by
  unfold State.marchIdle
  simp
@[simp] theorem leaveWcb_dp (s : State) (sel : Nat) : (State.leaveWcb s sel).dp = s.dp := by
  unfold State.leaveWcb
  simp
@[simp] theorem dropWcb_dp (s : State) (p : Nat → Bool) : (State.dropWcb s p).dp = s.dp := by
  unfold State.dropWcb
  simp
@[simp] theorem setZero_dp (s : State) (x l : Nat) (v : Option Bool) : (State.setZero s x l v).dp = s.dp := by
  unfold State.setZero
  simp
@[simp] theorem modSpill_dp (s : State) (x l : Nat) (f : Spill → Spill) : (State.modSpill s x l f).dp = s.dp := by
  unfold State.modSpill
  simp
@[simp] theorem dropSpill_dp (s : State) (x l : Nat) : (State.dropSpill s x l).dp = s.dp := by
  unfold State.dropSpill
  simp
@[simp] theorem spillWrite_dp (s : State) (x l : Nat) (old : List Nat) : (State.spillWrite s x l old).dp = s.dp := by
  unfold State.spillWrite
  simp
@[simp] theorem spillGo_dp (s : State) (x l : Nat) : (State.spillGo s x l).dp = s.dp := by
  unfold State.spillGo
  (repeat' split) <;> simp
@[simp] theorem spillNext_dp (s : State) : (State.spillNext s).dp = s.dp := by
  unfold State.spillNext
  simp
@[simp] theorem spillScan_dp (s : State) (x : Nat) : (State.spillScan s x).dp = s.dp := by
  unfold State.spillScan
  simp
@[simp] theorem restartLeaves_dp (s : State) (x : Nat) (fs : List Nat) : (State.restartLeaves s x fs).dp = s.dp := by
  unfold State.restartLeaves
  (repeat' split) <;> simp
@[simp] theorem zeroTrunks_dp (s : State) (x : Nat) (fs : List Nat) (who : Nat → Req) : (State.zeroTrunks s x fs who).dp = s.dp := by
  unfold State.zeroTrunks
  simp
@[simp] theorem zeroSlotStats_dp (s : State) (e : Nat) (slotB : Bool) : (State.zeroSlotStats s e slotB).dp = s.dp := by
  unfold State.zeroSlotStats
  (repeat' split) <;> simp
@[simp] theorem zeroCell_dp (s : State) (x : Nat) : (State.zeroCell s x).dp = s.dp := by
  unfold State.zeroCell
  simp
@[simp] theorem spillRead_dp (s : State) (x l : Nat) (f : FinRes) : (State.spillRead s x l f).dp = s.dp := by
  unfold State.spillRead
  (repeat' split) <;> simp
@[simp] theorem spillWrote_dp (s : State) (x l : Nat) (f : FinRes) : (State.spillWrote s x l f).dp = s.dp := by
  unfold State.spillWrote
  (repeat' split) <;> simp
@[simp] theorem zeroWrote_dp (s : State) (x l : Nat) (f : FinRes) : (State.zeroWrote s x l f).dp = s.dp := by
  unfold State.zeroWrote
  (repeat' split) <;> simp
@[simp] theorem spillAgain_dp (s : State) (x l : Nat) : (State.spillAgain s x l).dp = s.dp := by
  unfold State.spillAgain
  dsimp only; (repeat' split) <;> simp
@[simp] theorem applyOutcome_dp (s : State) (o : Counted) : (State.applyOutcome s o).dp = s.dp := by
  unfold State.applyOutcome
  (repeat' split) <;> simp
@[simp] theorem applyAll_dp (s : State) (x : Nat) : (State.applyAll s x).dp = s.dp := by
  unfold State.applyAll
  simp
@[simp] theorem evcOverflow_dp (s : State) (n rem : Nat) (occ : List (Option Nat × Nat × Dir)) : (State.evcOverflow s n rem occ).dp = s.dp := by
  unfold State.evcOverflow
  simp
@[simp] theorem evcUpdate_dp (s : State) (n : Nat) : (State.evcUpdate s n).dp = s.dp := by
  unfold State.evcUpdate
  simp
@[simp] theorem bwAdd_dp (s : State) (port : Nat) (d : Dir) (k : Nat) : (State.bwAdd s port d k).dp = s.dp := by
  unfold State.bwAdd
  simp
@[simp] theorem bwIn_dp (s : State) (d : Dir) (port k : Nat) : (s.bwIn d port k).dp = s.dp :=
  when_dp _ _ _ (fun s => bwAdd_dp s _ _ _)
@[simp] theorem bwClose_dp (s : State) : (State.bwClose s).dp = s.dp := by
  unfold State.bwClose
  simp
@[simp] theorem cannot_dp (s : State) (v : Nat) (c : LCause) : (State.cannot s v c).dp = s.dp := by
  unfold State.cannot
  dsimp only; (repeat' split) <;> simp
@[simp] theorem openHead_dp (s : State) (n : Nat) : (State.openHead s n).dp = s.dp := by
  unfold State.openHead
  simp
@[simp] theorem issueItem_dp (s : State) (h : Nat) (it : JItem) : (State.issueItem s h it).dp = s.dp := by
  unfold State.issueItem
  simp
@[simp] theorem issueFirst_dp (s : State) (h : Nat) (it : JItem) (t : List JItem) : (State.issueFirst s h it t).dp = s.dp := by
  unfold State.issueFirst
  simp
@[simp] theorem nvNone_dp (s : State) : (State.nvNone s).dp = s.dp := by
  unfold State.nvNone
  simp
@[simp] theorem openNext_dp (s : State) : (State.openNext s).dp = s.dp := by
  unfold State.openNext
  (repeat' split) <;> simp
@[simp] theorem retireMark_dp (s : State) (n : Nat) : (State.retireMark s n).dp = s.dp := by
  unfold State.retireMark
  simp
@[simp] theorem writeNext_dp (s : State) (h : Nat) : (State.writeNext s h).dp = s.dp := by
  unfold State.writeNext
  dsimp only; (repeat' split) <;> simp
@[simp] theorem pumpLease1_dp (s : State) : (State.pumpLease1 s).dp = s.dp := by
  unfold State.pumpLease1
  dsimp only; (repeat' split) <;> simp
@[simp] theorem jnlAdmit1_dp (s : State) (it : JItem) : (State.jnlAdmit1 s it).dp = s.dp := by
  unfold State.jnlAdmit1
  (repeat' split) <;> simp
@[simp] theorem jnlAdmit_dp (s : State) : (State.jnlAdmit s).dp = s.dp := by
  unfold State.jnlAdmit
  simp
@[simp] theorem pumpLease_dp (s : State) : (State.pumpLease s).dp = s.dp := by
  unfold State.pumpLease
  repeat' first | (simp) | intro _ | (refine (forEach_dp _ _ _ ?_).trans ?_) | (refine (when_dp _ _ _ ?_).trans ?_) | split | simp
@[simp] theorem pushJournal_dp (s : State) (it : JItem) : (State.pushJournal s it).dp = s.dp := by
  unfold State.pushJournal
  simp
@[simp] theorem makeRequest_dp (s : State) (x v ceil : Nat) : (State.makeRequest s x v ceil).dp = s.dp := by
  unfold State.makeRequest
  simp
@[simp] theorem requestNext_dp (s : State) (v : Nat) : (State.requestNext s v).dp = s.dp := by
  unfold State.requestNext
  dsimp only; (repeat' split) <;> simp
@[simp] theorem startLease_dp (s : State) (v : Nat) : (State.startLease s v).dp = s.dp := by
  unfold State.startLease
  dsimp only; (repeat' split) <;> simp
@[simp] theorem resumeAt_dp (s : State) (v p : Nat) : (State.resumeAt s v p).dp = s.dp := by
  unfold State.resumeAt
  simp
@[simp] theorem leaseAt_dp (s : State) (v p : Nat) : (State.leaseAt s v p).dp = s.dp := by
  unfold State.leaseAt
  simp
@[simp] theorem dropWaits_dp (s : State) (v : Nat) : (State.dropWaits s v).dp = s.dp := by
  unfold State.dropWaits
  simp
@[simp] theorem restartLease_dp (s : State) (v : Nat) : (State.restartLease s v).dp = s.dp := by
  unfold State.restartLease
  (repeat' split) <;> simp
@[simp] theorem commitOne_dp (s : State) (v : Nat) (w : LWait) (blind : Bool) : (State.commitOne s v w blind).dp = s.dp := by
  unfold State.commitOne
  simp
@[simp] theorem tryCommit_dp (k : Nat) (s : State) (v : Nat) : (State.tryCommit k s v).dp = s.dp := by
  induction k generalizing s with
  | zero => rfl
  | succ k ih => unfold State.tryCommit; repeat' first | (simp [ih]; done) | split
@[simp] theorem clearCause_dp (s : State) (c : LCause) (v : Nat) : (State.clearCause s c v).dp = s.dp := by
  unfold State.clearCause
  dsimp only; (repeat' split) <;> simp
@[simp] theorem ackCeil_dp (s : State) (v ceil : Nat) : (State.ackCeil s v ceil).dp = s.dp := by unfold State.ackCeil; simp [tryCommit_dp]
@[simp] theorem blindHold_dp (s : State) (v : Nat) : (State.blindHold s v).dp = s.dp := by
  unfold State.blindHold
  simp
@[simp] theorem drawPn_dp (s : State) (v : Nat) : (State.drawPn s v).dp = s.dp := by
  unfold State.drawPn
  simp
@[simp] theorem putLive_dp (s : State) (x : Nat) (v : Live) : (State.putLive s x v).dp = s.dp := by
  unfold State.putLive
  simp
@[simp] theorem releaseLive_dp (s : State) (x : Nat) : (State.releaseLive s x).dp = s.dp := by
  unfold State.releaseLive
  simp
@[simp] theorem setLive_dp (s : State) (u : Nat) (e : JEnt) (isReq : Bool) : (State.setLive s u e isReq).dp = s.dp := by
  unfold State.setLive
  (repeat' split) <;> simp
@[simp] theorem afterWrite_dp (s : State) (why : JWhy) : (State.afterWrite s why).dp = s.dp := by
  unfold State.afterWrite
  repeat' first | (simp; done) | intro _ | (refine (forEach_dp _ _ _ ?_).trans ?_) | split | simp [tryCommit_dp]
@[simp] theorem countEntry_dp (s : State) (why : JWhy) : (State.countEntry s why).dp = s.dp := by
  unfold State.countEntry
  (repeat' split) <;> simp
@[simp] theorem nvOk_dp (s : State) (w : NvW) : (State.nvOk s w).dp = s.dp := by
  unfold State.nvOk
  (repeat' split) <;> simp
@[simp] theorem sectorFails_dp (s : State) (n : Nat) : (State.sectorFails s n).dp = s.dp := by
  unfold State.sectorFails
  simp
@[simp] theorem nvErr_dp (s : State) (w : NvW) (stale : Bool) : (State.nvErr s w stale).dp = s.dp := by
  unfold State.nvErr
  repeat' first | (simp) | intro _ | (refine (forEach_dp _ _ _ ?_).trans ?_) | (refine (when_dp _ _ _ ?_).trans ?_) | split | simp
@[simp] theorem scanAsk1_dp (s : State) : (State.scanAsk1 s).dp = s.dp := by
  unfold State.scanAsk1
  dsimp only; (repeat' split) <;> simp
@[simp] theorem scanAsk_dp (s : State) : (State.scanAsk s).dp = s.dp := by
  unfold State.scanAsk
  repeat' first | (simp) | intro _ | (refine (forEach_dp _ _ _ ?_).trans ?_) | (refine (when_dp _ _ _ ?_).trans ?_) | split | simp
@[simp] theorem startScan_dp (s : State) : (State.startScan s).dp = s.dp := by
  unfold State.startScan
  simp
@[simp] theorem scanAnswer_dp (s : State) (err : Bool) (b : Bytes) : (State.scanAnswer s err b).dp = s.dp := by
  unfold State.scanAnswer
  dsimp only; (repeat' split) <;> simp
@[simp] theorem buildDir_dp (s : State) : (State.buildDir s).dp = s.dp := by
  unfold State.buildDir
  simp
@[simp] theorem scanFill_dp (s : State) : (State.scanFill s).dp = s.dp := (modLease_dp _ _).trans ((buildDir_dp _).trans (modLease_dp s _))
@[simp] theorem scanOpen_dp (s : State) : (State.scanOpen s).dp = s.dp := by
  unfold State.scanOpen
  (repeat' split) <;> simp
@[simp] theorem scanHead_dp (s : State) (best : Option Nat) (top : Nat) : (State.scanHead s best top).dp = s.dp := by
  unfold State.scanHead
  (repeat' split) <;> simp
@[simp] theorem scanEnd_dp (s : State) : (State.scanEnd s).dp = s.dp := by
  unfold State.scanEnd
  simp
@[simp] theorem zeroBlob_dp (s : State) : (State.zeroBlob s).dp = s.dp := by
  unfold State.zeroBlob
  simp
@[simp] theorem keywDone_dp (s : State) (code gen : Nat) : (State.keywDone s code gen).dp = s.dp := by
  unfold State.keywDone
  simp
@[simp] theorem writeSlot_dp (s : State) (e : Nat) (b : Bool) (m : KeyMat) : (State.writeSlot s e b m).dp = s.dp := by
  unfold State.writeSlot
  (repeat' split) <;> simp
@[simp] theorem endLease_dp (s : State) (v : Nat) : (State.endLease s v).dp = s.dp := by
  unfold State.endLease
  simp
@[simp] theorem settleSlot_dp (s : State) (e : Nat) (b : Bool) : (State.settleSlot s e b).dp = s.dp := by
  unfold State.settleSlot
  dsimp only; (repeat' split) <;> simp
@[simp] theorem installSlot_dp (s : State) (e : Nat) (b : Bool) (m : KeyMat) : (State.installSlot s e b m).dp = s.dp := by
  unfold State.installSlot
  simp
@[simp] theorem invalidate_dp (s : State) (chix : Nat) (b : Bool) (tag : W32) : (State.invalidate s chix b tag).dp = s.dp := by
  unfold State.invalidate
  simp
@[simp] theorem eraseSlot_dp (s : State) (e : Nat) (b : Bool) : (State.eraseSlot s e b).dp = s.dp := by
  unfold State.eraseSlot
  (repeat' split) <;> simp
@[simp] theorem loseSlot_dp (s : State) (e : Nat) (b : Bool) : (State.loseSlot s e b).dp = s.dp := by
  unfold State.loseSlot
  simp
@[simp] theorem unparkSlot_dp (s : State) (e : Nat) (b : Bool) : (State.unparkSlot s e b).dp = s.dp := by
  unfold State.unparkSlot
  (repeat' split) <;> simp
@[simp] theorem setCore_dp (s : State) (c : Nat) (j : Option KJob) : (State.setCore s c j).dp = s.dp := by
  unfold State.setCore
  simp
@[simp] theorem keyxPush_dp (s : State) (j : KJob) : (State.keyxPush s j).dp = s.dp := by
  unfold State.keyxPush
  simp
@[simp] theorem mirrorSwitch_dp (s : State) (e : Nat) (from_ : Bool) (q : Option Eqx) : (State.mirrorSwitch s e from_ q).dp = s.dp := by
  unfold State.mirrorSwitch
  (repeat' split) <;> simp
@[simp] theorem switchActive_dp (s : State) (e : Nat) (kind : Nat) (stamp : Stamp) : (State.switchActive s e kind stamp).dp = s.dp := by
  unfold State.switchActive
  (repeat' split) <;> simp
@[simp] theorem eqxApply_dp (s : State) (e : Nat) (stamp : Stamp) : (State.eqxApply s e stamp).dp = s.dp := by
  unfold State.eqxApply
  (repeat' split) <;> simp
@[simp] theorem eqxForced_dp (s : State) (e : Nat) (stamp : Stamp) : (State.eqxForced s e stamp).dp = s.dp := by
  unfold State.eqxForced
  (repeat' split) <;> simp
@[simp] theorem retire_dp (s : State) (e : Nat) (q : Sol) : (State.retire s e q).dp = s.dp := by
  unfold State.retire
  (repeat' split) <;> simp
@[simp] theorem solArm_dp (s : State) (e : Nat) (b : Bool) (stamp : Stamp) : (State.solArm s e b stamp).dp = s.dp := by
  unfold State.solArm
  (repeat' split) <;> simp
@[simp] theorem putSched_dp (s : State) (w0 w1 w2 w3 : W32) : (State.putSched s w0 w1 w2 w3).dp = s.dp := by
  unfold State.putSched
  simp
@[simp] theorem putTime_dp (s : State) (w0 : W32) (t : Nat) : (State.putTime s w0 t).dp = s.dp := by
  unfold State.putTime
  simp
@[simp] theorem eqxQuery_dp (s : State) (e : Nat) (en : Entry) : (State.eqxQuery s e en).dp = s.dp := by
  unfold State.eqxQuery
  (repeat' split) <;> simp
@[simp] theorem eqxSet_dp (s : State) (e : Nat) (en : Entry) (q : Eqx) : (State.eqxSet s e en q).dp = s.dp := by
  unfold State.eqxSet
  simp
@[simp] theorem eqxCancel_dp (s : State) (e : Nat) (en : Entry) : (State.eqxCancel s e en).dp = s.dp := by
  unfold State.eqxCancel
  (repeat' split) <;> simp
theorem eqxRun_dp (s : State) (e : Nat) (en : Entry) : (s.eqxRun e en).1.dp = s.dp := by
  unfold State.eqxRun
  dsimp only
  repeat' first | (simp; done) | split
@[simp] theorem solQuery_dp (s : State) (en : Entry) : (State.solQuery s en).dp = s.dp := by
  unfold State.solQuery
  (repeat' split) <;> simp
@[simp] theorem solSet_dp (s : State) (e : Nat) (en : Entry) (q : Sol) : (State.solSet s e en q).dp = s.dp := by
  unfold State.solSet
  simp
@[simp] theorem solCancel_dp (s : State) (e : Nat) (en : Entry) : (State.solCancel s e en).dp = s.dp := by
  unfold State.solCancel
  (repeat' split) <;> simp
theorem solRun_dp (s : State) (e : Nat) (en : Entry) : (s.solRun e en).1.dp = s.dp := by
  unfold State.solRun
  dsimp only
  repeat' first | (simp; done) | split
@[simp] theorem payRse_dp (s : State) (port : Nat) (express : Bool) (n : Nat) : (State.payRse s port express n).dp = s.dp := by
  unfold State.payRse
  simp
@[simp] theorem rseInit_dp (s : State) (port : Nat) (on : Bool) : (State.rseInit s port on).dp = s.dp := by
  unfold State.rseInit
  simp
@[simp] theorem sendTicket_dp (s : State) (f : Frame) (src : Nat) (v : Bool) : (State.sendTicket s f src v).dp = s.dp := by
  unfold State.sendTicket
  (repeat' split) <;> simp
@[simp] theorem sendEof_dp (s : State) (f : Frame) (b : Bytes) (c : Code) : (State.sendEof s f b c).dp = s.dp := by
  unfold State.sendEof
  simp
@[simp] theorem frameFault_dp (s : State) (det : Nat) (f : Frame) : (State.frameFault s det f).dp = s.dp := by
  unfold State.frameFault
  simp
@[simp] theorem busErrFlag_dp (s : State) (d : Dir) (port : Nat) : (State.busErrFlag s d port).dp = s.dp := by
  unfold State.busErrFlag
  simp
@[simp] theorem sawDone_dp (s : State) (code detail : Nat) : (State.sawDone s code detail).dp = s.dp := by
  unfold State.sawDone
  simp
@[simp] theorem pageCmdsFail_dp (s : State) (x code : Nat) : (State.pageCmdsFail s x code).dp = s.dp := by
  unfold State.pageCmdsFail
  dsimp only; (repeat' split) <;> simp
@[simp] theorem modIn_dp (s : State) (x : Nat) (f : PageIn → PageIn) : (State.modIn s x f).dp = s.dp := by
  unfold State.modIn
  simp
@[simp] theorem dropIn_dp (s : State) (x : Nat) : (State.dropIn s x).dp = s.dp := by
  unfold State.dropIn
  simp
@[simp] theorem modOut_dp (s : State) (x : Nat) (f : PageOut → PageOut) : (State.modOut s x f).dp = s.dp := by
  unfold State.modOut
  simp
@[simp] theorem dropOut_dp (s : State) (x : Nat) : (State.dropOut s x).dp = s.dp := by
  unfold State.dropOut
  simp
@[simp] theorem jobCheck_dp (s : State) : (State.jobCheck s).dp = s.dp := by
  unfold State.jobCheck
  simp
@[simp] theorem freeEntry_dp (s : State) (e : Nat) : (State.freeEntry s e).dp = s.dp := by
  unfold State.freeEntry
  simp
@[simp] theorem reap_dp (s : State) : (State.reap s).dp = s.dp := by
  unfold State.reap
  repeat' first | (simp) | intro _ | (refine (forEach_dp _ _ _ ?_).trans ?_) | (refine (when_dp _ _ _ ?_).trans ?_) | split | simp
@[simp] theorem pageReads_dp (s : State) (x : Nat) : (State.pageReads s x).dp = s.dp := by
  unfold State.pageReads
  simp
@[simp] theorem pageSlot_dp (s : State) (x : Nat) (b : Bool) : (State.pageSlot s x b).dp = s.dp := by
  unfold State.pageSlot
  (repeat' split) <;> simp
@[simp] theorem pageLease_dp (s : State) (x v : Nat) : (State.pageLease s x v).dp = s.dp := by
  unfold State.pageLease
  dsimp only; (repeat' split) <;> simp
@[simp] theorem keyLost_dp (s : State) (a : Bytes) (m : Option KeyMat) : (State.keyLost s a m).dp = s.dp := by
  unfold State.keyLost
  simp
@[simp] theorem pageSlots_dp (s : State) (e : Nat) (r : Bytes) (ma mb : Option KeyMat) : (State.pageSlots s e r ma mb).dp = s.dp := by
  unfold State.pageSlots
  simp
@[simp] theorem pageExposed_dp (s : State) (x e : Nat) (rx : Bool) : (State.pageExposed s x e rx).dp = s.dp := by
  unfold State.pageExposed
  dsimp only
  refine (when_dp _ _ _ (fun s => by simp)).trans (forEach_dp _ _ _ (fun s a => ?_))
  split
  · simp
  · exact when_dp _ _ _ (fun s => by simp)
@[simp] theorem pageDone_dp (s : State) (p : PageIn) (r : Bytes) (ma mb : Option KeyMat) : (State.pageDone s p r ma mb).dp = s.dp := by
  unfold State.pageDone
  dsimp only; (repeat' split) <;> simp
@[simp] theorem pushOut_dp (s : State) (o : PageOut) : (State.pushOut s o).dp = s.dp := by
  unfold State.pushOut
  simp
@[simp] theorem evict_dp (s : State) (x e : Nat) (byCmd discard : Bool) : (State.evict s x e byCmd discard).dp = s.dp := by
  unfold State.evict
  simp
@[simp] theorem outFail_dp (s : State) (x : Nat) : (State.outFail s x).dp = s.dp := by
  unfold State.outFail
  dsimp only; (repeat' split) <;> simp
@[simp] theorem outWrite_dp (s : State) (x : Nat) : (State.outWrite s x).dp = s.dp := by
  unfold State.outWrite
  (repeat' split) <;> simp
@[simp] theorem outNext_dp (s : State) (x : Nat) : (State.outNext s x).dp = s.dp := by
  unfold State.outNext
  (repeat' split) <;> simp
@[simp] theorem outStart_dp (s : State) (x e : Nat) : (State.outStart s x e).dp = s.dp := by
  unfold State.outStart
  simp
@[simp] theorem outWrapped_dp (s : State) (x : Nat) (b : Bool) : (State.outWrapped s x b).dp = s.dp := by
  unfold State.outWrapped
  (repeat' split) <;> simp
@[simp] theorem pushJob_dp (s : State) (j : GroupJob) : (State.pushJob s j).dp = s.dp := by
  unfold State.pushJob
  simp
@[simp] theorem jobEvict_dp (s : State) (x : Nat) : (State.jobEvict s x).dp = s.dp := by
  unfold State.jobEvict
  (repeat' split) <;> simp
@[simp] theorem sendPair_dp (s : State) (ty : Nat) (body : Bytes) : (State.sendPair s ty body).dp = s.dp := by
  unfold State.sendPair
  (repeat' split) <;> simp
@[simp] theorem drawNonce_dp (s : State) : (State.drawNonce s).dp = s.dp := by
  unfold State.drawNonce
  (repeat' split) <;> simp
@[simp] theorem sendHello_dp (s : State) : (State.sendHello s).dp = s.dp := by
  unfold State.sendHello
  dsimp only; (repeat' split) <;> simp
@[simp] theorem sendStatus_dp (s : State) : (State.sendStatus s).dp = s.dp := by
  unfold State.sendStatus
  (repeat' split) <;> simp
@[simp] theorem commitWaits_dp (s : State) : (State.commitWaits s).dp = s.dp := by unfold State.commitWaits; simp [tryCommit_dp]
@[simp] theorem pairSince_dp (t s : State) : (State.pairSince t s).dp = t.dp := by
  unfold State.pairSince
  simp
@[simp] theorem pairDo_dp (s : State) (f : State → State) (hf : (f s).dp = s.dp) : (State.pairDo s f).dp = s.dp := by
  unfold State.pairDo
  exact (pairSince_dp _ _).trans hf
@[simp] theorem yieldCheck_dp (s : State) : (State.yieldCheck s).dp = s.dp := by
  unfold State.yieldCheck
  simp
@[simp] theorem refloor_dp (s : State) : (State.refloor s).dp = s.dp := by
  unfold State.refloor
  repeat' first | (simp) | intro _ | (refine (forEach_dp _ _ _ ?_).trans ?_) | (refine (when_dp _ _ _ ?_).trans ?_) | split | simp
@[simp] theorem sessionEnd_dp (s : State) : (State.sessionEnd s).dp = s.dp := by
  unfold State.sessionEnd
  (repeat' split) <;> simp
@[simp] theorem peerLose_dp (s : State) : (State.peerLose s).dp = s.dp := by
  unfold State.peerLose
  simp
@[simp] theorem syncCheck_dp (s : State) : (State.syncCheck s).dp = s.dp := by
  unfold State.syncCheck
  simp
@[simp] theorem syncStart_dp (s : State) : (State.syncStart s).dp = s.dp := by
  unfold State.syncStart
  simp
@[simp] theorem mirrorFlush_dp (s : State) (k : MirKind) : (State.mirrorFlush s k).dp = s.dp := by
  unfold State.mirrorFlush
  simp
@[simp] theorem ackGot_dp (s : State) (a : Nat) : (State.ackGot s a).dp = s.dp := by
  unfold State.ackGot
  repeat' first | (simp) | intro _ | (refine (forEach_dp _ _ _ ?_).trans ?_) | (refine (when_dp _ _ _ ?_).trans ?_) | split | simp
@[simp] theorem sendSyncReq_dp (s : State) : (State.sendSyncReq s).dp = s.dp := by
  unfold State.sendSyncReq
  simp
@[simp] theorem applySlot_dp (s : State) (e x : Nat) (b : Bool) (it : Bytes) : (State.applySlot s e x b it).dp = s.dp := by
  unfold State.applySlot
  simp
@[simp] theorem applySched_dp (s : State) (e : Nat) (en : Entry) (b : Bool) (it : Bytes) : (State.applySched s e en b it).dp = s.dp := by
  unfold State.applySched
  simp
@[simp] theorem applyFloor_dp (s : State) (e : Nat) (en : Entry) (b : Bool) (it : Bytes) : (State.applyFloor s e en b it).dp = s.dp := by
  unfold State.applyFloor
  simp
@[simp] theorem applyItem_dp (s : State) (e : Nat) (en : Entry) (k : MirKind) (it : Bytes) : (State.applyItem s e en k it).dp = s.dp := by
  unfold State.applyItem
  (repeat' split) <;> simp
@[simp] theorem syncJudge_dp (s : State) : (State.syncJudge s).dp = s.dp := by
  unfold State.syncJudge
  (repeat' split) <;> simp
@[simp] theorem ackSend_dp (s : State) : (State.ackSend s).dp = s.dp := by
  unfold State.ackSend
  simp
@[simp] theorem leaseHeld_dp (s : State) : (State.leaseHeld s).dp = s.dp := by
  unfold State.leaseHeld
  simp
@[simp] theorem storeEnd_dp (s : State) : (State.storeEnd s).dp = s.dp := by
  unfold State.storeEnd
  simp
@[simp] theorem busParity_dp (s : State) (d : Dir) (port : Nat) (cls : Bool) : (State.busParity s d port cls).dp = s.dp := by
  unfold State.busParity
  simp
@[simp] theorem admitCounts_dp (s : State) (f : Frame) : (State.admitCounts s f).dp = s.dp := by
  unfold State.admitCounts
  simp
@[simp] theorem issueRest_dp (s : State) (f : Frame) (n : Nat) : (State.issueRest s f n).dp = s.dp := by
  unfold State.issueRest
  simp
@[simp] theorem countEnd_dp (s : State) (f : Frame) : (State.countEnd s f).dp = s.dp := by
  unfold State.countEnd
  (repeat' split) <;> simp
@[simp] theorem xingBad_dp (s : State) (lane : Nat) : (State.xingBad s lane).dp = s.dp := by
  unfold State.xingBad
  simp
@[simp] theorem blackCount_dp (s : State) (lane ctr inc : Nat) : (State.blackCount s lane ctr inc).dp = s.dp := by
  unfold State.blackCount
  simp
@[simp] theorem setSawArg_dp (s : State) (n : Nat) (w : W32) : (State.setSawArg s n w).dp = s.dp := by
  unfold State.setSawArg
  simp
@[simp] theorem writeImage_dp (s : State) (x e : Nat) (w : W32) : (State.writeImage s x e w).dp = s.dp := by
  unfold State.writeImage
  simp
@[simp] theorem putImage_dp (s : State) (en : Entry) (w6 : W32) (a b : Slot) : (State.putImage s en w6 a b).dp = s.dp := by
  unfold State.putImage
  simp
@[simp] theorem askMore_dp (s : State) (l : List (Nat × Nat)) : (State.askMore s l).dp = s.dp := by
  unfold State.askMore
  simp
@[simp] theorem askLines_dp (s : State) (l : List (Nat × Nat)) : (State.askLines s l).dp = s.dp := by
  unfold State.askLines
  simp
@[simp] theorem runRead_dp (s : State) (x : Nat) : (State.runRead s x).dp = s.dp := by
  unfold State.runRead
  (repeat' split) <;> simp
@[simp] theorem forgetJournal_dp (s : State) (x : Nat) (drop : Bool) : (State.forgetJournal s x drop).dp = s.dp := by
  unfold State.forgetJournal
  simp
@[simp] theorem discardSlot_dp (s : State) (e : Nat) (b : Bool) : (State.discardSlot s e b).dp = s.dp := by
  unfold State.discardSlot
  simp
@[simp] theorem runUnpin_dp (s : State) (x : Nat) : (State.runUnpin s x).dp = s.dp := by
  unfold State.runUnpin
  (repeat' split) <;> simp
@[simp] theorem statAnswer_dp (s : State) (x first : Nat) (leaf : Bytes) (resident rx : Bool) : (State.statAnswer s x first leaf resident rx).dp = s.dp := by
  unfold State.statAnswer
  simp
@[simp] theorem runStat_dp (s : State) (x : Nat) : (State.runStat s x).dp = s.dp := by
  unfold State.runStat
  dsimp only; (repeat' split) <;> simp
@[simp] theorem clearLeaves_dp (s : State) (x e : Nat) (fs : List Nat) : (State.clearLeaves s x e fs).dp = s.dp := by
  unfold State.clearLeaves
  simp
@[simp] theorem runClear_dp (s : State) (x : Nat) : (State.runClear s x).dp = s.dp := by
  unfold State.runClear
  (repeat' split) <;> simp
@[simp] theorem runBucket_dp (s : State) (x : Nat) : (State.runBucket s x).dp = s.dp := by
  unfold State.runBucket
  simp
@[simp] theorem sawLost_dp (s : State) (op x : Nat) : (State.sawLost s op x).dp = s.dp := by
  unfold State.sawLost
  simp
@[simp] theorem keywHere_dp (s : State) (c : W32) (e : Nat) (en : Entry) : (State.keywHere s c e en).dp = s.dp := by
  unfold State.keywHere
  dsimp only; (repeat' split) <;> simp
@[simp] theorem leaseDone_dp (s : State) (code : Nat) : (State.leaseDone s code).dp = s.dp := by
  unfold State.leaseDone
  simp
@[simp] theorem jnlAnswer_dp (s : State) (v : Live) : (State.jnlAnswer s v).dp = s.dp := by
  unfold State.jnlAnswer
  simp
@[simp] theorem leaseRun_dp (s : State) : (State.leaseRun s).dp = s.dp := by
  unfold State.leaseRun
  dsimp only; (repeat' split) <;> simp
@[simp] theorem masterDraw_dp (s : State) : (State.masterDraw s).dp = s.dp := by
  unfold State.masterDraw
  (repeat' split) <;> simp
@[simp] theorem storeFail_dp (s : State) (c : W32) (code : Nat) : (State.storeFail s c code).dp = s.dp := by
  unfold State.storeFail
  simp
@[simp] theorem keyNew_dp (s : State) (c : W32) : (State.keyNew s c).dp = s.dp := by
  unfold State.keyNew
  dsimp only; (repeat' split) <;> simp
@[simp] theorem keyErase_dp (s : State) (sel : Nat) : (State.keyErase s sel).dp = s.dp := by
  unfold State.keyErase
  simp
@[simp] theorem storeRun_dp (s : State) : (State.storeRun s).dp = s.dp := by
  unfold State.storeRun
  (repeat' split) <;> simp
@[simp] theorem chkShow_dp (s : State) : (State.chkShow s).dp = s.dp := by
  unfold State.chkShow
  simp
@[simp] theorem setCal_dp (s : State) (n : Nat) (w : W128) : (State.setCal s n w).dp = s.dp := by
  unfold State.setCal
  simp
@[simp] theorem putWords_dp (s : State) (p : Page) (off : Nat) (w : W128) : (State.putWords s p off w).dp = s.dp := by
  unfold State.putWords
  simp
@[simp] theorem calShow_dp (s : State) : (State.calShow s).dp = s.dp := by
  unfold State.calShow
  simp
@[simp] theorem regRetry_dp (s : State) : (State.regRetry s).dp = s.dp := by
  unfold State.regRetry
  simp
@[simp] theorem withMode_dp (s : State) (m : Nat) : (State.withMode s m).dp = s.dp := by
  unfold State.withMode
  simp
@[simp] theorem noteHeader_dp (s : State) (ty : Nat) (m : Bytes) : (State.noteHeader s ty m).dp = s.dp := by
  unfold State.noteHeader
  simp
@[simp] theorem rxBad_dp (s : State) (seqOnly : Bool) : (State.rxBad s seqOnly).dp = s.dp := by
  unfold State.rxBad
  simp
@[simp] theorem sessionUp_dp (s : State) (own peer : W128) : (State.sessionUp s own peer).dp = s.dp := by
  unfold State.sessionUp
  (repeat' split) <;> simp
@[simp] theorem helloGot_dp (s : State) (m : Bytes) : (State.helloGot s m).dp = s.dp := by
  unfold State.helloGot
  dsimp only; (repeat' split) <;> simp
@[simp] theorem leaveActive_dp (s : State) (r : Role) : (State.leaveActive s r).dp = s.dp := by
  unfold State.leaveActive
  simp
@[simp] theorem toStandby_dp (s : State) : (State.toStandby s).dp = s.dp := by
  unfold State.toStandby
  simp
@[simp] theorem peerActive_dp (s : State) (epoch : Nat) : (State.peerActive s epoch).dp = s.dp := by
  unfold State.peerActive
  simp
@[simp] theorem mirrorGot_dp (s : State) (k : MirKind) (m : Bytes) : (State.mirrorGot s k m).dp = s.dp := by
  unfold State.mirrorGot
  (repeat' split) <;> simp
@[simp] theorem floorJudge_dp (s : State) : (State.floorJudge s).dp = s.dp := by
  unfold State.floorJudge
  simp
@[simp] theorem floorTick_dp (s : State) : (State.floorTick s).dp = s.dp := by
  unfold State.floorTick
  repeat' first | (simp) | intro _ | (refine (forEach_dp _ _ _ ?_).trans ?_) | (refine (when_dp _ _ _ ?_).trans ?_) | split | simp
@[simp] theorem promoSlot_dp (s : State) (v : Nat) : (State.promoSlot s v).dp = s.dp := by
  unfold State.promoSlot
  dsimp only; (repeat' split) <;> simp
@[simp] theorem promoLeases_dp (s : State) : (State.promoLeases s).dp = s.dp := by
  unfold State.promoLeases
  simp
@[simp] theorem loseNow_dp (s : State) : (State.loseNow s).dp = s.dp := by
  unfold State.loseNow
  repeat' first | (simp) | intro _ | (refine (forEach_dp _ _ _ ?_).trans ?_) | (refine (when_dp _ _ _ ?_).trans ?_) | split | simp
@[simp] theorem exposeAll_dp (s : State) : (State.exposeAll s).dp = s.dp := by
  unfold State.exposeAll
  simp
@[simp] theorem promote_dp (s : State) (prev : BitVec 2) : (State.promote s prev).dp = s.dp := by
  unfold State.promote
  simp
@[simp] theorem grantNone_dp (s : State) : (State.grantNone s).dp = s.dp := by
  unfold State.grantNone
  simp
@[simp] theorem grantSelf_dp (s : State) (prev : BitVec 2) : (State.grantSelf s prev).dp = s.dp := by
  unfold State.grantSelf
  (repeat' split) <;> simp
@[simp] theorem grantPeer_dp (s : State) (higher : Bool) : (State.grantPeer s higher).dp = s.dp := by
  unfold State.grantPeer
  dsimp only; (repeat' split) <;> simp
@[simp] theorem grantTake_dp (s : State) (m : Bytes) : (State.grantTake s m).dp = s.dp := by
  unfold State.grantTake
  simp
@[simp] theorem pairDone_dp (s : State) (code op : Nat) : (State.pairDone s code op).dp = s.dp := by
  unfold State.pairDone
  simp
@[simp] theorem pairYield_dp (s : State) : (State.pairYield s).dp = s.dp := by
  unfold State.pairYield
  simp
@[simp] theorem pairRequest_dp (s : State) : (State.pairRequest s).dp = s.dp := by
  unfold State.pairRequest
  (try dsimp only)
  repeat' first | (simp; done) | split | (refine (pairDo_dp _ _ (by simp)).trans ?_)
@[simp] theorem pairResync_dp (s : State) : (State.pairResync s).dp = s.dp := by
  unfold State.pairResync
  simp
@[simp] theorem pairCmd_dp (s : State) (op : Nat) : (State.pairCmd s op).dp = s.dp := by
  unfold State.pairCmd
  (repeat' split) <;> simp
@[simp] theorem pairKeys_dp (s : State) : (State.pairKeys s).dp = s.dp := by
  unfold State.pairKeys
  simp
@[simp] theorem leavePair_dp (s : State) : (State.leavePair s).dp = s.dp := by
  unfold State.leavePair
  simp
@[simp] theorem toUnpaired_dp (s : State) : (State.toUnpaired s).dp = s.dp := by
  unfold State.toUnpaired
  simp
@[simp] theorem pairCfgApplied_dp (s was : State) : (State.pairCfgApplied s was).dp = s.dp := by
  unfold State.pairCfgApplied
  simp
@[simp] theorem surgeNow_dp (s : State) : (State.surgeNow s).dp = s.dp := by
  unfold State.surgeNow
  simp
@[simp] theorem autumnNext_dp (s : State) (d : Nat) : (State.autumnNext s d).dp = s.dp := by
  unfold State.autumnNext
  simp
@[simp] theorem domLost_dp (s : State) (d : Nat) : (State.domLost s d).dp = s.dp := by
  unfold State.domLost
  simp
@[simp] theorem domBack_dp (s : State) (d : Nat) : (State.domBack s d).dp = s.dp := by
  unfold State.domBack
  simp
@[simp] theorem wakeFailed_dp (s : State) (d : Nat) : (State.wakeFailed s d).dp = s.dp := by
  unfold State.wakeFailed
  simp
@[simp] theorem pmDone_dp (s : State) (d : Nat) (op : PmOp) : (State.pmDone s d op).dp = s.dp := by
  unfold State.pmDone
  dsimp only; (repeat' split) <;> simp
@[simp] theorem wakeNext_dp (s : State) (n : Nat) : (State.wakeNext s n).dp = s.dp := by
  unfold State.wakeNext
  dsimp only; (repeat' split) <;> simp
@[simp] theorem pmRefused_dp (s : State) (d : Nat) (op : PmOp) : (State.pmRefused s d op).dp = s.dp := by
  unfold State.pmRefused
  simp
@[simp] theorem pmAgain_dp (s : State) (d : Nat) : (State.pmAgain s d).dp = s.dp := by
  unfold State.pmAgain
  dsimp only; (repeat' split) <;> simp
@[simp] theorem thawTests_dp (s : State) (d : Nat) : (State.thawTests s d).dp = s.dp := by
  unfold State.thawTests
  simp
@[simp] theorem enterTest_dp (s : State) (n : Nat) (byRun : Bool) : (State.enterTest s n byRun).dp = s.dp := by
  unfold State.enterTest
  simp
@[simp] theorem maskDrain_dp (s : State) (n : Nat) : (State.maskDrain s n).dp = s.dp := by
  unfold State.maskDrain
  (repeat' split) <;> simp
@[simp] theorem maskHalt_dp (s : State) (inj : Bool) (n : Nat) : (State.maskHalt s inj n).dp = s.dp := by
  unfold State.maskHalt
  dsimp only; (repeat' split) <;> simp
@[simp] theorem svcSet_dp (s : State) (n : Nat) (force : Bool) : (State.svcSet s n force).dp = s.dp := by
  unfold State.svcSet
  dsimp only; (repeat' split) <;> simp
@[simp] theorem svcClear_dp (s : State) (n : Nat) : (State.svcClear s n).dp = s.dp := by
  unfold State.svcClear
  dsimp only; (repeat' split) <;> simp
@[simp] theorem slCtl_dp (s : State) (n : Nat) (data : W32) : (State.slCtl s n data).dp = s.dp := by
  unfold State.slCtl
  simp
@[simp] theorem rsvApply_dp (s : State) (ing : Bool) : (State.rsvApply s ing).dp = s.dp := by
  unfold State.rsvApply
  (repeat' split) <;> simp
@[simp] theorem applyRows_dp (s : State) (p : Page) : (State.applyRows s p).dp = s.dp := by
  unfold State.applyRows
  simp
@[simp] theorem portSwitched_dp (s : State) (n : Nat) (was : Bool) : (State.portSwitched s n was).dp = s.dp := by
  unfold State.portSwitched
  simp
@[simp] theorem cfgActs_dp (s : State) (was : State) (p : Page) : (State.cfgActs s was p).dp = s.dp := by
  unfold State.cfgActs
  (repeat' split) <;> simp
@[simp] theorem commitRefuse_dp (s : State) (p : Page) : (State.commitRefuse s p).dp = s.dp := by
  unfold State.commitRefuse
  simp
@[simp] theorem commitWrite_dp (s : State) (p : Page) : (State.commitWrite s p).dp = s.dp := by
  unfold State.commitWrite
  simp
@[simp] theorem unlockWrite_dp (s : State) (p : Page) (data : W32) : (State.unlockWrite s p data).dp = s.dp := by
  unfold State.unlockWrite
  simp
@[simp] theorem presetCtr_dp (s : State) (n : Nat) (data : W32) : (State.presetCtr s n data).dp = s.dp := by
  unfold State.presetCtr
  simp
@[simp] theorem pcntClear_dp (s : State) (k : Nat) : (State.pcntClear s k).dp = s.dp := by
  unfold State.pcntClear
  simp
@[simp] theorem pcntClearAll_dp (s : State) (port : Nat) : (State.pcntClearAll s port).dp = s.dp := by
  unfold State.pcntClearAll
  simp
@[simp] theorem grpGo_dp (s : State) : (State.grpGo s).dp = s.dp := by
  unfold State.grpGo
  simp
@[simp] theorem addFloor_dp (s : State) (f : Floor) : (State.addFloor s f).dp = s.dp := by
  unfold State.addFloor
  simp
@[simp] theorem fireSeason_dp (s : State) (w : W128) (due : Nat) : (State.fireSeason s w due).dp = s.dp := by
  unfold State.fireSeason
  simp
@[simp] theorem fireEntry_dp (s : State) (n : Nat) (w : W128) (due : Nat) : (State.fireEntry s n w due).dp = s.dp := by
  unfold State.fireEntry
  simp
@[simp] theorem fireAll_dp (s : State) : (State.fireAll s).dp = s.dp := by
  unfold State.fireAll
  repeat' first | (simp) | intro _ | (refine (forEach_dp _ _ _ ?_).trans ?_) | (refine (when_dp _ _ _ ?_).trans ?_) | split | simp
@[simp] theorem keyxStart_dp (s : State) : (State.keyxStart s).dp = s.dp := by
  unfold State.keyxStart
  (repeat' split) <;> simp
@[simp] theorem nvWritten_dp (s : State) (err : Bool) : (State.nvWritten s err).dp = s.dp := by
  unfold State.nvWritten
  (repeat' split) <;> simp
@[simp] theorem nvRead_dp (s : State) (err : Bool) (data : Bytes) : (State.nvRead s err data).dp = s.dp := by
  unfold State.nvRead
  simp
@[simp] theorem zeroScheds_dp (s : State) : (State.zeroScheds s).dp = s.dp := by
  unfold State.zeroScheds
  repeat' first | (simp) | intro _ | (refine (forEach_dp _ _ _ ?_).trans ?_) | (refine (when_dp _ _ _ ?_).trans ?_) | split | simp
@[simp] theorem zeroSlots_dp (s : State) : (State.zeroSlots s).dp = s.dp := by
  unfold State.zeroSlots
  simp
@[simp] theorem selLost_dp (s : State) (p : Nat → Bool) : (State.selLost s p).dp = s.dp := by
  unfold State.selLost
  simp
@[simp] theorem zeroStore_dp (s : State) : (State.zeroStore s).dp = s.dp := by
  unfold State.zeroStore
  simp
@[simp] theorem seedSec_dp (s : State) : (State.seedSec s).dp = s.dp := by
  unfold State.seedSec
  simp
@[simp] theorem bootDraw_dp (s : State) : (State.bootDraw s).dp = s.dp := by
  unfold State.bootDraw
  simp
@[simp] theorem bootAsk_dp (s : State) (l : List Nat) : (State.bootAsk s l).dp = s.dp := by
  unfold State.bootAsk
  simp
@[simp] theorem domsSummer_dp (s : State) (l : List Nat) : (State.domsSummer s l).dp = s.dp := by
  unfold State.domsSummer
  simp
@[simp] theorem latentPassed_dp (s : State) (t : Nat) : (State.latentPassed s t).dp = s.dp := by
  unfold State.latentPassed
  simp
@[simp] theorem portsStart_dp (s : State) : (State.portsStart s).dp = s.dp := by
  unfold State.portsStart
  simp
@[simp] theorem phaseEnd_dp (s : State) : (State.phaseEnd s).dp = s.dp := by
  unfold State.phaseEnd
  repeat' first | (simp) | intro _ | (refine (forEach_dp _ _ _ ?_).trans ?_) | (refine (when_dp _ _ _ ?_).trans ?_) | split | simp
@[simp] theorem klTake_dp (s : State) (data : W32) : (State.klTake s data).dp = s.dp := by
  unfold State.klTake
  simp
@[simp] theorem klBeat_dp (s : State) (beat : Nat) (data : W32) : (State.klBeat s beat data).dp = s.dp := by
  unfold State.klBeat
  simp
@[simp] theorem deriveEnd_dp (s : State) : (State.deriveEnd s).dp = s.dp := by
  unfold State.deriveEnd
  (try dsimp only)
  repeat' first | (simp; done) | split | (refine (pairDo_dp _ _ (by simp)).trans ?_)
@[simp] theorem deriveStart_dp (s : State) : (State.deriveStart s).dp = s.dp := by
  unfold State.deriveStart
  simp
@[simp] theorem deriveOne_dp (s : State) (root : BitVec 256) (n : Nat) (rest : NatSet) : (State.deriveOne s root n rest).dp = s.dp := by
  unfold State.deriveOne
  simp
@[simp] theorem reseed_dp (s : State) (g : Nat) (again : Bool) : (State.reseed s g again).dp = s.dp := by
  unfold State.reseed
  simp
@[simp] theorem setRec_dp (s : State) (i : Nat) (r : Option FRec) : (State.setRec s i r).dp = s.dp := by
  unfold State.setRec
  simp
@[simp] theorem recLoad_dp (s : State) : (State.recLoad s).dp = s.dp := by
  unfold State.recLoad
  simp
@[simp] theorem recNoted_dp (s : State) (e : FEvent) : (State.recNoted s e).dp = s.dp := by
  unfold State.recNoted
  simp
@[simp] theorem putRec_dp (s : State) (i : Nat) (e : FEvent) : (State.putRec s i e).dp = s.dp := by
  unfold State.putRec
  simp
@[simp] theorem takeEvent_dp (s : State) (e : FEvent) : (State.takeEvent s e).dp = s.dp := by
  unfold State.takeEvent
  (repeat' split) <;> simp
@[simp] theorem recLet_dp (s : State) (was : State) : (State.recLet s was).dp = s.dp := by
  unfold State.recLet
  repeat' first | (simp) | intro _ | (refine (forEach_dp _ _ _ ?_).trans ?_) | (refine (when_dp _ _ _ ?_).trans ?_) | split | simp
@[simp] theorem recClr_dp (s : State) (data : W32) : (State.recClr s data).dp = s.dp := by
  unfold State.recClr
  repeat' first | (simp) | intro _ | (refine (forEach_dp _ _ _ ?_).trans ?_) | (refine (when_dp _ _ _ ?_).trans ?_) | split | simp
@[simp] theorem clearPages_dp (s : State) (q : Part) : (State.clearPages s q).dp = s.dp := by
  unfold State.clearPages
  simp
@[simp] theorem hostDrop_dp (s : State) : (State.hostDrop s).dp = s.dp := by
  unfold State.hostDrop
  simp
@[simp] theorem resetStore_dp (s : State) : (State.resetStore s).dp = s.dp := by
  unfold State.resetStore
  simp
@[simp] theorem resetMarch_dp (s : State) : (State.resetMarch s).dp = s.dp := by
  unfold State.resetMarch
  simp
@[simp] theorem resetLease_dp (s : State) : (State.resetLease s).dp = s.dp := by
  unfold State.resetLease
  simp
@[simp] theorem resetPair_dp (s : State) : (State.resetPair s).dp = s.dp := by
  unfold State.resetPair
  simp
@[simp] theorem keyxRestart_dp (s : State) : (State.keyxRestart s).dp = s.dp := by
  unfold State.keyxRestart
  simp
@[simp] theorem resetSec_dp (s : State) : (State.resetSec s).dp = s.dp := by
  unfold State.resetSec
  simp
@[simp] theorem resetAo_dp (s : State) : (State.resetAo s).dp = s.dp := by
  unfold State.resetAo
  simp
@[simp] theorem resetShared_dp (s : State) (p : Page) (offs : List Nat) : (State.resetShared s p offs).dp = s.dp := by
  unfold State.resetShared
  simp
@[simp] theorem globPages_dp (s : State) : (State.globPages s).dp = s.dp := by
  unfold State.globPages
  exact (resetShared_dp _ _ _).trans ((resetShared_dp _ _ _).trans ((modRegs_dp _ _).trans (clearPages_dp _ _)))
@[simp] theorem storeReturn_dp (s : State) : (State.storeReturn s).dp = s.dp := by
  unfold State.storeReturn
  simp
@[simp] theorem backInService_dp (s : State) (q : Part) : (State.backInService s q).dp = s.dp := by
  unfold State.backInService
  (repeat' split) <;> simp
@[simp] theorem autoDone_dp (s : State) (q : Part) : (State.autoDone s q).dp = s.dp := by
  unfold State.autoDone
  simp
@[simp] theorem sramUe_dp (s : State) (dom : Nat) (addr : W32) (chix : Option Nat) : (State.sramUe s dom addr chix).dp = s.dp := by
  unfold State.sramUe
  simp
@[simp] theorem kekAgain_dp (s : State) : (State.kekAgain s).dp = s.dp := by
  unfold State.kekAgain
  simp
@[simp] theorem kekUe_dp (s : State) (n : Nat) : (State.kekUe s n).dp = s.dp := by
  unfold State.kekUe
  simp
@[simp] theorem rootUe_dp (s : State) : (State.rootUe s).dp = s.dp := by
  unfold State.rootUe
  simp
@[simp] theorem pnUe_dp (s : State) (v : Nat) : (State.pnUe s v).dp = s.dp := by
  unfold State.pnUe
  dsimp only; (repeat' split) <;> simp
@[simp] theorem rxUe_dp (s : State) (v : Nat) (bitmap : Bool) : (State.rxUe s v bitmap).dp = s.dp := by
  unfold State.rxUe
  dsimp only; (repeat' split) <;> simp
@[simp] theorem slotOrphan_dp (s : State) (e : Nat) (b : Bool) : (State.slotOrphan s e b).dp = s.dp := by
  unfold State.slotOrphan
  simp
@[simp] theorem chixLost_dp (s : State) (x : Nat) : (State.chixLost s x).dp = s.dp := by
  unfold State.chixLost
  (repeat' split) <;> simp
@[simp] theorem recordUe_dp (s : State) (e : Nat) : (State.recordUe s e).dp = s.dp := by
  unfold State.recordUe
  dsimp only; (repeat' split) <;> simp
@[simp] theorem treeUe_dp (s : State) (e w : Nat) : (State.treeUe s e w).dp = s.dp := by
  unfold State.treeUe
  dsimp only; (repeat' split) <;> simp
@[simp] theorem evcUe_dp (s : State) (n : Nat) : (State.evcUe s n).dp = s.dp := by
  unfold State.evcUe
  simp
@[simp] theorem pcntUe_dp (s : State) (port idx : Nat) : (State.pcntUe s port idx).dp = s.dp := by
  unfold State.pcntUe
  simp
@[simp] theorem residencyUe_dp (s : State) (w : Nat) : (State.residencyUe s w).dp = s.dp := by
  unfold State.residencyUe
  simp
@[simp] theorem groupUe_dp (s : State) (w : Nat) : (State.groupUe s w).dp = s.dp := by
  unfold State.groupUe
  simp
@[simp] theorem masterUe_dp (s : State) : (State.masterUe s).dp = s.dp := by
  unfold State.masterUe
  simp
@[simp] theorem wcbUe_dp (s : State) (line : Nat) : (State.wcbUe s line).dp = s.dp := by
  unfold State.wcbUe
  dsimp only; (repeat' split) <;> simp
@[simp] theorem parityLoss_dp (s : State) (p : Page) (off : Nat) : (State.parityLoss s p off).dp = s.dp := by
  unfold State.parityLoss
  simp
@[simp] theorem setTm_dp (s : State) (copyA : Bool) (t : Stamp) : (State.setTm s copyA t).dp = s.dp := by
  unfold State.setTm
  simp
@[simp] theorem stepped_dp (s : State) (copyA : Bool) (old new elapsed : Nat) : (State.stepped s copyA old new elapsed).dp = s.dp := by
  unfold State.stepped
  repeat' first | (simp) | intro _ | (refine (forEach_dp _ _ _ ?_).trans ?_) | (refine (when_dp _ _ _ ?_).trans ?_) | split | simp
@[simp] theorem takeSample_dp (s : State) (copyA vld : Bool) (sec ns elapsed : Nat) : (State.takeSample s copyA vld sec ns elapsed).dp = s.dp := by
  unfold State.takeSample
  simp
@[simp] theorem clkOne_dp (s : State) (i : Nat) (f : W32) : (State.clkOne s i f).dp = s.dp := by
  unfold State.clkOne
  simp
@[simp] theorem capture_dp (s : State) (r : TimeReg) : (State.capture s r).dp = s.dp := by
  unfold State.capture
  simp
@[simp] theorem cacheFill_dp (s : State) (sel : Nat) : (State.cacheFill s sel).dp = s.dp := by
  unfold State.cacheFill
  simp
theorem marchRun_dp (s : State) (op : Nat) : (s.marchRun op).1.dp = s.dp := by
  unfold State.marchRun
  dsimp only
  repeat' first | (simp; done) | split
@[simp] theorem marchKeygen_dp (s : State) : (State.marchKeygen s).dp = s.dp := by
  unfold State.marchKeygen
  (repeat' split) <;> simp
@[simp] theorem marchIssue_dp (s : State) : (State.marchIssue s).dp = s.dp := by
  unfold State.marchIssue
  dsimp only; (repeat' split) <;> simp
@[simp] theorem logPop_dp (s : State) : (State.logPop s).dp = s.dp := by
  unfold State.logPop
  simp
@[simp] theorem poisonRead_dp (s : State) (p : Page) (off : Nat) : (State.poisonRead s p off).dp = s.dp := by
  unfold State.poisonRead
  (repeat' split) <;> simp
@[simp] theorem readActs_dp (s : State) (p : Page) (off : Nat) : (State.readActs s p off).dp = s.dp := by
  unfold State.readActs
  (repeat' split) <;> simp
@[simp] theorem readAt_dp (s : State) (a : Nat) : (s.readAt a).2.dp = s.dp := by
  unfold State.readAt
  repeat' split
  all_goals simp
@[simp] theorem cpRead_dp (s : State) (a size : Nat) : (State.cpRead s a size).dp = s.dp := by
  unfold State.cpRead
  dsimp only
  repeat' split
  all_goals simp [readAt_dp]
@[simp] theorem glbRecompute_dp (s : State) : (State.glbRecompute s).dp = s.dp := by
  unfold State.glbRecompute
  simp
@[simp] theorem bypLoad_dp (s : State) (n : Nat) : (State.bypLoad s n).dp = s.dp := by
  unfold State.bypLoad
  simp
@[simp] theorem statusWrite_dp (s : State) (p : Page) (data : W32) : (State.statusWrite s p data).dp = s.dp := by
  unfold State.statusWrite
  simp
@[simp] theorem flagWrite_dp (s : State) (p : Page) (off : Nat) (data : W32) : (State.flagWrite s p off data).dp = s.dp := by
  unfold State.flagWrite
  repeat' first | (simp) | intro _ | (refine (forEach_dp _ _ _ ?_).trans ?_) | (refine (when_dp _ _ _ ?_).trans ?_) | split | simp
@[simp] theorem stageWrite_dp (s : State) (p : Page) (off : Nat) (m data : W32) : (State.stageWrite s p off m data).dp = s.dp := by
  unfold State.stageWrite
  repeat' first | (simp) | intro _ | (refine (forEach_dp _ _ _ ?_).trans ?_) | (refine (when_dp _ _ _ ?_).trans ?_) | split | simp
@[simp] theorem plainWrite_dp (s : State) (p : Page) (off : Nat) (m data : W32) (covered : Bool) : (State.plainWrite s p off m data covered).dp = s.dp := by
  unfold State.plainWrite
  (repeat' split) <;> simp
@[simp] theorem fieldWrite_dp (s : State) (p : Page) (off : Nat) (data : W32) : (State.fieldWrite s p off data).dp = s.dp := by
  unfold State.fieldWrite
  (repeat' split) <;> simp
@[simp] theorem narrowWrite_dp (s : State) (a : Nat) : (State.narrowWrite s a).dp = s.dp := by
  unfold State.narrowWrite
  (repeat' split) <;> simp
@[simp] theorem posted_dp (s : State) (p : Page) : (State.posted s p).dp = s.dp := by
  unfold State.posted
  simp
@[simp] theorem evtIf_dp (s : State) (c : Bool) (n k : Nat) : (State.evtIf s c n k).dp = s.dp := by
  unfold State.evtIf
  simp
@[simp] theorem gather_dp (s : State) : (State.gather s).dp = s.dp := by
  unfold State.gather
  simp

end Sys2Proof.Machine
end

