-- ==== Sys2Proof/Laws/Numbered.lean ====
section
/-! SUPPORT. Every operation keeps the numbers of the frames apart. -/
namespace Sys2Proof.Machine

theorem forEach_num {α : Type} (s : State) (f : State → α → State) (hf : ∀ s a, s.dp.numbered → (f s a).dp.numbered) (l : List α)
    (h : s.dp.numbered) : (s.forEach l f).dp.numbered := forEach_inv (fun s => s.dp.numbered) f hf l s h
theorem when_num (f : State → State) (hf : ∀ s, s.dp.numbered → (f s).dp.numbered) (c : Bool)
    (s : State) (h : s.dp.numbered) : (s.when c f).dp.numbered := by cases c <;> simp [h, hf]
theorem same_num (d : Dp) (e : Dp) (h1 : e.frames = d.frames) (h2 : e.nextFrame = d.nextFrame) (h : d.numbered) : e.numbered := by
  unfold Dp.numbered
  rw [h1, h2]
  exact h
theorem modDp_num (s : State) (g : Dp → Dp) (h1 : (g s.dp).frames = s.dp.frames) (h2 : (g s.dp).nextFrame = s.dp.nextFrame)
    (h : s.dp.numbered) : (s.modDp g).dp.numbered := same_num s.dp _ h1 h2 h
theorem raise_num (s : State) (g : Dp → Dp) (h1 : (g s.dp).frames = s.dp.frames) (h2 : s.dp.nextFrame ≤ (g s.dp).nextFrame)
    (h : s.dp.numbered) : (s.modDp g).dp.numbered := by
  refine ⟨fun f hf => Nat.lt_of_lt_of_le (h.1 f ?_) h2, ?_⟩
  · rw [← h1]; exact hf
  · show ((g s.dp).frames.map Frame.id).Nodup
    rw [h1]; exact h.2
theorem sub_num (s : State) (g : Dp → List Frame) (hs : (g s.dp).Sublist s.dp.frames) (h : s.dp.numbered) :
    (s.modDp (fun d => { d with frames := g d })).dp.numbered :=
  ⟨fun f hf => h.1 f (hs.subset hf), h.2.sublist (hs.map _)⟩
theorem modAll_num (s : State) (g : Frame → Frame) (hg : ∀ f, (g f).id = f.id) (h : s.dp.numbered) :
    (s.modDp (fun d => { d with frames := d.frames.map g })).dp.numbered := by
  refine ⟨fun f hf => ?_, ?_⟩
  · obtain ⟨q, hq, rfl⟩ := List.mem_map.mp hf
    rw [hg]
    exact h.1 q hq
  · have e : (s.dp.frames.map g).map Frame.id = s.dp.frames.map Frame.id := by
      rw [List.map_map]
      exact List.map_congr_left (fun f _ => hg f)
    exact e ▸ h.2
theorem sweepVoid_sub (k : Nat) (l : List Frame) : (sweepVoid k l).Sublist l := by
  induction l with
  | nil => exact List.Sublist.slnil
  | cons f t ih =>
    unfold sweepVoid
    split
    · split
      · exact ih.cons f
      · exact List.Sublist.refl _
    · exact ih.cons_cons f
@[simp] theorem keepIn_id (en : Entry) (b : Bool) (e : Nat) (an : BitVec 2) (len hdr clear : Nat) (g : Frame) :
    (keepIn en b e an len hdr clear g).id = g.id := rfl
@[simp] theorem plainOut_id (f : Frame) (b : Bytes) : (f.plainOut b).id = f.id := by unfold Frame.plainOut; split <;> rfl
@[simp] theorem issue_id (f : Frame) : f.issue.id = f.id := by unfold Frame.issue; repeat' (first | rfl | split)
@[simp] theorem combine_id (f : Frame) : f.combine.id = f.id := by unfold Frame.combine; split <;> rfl
theorem gated_num (s : State) (p : Page) (off : Nat) (data : W32) (uses : Bool) (act : State → State)
    (hf : ∀ s, s.dp.numbered → (act s).dp.numbered) (h : s.dp.numbered) : (s.gated p off data uses act).dp.numbered := by
  unfold State.gated
  dsimp only
  split <;> simp [h]
  exact hf _ (by simp [h])
theorem through_num (s : State) (p : Page) (off : Nat) (data : W32) (act : State → State)
    (hf : ∀ s, s.dp.numbered → (act s).dp.numbered) (h : s.dp.numbered) : (s.through p off data act).dp.numbered := by
  unfold State.through
  split
  · exact gated_num _ _ _ _ _ _ hf (by simp [h])
  · exact h


theorem pairDo_num (s : State) (f : State → State) (hf : ∀ s, s.dp.numbered → (f s).dp.numbered) (h : s.dp.numbered) :
    (s.pairDo f).dp.numbered := by
  unfold State.pairDo
  rw [pairSince_dp]
  exact hf s h

@[simp] theorem modFrame_num (s : State) (id : Nat) (g : Frame → Frame) (hg : ∀ f, (g f).id = f.id) (h : s.dp.numbered) : (State.modFrame s id g).dp.numbered := by
  unfold State.modFrame
  refine ⟨fun f hf => ?_, ?_⟩
  · obtain ⟨q, hq, rfl⟩ := List.mem_map.mp hf
    have := h.1 q hq
    split
    · rw [hg]; exact this
    · exact this
  · have e : (s.dp.frames.map (fun f => if f.id = id then g f else f)).map Frame.id = s.dp.frames.map Frame.id := by
      rw [List.map_map]
      apply List.map_congr_left
      intro f _
      simp only [Function.comp]
      split
      · exact hg f
      · rfl
    exact e ▸ h.2
@[simp] theorem setTicket_num (s : State) (id k : Nat) (h : s.dp.numbered) : (State.setTicket s id k).dp.numbered := modDp_num _ _ rfl rfl (modFrame_num _ _ _ (fun _ => rfl) h)
@[simp] theorem takeTicket_num (s : State) (f : Frame) (h : s.dp.numbered) : (State.takeTicket s f).dp.numbered := by
  unfold State.takeTicket
  (try dsimp only)
  repeat' first | (simp [h]; done) | split
@[simp] theorem rseReturn_num (s : State) (f : Frame) (h : s.dp.numbered) : (State.rseReturn s f).dp.numbered := by
  unfold State.rseReturn
  (try dsimp only)
  repeat' first | (simp [h]; done) | split
@[simp] theorem setBuf_num (s : State) (k n : Nat) (h : s.dp.numbered) : (State.setBuf s k n).dp.numbered := same_num _ _ rfl rfl h
@[simp] theorem passTry_num (s : State) (f : Frame) (h : s.dp.numbered) : (State.passTry s f).dp.numbered := by
  unfold State.passTry
  (try dsimp only)
  repeat' first | (simp [h]; done) | split
@[simp] theorem passAll_num (s : State) (p : Frame → Bool) (h : s.dp.numbered) : (State.passAll s p).dp.numbered := by
  unfold State.passAll
  refine forEach_num _ _ (fun s a h => ?_) _ h
  split
  · exact passTry_num _ _ h
  · exact h
@[simp] theorem nextTicket_num (s : State) (k : Nat) (h : s.dp.numbered) : (State.nextTicket s k).dp.numbered := by
  unfold State.nextTicket
  refine forEach_num _ _ (fun s a h => ?_) _ h
  have ht := setTicket_num s a k h
  split
  · dsimp only
    split
    · exact passTry_num _ _ ht
    · exact ht
  · exact h
@[simp] theorem resume_num (s : State) (n : Nat) (h : s.dp.numbered) : (State.resume s n).dp.numbered := by
  unfold State.resume
  exact modAll_num _ _ (fun f => by split <;> rfl) (by simpa using h)
@[simp] theorem leaveSlice_num (s : State) (f : Frame) (h : s.dp.numbered) : (State.leaveSlice s f).dp.numbered := by
  unfold State.leaveSlice
  split
  · split
    · exact resume_num _ _ h
    · exact h
  · exact h
@[simp] theorem removeFrame_num (s : State) (f : Frame) (h : s.dp.numbered) : (State.removeFrame s f).dp.numbered := by
  unfold State.removeFrame
  exact when_num _ (fun s h => passAll_num _ _ h) _ _
    (nextTicket_num _ _ (sub_num s (fun d => sweepVoid f.key_ (d.frames.filter (fun g => decide (g.id ≠ f.id))))
      ((sweepVoid_sub _ _).trans List.filter_sublist) h))
@[simp] theorem voidFrame_num (s : State) (f : Frame) (h : s.dp.numbered) : (State.voidFrame s f).dp.numbered := by
  unfold State.voidFrame
  split
  · exact removeFrame_num _ _ h
  · exact when_num _ (fun s h => passAll_num _ _ h) _ _
      (nextTicket_num _ _ (sub_num _ (fun d => sweepVoid f.key_ d.frames) (sweepVoid_sub _ _)
        (modFrame_num _ _ _ (fun _ => rfl) (by simpa using h))))
@[simp] theorem refund_num (s : State) (f : Frame) (sent : Nat) (h : s.dp.numbered) : (State.refund s f sent).dp.numbered := modDp_num _ _ rfl rfl h
@[simp] theorem addFrame_num (s : State) (f : Frame) (hi : f.id = s.dp.nextFrame) (h : s.dp.numbered) : (State.addFrame s f).dp.numbered := by
  refine ⟨fun g hg => ?_, ?_⟩
  · rcases List.mem_append.mp hg with hg | hg
    · exact Nat.lt_succ_of_lt (h.1 g hg)
    · rw [List.mem_singleton.mp hg, hi]; exact Nat.lt_succ_self _
  · simp only [State.addFrame, modDp_dp, List.map_append, List.map_cons, List.map_nil]
    refine List.nodup_append.mpr ⟨h.2, by simp, fun a ha b hb e => ?_⟩
    obtain ⟨g, hg, rfl⟩ := List.mem_map.mp ha
    have := h.1 g hg
    rw [e, List.mem_singleton.mp hb, hi] at this
    exact absurd this (Nat.lt_irrefl _)
@[simp] theorem addReport_num (s : State) (f : Frame) (h : s.dp.numbered) : (State.addReport s f).dp.numbered := by
  unfold State.addReport
  (try dsimp only)
  repeat' first | (simp [h]; done) | split
@[simp] theorem addStub_num (s : State) (f : Frame) (h : s.dp.numbered) : (State.addStub s f).dp.numbered := by
  unfold State.addStub
  split
  · exact h
  · exact raise_num _ _ rfl (Nat.le_max_left _ _) h
@[simp] theorem clearStubs_num (s : State) (d : Dir) (port : Nat) (h : s.dp.numbered) : (State.clearStubs s d port).dp.numbered := by
  unfold State.clearStubs
  exact forEach_num _ _ (fun s a h => addReport_num _ _ h) _ (modDp_num _ _ rfl rfl h)
@[simp] theorem endFrame_num (s : State) (f : Frame) (c : Code) (ctr : Option Nat) (h : s.dp.numbered) : (State.endFrame s f c ctr).dp.numbered := by
  unfold State.endFrame
  extract_lets s1 s2 s3 n
  have h1 : s1.dp.numbered := by simp only [s1]; split <;> simp [h]
  clear_value s1
  have h2 : s2.dp.numbered := when_num _ (fun s h => rseReturn_num _ _ h) _ _ h1
  clear_value s2
  have h3 : s3.dp.numbered := addStub_num _ _ (leaveSlice_num _ _ h2)
  clear_value s3
  split
  · rw [sendEof_dp]
    exact removeFrame_num _ _ (refund_num _ _ _ h3)
  · exact voidFrame_num _ _ h3
@[simp] theorem dropFrame_num (s : State) (f : Frame) (ctr : Nat) (h : s.dp.numbered) : (State.dropFrame s f ctr).dp.numbered := by
  unfold State.dropFrame
  (try dsimp only)
  repeat' first | (simp [h]; done) | split
@[simp] theorem dropStat_num (s : State) (f : Frame) (incs : List (Nat × Nat)) (h : s.dp.numbered) : (State.dropStat s f incs).dp.numbered := by
  unfold State.dropStat
  (try dsimp only)
  repeat' first | (simp [h]; done) | split
@[simp] theorem quietDrop_num (s : State) (h : s.dp.numbered) : (State.quietDrop s).dp.numbered := by
  unfold State.quietDrop
  split
  · exact forEach_num _ _ (fun s a h => removeFrame_num s a h) _ h
  · exact h
@[simp] theorem endFrames_num (s : State) (p : Frame → Bool) (c : Code) (ctr : Frame → Option Nat) (h : s.dp.numbered) : (State.endFrames s p c ctr).dp.numbered := by
  unfold State.endFrames
  refine forEach_num _ _ (fun s a h => ?_) _ h
  split
  · exact endFrame_num _ _ _ _ h
  · exact h
@[simp] theorem stomp_num (s : State) (p : Frame → Bool) (h : s.dp.numbered) : (State.stomp s p).dp.numbered := by
  unfold State.stomp
  (try dsimp only)
  repeat' first | (simp [h]; done) | split
@[simp] theorem specDrop_num (s : State) (f : Frame) (h : s.dp.numbered) : (State.specDrop s f).dp.numbered := by
  unfold State.specDrop
  (try dsimp only)
  repeat' first | (simp [h]; done) | split
@[simp] theorem closeFrame_num (s : State) (f : Frame) (h : s.dp.numbered) : (State.closeFrame s f).dp.numbered := by
  unfold State.closeFrame
  split
  · exact h
  · extract_lets g s1 s2 s2' s3
    have h1 : s1.dp.numbered := when_num _ (fun s h => setBuf_num _ _ _ h) _ _ h
    clear_value s1
    have h2 : s2.dp.numbered := by
      simp only [s2]
      exact specDrop_num _ _ (modFrame_num _ _ _ (fun _ => rfl) h1)
    clear_value s2
    have h2' : s2'.dp.numbered := by simp only [s2', bwIn_dp]; exact h2
    clear_value s2'
    have h3 : s3.dp.numbered := when_num _ (fun s h => rseReturn_num _ _ h) _ _ h2'
    clear_value s3
    split
    · exact addReport_num _ _ h3
    · exact h3
@[simp] theorem vfCheck_num (s : State) (id : Nat) (h : s.dp.numbered) : (State.vfCheck s id).dp.numbered := by
  unfold State.vfCheck
  (try dsimp only)
  repeat' first | (simp [h]; done) | split
@[simp] theorem missFail_num (s : State) (p : Frame → Bool) (h : s.dp.numbered) : (State.missFail s p).dp.numbered := by
  unfold State.missFail
  refine forEach_num _ _ (fun s a h => ?_) _ h
  split
  · simp [h]
  · exact h
@[simp] theorem pageFail_num (s : State) (x reason : Nat) (fresh : Bool) (h : s.dp.numbered) : (State.pageFail s x reason fresh).dp.numbered := by
  unfold State.pageFail
  (try dsimp only)
  repeat' first | (simp [h]; done) | split
@[simp] theorem pageWant_num (s : State) (x : Nat) (c : PClass) (h : s.dp.numbered) : (State.pageWant s x c).dp.numbered := by
  unfold State.pageWant
  (try dsimp only)
  repeat' first | (simp [h]; done) | split
@[simp] theorem tableFull_num (s : State) (p : PageIn) (h : s.dp.numbered) : (State.tableFull s p).dp.numbered := by
  unfold State.tableFull
  (try dsimp only)
  repeat' first | (simp [h]; done) | split
@[simp] theorem pageStart_num (s : State) (p : PageIn) (h : s.dp.numbered) : (State.pageStart s p).dp.numbered := by
  unfold State.pageStart
  (try dsimp only)
  repeat' first | (simp [h]; done) | split
@[simp] theorem pageTry_num (s : State) (x : Nat) (h : s.dp.numbered) : (State.pageTry s x).dp.numbered := by
  unfold State.pageTry
  (try dsimp only)
  repeat' first | (simp [h]; done) | split
@[simp] theorem pageLine_num (s : State) (x l : Nat) (f : FinRes) (h : s.dp.numbered) : (State.pageLine s x l f).dp.numbered := by
  unfold State.pageLine
  (try dsimp only)
  repeat' first | (simp [h]; done) | split
@[simp] theorem pageUnwrapped_num (s : State) (x : Nat) (b : Bool) (h : s.dp.numbered) : (State.pageUnwrapped s x b).dp.numbered := by
  unfold State.pageUnwrapped
  (try dsimp only)
  repeat' first | (simp [h]; done) | split
@[simp] theorem outDone_num (s : State) (o : PageOut) (e : Nat) (h : s.dp.numbered) : (State.outDone s o e).dp.numbered := by
  unfold State.outDone
  extract_lets x away s1 r s2 s3
  have h1 : s1.dp.numbered := by simp only [s1, modCh_dp, dropOut_dp, freeEntry_dp]; exact h
  clear_value s1
  have h2 : s2.dp.numbered := by simp only [s2]; split <;> simpa using h1
  clear_value s2
  have h3 : s3.dp.numbered := when_num _ (fun s h => pageWant_num _ _ _ h) _ _ h2
  clear_value s3
  rw [jobCheck_dp, when_dp _ _ _ (fun s => sawDone_dp s _ _)]
  exact h3
@[simp] theorem outTry_num (s : State) (x : Nat) (h : s.dp.numbered) : (State.outTry s x).dp.numbered := by
  unfold State.outTry
  (try dsimp only)
  repeat' first | (simp [h]; done) | split
@[simp] theorem outWrote_num (s : State) (x : Nat) (f : FinRes) (h : s.dp.numbered) : (State.outWrote s x f).dp.numbered := by
  unfold State.outWrote
  (try dsimp only)
  repeat' first | (simp [h]; done) | split
@[simp] theorem runJob_num (s : State) (j : GroupJob) (h : s.dp.numbered) : (State.runJob s j).dp.numbered := by
  unfold State.runJob
  dsimp only
  split
  · simp [h]
  · simp only [jobCheck_dp]
    refine forEach_num _ _ (fun s x h => ?_) _ (by simp [h])
    split <;> simp [h]
@[simp] theorem trunkFailed_num (s : State) (x l : Nat) (f : FinRes) (h : s.dp.numbered) :
    (s.trunkFailed x l f).dp.numbered := by
  unfold State.trunkFailed
  split <;> simp [h]
@[simp] theorem sawLineDone_num (s : State) (x l : Nat) (f : FinRes) (h : s.dp.numbered) :
    (s.sawLineDone x l f).dp.numbered := by
  unfold State.sawLineDone
  repeat' first | (simp [h]; done) | split
@[simp] theorem deliver1_num (s : State) (r : SReq) (f : FinRes) (h : s.dp.numbered) : (State.deliver1 s r f).dp.numbered := by
  unfold State.deliver1
  (try dsimp only)
  repeat' first | (simp [h]; done) | split
@[simp] theorem deliver_num (s : State) (h : s.dp.numbered) : (State.deliver s).dp.numbered := by
  unfold State.deliver
  (try dsimp only)
  repeat' first | (simp [h]; done) | intro _ | (refine forEach_num _ _ (fun s a h => ?_) _ ?_) | (refine when_num _ (fun s h => ?_) _ _ ?_) | split
@[simp] theorem storeSettle_num (k : Nat) (s : State) (h : s.dp.numbered) : (storeSettle k s).dp.numbered := by
  induction k generalizing s with
  | zero => exact h
  | succ k ih =>
    unfold storeSettle
    dsimp only
    split
    · simp [h]
    · exact ih _ (by simp [h])
@[simp] theorem inboxStep_num (s : State) (q : Nat × MirKind × Bytes) (h : s.dp.numbered) : (State.inboxStep s q).dp.numbered := by
  unfold State.inboxStep
  (try dsimp only)
  repeat' first | (simp [h]; done) | split
@[simp] theorem inboxPump_num (s : State) (h : s.dp.numbered) : (State.inboxPump s).dp.numbered := by
  unfold State.inboxPump
  (try dsimp only)
  repeat' first | (simp [h]; done) | intro _ | (refine forEach_num _ _ (fun s a h => ?_) _ ?_) | (refine when_num _ (fun s h => ?_) _ _ ?_) | split
@[simp] theorem pairPump_num (s : State) (h : s.dp.numbered) : (State.pairPump s).dp.numbered := by
  unfold State.pairPump
  split
  · exact h
  · exact pairDo_num _ _ (fun s h => by simp [h]) h
@[simp] theorem pagerEnd_num (s : State) (h : s.dp.numbered) : (State.pagerEnd s).dp.numbered := by
  unfold State.pagerEnd
  dsimp only
  simp only [jobCheck_dp]
  refine missFail_num _ _ ?_
  refine forEach_num _ _ (fun s x h => ?_) _ (forEach_num _ _ (fun s x h => by simp [h]) _ h)
  simp [h]
@[simp] theorem holdUnit_num (s : State) (p : Part) (h : s.dp.numbered) : (State.holdUnit s p).dp.numbered := by
  unfold State.holdUnit
  dsimp only
  repeat' first | (simp [h]; done) | exact pagerEnd_num _ (by simp [h]) | exact stomp_num _ _ (by simp [h]) | split
@[simp] theorem unitFault_num (s : State) (inj : Bool) (p : Part) (inst : Nat) (h : s.dp.numbered) : (State.unitFault s inj p inst).dp.numbered := by
  unfold State.unitFault
  (try dsimp only)
  repeat' first | (simp [h]; done) | split
@[simp] theorem framing_num (s : State) (d : Dir) (port : Nat) (h : s.dp.numbered) : (State.framing s d port).dp.numbered := by
  unfold State.framing
  (try dsimp only)
  repeat' first | (simp [h]; done) | split
@[simp] theorem missJoin_num (s : State) (f : Frame) (h : s.dp.numbered) : (State.missJoin s f).dp.numbered := by
  unfold State.missJoin
  extract_lets eg
  split
  · rw [portFlag_dp]; exact dropFrame_num _ _ _ h
  · split
    · refine when_num _ (fun s h => ?_) _ _ ?_
      · rw [portCount_dp]; exact h
      · rw [portFlag_dp]; exact dropFrame_num _ _ _ h
    · rw [wakeNeeded_dp]
      refine when_num _ (fun s h => pageWant_num _ _ _ h) _ _ ?_
      rw [evtF_dp]
      exact modFrame_num _ _ _ (fun _ => rfl) (rseReturn_num _ _ h)
@[simp] theorem holdSlot_num (s : State) (id e : Nat) (b : Bool) (g : Frame → Frame) (hg : ∀ f, (g f).id = f.id) (h : s.dp.numbered) : (State.holdSlot s id e b g).dp.numbered := by
  unfold State.holdSlot
  extract_lets sl t
  have ht : t.dp.numbered := modFrame_num _ _ _ (fun f => by rw [hg]) h
  clear_value t
  split <;> simp [ht]
@[simp] theorem passFrame_num (s : State) (id : Nat) (out : Bytes) (g : Frame → Frame) (hg : ∀ f, (g f).id = f.id) (h : s.dp.numbered) : (State.passFrame s id out g).dp.numbered := by
  unfold State.passFrame
  extract_lets s1
  have h1 : s1.dp.numbered := modFrame_num _ _ _ (fun f => by rw [plainOut_id, hg]) h
  clear_value s1
  split
  · extract_lets s2
    have h2 : s2.dp.numbered := takeTicket_num _ _ h1
    clear_value s2
    split
    · exact vfCheck_num _ _ (passTry_num _ _ h2)
    · exact h2
  · exact h1
@[simp] theorem keepReport_num (s : State) (id : Nat) (b : Bytes) (h : s.dp.numbered) : (State.keepReport s id b).dp.numbered := by
  unfold State.keepReport
  (try dsimp only)
  repeat' first | (simp [h]; done) | split
@[simp] theorem setCatch_num (s : State) (l : List CatchEnt) (h : s.dp.numbered) : (State.setCatch s l).dp.numbered := same_num _ _ rfl rfl h
@[simp] theorem setBucket_num (s : State) (port : Nat) (b : Bucket) (h : s.dp.numbered) : (State.setBucket s port b).dp.numbered := same_num _ _ rfl rfl h
@[simp] theorem catchBucket_num (s : State) (f : Frame) (sci : W64) (peer : Option CatchEnt) (cv : Bool) (h : s.dp.numbered) : ((State.catchBucket s f sci peer cv).1).dp.numbered := by
  unfold State.catchBucket
  (try dsimp only)
  repeat' first | (simp [h]; done) | split
@[simp] theorem catchExamine_num (s : State) (f : Frame) (sci : W64) (cv : Bool) (h : s.dp.numbered) : ((State.catchExamine s f sci cv).1).dp.numbered := by
  unfold State.catchExamine
  extract_lets t l peer ent s1
  have hc : ∀ (s : State) c, s.dp.numbered → (s.setCatch c).dp.numbered := fun s c h => setCatch_num s c h
  split
  · rw [portCount_dp]; exact hc _ _ h
  · refine catchBucket_num _ _ _ _ _ ?_
    simp only [s1]
    repeat' first | exact hc _ _ h | (rw [evt_dp]; exact hc _ _ h) | split
@[simp] theorem voidLong_num (s : State) (id : Nat) (h : s.dp.numbered) : (State.voidLong s id).dp.numbered := by
  unfold State.voidLong
  (try dsimp only)
  repeat' first | (simp [h]; done) | split
@[simp] theorem egDraw_num (s : State) (f : Frame) (e : Nat) (en : Entry) (h : s.dp.numbered) : (State.egDraw s f e en).dp.numbered := by
  unfold State.egDraw
  extract_lets b v t t10 l c pn s1 s2 s3
  have h1 : s1.dp.numbered := holdSlot_num _ _ _ _ _ (fun f => rfl) h
  have e2 : s2.dp = s1.dp := by simp [s2]
  have h3 : s3.dp.numbered := modFrame_num _ _ _ (fun f => rfl) (by rw [e2]; exact h1)
  exact voidLong_num _ _ h3
@[simp] theorem egChecks_num (s : State) (f : Frame) (e : Nat) (en : Entry) (h : s.dp.numbered) : (State.egChecks s f e en).dp.numbered := by
  unfold State.egChecks
  (try dsimp only)
  repeat' first | (simp [h]; done) | split
@[simp] theorem egLookup_num (s : State) (f : Frame) (queued : Bool) (h : s.dp.numbered) : (State.egLookup s f queued).dp.numbered := by
  unfold State.egLookup
  (try dsimp only)
  repeat' first | (simp [h]; done) | split
@[simp] theorem egBypass_num (s : State) (f : Frame) (h : s.dp.numbered) : (State.egBypass s f).dp.numbered := by
  unfold State.egBypass
  (try dsimp only)
  repeat' first | (simp [h]; done) | split
@[simp] theorem egAction_num (s : State) (f : Frame) (h : s.dp.numbered) : (State.egAction s f).dp.numbered := by
  unfold State.egAction
  (try dsimp only)
  repeat' first | (simp [h]; done) | split
@[simp] theorem egRefuse_num (s : State) (f : Frame) (ctr : Nat) (h : s.dp.numbered) : (State.egRefuse s f ctr).dp.numbered := by
  unfold State.egRefuse
  (try dsimp only)
  repeat' first | (simp [h]; done) | split
@[simp] theorem egAdmit_num (s : State) (port : Nat) (cls : Bool) (desc : W64) (b : Bytes) (dpBad upErr eof : Bool) (h : s.dp.numbered) : (State.egAdmit s port cls desc b dpBad upErr eof).dp.numbered := by
  have hi : (s.newFrame .egress port cls desc b dpBad upErr eof).id = s.dp.nextFrame := rfl
  unfold State.egAdmit
  generalize s.newFrame .egress port cls desc b dpBad upErr eof = f at hi ⊢
  extract_lets g s1
  have e : s1.dp = s.dp := when_dp _ _ _ (fun s => busParity_dp s _ _ _)
  have h1 : s1.dp.numbered := by rw [e]; exact h
  have h2 : (s1.addFrame g).dp.numbered := addFrame_num _ _ (by rw [e]; exact hi) h1
  clear_value s1 g
  split
  · exact h
  split
  · exact framing_num _ _ _ h1
  split
  · exact egRefuse_num _ _ _ h1
  split
  · exact egRefuse_num _ _ _ h1
  split
  · rw [detect_dp, portFlag_dp]; exact egRefuse_num _ _ _ h1
  · exact egAction_num _ _ (by rw [admitCounts_dp]; exact h2)
@[simp] theorem icvWritten_num (s : State) (f : Frame) (h : s.dp.numbered) : (State.icvWritten s f).dp.numbered := by
  unfold State.icvWritten
  split
  · split
    · exact h
    · extract_lets s1 out cut s2
      have h1 : s1.dp.numbered := by simp only [s1, issueRest_dp]; exact leaveSlice_num _ _ (closeFrame_num _ _ h)
      clear_value s1
      have h2 : s2.dp.numbered := modFrame_num _ _ _ (fun _ => rfl) h1
      clear_value s2
      repeat' first | exact h2 | exact dropFrame_num _ _ _ h2 | split
  · exact h
@[simp] theorem caughtDrop_num (s : State) (f : Frame) (ctr : Nat) (c : Caught) (h : s.dp.numbered) : (State.caughtDrop s f ctr c).dp.numbered := by
  unfold State.caughtDrop
  (try dsimp only)
  repeat' first | (simp [h]; done) | split
@[simp] theorem inUnknown_num (s : State) (f : Frame) (h : s.dp.numbered) : (State.inUnknown s f).dp.numbered := by
  have hc := fun sci => catchExamine_num s f sci false h
  have hp : ∀ s : State, s.dp.numbered → ∀ b g, (∀ f : Frame, (g f).id = f.id) → (s.passFrame f.id b g).dp.numbered :=
    fun s h b g hg => passFrame_num s _ b g hg h
  unfold State.inUnknown
  extract_lets t b strict
  split
  · split
    · simp [h]
    · exact hp s h _ _ (fun _ => rfl)
  · split
    · simp [h]
    · have key : ∀ q : State × Caught, q.1.dp.numbered →
          (match q with
            | (s, c) => if (tciC (tciOf b t) || strict) = true then s.caughtDrop f 0x5B c
              else match c with
                | .pass => s.passFrame f.id b (fun g => { g with kind := .plain, result := 4, noch := true, outcome := .catchPass 0x5A })
                | .report r => (s.passFrame f.id (stripSec b t) (fun g => { g with
                    kind := .plain, result := 2, noch := true, outcome := .unknownSci })).keepReport f.id r
                | .quiet => s.passFrame f.id (stripSec b t) (fun g => { g with
                    kind := .plain, result := 2, noch := true, outcome := .unknownSci })).dp.numbered := by
        rintro ⟨q, c⟩ hq
        dsimp only at hq ⊢
        split
        · exact caughtDrop_num _ _ _ _ hq
        · split
          · exact hp q hq _ _ (fun _ => rfl)
          · exact keepReport_num _ _ _ (hp q hq _ _ (fun _ => rfl))
          · exact hp q hq _ _ (fun _ => rfl)
      refine key _ ?_
      split
      · exact hc _
      · exact h
@[simp] theorem inSlot_num (s : State) (f : Frame) (e : Nat) (en : Entry) (h : s.dp.numbered) : (State.inSlot s f e en).dp.numbered := by
  unfold State.inSlot
  (try dsimp only)
  repeat' first | (simp [h]; done) | split
@[simp] theorem inT10_num (s : State) (f : Frame) (e : Nat) (en : Entry) (h : s.dp.numbered) : (State.inT10 s f e en).dp.numbered := by
  unfold State.inT10
  (try dsimp only)
  repeat' first | (simp [h]; done) | split
@[simp] theorem inTagged_num (s : State) (f : Frame) (e : Nat) (en : Entry) (h : s.dp.numbered) : (State.inTagged s f e en).dp.numbered := by
  unfold State.inTagged
  (try dsimp only)
  repeat' first | (simp [h]; done) | split
@[simp] theorem inChecks_num (s : State) (f : Frame) (e : Nat) (en : Entry) (h : s.dp.numbered) : (State.inChecks s f e en).dp.numbered := by
  unfold State.inChecks
  (try dsimp only)
  repeat' first | (simp [h]; done) | split
@[simp] theorem inLookup_num (s : State) (f : Frame) (queued : Bool) (h : s.dp.numbered) : (State.inLookup s f queued).dp.numbered := by
  unfold State.inLookup
  (try dsimp only)
  repeat' first | (simp [h]; done) | split
@[simp] theorem inBypass_num (s : State) (f : Frame) (h : s.dp.numbered) : (State.inBypass s f).dp.numbered := by
  unfold State.inBypass
  (try dsimp only)
  repeat' first | (simp [h]; done) | split
@[simp] theorem inAction_num (s : State) (f : Frame) (h : s.dp.numbered) : (State.inAction s f).dp.numbered := by
  unfold State.inAction
  (try dsimp only)
  repeat' first | (simp [h]; done) | split
@[simp] theorem inRefuse_num (s : State) (f : Frame) (ctr : Nat) (h : s.dp.numbered) : (State.inRefuse s f ctr).dp.numbered := by
  unfold State.inRefuse
  (try dsimp only)
  repeat' first | (simp [h]; done) | split
@[simp] theorem inAdmit_num (s : State) (port : Nat) (cls : Bool) (desc : W64) (b : Bytes) (dpBad upErr eof : Bool) (h : s.dp.numbered) : (State.inAdmit s port cls desc b dpBad upErr eof).dp.numbered := by
  have hi : (s.newFrame .ingress port cls desc b dpBad upErr eof).id = s.dp.nextFrame := rfl
  unfold State.inAdmit
  generalize s.newFrame .ingress port cls desc b dpBad upErr eof = f at hi ⊢
  extract_lets g off s0 s1
  have e0 : s0.dp = s.dp := when_dp _ _ _ (fun s => busParity_dp s _ _ _)
  have e : s1.dp = s.dp := (bwIn_dp s0 _ _ _).trans e0
  have h0 : s0.dp.numbered := by rw [e0]; exact h
  have h1 : s1.dp.numbered := by rw [e]; exact h
  have h2 : (s1.addFrame g).dp.numbered := addFrame_num _ _ (by rw [e]; exact hi) h1
  clear_value s1 s0 g off
  split
  · exact h
  split
  · exact framing_num _ _ _ h0
  split
  · exact inRefuse_num _ _ _ h1
  split
  · exact inRefuse_num _ _ _ h1
  split
  · exact inRefuse_num _ _ _ h1
  split
  · rw [detect_dp, portFlag_dp]; exact inRefuse_num _ _ _ h1
  split
  · rw [portFlag_dp, portCount_dp]; exact inRefuse_num _ _ _ h1
  · exact inAction_num _ _ (by rw [admitCounts_dp]; exact h2)
@[simp] theorem finalOne_num (s : State) (f : Frame) (h : s.dp.numbered) : (State.finalOne s f).dp.numbered := by
  unfold State.finalOne
  (try dsimp only)
  repeat' first | (simp [h]; done) | split
@[simp] theorem finalChecks_num (s : State) (k : Nat) (h : s.dp.numbered) : (State.finalChecks s k).dp.numbered := by
  unfold State.finalChecks
  refine forEach_num _ _ (fun s a h => ?_) _ h
  split
  · exact finalOne_num _ _ h
  · exact h
@[simp] theorem icvCompare_num (s : State) (f : Frame) (h : s.dp.numbered) : (State.icvCompare s f).dp.numbered := by
  unfold State.icvCompare
  split
  · split
    · exact h
    · extract_lets s1 red s2
      have h1 : s1.dp.numbered := by simp only [s1, issueRest_dp]; exact leaveSlice_num _ _ (closeFrame_num _ _ h)
      clear_value s1
      split
      · split
        · rw [portFlag_dp]; exact dropFrame_num _ _ _ h1
        · exact h1
      · exact finalChecks_num _ _ (modFrame_num _ _ _ (fun _ => rfl) h1)
  · exact h
@[simp] theorem toSlice_num (s : State) (f : Frame) (n r : Nat) (h : s.dp.numbered) : (State.toSlice s f n r).dp.numbered := by
  unfold State.toSlice
  extract_lets res s1 s2
  have h1 : s1.dp.numbered := by simp only [s1]; split <;> first | exact setBuf_num _ _ _ h | exact h
  clear_value s1
  have h2 : s2.dp.numbered := modFrame_num _ _ _ (fun _ => rfl) h1
  clear_value s2
  refine rseReturn_num _ _ ?_
  rw [sendTicket_dp]
  exact modDp_num _ _ rfl rfl h2
@[simp] theorem suspendIn_num (s : State) (n : Nat) (d : Dir) (h : s.dp.numbered) : (State.suspendIn s n d).dp.numbered := by
  unfold State.suspendIn
  (try dsimp only)
  repeat' first | (simp [h]; done) | split
@[simp] theorem expWaits_num (s : State) (f : Frame) (h : s.dp.numbered) : (State.expWaits s f).dp.numbered := by
  unfold State.expWaits
  (try dsimp only)
  repeat' first | (simp [h]; done) | split
@[simp] theorem dispatch_num (s : State) (f : Frame) (h : s.dp.numbered) : (State.dispatch s f).dp.numbered := by
  unfold State.dispatch
  (try dsimp only)
  repeat' first | (simp [h]; done) | split
@[simp] theorem sofRelease_num (s : State) (f : Frame) (h : s.dp.numbered) : (State.sofRelease s f).dp.numbered := by
  unfold State.sofRelease
  extract_lets eg k t1 t2 t3 t4
  have h1 : t1.dp.numbered := same_num _ _ rfl rfl h
  have h2 : t2.dp.numbered := modFrame_num _ _ _ (fun _ => rfl) h1
  have h3 : t3.dp.numbered := by simp only [t3, evtF_dp]; exact h2
  have h4 : t4.dp.numbered := when_num _ (fun s h => by simp [h]) _ _ h3
  exact when_num _ (fun s h => by simp [h]) _ _ h4
@[simp] theorem trySof_num (s : State) (d : Dir) (port : Nat) (cls : Bool) (h : s.dp.numbered) : (State.trySof s d port cls).dp.numbered := by
  unfold State.trySof
  extract_lets s1
  have h1 : s1.dp.numbered := when_num _ (fun s h => finalChecks_num _ _ h) _ _ h
  clear_value s1
  repeat' first | exact h1 | exact sofRelease_num _ _ h1 | split
@[simp] theorem tryEof_num (s : State) (d : Dir) (port : Nat) (cls : Bool) (h : s.dp.numbered) : (State.tryEof s d port cls).dp.numbered := by
  unfold State.tryEof
  extract_lets s1 s2 s3
  have h1 : s1.dp.numbered := when_num _ (fun s h => finalChecks_num _ _ h) _ _ h
  clear_value s1
  split
  · next f hf =>
    split
    · rw [sendEof_dp]
      refine removeFrame_num _ _ ?_
      rw [when_dp _ _ _ (fun s => bwAdd_dp s _ _ _)]
      exact refund_num _ _ _ (by rw [countEnd_dp]; exact closeFrame_num _ _ h1)
    · exact h1
  · exact h1
@[simp] theorem underrun_num (s : State) (f : Frame) (h : s.dp.numbered) : (State.underrun s f).dp.numbered := by
  unfold State.underrun
  (try dsimp only)
  repeat' first | (simp [h]; done) | split
@[simp] theorem lateSegment_num (s : State) (d : Dir) (port : Nat) (cls : Bool) (h : s.dp.numbered) : (State.lateSegment s d port cls).dp.numbered := by
  unfold State.lateSegment
  (try dsimp only)
  repeat' first | (simp [h]; done) | split
@[simp] theorem creditReturn_num (s : State) (d : Dir) (port : Nat) (cls init : Bool) (cnt : Nat) (h : s.dp.numbered) : (State.creditReturn s d port cls init cnt).dp.numbered := by
  unfold State.creditReturn
  extract_lets k out s1
  have h1 : s1.dp.numbered := modDp_num _ _ rfl rfl h
  clear_value s1
  repeat' first | exact h1 | exact h | (simp [h1]; done) | exact modDp_num _ _ rfl rfl h | split
@[simp] theorem laneControl_num (s : State) (lane : Nat) (code : LaneCode) (h : s.dp.numbered) : (State.laneControl s lane code).dp.numbered := by
  unfold State.laneControl
  split
  · simp [h]
  · simp only [emit_dp]
    exact same_num _ _ rfl rfl (endFrames_num _ _ _ _ h)
@[simp] theorem linkStatus_num (s : State) (lane : Nat) (up mf ec : Bool) (h : s.dp.numbered) : (State.linkStatus s lane up mf ec).dp.numbered := by
  unfold State.linkStatus
  extract_lets old put t
  have ht : t.dp.numbered := same_num _ _ rfl rfl h
  exact forEach_num _ _ (fun s a h => by simp [h]) _ ht
@[simp] theorem blackFault_num (s : State) (lane det : Nat) (h : s.dp.numbered) : (State.blackFault s lane det).dp.numbered := by
  unfold State.blackFault
  (try dsimp only)
  repeat' first | (simp [h]; done) | intro _ | (refine forEach_num _ _ (fun s a h => ?_) _ ?_) | (refine when_num _ (fun s h => ?_) _ _ ?_) | split
@[simp] theorem missLeave_num (s : State) (f : Frame) (hf : f.id < s.dp.nextFrame) (h : s.dp.numbered) : (State.missLeave s f).dp.numbered := by
  unfold State.missLeave
  have hn : (s.modDp (fun d => { d with frames := d.frames.filter (fun h => decide (h.id ≠ f.id)) ++ [{ f with stage := .waiting }] })).dp.numbered := by
    refine ⟨fun g hg => ?_, ?_⟩
    · rcases List.mem_append.mp hg with hg | hg
      · exact h.1 g (List.mem_of_mem_filter hg)
      · rw [List.mem_singleton.mp hg]; exact hf
    · simp only [modDp_dp, List.map_append, List.map_cons, List.map_nil]
      refine List.nodup_append.mpr ⟨h.2.sublist (List.filter_sublist.map _), by simp, fun a ha b hb e => ?_⟩
      obtain ⟨g, hg, rfl⟩ := List.mem_map.mp ha
      have := (List.mem_filter.mp hg).2
      simp only [decide_eq_true_eq] at this
      exact this (e.trans (List.mem_singleton.mp hb))
  extract_lets g t
  have : t.dp.numbered := hn
  split
  · exact egLookup_num _ _ _ this
  · exact inLookup_num _ _ _ this
@[simp] theorem missRelease_num (s : State) (d : Dir) (x : Nat) (h : s.dp.numbered) : (State.missRelease s d x).dp.numbered := by
  unfold State.missRelease
  split
  · refine forEach_num _ _ (fun s a h => ?_) _ h
    split
    · next f hf => exact missLeave_num s f (h.1 f (List.mem_of_find?_eq_some hf)) h
    · exact h
  · exact h
@[simp] theorem runWrite_num (s : State) (x : Nat) (h : s.dp.numbered) : (State.runWrite s x).dp.numbered := by
  unfold State.runWrite
  (try dsimp only)
  repeat' first | (simp [h]; done) | split
@[simp] theorem discardTry_num (s : State) (x : Nat) (h : s.dp.numbered) : (State.discardTry s x).dp.numbered := by
  unfold State.discardTry
  (try dsimp only)
  repeat' first | (simp [h]; done) | split
@[simp] theorem runEvict_num (s : State) (x : Nat) (discard : Bool) (h : s.dp.numbered) : (State.runEvict s x discard).dp.numbered := by
  unfold State.runEvict
  (try dsimp only)
  repeat' first | (simp [h]; done) | split
@[simp] theorem runPin_num (s : State) (x : Nat) (h : s.dp.numbered) : (State.runPin s x).dp.numbered := by
  unfold State.runPin
  (try dsimp only)
  repeat' first | (simp [h]; done) | split
@[simp] theorem runSched_num (s : State) (x : Nat) (sol : Bool) (h : s.dp.numbered) : (State.runSched s x sol).dp.numbered := by
  have h1 := fun e en => solRun_dp s e en
  have h2 := fun e en => eqxRun_dp s e en
  unfold State.runSched
  repeat' first | (simp [h, h1, h2]; done) | split
@[simp] theorem sawRun_num (s : State) (h : s.dp.numbered) : (State.sawRun s).dp.numbered := by
  unfold State.sawRun
  (try dsimp only)
  repeat' first | (simp [h]; done) | split
@[simp] theorem keywRun_num (s : State) (h : s.dp.numbered) : (State.keywRun s).dp.numbered := by
  unfold State.keywRun
  (try dsimp only)
  repeat' first | (simp [h]; done) | split
@[simp] theorem winRetry_num (s : State) (h : s.dp.numbered) : (State.winRetry s).dp.numbered := by
  unfold State.winRetry
  (try dsimp only)
  repeat' first | (simp [h]; done) | split
@[simp] theorem settle_num (s : State) (h : s.dp.numbered) : (State.settle s).dp.numbered := by
  unfold State.settle
  dsimp only
  simp only [pmPump_dp, wakeNeeded_dp]
  refine pairPump_num _ ?_
  simp only [pumpLease_dp]
  refine storeSettle_num _ _ (winRetry_num _ (storeSettle_num _ _ ?_))
  simp [h]
@[simp] theorem sawTake_num (s : State) (c : W32) (h : s.dp.numbered) : (State.sawTake s c).dp.numbered := by
  unfold State.sawTake
  (try dsimp only)
  repeat' first | (simp [h]; done) | split
@[simp] theorem sawStart_num (s : State) (c : W32) (h : s.dp.numbered) : (State.sawStart s c).dp.numbered := through_num _ _ _ _ _ (fun s h => sawTake_num s c h) h
@[simp] theorem keywTake_num (s : State) (c : W32) (h : s.dp.numbered) : (State.keywTake s c).dp.numbered := by
  unfold State.keywTake
  (try dsimp only)
  repeat' first | (simp [h]; done) | split
@[simp] theorem keywStart_num (s : State) (c : W32) (h : s.dp.numbered) : (State.keywStart s c).dp.numbered := through_num _ _ _ _ _ (fun s h => keywTake_num s c h) h
@[simp] theorem leaseTake_num (s : State) (c : W32) (h : s.dp.numbered) : (State.leaseTake s c).dp.numbered := by
  unfold State.leaseTake
  (try dsimp only)
  repeat' first | (simp [h]; done) | split
@[simp] theorem leaseStart_num (s : State) (c : W32) (h : s.dp.numbered) : (State.leaseStart s c).dp.numbered := through_num _ _ _ _ _ (fun s h => leaseTake_num s c h) h
@[simp] theorem storeTake_num (s : State) (c : W32) (h : s.dp.numbered) : (State.storeTake s c).dp.numbered := by
  unfold State.storeTake
  (try dsimp only)
  repeat' first | (simp [h]; done) | split
@[simp] theorem storeStart_num (s : State) (c : W32) (h : s.dp.numbered) : (State.storeStart s c).dp.numbered := through_num _ _ _ _ _ (fun s h => storeTake_num s c h) h
@[simp] theorem sched_num (s : State) (c : W32) (op m : Nat) (h : s.dp.numbered) : (State.sched s c op m).dp.numbered := by
  unfold State.sched
  (try dsimp only)
  repeat' first | (simp [h]; done) | split
@[simp] theorem pairRx_num (s : State) (ty : Nat) (m : Bytes) (act : State → State) (hf : ∀ s, s.dp.numbered → (act s).dp.numbered) (h : s.dp.numbered) : (State.pairRx s ty m act).dp.numbered := by
  unfold State.pairRx
  split
  · split
    · exact settle_num _ (pairDo_num _ _ (fun s h => hf _ (by simp [h])) h)
    · exact settle_num _ (pairDo_num _ _ (fun s h => by simp [h]) h)
    · simp [h]
  · exact h
@[simp] theorem pagesLost_num (s : State) (h : s.dp.numbered) : (State.pagesLost s).dp.numbered := by
  unfold State.pagesLost
  (try dsimp only)
  repeat' first | (simp [h]; done) | intro _ | (refine forEach_num _ _ (fun s a h => ?_) _ ?_) | (refine when_num _ (fun s h => ?_) _ _ ?_) | split
@[simp] theorem domUnavail_num (s : State) (d : Nat) (h : s.dp.numbered) : (State.domUnavail s d).dp.numbered := by
  unfold State.domUnavail
  (try dsimp only)
  repeat' first | (simp [h]; done) | split
@[simp] theorem thawEnd_num (s : State) (d : Nat) (pass late : Bool) (h : s.dp.numbered) : (State.thawEnd s d pass late).dp.numbered := by
  unfold State.thawEnd
  (try dsimp only)
  repeat' first | (simp [h]; done) | split
@[simp] theorem sliceDown_num (s : State) (n : Nat) (h : s.dp.numbered) : (State.sliceDown s n).dp.numbered := by
  unfold State.sliceDown
  (try dsimp only)
  repeat' first | (simp [h]; done) | split
@[simp] theorem sliceFault_num (s : State) (inj : Bool) (n det : Nat) (h : s.dp.numbered) : (State.sliceFault s inj n det).dp.numbered := by
  unfold State.sliceFault
  (try dsimp only)
  repeat' first | (simp [h]; done) | split
@[simp] theorem applyByp_num (s : State) (h : s.dp.numbered) : (State.applyByp s).dp.numbered := by
  unfold State.applyByp
  refine same_num (s.forEach s.dp.bypStaged _).dp _ rfl rfl (forEach_num _ _ (fun s a h => ?_) _ h)
  split
  · exact same_num _ _ rfl rfl h
  · exact h
@[simp] theorem commitApply_num (s : State) (p : Page) (h : s.dp.numbered) : (State.commitApply s p).dp.numbered := by
  unfold State.commitApply
  dsimp only
  simp only [cfgActs_dp, evt_dp, bumpEpoch_dp, modHdr_dp]
  exact when_num _ (fun s h => by simp [h]) _ _ (by simp [h])
@[simp] theorem countNext_num (s : State) (h : s.dp.numbered) : (State.countNext s).dp.numbered := by
  unfold State.countNext
  (try dsimp only)
  repeat' first | (simp [h]; done) | split
@[simp] theorem pageNext_num (s : State) (h : s.dp.numbered) : (State.pageNext s).dp.numbered := by
  unfold State.pageNext
  (try dsimp only)
  repeat' first | (simp [h]; done) | split
@[simp] theorem calWrite_num (s : State) (h : s.dp.numbered) : (State.calWrite s).dp.numbered := by
  unfold State.calWrite
  dsimp only
  split
  · simp [h]
  · exact settle_num _ (by simp [h])
@[simp] theorem calLoad_num (s : State) (n : Nat) (h : s.dp.numbered) : (State.calLoad s n).dp.numbered := by
  unfold State.calLoad
  (try dsimp only)
  repeat' first | (simp [h]; done) | split
@[simp] theorem installDone_num (s : State) (c : W32) (h : s.dp.numbered) : (State.installDone s c).dp.numbered := by
  unfold State.installDone
  (try dsimp only)
  repeat' first | (simp [h]; done) | split
@[simp] theorem keyxEnd_num (s : State) (c : Nat) (h : s.dp.numbered) : (State.keyxEnd s c).dp.numbered := by
  unfold State.keyxEnd
  (try dsimp only)
  repeat' first | (simp [h]; done) | split
@[simp] theorem zeroKeyx_num (s : State) (h : s.dp.numbered) : (State.zeroKeyx s).dp.numbered := by
  unfold State.zeroKeyx
  (try dsimp only)
  repeat' first | (simp [h]; done) | intro _ | (refine forEach_num _ _ (fun s a h => ?_) _ ?_) | (refine when_num _ (fun s h => ?_) _ _ ?_) | split
@[simp] theorem zeroise_num (s : State) (inst : Nat) (h : s.dp.numbered) : (State.zeroise s inst).dp.numbered := by
  unfold State.zeroise
  split
  · exact h
  · extract_lets s1 s2 s3 s4 s5 s6
    have e3 : s3.dp = s.dp := by simp only [s3, modSys_dp, s2, s1]; split <;> simp
    have h4 : s4.dp.numbered := endFrames_num _ _ _ _ (by rw [e3]; exact h)
    clear_value s4
    have h5 : s5.dp.numbered := by simp [s5, h4]
    clear_value s5
    have h6 : s6.dp.numbered := pairDo_num _ _ (fun s h => by simp [h]) (by simp [h5])
    clear_value s6
    exact when_num _ (fun s h => settle_num _ (by simp [h])) _ _ h6
@[simp] theorem coldReset_num (s : State) (tamperSeen : Bool) (h : s.dp.numbered) : (State.coldReset s tamperSeen).dp.numbered := by
  unfold State.coldReset
  have h0 : Dp.numbered {} := ⟨by simp, by simp⟩
  dsimp only
  split
  · exact zeroise_num _ _ h0
  · exact h0
@[simp] theorem chkWrite_num (s : State) (data : W32) (h : s.dp.numbered) : (State.chkWrite s data).dp.numbered := by
  unfold State.chkWrite
  (try dsimp only)
  repeat' first | (simp [h]; done) | split
@[simp] theorem seedTaken_num (s : State) (w : W128) (h : s.dp.numbered) : (State.seedTaken s w).dp.numbered := by
  unfold State.seedTaken
  (try dsimp only)
  repeat' first | (simp [h]; done) | split
@[simp] theorem jobFail_num (s : State) (j : Option KJob) (h : s.dp.numbered) : (State.jobFail s j).dp.numbered := by
  unfold State.jobFail
  split <;> simp [h]
@[simp] theorem keyxFault_num (s : State) (inj : Bool) (c : Nat) (h : s.dp.numbered) : (State.keyxFault s inj c).dp.numbered := by
  unfold State.keyxFault
  dsimp only
  repeat' first | (simp [h]; done) | exact jobFail_num _ _ (by simp [h]) | split
@[simp] theorem genRemoved_num (s : State) (g : Nat) (h : s.dp.numbered) : (State.genRemoved s g).dp.numbered := by
  unfold State.genRemoved
  (try dsimp only)
  repeat' first | (simp [h]; done) | split
@[simp] theorem maskHltX_num (s : State) (inj : Bool) (g : Nat) (again : Bool) (h : s.dp.numbered) : (State.maskHltX s inj g again).dp.numbered := by
  unfold State.maskHltX
  (try dsimp only)
  repeat' first | (simp [h]; done) | split
@[simp] theorem injectNow_num (s : State) (det inst : Nat) (h : s.dp.numbered) : (State.injectNow s det inst).dp.numbered := by
  unfold State.injectNow
  (try dsimp only)
  repeat' first | (simp [h]; done) | split
@[simp] theorem inject_num (s : State) (data : W32) (h : s.dp.numbered) : (State.inject s data).dp.numbered := by
  unfold State.inject
  (try dsimp only)
  repeat' first | (simp [h]; done) | split
@[simp] theorem resetPort_num (s : State) (n : Nat) (h : s.dp.numbered) : (State.resetPort s n).dp.numbered := by
  unfold State.resetPort
  extract_lets l t keys u
  have ht : t.dp.numbered := endFrames_num _ _ _ _ (by rw [clearPages_dp]; exact h)
  clear_value t
  have hu : u.dp.numbered := same_num t.dp _ rfl rfl ht
  clear_value u
  refine forEach_num _ _ (fun s a h => by simp [h]) _ ?_
  rw [pcntClearAll_dp]
  exact hu
@[simp] theorem resetSlice_num (s : State) (n : Nat) (h : s.dp.numbered) : (State.resetSlice s n).dp.numbered := by
  unfold State.resetSlice
  (try dsimp only)
  repeat' first | (simp [h]; done) | split
@[simp] theorem resetPager_num (s : State) (h : s.dp.numbered) : (State.resetPager s).dp.numbered := by
  unfold State.resetPager
  (try dsimp only)
  repeat' first | (simp [h]; done) | split
@[simp] theorem globEnd_num (s : State) (h : s.dp.numbered) : (State.globEnd s).dp.numbered := by
  unfold State.globEnd
  (try dsimp only)
  repeat' first | (simp [h]; done) | split
@[simp] theorem globTables_num (s : State) (h : s.dp.numbered) : (State.globTables s).dp.numbered := by
  unfold State.globTables
  exact same_num _ _ rfl rfl h
@[simp] theorem resetGlob_num (s : State) (h : s.dp.numbered) : (State.resetGlob s).dp.numbered := by
  unfold State.resetGlob
  simp only [startScan_dp, globPages_dp]
  exact pairDo_num _ _ (fun s h => by simp [h]) (globTables_num _ (globEnd_num _ h))
@[simp] theorem resetBegin_num (s : State) (q : Part) (h : s.dp.numbered) : (State.resetBegin s q).dp.numbered := by
  unfold State.resetBegin
  extract_lets t
  have ht : t.dp.numbered := by simp [t, h]
  clear_value t
  split <;> simp [ht]
@[simp] theorem askReset_num (s : State) (q : Part) (h : s.dp.numbered) : (State.askReset s q).dp.numbered := by
  unfold State.askReset
  (try dsimp only)
  repeat' first | (simp [h]; done) | split
@[simp] theorem lateFault_num (s : State) (q : Part) (h : s.dp.numbered) : (State.lateFault s q).dp.numbered := by
  unfold State.lateFault
  dsimp only
  repeat' first | (simp [h]; done) | exact holdUnit_num _ _ (by simp [h]) | exact sliceDown_num _ _ (by simp [h]) | split
@[simp] theorem resetReturn_num (s : State) (q : Part) (h : s.dp.numbered) : (State.resetReturn s q).dp.numbered := by
  unfold State.resetReturn
  extract_lets t1 t2 t3
  have h1 : t1.dp.numbered := forEach_num _ _ (fun s a h => by simp [h]) _ h
  clear_value t1
  have h2 : t2.dp.numbered := h1
  clear_value t2
  have h3 : t3.dp.numbered := lateFault_num _ _ (by simp [h2])
  clear_value t3
  split
  · exact h3
  · exact resetBegin_num _ _ (by simp [h3])
@[simp] theorem keyGone_num (s : State) (f : Frame) (h : s.dp.numbered) : (State.keyGone s f).dp.numbered := by
  unfold State.keyGone
  (try dsimp only)
  repeat' first | (simp [h]; done) | split
@[simp] theorem vaultUe_num (s : State) (v : Nat) (h : s.dp.numbered) : (State.vaultUe s v).dp.numbered := by
  unfold State.vaultUe
  (try dsimp only)
  repeat' first | (simp [h]; done) | intro _ | (refine forEach_num _ _ (fun s a h => ?_) _ ?_) | (refine when_num _ (fun s h => ?_) _ _ ?_) | split
@[simp] theorem bufferUe_num (s : State) (id : Nat) (h : s.dp.numbered) : (State.bufferUe s id).dp.numbered := by
  unfold State.bufferUe
  (try dsimp only)
  repeat' first | (simp [h]; done) | split
@[simp] theorem bypassUe_num (s : State) (n : Nat) (h : s.dp.numbered) : (State.bypassUe s n).dp.numbered := by
  have h1 : (s.sramUe 53 (Config.sramWord 8 n) none).dp.numbered := by simp [h]
  unfold State.bypassUe
  exact same_num _ _ rfl rfl h1
@[simp] theorem ue_num (s : State) (loc : UeLoc) (h : s.dp.numbered) : (State.ue s loc).dp.numbered := by
  unfold State.ue
  (try dsimp only)
  repeat' first | (simp [h]; done) | split
@[simp] theorem cfgPar_num (s : State) (p : Page) (off : Nat) (h : s.dp.numbered) : (State.cfgPar s p off).dp.numbered := by
  unfold State.cfgPar
  extract_lets t1 t2 t3
  have h1 : t1.dp.numbered := by simp [t1, h]
  clear_value t1
  have h2 : t2.dp.numbered := by
    simp only [t2]
    split
    · exact sliceFault_num _ _ _ _ (when_num _ (fun s h => by simp [h]) _ _ h1)
    · simp [h1]
  clear_value t2
  have h3 : t3.dp.numbered := when_num _ (fun s h => by simp [h]) _ _ h2
  clear_value t3
  simp [h3]
@[simp] theorem comparatorFault_num (s : State) (inst : Nat) (h : s.dp.numbered) : (State.comparatorFault s inst).dp.numbered := by
  unfold State.comparatorFault
  (try dsimp only)
  repeat' first | (simp [h]; done) | split
@[simp] theorem aoLock_num (s : State) (pair : Nat) (h : s.dp.numbered) : (State.aoLock s pair).dp.numbered := by
  have h1 : (s.detect0 0x50 pair).dp.numbered := by simp [h]
  unfold State.aoLock
  extract_lets gate t
  have ht : t.dp.numbered := same_num _ _ rfl rfl h1
  clear_value t
  exact quietDrop_num _ (by simp [ht])
@[simp] theorem parityTest_num (s : State) (p : Page) (n : Nat) (h : s.dp.numbered) : (State.parityTest s p n).dp.numbered := by
  unfold State.parityTest
  (try dsimp only)
  repeat' first | (simp [h]; done) | split
@[simp] theorem latentFailed_num (s : State) (t inst : Nat) (h : s.dp.numbered) : (State.latentFailed s t inst).dp.numbered := by
  unfold State.latentFailed
  split
  rotate_right 2
  · split
    · generalize Config.freeReg s.freeCtr = n
      exact parityTest_num s.draw _ n (by rw [draw_dp]; exact h)
    · exact h
  all_goals repeat' first | (simp [h]; done) | split
@[simp] theorem marchCmd_num (s : State) (op : Nat) (h : s.dp.numbered) : (State.marchCmd s op).dp.numbered := by
  unfold State.marchCmd
  exact settle_num _ (by rw [setRo_dp, marchRun_dp]; exact h)
@[simp] theorem marchStart_num (s : State) (op : Nat) (h : s.dp.numbered) : (State.marchStart s op).dp.numbered := through_num _ _ _ _ _ (fun s h => marchCmd_num s op h) h
@[simp] theorem bypStage_num (s : State) (h : s.dp.numbered) : (State.bypStage s).dp.numbered := by
  unfold State.bypStage
  simp only [modHdr_dp]
  exact same_num _ _ rfl rfl h
@[simp] theorem writeAct_num (s : State) (p : Page) (off : Nat) (data : W32) (h : s.dp.numbered) : (State.writeAct s p off data).dp.numbered := by
  unfold State.writeAct
  (try dsimp only)
  repeat' first | (simp [h]; done) | split
@[simp] theorem writeReg_num (s : State) (p : Page) (off : Nat) (data : W32) (h : s.dp.numbered) : (State.writeReg s p off data).dp.numbered := by
  unfold State.writeReg
  exact gated_num _ _ _ _ _ _ (fun s h => by simp [h]) h
@[simp] theorem writeAt_num (s : State) (a : Nat) (data : W32) (h : s.dp.numbered) : (State.writeAt s a data).dp.numbered := by
  unfold State.writeAt
  (try dsimp only)
  repeat' first | (simp [h]; done) | split
@[simp] theorem cpWrite_num (s : State) (a size : Nat) (data : W64) (h : s.dp.numbered) : (State.cpWrite s a size data).dp.numbered := by
  unfold State.cpWrite
  (try dsimp only)
  repeat' first | (simp [h]; done) | split
@[simp] theorem eofTaken_num (s : State) (id : Nat) (h : s.dp.numbered) : (State.eofTaken s id).dp.numbered := by
  unfold State.eofTaken
  split
  · next f hf =>
    extract_lets s1
    have h1 : s1.dp.numbered := vfCheck_num _ _ (closeFrame_num _ _ h)
    clear_value s1
    split
    · exact voidLong_num _ _ (passTry_num _ _ h1)
    · exact h1
  · exact h
@[simp] theorem longFound_num (s : State) (f : Frame) (h : s.dp.numbered) : (State.longFound s f).dp.numbered := by
  unfold State.longFound
  (try dsimp only)
  repeat' first | (simp [h]; done) | split
@[simp] theorem arriveFrame_num (s : State) (f : Frame) (k : Nat) (h : s.dp.numbered) : (State.arriveFrame s f k).dp.numbered := by
  unfold State.arriveFrame
  extract_lets g s1
  have h1 : s1.dp.numbered := by simp only [s1, bwIn_dp]; exact modFrame_num _ _ _ (fun _ => rfl) h
  clear_value s1
  split
  · exact eofTaken_num _ _ h1
  · exact longFound_num _ _ (when_num _ (fun s h => rseReturn_num _ _ h) _ _ h1)
@[simp] theorem arriveStub_num (s : State) (t : Stub) (k : Nat) (h : s.dp.numbered) : (State.arriveStub s t k).dp.numbered := by
  unfold State.arriveStub
  extract_lets u fin rest s1 s2
  have h1 : s1.dp.numbered := by simp only [s1, bwIn_dp]; exact modDp_num _ _ rfl rfl h
  clear_value s1
  have h2 : s2.dp.numbered := by
    simp only [s2]
    rw [when_dp _ _ _ (fun s => payRse_dp s _ _ _)]; exact h1
  clear_value s2
  split
  · exact addReport_num _ _ h2
  · exact h2
@[simp] theorem arriveClass_num (s : State) (d : Dir) (port : Nat) (cls : Bool) (k : Nat) (h : s.dp.numbered) : (State.arriveClass s d port cls k).dp.numbered := by
  unfold State.arriveClass
  (try dsimp only)
  repeat' first | (simp [h]; done) | split
@[simp] theorem arrivePort_num (s : State) (d : Dir) (port : Nat) (h : s.dp.numbered) : (State.arrivePort s d port).dp.numbered := by
  unfold State.arrivePort
  (try dsimp only)
  repeat' first | (simp [h]; done) | split
@[simp] theorem arrive_num (s : State) (h : s.dp.numbered) : (State.arrive s).dp.numbered := by
  unfold State.arrive
  exact forEach_num _ _ (fun s a h => arrivePort_num _ _ _ h) _ h
@[simp] theorem issueOne_num (s : State) (n : Nat) (h : s.dp.numbered) : (State.issueOne s n).dp.numbered := by
  unfold State.issueOne
  split
  · dsimp only
    rw [evtF_dp, modSlices_dp, modSl_dp]
    exact modFrame_num _ _ _ (fun f => issue_id f) h
  · exact h
@[simp] theorem issueSlice_num (s : State) (n : Nat) (h : s.dp.numbered) : (State.issueSlice s n).dp.numbered := by
  unfold State.issueSlice
  exact modAll_num _ _ (fun f => by split <;> simp) (forEach_num _ _ (fun s a h => issueOne_num _ _ h) _ h)
@[simp] theorem issueAll_num (s : State) (h : s.dp.numbered) : (State.issueAll s).dp.numbered := by
  unfold State.issueAll
  exact forEach_num _ _ (fun s a h => issueSlice_num _ _ h) _ h
@[simp] theorem flow_num (s : State) (h : s.dp.numbered) : (State.flow s).dp.numbered := by
  unfold State.flow
  split
  · exact h
  · exact passAll_num _ _ (issueAll_num _ (arrive_num _ h))

end Sys2Proof.Machine
end

