-- ==== Sys2Proof/Laws/Tab.lean ====
section
/-! SUPPORT. The sparse tables: a read after a write, and the canonical form, which every write keeps. -/
namespace Sys2Proof.Machine

theorem Tab.get_ins {α : Type} (d : α) (m : Tab α) (k : Nat) (x : α) : Tab.get d (Tab.ins m k x) k = x := by
  induction m with
  | nil => simp [Tab.ins, Tab.get]
  | cons q m ih =>
    obtain ⟨a, v⟩ := q
    unfold Tab.ins
    split
    · simp [Tab.get]
    · split
      · next h => simp [Tab.get, h]
      · next h => simp [Tab.get, h, ih]
theorem Tab.get_ins_ne {α : Type} (d : α) (m : Tab α) (k j : Nat) (x : α) (h : j ≠ k) :
    Tab.get d (Tab.ins m k x) j = Tab.get d m j := by
  induction m with
  | nil => simp [Tab.ins, Tab.get, h]
  | cons q m ih =>
    obtain ⟨a, v⟩ := q
    unfold Tab.ins
    split
    · simp [Tab.get, h]
    · split
      · next e => subst e; simp [Tab.get, h]
      · simp only [Tab.get, ih]
theorem Tab.get_del_ne {α : Type} (d : α) (m : Tab α) (k j : Nat) (h : j ≠ k) :
    Tab.get d (Tab.del m k) j = Tab.get d m j := by
  induction m with
  | nil => rfl
  | cons q m ih =>
    obtain ⟨a, v⟩ := q
    unfold Tab.del
    split
    · next e => subst e; simp [Tab.get, h, ih]
    · simp only [Tab.get, ih]
/-- A read of another key. -/
theorem Tab.get_set_ne {α : Type} [DecidableEq α] (d e : α) (m : Tab α) (k j : Nat) (x : α) (h : j ≠ k) :
    Tab.get d (Tab.set e m k x) j = Tab.get d m j := by
  unfold Tab.set
  split
  · exact Tab.get_del_ne d m k j h
  · exact Tab.get_ins_ne d m k j x h
theorem Tab.get_del {α : Type} (d : α) (m : Tab α) (k : Nat) : Tab.get d (Tab.del m k) k = d := by
  induction m with
  | nil => rfl
  | cons q m ih =>
    obtain ⟨a, v⟩ := q
    unfold Tab.del
    split
    · exact ih
    · next h => simp only [Tab.get, h, if_false]; exact ih
/-- A read of a key that has been written. -/
theorem Tab.get_set {α : Type} [DecidableEq α] (d : α) (m : Tab α) (k : Nat) (x : α) :
    Tab.get d (Tab.set d m k x) k = x := by
  unfold Tab.set
  split
  · next h => rw [h]; exact Tab.get_del d m k
  · exact Tab.get_ins d m k x
/-- A read of a key that has been changed. -/
theorem Tab.get_modify {α : Type} [DecidableEq α] (d : α) (m : Tab α) (k : Nat) (f : α → α) :
    Tab.get d (Tab.modify d m k f) k = f (Tab.get d m k) := Tab.get_set d m k _
theorem Tab.get_modify_ne {α : Type} [DecidableEq α] (d : α) (m : Tab α) (k j : Nat) (f : α → α) (h : j ≠ k) :
    Tab.get d (Tab.modify d m k f) j = Tab.get d m j := Tab.get_set_ne d d m k j _ h
theorem Tab.wfFrom_mono {α : Type} [DecidableEq α] (d : Nat → α) (m : Tab α) (i j : Nat) (hij : i ≤ j)
    (h : Tab.wfFrom d j m = true) : Tab.wfFrom d i m = true := by
  cases m with
  | nil => rfl
  | cons q m =>
    obtain ⟨a, v⟩ := q
    simp only [Tab.wfFrom, Bool.and_eq_true, decide_eq_true_eq] at h ⊢
    exact ⟨⟨hij.trans h.1.1, h.1.2⟩, h.2⟩
theorem Tab.wfFrom_ins {α : Type} [DecidableEq α] (d : Nat → α) (m : Tab α) (i k : Nat) (x : α) (hx : x ≠ d k)
    (hi : i ≤ k) (h : Tab.wfFrom d i m = true) : Tab.wfFrom d i (Tab.ins m k x) = true := by
  induction m generalizing i with
  | nil => simp [Tab.ins, Tab.wfFrom, hi, hx]
  | cons q m ih =>
    obtain ⟨a, v⟩ := q
    have h' := h
    simp only [Tab.wfFrom, Bool.and_eq_true, decide_eq_true_eq] at h
    unfold Tab.ins
    split
    · next hk =>
      simp only [Tab.wfFrom, Bool.and_eq_true, decide_eq_true_eq, Bool.not_eq_true', decide_eq_false_iff_not]
      simp only [Bool.not_eq_true', decide_eq_false_iff_not] at h
      exact ⟨⟨hi, hx⟩, ⟨⟨by omega, h.1.2⟩, h.2⟩⟩
    · split
      · next hk =>
        simp only [Tab.wfFrom, Bool.and_eq_true, decide_eq_true_eq, Bool.not_eq_true', decide_eq_false_iff_not]
        exact ⟨⟨h.1.1, by rw [← hk]; exact hx⟩, h.2⟩
      · next h1 h2 =>
        simp only [Tab.wfFrom, Bool.and_eq_true, decide_eq_true_eq]
        exact ⟨⟨h.1.1, h.1.2⟩, ih (a + 1) (by omega) h.2⟩
theorem Tab.wfFrom_del {α : Type} [DecidableEq α] (d : Nat → α) (m : Tab α) (i k : Nat) (h : Tab.wfFrom d i m = true) :
    Tab.wfFrom d i (Tab.del m k) = true := by
  induction m generalizing i with
  | nil => rfl
  | cons q m ih =>
    obtain ⟨a, v⟩ := q
    simp only [Tab.wfFrom, Bool.and_eq_true, decide_eq_true_eq] at h
    unfold Tab.del
    split
    · exact ih i (Tab.wfFrom_mono d m i (a + 1) (by omega) h.2)
    · simp only [Tab.wfFrom, Bool.and_eq_true, decide_eq_true_eq]
      exact ⟨⟨h.1.1, h.1.2⟩, ih (a + 1) h.2⟩
/-- A write keeps the canonical form. -/
theorem Tab.wf_set {α : Type} [DecidableEq α] (d : Nat → α) (m : Tab α) (k : Nat) (x : α) (h : Tab.wf d m = true) :
    Tab.wf d (Tab.set (d k) m k x) = true := by
  unfold Tab.set Tab.wf
  split
  · exact Tab.wfFrom_del d m 0 k h
  · next hx => exact Tab.wfFrom_ins d m 0 k x hx (Nat.zero_le _) h

end Sys2Proof.Machine
end

