-- ==== Sys2Proof/Laws/FrameFacts.lean ====
section
/-! SUPPORT. The list of frames: a frame that is changed, a frame that goes, and what the end of a frame leaves alone; and
what an occurrence adds to an event counter. -/
namespace Sys2Proof.Machine

/-! ### One frame -/

theorem frame_some (s : State) (id : Nat) (f : Frame) (h : s.frame id = some f) :
    f ∈ s.dp.frames ∧ f.id = id ∧ f.void_ = false := by
  have h1 := List.mem_of_find?_eq_some h
  have h2 := List.find?_some h
  simp only [Bool.and_eq_true, decide_eq_true_eq, Bool.not_eq_true'] at h2
  exact ⟨h1, h2.1, h2.2⟩
theorem frame_none (s : State) (id : Nat) (h : ∀ f ∈ s.dp.frames, f.id = id → f.void_ = true) : s.frame id = none := by
  unfold State.frame
  refine List.find?_eq_none.mpr (fun f hf => ?_)
  simp only [Bool.and_eq_true, decide_eq_true_eq, Bool.not_eq_true', not_and, Bool.not_eq_false]
  exact h f hf
theorem find_nodup (l : List Frame) (f : Frame) (hn : (l.map Frame.id).Nodup) (hf : f ∈ l) (hv : f.void_ = false) :
    l.find? (fun g => decide (g.id = f.id) && !g.void_) = some f := by
  induction l with
  | nil => cases hf
  | cons g l ih =>
    rw [List.map_cons, List.nodup_cons] at hn
    rcases List.mem_cons.mp hf with e | e
    · subst e; simp [hv]
    · have hg : g.id ≠ f.id := fun h => hn.1 (h ▸ List.mem_map_of_mem e)
      rw [List.find?_cons_of_neg (by simp [hg])]
      exact ih hn.2 e
/-- With numbers of their own, a frame of the list is the one its number names. -/
theorem frame_of_mem (s : State) (f : Frame) (hn : s.dp.numbered) (hf : f ∈ s.dp.frames) (hv : f.void_ = false) :
    s.frame f.id = some f := find_nodup _ f hn.2 hf hv
theorem find_map (l : List Frame) (g : Frame → Frame) (p : Frame → Bool) (hg : ∀ f, p (g f) = p f) :
    (l.map g).find? p = (l.find? p).map g := by
  induction l with
  | nil => rfl
  | cons a l ih =>
    rw [List.map_cons]
    cases h : p a
    · rw [List.find?_cons_of_neg (by simp [hg, h]), List.find?_cons_of_neg (by simp [h]), ih]
    · rw [List.find?_cons_of_pos (by simp [hg, h]), List.find?_cons_of_pos (by simp [h])]; rfl
/-- A change of a frame that keeps its number. -/
theorem frame_modFrame (s : State) (id : Nat) (g : Frame → Frame) (f : Frame) (hg : ∀ f, (g f).id = f.id ∧ (g f).void_ = f.void_)
    (h : s.frame id = some f) : (s.modFrame id g).frame id = some (g f) := by
  have hf := frame_some s id f h
  unfold State.frame at h ⊢
  show (s.dp.frames.map _).find? _ = _
  rw [find_map _ _ _ (fun q => by split <;> simp [hg]), h]
  simp [hf.2.1]
/-- A change of another frame. -/
theorem frame_modFrame_ne (s : State) (id j : Nat) (g : Frame → Frame) (hg : ∀ f, (g f).id = f.id) (h : j ≠ id) :
    (s.modFrame id g).frame j = s.frame j := by
  unfold State.frame
  show (s.dp.frames.map _).find? _ = _
  induction s.dp.frames with
  | nil => rfl
  | cons a l ih =>
    rw [List.map_cons]
    by_cases ha : a.id = id
    · simp only [ha, if_true]
      rw [List.find?_cons_of_neg (by simp [hg, ha, Ne.symm h]), List.find?_cons_of_neg (by simp [ha, Ne.symm h]), ih]
    · simp only [ha, if_false]
      cases hp : (decide (a.id = j) && !a.void_)
      · rw [List.find?_cons_of_neg (by simp [hp]), List.find?_cons_of_neg (by simp [hp]), ih]
      · rw [List.find?_cons_of_pos (by exact hp), List.find?_cons_of_pos (by exact hp)]
/-- A change that every frame takes part in and that keeps numbers. -/
theorem frame_modAll (s : State) (g : Frame → Frame) (hg : ∀ f, (g f).id = f.id ∧ (g f).void_ = f.void_) (id : Nat) :
    (s.modDp (fun d => { d with frames := d.frames.map g })).frame id = (s.frame id).map g :=
  find_map _ g _ (fun f => by simp [hg])
theorem frame_dp (s t : State) (id : Nat) (h : t.dp = s.dp) : t.frame id = s.frame id := by unfold State.frame; rw [h]
theorem frame_frames (s t : State) (id : Nat) (h : t.dp.frames = s.dp.frames) : t.frame id = s.frame id := by
  unfold State.frame; rw [h]

/-! ### Frames that are gone -/

/-- No frame of a number is left that is not void. -/
def State.gone (s : State) (id : Nat) : Prop := ∀ f ∈ s.dp.frames, f.id = id → f.void_ = true
theorem gone_frame (s : State) (id : Nat) (h : s.gone id) : s.frame id = none := frame_none s id h
theorem gone_mod (s : State) (id j : Nat) (g : Frame → Frame) (hg : ∀ f, (g f).id = f.id ∧ (f.void_ = true → (g f).void_ = true))
    (h : s.gone id) : (s.modFrame j g).gone id := by
  intro f hf e
  obtain ⟨q, hq, rfl⟩ := List.mem_map.mp hf
  split at e
  · next hj => rw [if_pos hj]; exact (hg q).2 (h q hq (by rw [← (hg q).1]; exact e))
  · next hj => rw [if_neg hj]; exact h q hq e
theorem gone_sub (s t : State) (id : Nat) (hs : t.dp.frames.Sublist s.dp.frames) (h : s.gone id) : t.gone id :=
  fun f hf e => h f (hs.subset hf) e
theorem gone_dp (s t : State) (id : Nat) (hs : t.dp.frames = s.dp.frames) (h : s.gone id) : t.gone id := by
  unfold State.gone; rw [hs]; exact h
theorem gone_setTicket (s : State) (id j k : Nat) (h : s.gone id) : (s.setTicket j k).gone id :=
  gone_dp _ _ _ rfl (gone_mod s id j _ (fun f => ⟨rfl, fun h => h⟩) h)
theorem gone_forEach {α : Type} (id : Nat) (s : State) (f : State → α → State) (hf : ∀ s a, s.gone id → (f s a).gone id)
    (l : List α) (h : s.gone id) : (s.forEach l f).gone id := forEach_inv (fun s => s.gone id) f hf l s h
theorem gone_when (id : Nat) (f : State → State) (hf : ∀ s, s.gone id → (f s).gone id) (c : Bool) (s : State) (h : s.gone id) :
    (s.when c f).gone id := by cases c <;> simp [h, hf]
theorem gone_rseReturn (s : State) (f : Frame) (id : Nat) (h : s.gone id) : (s.rseReturn f).gone id := by
  unfold State.rseReturn
  split
  · refine gone_dp (s.modFrame f.id (fun g => { g with paid := max g.paid f.segsIn })) _ id (by rw [payRse_dp]) ?_
    exact gone_mod s id _ _ (fun f => ⟨rfl, fun h => h⟩) h
  · exact h
theorem gone_passTry (s : State) (f : Frame) (id : Nat) (h : s.gone id) : (s.passTry f).gone id := by
  unfold State.passTry
  split
  · refine gone_rseReturn _ _ _ (gone_dp (s.modFrame f.id (fun g => { g with stage := .written })) _ id
      (by rw [sendTicket_dp]) ?_)
    exact gone_mod s id _ _ (fun f => ⟨rfl, fun h => h⟩) h
  · exact h
theorem gone_passAll (s : State) (p : Frame → Bool) (id : Nat) (h : s.gone id) : (s.passAll p).gone id := by
  unfold State.passAll
  refine gone_forEach id _ _ (fun s a h => ?_) _ h
  split
  · exact gone_passTry _ _ _ h
  · exact h
theorem gone_nextTicket (s : State) (id k : Nat) (h : s.gone id) : (s.nextTicket k).gone id := by
  unfold State.nextTicket
  refine gone_forEach id _ _ (fun s a h => ?_) _ h
  have ht := gone_setTicket s id a k h
  split
  · dsimp only
    split
    · exact gone_passTry _ _ _ ht
    · exact ht
  · exact h
/-- What follows once a frame has left its order: the tickets that wait, and the space it held. -/
theorem gone_after (s : State) (id k : Nat) (c : Bool) (p : Frame → Bool) (h : s.gone id) :
    ((s.nextTicket k).when c (·.passAll p)).gone id :=
  gone_when id _ (fun s h => gone_passAll s p id h) _ _ (gone_nextTicket s id k h)
theorem gone_remove (s : State) (f : Frame) : (s.removeFrame f).gone f.id := by
  refine gone_after _ _ _ _ _ (fun g hg e => ?_)
  have := (sweepVoid_sub f.key_ _).subset hg
  have := (List.mem_filter.mp this).2
  simp only [decide_eq_true_eq] at this
  exact absurd e this
theorem gone_removeOther (s : State) (f : Frame) (id : Nat) (h : s.gone id) : (s.removeFrame f).gone id :=
  gone_after _ _ _ _ _ (gone_sub s _ id ((sweepVoid_sub f.key_ _).trans List.filter_sublist) h)
theorem gone_void (s : State) (f : Frame) : (s.voidFrame f).gone f.id := by
  unfold State.voidFrame
  split
  · exact gone_remove s f
  · refine gone_after _ _ _ _ _ ?_
    intro g hg e
    have hg := (sweepVoid_sub f.key_ _).subset hg
    obtain ⟨q, hq, rfl⟩ := List.mem_map.mp hg
    split at e
    · next h => rw [if_pos h]
    · next h => exact absurd e h
theorem gone_voidOther (s : State) (f : Frame) (id : Nat) (h : s.gone id) : (s.voidFrame f).gone id := by
  unfold State.voidFrame
  extract_lets src t
  have ht : t.gone id := gone_mod _ _ _ _ (fun f => ⟨rfl, fun _ => rfl⟩) (gone_dp _ _ _ (by rw [sendTicket_dp]) h)
  clear_value t
  split
  · exact gone_removeOther s f id h
  · exact gone_after _ _ _ _ _ (gone_sub t _ id (sweepVoid_sub f.key_ _) ht)
theorem gone_leaveSlice (s : State) (f : Frame) (id : Nat) (h : s.gone id) : (s.leaveSlice f).gone id := by
  unfold State.leaveSlice
  split
  · split
    · unfold State.resume
      intro g hg e
      obtain ⟨q, hq, rfl⟩ := List.mem_map.mp hg
      split at e
      · next hj => rw [if_pos hj]; exact h q (by simpa using hq) e
      · next hj => rw [if_neg hj]; exact h q (by simpa using hq) e
    · exact h
  · exact h
theorem gone_addStub (s : State) (f : Frame) (id : Nat) (h : s.gone id) : (s.addStub f).gone id := by
  unfold State.addStub
  split
  · exact h
  · exact gone_dp s _ _ rfl h
/-- A frame that is ended is gone. -/
theorem gone_end (s : State) (f : Frame) (c : Code) (n : Option Nat) : (s.endFrame f c n).gone f.id := by
  unfold State.endFrame
  dsimp only
  split
  · exact gone_dp _ _ _ (by rw [sendEof_dp]) (gone_remove _ f)
  · exact gone_void _ f
/-- A frame that is gone stays so when another ends. -/
theorem gone_endOther (s : State) (f : Frame) (c : Code) (n : Option Nat) (id : Nat) (h : s.gone id) :
    (s.endFrame f c n).gone id := by
  unfold State.endFrame
  extract_lets s1 s2 s3 k
  have h1 : s1.gone id := gone_dp s s1 id (by simp only [s1]; split <;> simp) h
  have h2 : s2.gone id := gone_when id _ (fun s h => gone_rseReturn _ _ _ h) _ _ h1
  have h3 : s3.gone id := gone_addStub _ _ _ (gone_leaveSlice _ _ _ h2)
  clear_value s3
  split
  · exact gone_dp ((s3.draw.refund f k).removeFrame f) _ id (by rw [sendEof_dp])
      (gone_removeOther _ f id (gone_dp s3 _ id rfl h3))
  · exact gone_voidOther _ f id h3

/-! ### Event counters -/

theorem counted_evt (s : State) (n k : Nat) : (s.evt n k).counted n = s.counted n + k :=
  Tab.get_modify 0 s.cnt.acc n (· + k)
theorem counted_evt_ne (s : State) (n k m : Nat) (h : m ≠ n) : (s.evt n k).counted m = s.counted m :=
  Tab.get_modify_ne 0 s.cnt.acc n m (· + k) h
theorem counted_acc (s t : State) (n : Nat) (h : t.cnt.acc = s.cnt.acc) : t.counted n = s.counted n := by
  unfold State.counted; rw [h]
/-- A detection is counted once at its source. -/
theorem counted_detect (s : State) (inj : Bool) (det inst : Nat) (a b : W32) :
    (s.detectAs inj det inst a b).counted (det - 1) = s.counted (det - 1) + 1 := by
  unfold State.detectAs
  dsimp only
  split
  · exact counted_evt s _ 1
  · exact counted_evt s _ 1
theorem ite_acc (c : Prop) [Decidable c] (a b : State) : (if c then a else b).cnt.acc = if c then a.cnt.acc else b.cnt.acc := by
  split <;> rfl
theorem forEach_acc {α : Type} (f : State → α → State) (hf : ∀ s a, (f s a).cnt.acc = s.cnt.acc) (l : List α) (s : State) :
    (s.forEach l f).cnt.acc = s.cnt.acc := forEach_keeps (fun s => s.cnt.acc) f hf l s
theorem when_acc (f : State → State) (hf : ∀ s, (f s).cnt.acc = s.cnt.acc) (c : Bool) (s : State) :
    (s.when c f).cnt.acc = s.cnt.acc := when_keeps (fun s => s.cnt.acc) f hf c s
theorem payRse_acc (s : State) (p : Nat) (x : Bool) (n : Nat) : (s.payRse p x n).cnt.acc = s.cnt.acc := by
  unfold State.payRse; split <;> rfl
theorem rseReturn_acc (s : State) (f : Frame) : (s.rseReturn f).cnt.acc = s.cnt.acc := by
  unfold State.rseReturn
  split
  · rw [payRse_acc]; rfl
  · rfl
theorem sendTicket_acc (s : State) (f : Frame) (n : Nat) (v : Bool) : (s.sendTicket f n v).cnt.acc = s.cnt.acc := by
  unfold State.sendTicket; split <;> rfl
theorem passTry_acc (s : State) (f : Frame) : (s.passTry f).cnt.acc = s.cnt.acc := by
  unfold State.passTry
  split
  · rw [rseReturn_acc, sendTicket_acc]; rfl
  · rfl
theorem passAll_acc (s : State) (p : Frame → Bool) : (s.passAll p).cnt.acc = s.cnt.acc :=
  forEach_acc _ (fun s id => by split; exact passTry_acc _ _; rfl) _ _
theorem nextTicket_acc (s : State) (k : Nat) : (s.nextTicket k).cnt.acc = s.cnt.acc := by
  unfold State.nextTicket
  refine forEach_acc _ (fun s a => ?_) _ _
  split
  · dsimp only
    split
    · rw [passTry_acc]; rfl
    · rfl
  · rfl
theorem resume_acc (s : State) (n : Nat) : (s.resume n).cnt.acc = s.cnt.acc := rfl
theorem leaveSlice_acc (s : State) (f : Frame) : (s.leaveSlice f).cnt.acc = s.cnt.acc := by
  unfold State.leaveSlice
  split
  · split <;> rfl
  · rfl
theorem addStub_acc (s : State) (f : Frame) : (s.addStub f).cnt.acc = s.cnt.acc := by
  unfold State.addStub; split <;> rfl
theorem removeFrame_acc (s : State) (f : Frame) : (s.removeFrame f).cnt.acc = s.cnt.acc := by
  unfold State.removeFrame
  rw [when_acc _ (fun s => passAll_acc s _), nextTicket_acc]
  rfl
theorem voidFrame_acc (s : State) (f : Frame) : (s.voidFrame f).cnt.acc = s.cnt.acc := by
  unfold State.voidFrame
  split
  · exact removeFrame_acc s f
  · rw [when_acc _ (fun s => passAll_acc s _), nextTicket_acc]
    exact sendTicket_acc _ _ _ _
theorem sendEof_acc (s : State) (f : Frame) (b : Bytes) (c : Code) : (s.sendEof f b c).cnt.acc = s.cnt.acc := by
  unfold State.sendEof; split <;> rfl
/-- The end of a frame counts on no event counter. -/
theorem endFrame_acc (s : State) (f : Frame) (c : Code) (n : Option Nat) : (s.endFrame f c n).cnt.acc = s.cnt.acc := by
  unfold State.endFrame
  extract_lets s1 s2 s3 k
  have h1 : s1.cnt.acc = s.cnt.acc := by simp only [s1]; split <;> rfl
  have h2 : s2.cnt.acc = s.cnt.acc := (when_acc _ (fun s => rseReturn_acc s f) _ _).trans h1
  have h3 : s3.cnt.acc = s.cnt.acc := by simp only [s3]; rw [addStub_acc, leaveSlice_acc, h2]
  clear_value s3
  split
  · rw [sendEof_acc, removeFrame_acc]; exact h3
  · rw [voidFrame_acc, h3]
theorem endFrames_acc (s : State) (p : Frame → Bool) (c : Code) (n : Frame → Option Nat) :
    (s.endFrames p c n).cnt.acc = s.cnt.acc :=
  forEach_keeps (fun s => s.cnt.acc) _ (fun s id => by split; exact endFrame_acc _ _ _ _; rfl) _ _

end Sys2Proof.Machine
end

