-- ==== Sys2Proof/Laws/Frames.lean ====
section
/-! SUPPORT. What groups of commands leave alone: for each group, the parts of the state that none of its commands touches,
and one lemma for each operation that they use. -/
namespace Sys2Proof.Machine

/-- What the commands of group 1 leave alone. -/
def State.part1 (s : State) := (s.sys, s.ch, s.lease, s.pager, s.keyx, s.store, s.pwr, s.pair, s.pending)
@[simp] theorem modRegs_p1 (s : State) (f : Regs → Regs) : (s.modRegs f).part1 = s.part1 := rfl
@[simp] theorem modDp_p1 (s : State) (f : Dp → Dp) : (s.modDp f).part1 = s.part1 := rfl
@[simp] theorem modSlices_p1 (s : State) (f : Slices → Slices) : (s.modSlices f).part1 = s.part1 := rfl
@[simp] theorem modCnt_p1 (s : State) (f : Counts → Counts) : (s.modCnt f).part1 = s.part1 := rfl
@[simp] theorem modFlt_p1 (s : State) (f : Faults → Faults) : (s.modFlt f).part1 = s.part1 := rfl
@[simp] theorem emit_p1 (s : State) (e : Emit) : (s.emit e).part1 = s.part1 := rfl
@[simp] theorem draw_p1 (s : State) : s.draw.part1 = s.part1 := rfl
@[simp] theorem begin_p1 (s : State) : s.begin.part1 = s.part1 := rfl
@[simp] theorem ite_p1 (c : Prop) [Decidable c] (a b : State) : (if c then a else b).part1 = if c then a.part1 else b.part1 := by split <;> rfl
@[simp] theorem forEach_p1 {α : Type} (f : State → α → State) (l : List α) (s : State) (h : ∀ s a, (f s a).part1 = s.part1) : (s.forEach l f).part1 = s.part1 := forEach_keeps (·.part1) f h l s
@[simp] theorem when_p1 (f : State → State) (c : Bool) (s : State) (h : ∀ s, (f s).part1 = s.part1) : (s.when c f).part1 = s.part1 := when_keeps (·.part1) f h c s
@[simp] theorem setFlags_p1 (s : State) (p : Page) (off : Nat) (m : W32) : (State.setFlags s p off m).part1 = s.part1 := by
  unfold State.setFlags
  simp
@[simp] theorem setFlag_p1 (s : State) (p : Page) (off n : Nat) : (State.setFlag s p off n).part1 = s.part1 := by
  unfold State.setFlag
  simp
@[simp] theorem evt_p1 (s : State) (n k : Nat) : (State.evt s n k).part1 = s.part1 := by
  unfold State.evt
  simp
@[simp] theorem evtF_p1 (s : State) (n : Nat) (who : Option Nat × Nat × Dir) : (State.evtF s n who).part1 = s.part1 := by
  unfold State.evtF
  simp
@[simp] theorem portAdd_p1 (s : State) (port idx k : Nat) : (State.portAdd s port idx k).part1 = s.part1 := by
  unfold State.portAdd
  simp
@[simp] theorem portCount_p1 (s : State) (port idx : Nat) : (State.portCount s port idx).part1 = s.part1 := by
  unfold State.portCount
  simp
@[simp] theorem portFlag_p1 (s : State) (port n : Nat) : (State.portFlag s port n).part1 = s.part1 := by
  unfold State.portFlag
  simp
@[simp] theorem portBFlag_p1 (s : State) (port n : Nat) : (State.portBFlag s port n).part1 = s.part1 := by
  unfold State.portBFlag
  simp
@[simp] theorem detectAs_p1 (s : State) (inj : Bool) (det inst : Nat) (infoA infoB : W32) : (State.detectAs s inj det inst infoA infoB).part1 = s.part1 := by
  unfold State.detectAs
  simp
@[simp] theorem detect_p1 (s : State) (det inst : Nat) (infoA infoB : W32) : (State.detect s det inst infoA infoB).part1 = s.part1 := by
  unfold State.detect
  simp

@[simp] theorem modSl_p1 (s : State) (n : Nat) (f : Slice → Slice) : (State.modSl s n f).part1 = s.part1 := by
  unfold State.modSl
  simp
@[simp] theorem modFrame_p1 (s : State) (id : Nat) (g : Frame → Frame) : (State.modFrame s id g).part1 = s.part1 := by
  unfold State.modFrame
  simp
@[simp] theorem setTicket_p1 (s : State) (id k : Nat) : (State.setTicket s id k).part1 = s.part1 := by
  unfold State.setTicket
  simp
@[simp] theorem takeTicket_p1 (s : State) (f : Frame) : (State.takeTicket s f).part1 = s.part1 := by
  unfold State.takeTicket
  simp
@[simp] theorem payRse_p1 (s : State) (port : Nat) (express : Bool) (n : Nat) : (State.payRse s port express n).part1 = s.part1 := by
  unfold State.payRse
  simp
@[simp] theorem rseReturn_p1 (s : State) (f : Frame) : (State.rseReturn s f).part1 = s.part1 := by
  unfold State.rseReturn
  simp
@[simp] theorem sendTicket_p1 (s : State) (f : Frame) (src : Nat) (v : Bool) : (State.sendTicket s f src v).part1 = s.part1 := by
  unfold State.sendTicket
  (repeat' split) <;> simp
@[simp] theorem setBuf_p1 (s : State) (k n : Nat) : (State.setBuf s k n).part1 = s.part1 := by
  unfold State.setBuf
  simp
@[simp] theorem passTry_p1 (s : State) (f : Frame) : (State.passTry s f).part1 = s.part1 := by
  unfold State.passTry
  simp
@[simp] theorem passAll_p1 (s : State) (p : Frame → Bool) : (State.passAll s p).part1 = s.part1 := by
  unfold State.passAll
  repeat' first | (simp; done) | intro _ | (refine (forEach_p1 _ _ _ ?_).trans ?_) | (refine (when_p1 _ _ _ ?_).trans ?_) | split | simp
@[simp] theorem nextTicket_p1 (s : State) (k : Nat) : (State.nextTicket s k).part1 = s.part1 := by
  unfold State.nextTicket
  repeat' first | (simp; done) | intro _ | (refine (forEach_p1 _ _ _ ?_).trans ?_) | (refine (when_p1 _ _ _ ?_).trans ?_) | split | simp
@[simp] theorem resume_p1 (s : State) (n : Nat) : (State.resume s n).part1 = s.part1 := by
  unfold State.resume
  simp
@[simp] theorem leaveSlice_p1 (s : State) (f : Frame) : (State.leaveSlice s f).part1 = s.part1 := by
  unfold State.leaveSlice
  (repeat' split) <;> simp
@[simp] theorem removeFrame_p1 (s : State) (f : Frame) : (State.removeFrame s f).part1 = s.part1 := by
  unfold State.removeFrame
  simp
@[simp] theorem voidFrame_p1 (s : State) (f : Frame) : (State.voidFrame s f).part1 = s.part1 := by
  unfold State.voidFrame
  simp
@[simp] theorem sendEof_p1 (s : State) (f : Frame) (b : Bytes) (c : Code) : (State.sendEof s f b c).part1 = s.part1 := by
  unfold State.sendEof
  simp
@[simp] theorem refund_p1 (s : State) (f : Frame) (sent : Nat) : (State.refund s f sent).part1 = s.part1 := by
  unfold State.refund
  simp
@[simp] theorem addFrame_p1 (s : State) (f : Frame) : (State.addFrame s f).part1 = s.part1 := by
  unfold State.addFrame
  simp
@[simp] theorem addReport_p1 (s : State) (f : Frame) : (State.addReport s f).part1 = s.part1 := by
  unfold State.addReport
  dsimp only; (repeat' split) <;> simp
@[simp] theorem addStub_p1 (s : State) (f : Frame) : (State.addStub s f).part1 = s.part1 := by
  unfold State.addStub
  simp
@[simp] theorem clearStubs_p1 (s : State) (d : Dir) (port : Nat) : (State.clearStubs s d port).part1 = s.part1 := by
  unfold State.clearStubs
  simp
@[simp] theorem endFrame_p1 (s : State) (f : Frame) (c : Code) (ctr : Option Nat) : (State.endFrame s f c ctr).part1 = s.part1 := by
  unfold State.endFrame
  repeat' first | (simp; done) | intro _ | (refine (forEach_p1 _ _ _ ?_).trans ?_) | (refine (when_p1 _ _ _ ?_).trans ?_) | split | simp
@[simp] theorem dropFrame_p1 (s : State) (f : Frame) (ctr : Nat) : (State.dropFrame s f ctr).part1 = s.part1 := by
  unfold State.dropFrame
  simp
@[simp] theorem quietDrop_p1 (s : State) : (State.quietDrop s).part1 = s.part1 := by
  unfold State.quietDrop
  simp
@[simp] theorem endFrames_p1 (s : State) (p : Frame → Bool) (c : Code) (ctr : Frame → Option Nat) : (State.endFrames s p c ctr).part1 = s.part1 := by
  unfold State.endFrames
  repeat' first | (simp; done) | intro _ | (refine (forEach_p1 _ _ _ ?_).trans ?_) | (refine (when_p1 _ _ _ ?_).trans ?_) | split | simp
@[simp] theorem frameFault_p1 (s : State) (det : Nat) (f : Frame) : (State.frameFault s det f).part1 = s.part1 := by
  unfold State.frameFault
  simp
@[simp] theorem busErrFlag_p1 (s : State) (d : Dir) (port : Nat) : (State.busErrFlag s d port).part1 = s.part1 := by
  unfold State.busErrFlag
  simp
@[simp] theorem specDrop_p1 (s : State) (f : Frame) : (State.specDrop s f).part1 = s.part1 := by
  unfold State.specDrop
  (repeat' split) <;> simp
@[simp] theorem bwIn_p1 (s : State) (d : Dir) (port k : Nat) : (s.bwIn d port k).part1 = s.part1 :=
  when_p1 _ _ _ (fun s => by unfold State.bwAdd; simp)
@[simp] theorem closeFrame_p1 (s : State) (f : Frame) : (State.closeFrame s f).part1 = s.part1 := by
  unfold State.closeFrame
  (repeat' split) <;> simp
@[simp] theorem framing_p1 (s : State) (d : Dir) (port : Nat) : (State.framing s d port).part1 = s.part1 := by
  unfold State.framing
  simp
@[simp] theorem setCatch_p1 (s : State) (l : List CatchEnt) : (State.setCatch s l).part1 = s.part1 := by
  unfold State.setCatch
  simp
@[simp] theorem issueRest_p1 (s : State) (f : Frame) (n : Nat) : (State.issueRest s f n).part1 = s.part1 := by
  unfold State.issueRest
  simp
@[simp] theorem icvWritten_p1 (s : State) (f : Frame) : (State.icvWritten s f).part1 = s.part1 := by
  unfold State.icvWritten
  dsimp only; (repeat' split) <;> simp
@[simp] theorem toSlice_p1 (s : State) (f : Frame) (n r : Nat) : (State.toSlice s f n r).part1 = s.part1 := by
  unfold State.toSlice
  simp
@[simp] theorem suspendIn_p1 (s : State) (n : Nat) (d : Dir) : (State.suspendIn s n d).part1 = s.part1 := by
  unfold State.suspendIn
  (repeat' split) <;> simp
@[simp] theorem expWaits_p1 (s : State) (f : Frame) : (State.expWaits s f).part1 = s.part1 := by
  unfold State.expWaits
  simp
@[simp] theorem dispatch_p1 (s : State) (f : Frame) : (State.dispatch s f).part1 = s.part1 := by
  unfold State.dispatch
  dsimp only; (repeat' split) <;> simp
@[simp] theorem underrun_p1 (s : State) (f : Frame) : (State.underrun s f).part1 = s.part1 := by
  unfold State.underrun
  simp
@[simp] theorem lateSegment_p1 (s : State) (d : Dir) (port : Nat) (cls : Bool) : (State.lateSegment s d port cls).part1 = s.part1 := by
  unfold State.lateSegment
  (repeat' split) <;> simp
@[simp] theorem creditReturn_p1 (s : State) (d : Dir) (port : Nat) (cls init : Bool) (cnt : Nat) : (State.creditReturn s d port cls init cnt).part1 = s.part1 := by
  unfold State.creditReturn
  simp
@[simp] theorem xingBad_p1 (s : State) (lane : Nat) : (State.xingBad s lane).part1 = s.part1 := by
  unfold State.xingBad
  simp
@[simp] theorem laneControl_p1 (s : State) (lane : Nat) (code : LaneCode) : (State.laneControl s lane code).part1 = s.part1 := by
  unfold State.laneControl
  (repeat' split) <;> simp
@[simp] theorem linkStatus_p1 (s : State) (lane : Nat) (up mf ec : Bool) : (State.linkStatus s lane up mf ec).part1 = s.part1 := by
  unfold State.linkStatus
  simp
@[simp] theorem blackCount_p1 (s : State) (lane ctr inc : Nat) : (State.blackCount s lane ctr inc).part1 = s.part1 := by
  unfold State.blackCount
  simp
theorem execBusFraming_p1 (dir : Dir) (port : Fin 32) (s : State) (t : State) (ht : execBusFraming dir port s = .next t) : t.part1 = s.part1 := by
  unfold execBusFraming at ht
  have h : s.begin.part1 = s.part1 := rfl
  rw [← h]; clear h
  generalize s.begin = b at ht ⊢
  (try dsimp only at ht)
  (repeat' split at ht) <;> (injection ht with ht; subst ht)
  all_goals (repeat' first | (simp; done) | split)
theorem execBseUnderrun_p1 (port : Fin 32) (cls : Bool) (s : State) (t : State) (ht : execBseUnderrun port cls s = .next t) : t.part1 = s.part1 := by
  unfold execBseUnderrun at ht
  have h : s.begin.part1 = s.part1 := rfl
  rw [← h]; clear h
  generalize s.begin = b at ht ⊢
  (try dsimp only at ht)
  (repeat' split at ht) <;> (injection ht with ht; subst ht)
  all_goals (repeat' first | (simp; done) | split)
theorem execRsiUnderrun_p1 (port : Fin 32) (cls : Bool) (s : State) (t : State) (ht : execRsiUnderrun port cls s = .next t) : t.part1 = s.part1 := by
  unfold execRsiUnderrun at ht
  have h : s.begin.part1 = s.part1 := rfl
  rw [← h]; clear h
  generalize s.begin = b at ht ⊢
  (try dsimp only at ht)
  (repeat' split at ht) <;> (injection ht with ht; subst ht)
  all_goals (repeat' first | (simp; done) | split)
theorem execRecordTimeout_p1 (frame : Nat) (s : State) (t : State) (ht : execRecordTimeout frame s = .next t) : t.part1 = s.part1 := by
  unfold execRecordTimeout at ht
  have h : s.begin.part1 = s.part1 := rfl
  rw [← h]; clear h
  generalize s.begin = b at ht ⊢
  (try dsimp only at ht)
  (repeat' split at ht) <;> (injection ht with ht; subst ht)
  all_goals (repeat' first | (simp; done) | split)
theorem execCreditReturn_p1 (dir : Dir) (port : Fin 32) (cls init : Bool) (cnt : BitVec 10) (s : State) (t : State) (ht : execCreditReturn dir port cls init cnt s = .next t) : t.part1 = s.part1 := by
  unfold execCreditReturn at ht
  have h : s.begin.part1 = s.part1 := rfl
  rw [← h]; clear h
  generalize s.begin = b at ht ⊢
  (try dsimp only at ht)
  (repeat' split at ht) <;> (injection ht with ht; subst ht)
  all_goals (repeat' first | (simp; done) | split)
theorem execLaneControl_p1 (lane : Fin 32) (code : LaneCode) (fmtOk : Bool) (s : State) (t : State) (ht : execLaneControl lane code fmtOk s = .next t) : t.part1 = s.part1 := by
  unfold execLaneControl at ht
  have h : s.begin.part1 = s.part1 := rfl
  rw [← h]; clear h
  generalize s.begin = b at ht ⊢
  (try dsimp only at ht)
  (repeat' split at ht) <;> (injection ht with ht; subst ht)
  all_goals (repeat' first | (simp; done) | split)
theorem execLinkStatus_p1 (lane : Fin 32) (up macFault expCap fmtOk : Bool) (s : State) (t : State) (ht : execLinkStatus lane up macFault expCap fmtOk s = .next t) : t.part1 = s.part1 := by
  unfold execLinkStatus at ht
  have h : s.begin.part1 = s.part1 := rfl
  rw [← h]; clear h
  generalize s.begin = b at ht ⊢
  (try dsimp only at ht)
  (repeat' split at ht) <;> (injection ht with ht; subst ht)
  all_goals (repeat' first | (simp; done) | split)
theorem execBufferLevel_p1 (lane : Fin 32) (cls : Bool) (free : BitVec 16) (fmtOk : Bool) (s : State) (t : State) (ht : execBufferLevel lane cls free fmtOk s = .next t) : t.part1 = s.part1 := by
  unfold execBufferLevel at ht
  have h : s.begin.part1 = s.part1 := rfl
  rw [← h]; clear h
  generalize s.begin = b at ht ⊢
  (try dsimp only at ht)
  (repeat' split at ht) <;> (injection ht with ht; subst ht)
  all_goals (repeat' first | (simp; done) | split)
theorem execBlackCounterIncrement_p1 (lane : Fin 32) (ctr : BitVec 7) (inc : BitVec 16) (fmtOk : Bool) (s : State) (t : State) (ht : execBlackCounterIncrement lane ctr inc fmtOk s = .next t) : t.part1 = s.part1 := by
  unfold execBlackCounterIncrement at ht
  have h : s.begin.part1 = s.part1 := rfl
  rw [← h]; clear h
  generalize s.begin = b at ht ⊢
  (try dsimp only at ht)
  (repeat' split at ht) <;> (injection ht with ht; subst ht)
  all_goals (repeat' first | (simp; done) | split)
theorem execCatchEntryExpiry_p1 (sci : W64) (port : Fin 32) (s : State) (t : State) (ht : execCatchEntryExpiry sci port s = .next t) : t.part1 = s.part1 := by
  unfold execCatchEntryExpiry at ht
  have h : s.begin.part1 = s.part1 := rfl
  rw [← h]; clear h
  generalize s.begin = b at ht ⊢
  (try dsimp only at ht)
  (repeat' split at ht) <;> (injection ht with ht; subst ht)
  all_goals (repeat' first | (simp; done) | split)
theorem execOutPar_p1 (dir : Dir) (port : Fin 32) (cls : Bool) (s : State) (t : State) (ht : execOutPar dir port cls s = .next t) : t.part1 = s.part1 := by
  unfold execOutPar at ht
  have h : s.begin.part1 = s.part1 := rfl
  rw [← h]; clear h
  generalize s.begin = b at ht ⊢
  (try dsimp only at ht)
  (repeat' split at ht) <;> (injection ht with ht; subst ht)
  all_goals (repeat' first | (simp; done) | split)
theorem execSliceDispatch_p1 (frame : Nat) (s : State) (t : State) (ht : execSliceDispatch frame s = .next t) : t.part1 = s.part1 := by
  unfold execSliceDispatch at ht
  have h : s.begin.part1 = s.part1 := rfl
  rw [← h]; clear h
  generalize s.begin = b at ht ⊢
  (try dsimp only at ht)
  (repeat' split at ht) <;> (injection ht with ht; subst ht)
  all_goals (repeat' first | (simp; done) | split)
theorem execBulkResume_p1 (slice : Fin 40) (s : State) (t : State) (ht : execBulkResume slice s = .next t) : t.part1 = s.part1 := by
  unfold execBulkResume at ht
  have h : s.begin.part1 = s.part1 := rfl
  rw [← h]; clear h
  generalize s.begin = b at ht ⊢
  (try dsimp only at ht)
  (repeat' split at ht) <;> (injection ht with ht; subst ht)
  all_goals (repeat' first | (simp; done) | split)
theorem execEgressIcvWritten_p1 (frame : Nat) (s : State) (t : State) (ht : execEgressIcvWritten frame s = .next t) : t.part1 = s.part1 := by
  unfold execEgressIcvWritten at ht
  have h : s.begin.part1 = s.part1 := rfl
  rw [← h]; clear h
  generalize s.begin = b at ht ⊢
  (try dsimp only at ht)
  (repeat' split at ht) <;> (injection ht with ht; subst ht)
  all_goals (repeat' first | (simp; done) | split)

/-- What the commands of group 2 leave alone. -/
def State.part2 (s : State) := (s.sys, s.dp, s.slices, s.ch, s.lease, s.pager, s.keyx, s.store, s.pwr, s.pair, s.pending)
@[simp] theorem modRegs_p2 (s : State) (f : Regs → Regs) : (s.modRegs f).part2 = s.part2 := rfl
@[simp] theorem modCnt_p2 (s : State) (f : Counts → Counts) : (s.modCnt f).part2 = s.part2 := rfl
@[simp] theorem modFlt_p2 (s : State) (f : Faults → Faults) : (s.modFlt f).part2 = s.part2 := rfl
@[simp] theorem emit_p2 (s : State) (e : Emit) : (s.emit e).part2 = s.part2 := rfl
@[simp] theorem draw_p2 (s : State) : s.draw.part2 = s.part2 := rfl
@[simp] theorem begin_p2 (s : State) : s.begin.part2 = s.part2 := rfl
@[simp] theorem ite_p2 (c : Prop) [Decidable c] (a b : State) : (if c then a else b).part2 = if c then a.part2 else b.part2 := by split <;> rfl
@[simp] theorem forEach_p2 {α : Type} (f : State → α → State) (l : List α) (s : State) (h : ∀ s a, (f s a).part2 = s.part2) : (s.forEach l f).part2 = s.part2 := forEach_keeps (·.part2) f h l s
@[simp] theorem when_p2 (f : State → State) (c : Bool) (s : State) (h : ∀ s, (f s).part2 = s.part2) : (s.when c f).part2 = s.part2 := when_keeps (·.part2) f h c s
@[simp] theorem setCfg_p2 (s : State) (p : Page) (off : Nat) (v : W32) : (State.setCfg s p off v).part2 = s.part2 := by
  unfold State.setCfg
  simp
@[simp] theorem setRo_p2 (s : State) (p : Page) (off : Nat) (v : W32) : (State.setRo s p off v).part2 = s.part2 := by
  unfold State.setRo
  simp
@[simp] theorem setFlags_p2 (s : State) (p : Page) (off : Nat) (m : W32) : (State.setFlags s p off m).part2 = s.part2 := by
  unfold State.setFlags
  simp
@[simp] theorem setFlag_p2 (s : State) (p : Page) (off n : Nat) : (State.setFlag s p off n).part2 = s.part2 := by
  unfold State.setFlag
  simp
@[simp] theorem modHdr_p2 (s : State) (p : Page) (f : Hdr → Hdr) : (State.modHdr s p f).part2 = s.part2 := by
  unfold State.modHdr
  simp
@[simp] theorem evt_p2 (s : State) (n k : Nat) : (State.evt s n k).part2 = s.part2 := by
  unfold State.evt
  simp
@[simp] theorem collide_p2 (s : State) (p : Page) : (State.collide s p).part2 = s.part2 := by
  unfold State.collide
  simp
@[simp] theorem lockViol_p2 (s : State) (p : Page) : (State.lockViol s p).part2 = s.part2 := by
  unfold State.lockViol
  simp
@[simp] theorem detectAs_p2 (s : State) (inj : Bool) (det inst : Nat) (infoA infoB : W32) : (State.detectAs s inj det inst infoA infoB).part2 = s.part2 := by
  unfold State.detectAs
  simp
@[simp] theorem detect_p2 (s : State) (det inst : Nat) (infoA infoB : W32) : (State.detect s det inst infoA infoB).part2 = s.part2 := by
  unfold State.detect
  simp
@[simp] theorem detect0_p2 (s : State) (det inst : Nat) : (State.detect0 s det inst).part2 = s.part2 := by
  unfold State.detect0
  simp
@[simp] theorem answer_p2 (s : State) (err : Bool) : (State.answer s err).part2 = s.part2 := by
  unfold State.answer
  simp
@[simp] theorem setBusy_p2 (s : State) (p : Page) (b : Bool) : (State.setBusy s p b).part2 = s.part2 := by
  unfold State.setBusy
  simp
@[simp] theorem setUnlocked_p2 (s : State) (p : Page) (b : Bool) : (State.setUnlocked s p b).part2 = s.part2 := by
  unfold State.setUnlocked
  simp
@[simp] theorem useOnce_p2 (s : State) (p : Page) (off : Nat) : (State.useOnce s p off).part2 = s.part2 := by
  unfold State.useOnce
  (repeat' split) <;> simp
@[simp] theorem gated_p2 (s : State) (p : Page) (off : Nat) (data : W32) (uses : Bool) (act : State → State) (h : ∀ s, (act s).part2 = s.part2) : (s.gated p off data uses act).part2 = s.part2 := by
  unfold State.gated
  dsimp only
  repeat' first | (simp [h]; done) | split
@[simp] theorem through_p2 (s : State) (p : Page) (off : Nat) (data : W32) (act : State → State) (h : ∀ s, (act s).part2 = s.part2) : (s.through p off data act).part2 = s.part2 := by
  unfold State.through
  split
  · rw [gated_p2 _ _ _ _ _ _ h, answer_p2]
  · rfl
@[simp] theorem evcOverflow_p2 (s : State) (n rem : Nat) (occ : List (Option Nat × Nat × Dir)) : (State.evcOverflow s n rem occ).part2 = s.part2 := by
  unfold State.evcOverflow
  simp
@[simp] theorem evcUpdate_p2 (s : State) (n : Nat) : (State.evcUpdate s n).part2 = s.part2 := by
  unfold State.evcUpdate
  simp
@[simp] theorem bwClose_p2 (s : State) : (State.bwClose s).part2 = s.part2 := by
  unfold State.bwClose
  simp
@[simp] theorem putWords_p2 (s : State) (p : Page) (off : Nat) (w : W128) : (State.putWords s p off w).part2 = s.part2 := by
  unfold State.putWords
  simp
@[simp] theorem unlockWrite_p2 (s : State) (p : Page) (data : W32) : (State.unlockWrite s p data).part2 = s.part2 := by
  unfold State.unlockWrite
  simp
@[simp] theorem presetCtr_p2 (s : State) (n : Nat) (data : W32) : (State.presetCtr s n data).part2 = s.part2 := by
  unfold State.presetCtr
  simp
@[simp] theorem pcntClear_p2 (s : State) (k : Nat) : (State.pcntClear s k).part2 = s.part2 := by
  unfold State.pcntClear
  simp
@[simp] theorem pcntClearAll_p2 (s : State) (port : Nat) : (State.pcntClearAll s port).part2 = s.part2 := by
  unfold State.pcntClearAll
  simp
@[simp] theorem setRec_p2 (s : State) (i : Nat) (r : Option FRec) : (State.setRec s i r).part2 = s.part2 := by
  unfold State.setRec
  simp
@[simp] theorem recLoad_p2 (s : State) : (State.recLoad s).part2 = s.part2 := by
  unfold State.recLoad
  simp
@[simp] theorem recLet_p2 (s : State) (was : State) : (State.recLet s was).part2 = s.part2 := by
  unfold State.recLet
  repeat' first | (simp; done) | intro _ | (refine (forEach_p2 _ _ _ ?_).trans ?_) | (refine (when_p2 _ _ _ ?_).trans ?_) | split | simp
@[simp] theorem recClr_p2 (s : State) (data : W32) : (State.recClr s data).part2 = s.part2 := by
  unfold State.recClr
  repeat' first | (simp; done) | intro _ | (refine (forEach_p2 _ _ _ ?_).trans ?_) | (refine (when_p2 _ _ _ ?_).trans ?_) | split | simp
@[simp] theorem glbRecompute_p2 (s : State) : (State.glbRecompute s).part2 = s.part2 := by
  unfold State.glbRecompute
  simp
@[simp] theorem bypLoad_p2 (s : State) (n : Nat) : (State.bypLoad s n).part2 = s.part2 := by
  unfold State.bypLoad
  simp
theorem execPgUnlock_p2 (page : BitVec 8) (data : W32) (s : State) (t : State) (ht : execPgUnlock page data s = .next t) : t.part2 = s.part2 := by
  unfold execPgUnlock at ht
  have h : s.begin.part2 = s.part2 := rfl
  rw [← h]; clear h
  generalize s.begin = b at ht ⊢
  (try dsimp only at ht)
  (repeat' split at ht) <;> (injection ht with ht; subst ht)
  all_goals (repeat' first | (simp; done) | split)
theorem execUnlockExpiry_p2 (page : BitVec 8) (s : State) (t : State) (ht : execUnlockExpiry page s = .next t) : t.part2 = s.part2 := by
  unfold execUnlockExpiry at ht
  have h : s.begin.part2 = s.part2 := rfl
  rw [← h]; clear h
  generalize s.begin = b at ht ⊢
  (try dsimp only at ht)
  (repeat' split at ht) <;> (injection ht with ht; subst ht)
  all_goals (repeat' first | (simp; done) | split)
theorem execEvcUpdateSlot_p2 (ctr : BitVec 9) (s : State) (t : State) (ht : execEvcUpdateSlot ctr s = .next t) : t.part2 = s.part2 := by
  unfold execEvcUpdateSlot at ht
  have h : s.begin.part2 = s.part2 := rfl
  rw [← h]; clear h
  generalize s.begin = b at ht ⊢
  (try dsimp only at ht)
  (repeat' split at ht) <;> (injection ht with ht; subst ht)
  all_goals (repeat' first | (simp; done) | split)
theorem execBwWindowClose_p2 (s : State) (t : State) (ht : execBwWindowClose s = .next t) : t.part2 = s.part2 := by
  unfold execBwWindowClose at ht
  have h : s.begin.part2 = s.part2 := rfl
  rw [← h]; clear h
  generalize s.begin = b at ht ⊢
  (try dsimp only at ht)
  (repeat' split at ht) <;> (injection ht with ht; subst ht)
  all_goals (repeat' first | (simp; done) | split)
theorem execEvcPreset_p2 (ctr : BitVec 9) (data : W32) (s : State) (t : State) (ht : execEvcPreset ctr data s = .next t) : t.part2 = s.part2 := by
  unfold execEvcPreset at ht
  have h : s.begin.part2 = s.part2 := rfl
  rw [← h]; clear h
  generalize s.begin = b at ht ⊢
  (try dsimp only at ht)
  (repeat' split at ht) <;> (injection ht with ht; subst ht)
  all_goals (repeat' first | (simp; done) | split)
theorem execPcntClrSelected_p2 (port : Fin 32) (s : State) (t : State) (ht : execPcntClrSelected port s = .next t) : t.part2 = s.part2 := by
  unfold execPcntClrSelected at ht
  have h : s.begin.part2 = s.part2 := rfl
  rw [← h]; clear h
  generalize s.begin = b at ht ⊢
  (try dsimp only at ht)
  (repeat' split at ht) <;> (injection ht with ht; subst ht)
  all_goals (repeat' first | (simp; done) | split)
theorem execPcntClrAll_p2 (port : Fin 32) (s : State) (t : State) (ht : execPcntClrAll port s = .next t) : t.part2 = s.part2 := by
  unfold execPcntClrAll at ht
  have h : s.begin.part2 = s.part2 := rfl
  rw [← h]; clear h
  generalize s.begin = b at ht ⊢
  (try dsimp only at ht)
  (repeat' split at ht) <;> (injection ht with ht; subst ht)
  all_goals (repeat' first | (simp; done) | split)
theorem execFltRecSel_p2 (data : W32) (s : State) (t : State) (ht : execFltRecSel data s = .next t) : t.part2 = s.part2 := by
  unfold execFltRecSel at ht
  have h : s.begin.part2 = s.part2 := rfl
  rw [← h]; clear h
  generalize s.begin = b at ht ⊢
  (try dsimp only at ht)
  (repeat' split at ht) <;> (injection ht with ht; subst ht)
  all_goals (repeat' first | (simp; done) | split)
theorem execFltRecClrOne_p2 (s : State) (t : State) (ht : execFltRecClrOne s = .next t) : t.part2 = s.part2 := by
  unfold execFltRecClrOne at ht
  have h : s.begin.part2 = s.part2 := rfl
  rw [← h]; clear h
  generalize s.begin = b at ht ⊢
  (try dsimp only at ht)
  (repeat' split at ht) <;> (injection ht with ht; subst ht)
  all_goals (repeat' first | (simp; done) | split)
theorem execFltRecClrAll_p2 (s : State) (t : State) (ht : execFltRecClrAll s = .next t) : t.part2 = s.part2 := by
  unfold execFltRecClrAll at ht
  have h : s.begin.part2 = s.part2 := rfl
  rw [← h]; clear h
  generalize s.begin = b at ht ⊢
  (try dsimp only at ht)
  (repeat' split at ht) <;> (injection ht with ht; subst ht)
  all_goals (repeat' first | (simp; done) | split)
theorem execSramCe_p2 (dom : Fin 54) (addr : W32) (ctEntry : Bool) (s : State) (t : State) (ht : execSramCe dom addr ctEntry s = .next t) : t.part2 = s.part2 := by
  unfold execSramCe at ht
  have h : s.begin.part2 = s.part2 := rfl
  rw [← h]; clear h
  generalize s.begin = b at ht ⊢
  (try dsimp only at ht)
  (repeat' split at ht) <;> (injection ht with ht; subst ht)
  all_goals (repeat' first | (simp; done) | split)
theorem execLatentLate_p2 (test : Fin 8) (s : State) (t : State) (ht : execLatentLate test s = .next t) : t.part2 = s.part2 := by
  unfold execLatentLate at ht
  have h : s.begin.part2 = s.part2 := rfl
  rw [← h]; clear h
  generalize s.begin = b at ht ⊢
  (try dsimp only at ht)
  (repeat' split at ht) <;> (injection ht with ht; subst ht)
  all_goals (repeat' first | (simp; done) | split)
theorem execTestLate_p2 (slice : Fin 40) (s : State) (t : State) (ht : execTestLate slice s = .next t) : t.part2 = s.part2 := by
  unfold execTestLate at ht
  have h : s.begin.part2 = s.part2 := rfl
  rw [← h]; clear h
  generalize s.begin = b at ht ⊢
  (try dsimp only at ht)
  (repeat' split at ht) <;> (injection ht with ht; subst ht)
  all_goals (repeat' first | (simp; done) | split)
theorem execBypSel_p2 (data : W32) (s : State) (t : State) (ht : execBypSel data s = .next t) : t.part2 = s.part2 := by
  unfold execBypSel at ht
  have h : s.begin.part2 = s.part2 := rfl
  rw [← h]; clear h
  generalize s.begin = b at ht ⊢
  (try dsimp only at ht)
  (repeat' split at ht) <;> (injection ht with ht; subst ht)
  all_goals (repeat' first | (simp; done) | split)
theorem execGlbDigestRecompute_p2 (s : State) (t : State) (ht : execGlbDigestRecompute s = .next t) : t.part2 = s.part2 := by
  unfold execGlbDigestRecompute at ht
  have h : s.begin.part2 = s.part2 := rfl
  rw [← h]; clear h
  generalize s.begin = b at ht ⊢
  (try dsimp only at ht)
  (repeat' split at ht) <;> (injection ht with ht; subst ht)
  all_goals (repeat' first | (simp; done) | split)

/-- What the commands of group 3 leave alone. -/
def State.part3 (s : State) := (s.dp, s.slices, s.lease, s.ch, s.pager, s.keyx, s.store, s.pwr, s.flt, s.pending)
@[simp] theorem modSys_p3 (s : State) (f : Sys → Sys) : (s.modSys f).part3 = s.part3 := rfl
@[simp] theorem modRegs_p3 (s : State) (f : Regs → Regs) : (s.modRegs f).part3 = s.part3 := rfl
@[simp] theorem modCnt_p3 (s : State) (f : Counts → Counts) : (s.modCnt f).part3 = s.part3 := rfl
@[simp] theorem modPair_p3 (s : State) (f : Pair → Pair) : (s.modPair f).part3 = s.part3 := rfl
@[simp] theorem emit_p3 (s : State) (e : Emit) : (s.emit e).part3 = s.part3 := rfl
@[simp] theorem draw_p3 (s : State) : s.draw.part3 = s.part3 := rfl
@[simp] theorem begin_p3 (s : State) : s.begin.part3 = s.part3 := rfl
@[simp] theorem ite_p3 (c : Prop) [Decidable c] (a b : State) : (if c then a else b).part3 = if c then a.part3 else b.part3 := by split <;> rfl
@[simp] theorem forEach_p3 {α : Type} (f : State → α → State) (l : List α) (s : State) (h : ∀ s a, (f s a).part3 = s.part3) : (s.forEach l f).part3 = s.part3 := forEach_keeps (·.part3) f h l s
@[simp] theorem when_p3 (f : State → State) (c : Bool) (s : State) (h : ∀ s, (f s).part3 = s.part3) : (s.when c f).part3 = s.part3 := when_keeps (·.part3) f h c s
@[simp] theorem setRo_p3 (s : State) (p : Page) (off : Nat) (v : W32) : (State.setRo s p off v).part3 = s.part3 := by
  unfold State.setRo
  simp
@[simp] theorem setFlags_p3 (s : State) (p : Page) (off : Nat) (m : W32) : (State.setFlags s p off m).part3 = s.part3 := by
  unfold State.setFlags
  simp
@[simp] theorem setFlag_p3 (s : State) (p : Page) (off n : Nat) : (State.setFlag s p off n).part3 = s.part3 := by
  unfold State.setFlag
  simp
@[simp] theorem modHdr_p3 (s : State) (p : Page) (f : Hdr → Hdr) : (State.modHdr s p f).part3 = s.part3 := by
  unfold State.modHdr
  simp
@[simp] theorem evt_p3 (s : State) (n k : Nat) : (State.evt s n k).part3 = s.part3 := by
  unfold State.evt
  simp
@[simp] theorem collide_p3 (s : State) (p : Page) : (State.collide s p).part3 = s.part3 := by
  unfold State.collide
  simp
@[simp] theorem lockViol_p3 (s : State) (p : Page) : (State.lockViol s p).part3 = s.part3 := by
  unfold State.lockViol
  simp
@[simp] theorem answer_p3 (s : State) (err : Bool) : (State.answer s err).part3 = s.part3 := by
  unfold State.answer
  simp
@[simp] theorem setBusy_p3 (s : State) (p : Page) (b : Bool) : (State.setBusy s p b).part3 = s.part3 := by
  unfold State.setBusy
  simp
@[simp] theorem setUnlocked_p3 (s : State) (p : Page) (b : Bool) : (State.setUnlocked s p b).part3 = s.part3 := by
  unfold State.setUnlocked
  simp
@[simp] theorem useOnce_p3 (s : State) (p : Page) (off : Nat) : (State.useOnce s p off).part3 = s.part3 := by
  unfold State.useOnce
  (repeat' split) <;> simp
@[simp] theorem gated_p3 (s : State) (p : Page) (off : Nat) (data : W32) (uses : Bool) (act : State → State) (h : ∀ s, (act s).part3 = s.part3) : (s.gated p off data uses act).part3 = s.part3 := by
  unfold State.gated
  dsimp only
  repeat' first | (simp [h]; done) | split
@[simp] theorem through_p3 (s : State) (p : Page) (off : Nat) (data : W32) (act : State → State) (h : ∀ s, (act s).part3 = s.part3) : (s.through p off data act).part3 = s.part3 := by
  unfold State.through
  split
  · rw [gated_p3 _ _ _ _ _ _ h, answer_p3]
  · rfl
@[simp] theorem dropSeeds_p3 (s : State) (k : Nat) : (State.dropSeeds s k).part3 = s.part3 := by
  unfold State.dropSeeds
  simp
@[simp] theorem sendPair_p3 (s : State) (ty : Nat) (body : Bytes) : (State.sendPair s ty body).part3 = s.part3 := by
  unfold State.sendPair
  (repeat' split) <;> simp
@[simp] theorem drawNonce_p3 (s : State) : (State.drawNonce s).part3 = s.part3 := by
  unfold State.drawNonce
  (repeat' split) <;> simp
@[simp] theorem sendHello_p3 (s : State) : (State.sendHello s).part3 = s.part3 := by
  unfold State.sendHello
  dsimp only; (repeat' split) <;> simp
@[simp] theorem sendStatus_p3 (s : State) : (State.sendStatus s).part3 = s.part3 := by
  unfold State.sendStatus
  (repeat' split) <;> simp
@[simp] theorem syncCheck_p3 (s : State) : (State.syncCheck s).part3 = s.part3 := by
  unfold State.syncCheck
  simp
@[simp] theorem mirrorFlush_p3 (s : State) (k : MirKind) : (State.mirrorFlush s k).part3 = s.part3 := by
  unfold State.mirrorFlush
  simp
@[simp] theorem sendSyncReq_p3 (s : State) : (State.sendSyncReq s).part3 = s.part3 := by
  unfold State.sendSyncReq
  simp
@[simp] theorem pairDone_p3 (s : State) (code op : Nat) : (State.pairDone s code op).part3 = s.part3 := by
  unfold State.pairDone
  simp
@[simp] theorem pairResync_p3 (s : State) : (State.pairResync s).part3 = s.part3 := by
  unfold State.pairResync
  simp
theorem execHelloTimer_p3 (s : State) (t : State) (ht : execHelloTimer s = .next t) : t.part3 = s.part3 := by
  unfold execHelloTimer at ht
  have h : s.begin.part3 = s.part3 := rfl
  rw [← h]; clear h
  generalize s.begin = b at ht ⊢
  (try dsimp only at ht)
  (repeat' split at ht) <;> (injection ht with ht; subst ht)
  all_goals (repeat' first | (simp; done) | split)
theorem execBeatTimer_p3 (s : State) (t : State) (ht : execBeatTimer s = .next t) : t.part3 = s.part3 := by
  unfold execBeatTimer at ht
  have h : s.begin.part3 = s.part3 := rfl
  rw [← h]; clear h
  generalize s.begin = b at ht ⊢
  (try dsimp only at ht)
  (repeat' split at ht) <;> (injection ht with ht; subst ht)
  all_goals (repeat' first | (simp; done) | split)
theorem execHealthTimer_p3 (s : State) (t : State) (ht : execHealthTimer s = .next t) : t.part3 = s.part3 := by
  unfold execHealthTimer at ht
  have h : s.begin.part3 = s.part3 := rfl
  rw [← h]; clear h
  generalize s.begin = b at ht ⊢
  (try dsimp only at ht)
  (repeat' split at ht) <;> (injection ht with ht; subst ht)
  all_goals (repeat' first | (simp; done) | split)
theorem execHealthStale_p3 (s : State) (t : State) (ht : execHealthStale s = .next t) : t.part3 = s.part3 := by
  unfold execHealthStale at ht
  have h : s.begin.part3 = s.part3 := rfl
  rw [← h]; clear h
  generalize s.begin = b at ht ⊢
  (try dsimp only at ht)
  (repeat' split at ht) <;> (injection ht with ht; subst ht)
  all_goals (repeat' first | (simp; done) | split)
theorem execMirrorFlush_p3 (kind : MirKind) (s : State) (t : State) (ht : execMirrorFlush kind s = .next t) : t.part3 = s.part3 := by
  unfold execMirrorFlush at ht
  have h : s.begin.part3 = s.part3 := rfl
  rw [← h]; clear h
  generalize s.begin = b at ht ⊢
  (try dsimp only at ht)
  (repeat' split at ht) <;> (injection ht with ht; subst ht)
  all_goals (repeat' first | (simp; done) | split)
theorem execStatusTimer_p3 (s : State) (t : State) (ht : execStatusTimer s = .next t) : t.part3 = s.part3 := by
  unfold execStatusTimer at ht
  have h : s.begin.part3 = s.part3 := rfl
  rw [← h]; clear h
  generalize s.begin = b at ht ⊢
  (try dsimp only at ht)
  (repeat' split at ht) <;> (injection ht with ht; subst ht)
  all_goals (repeat' first | (simp; done) | split)
theorem execArbLost_p3 (s : State) (t : State) (ht : execArbLost s = .next t) : t.part3 = s.part3 := by
  unfold execArbLost at ht
  have h : s.begin.part3 = s.part3 := rfl
  rw [← h]; clear h
  generalize s.begin = b at ht ⊢
  (try dsimp only at ht)
  (repeat' split at ht) <;> (injection ht with ht; subst ht)
  all_goals (repeat' first | (simp; done) | split)
theorem execResync_p3 (s : State) (t : State) (ht : execResync s = .next t) : t.part3 = s.part3 := by
  unfold execResync at ht
  have h : s.begin.part3 = s.part3 := rfl
  rw [← h]; clear h
  generalize s.begin = b at ht ⊢
  (try dsimp only at ht)
  (repeat' split at ht) <;> (injection ht with ht; subst ht)
  all_goals (repeat' first | (simp; done) | split)

/-- What the commands of group 4 leave alone. -/
def State.part4 (s : State) := (s.dp, s.slices, s.ch, s.lease, s.pager, s.keyx, s.store, s.pwr, s.pair, s.pending)
@[simp] theorem modSys_p4 (s : State) (f : Sys → Sys) : (s.modSys f).part4 = s.part4 := rfl
@[simp] theorem modRegs_p4 (s : State) (f : Regs → Regs) : (s.modRegs f).part4 = s.part4 := rfl
@[simp] theorem modCnt_p4 (s : State) (f : Counts → Counts) : (s.modCnt f).part4 = s.part4 := rfl
@[simp] theorem modFlt_p4 (s : State) (f : Faults → Faults) : (s.modFlt f).part4 = s.part4 := rfl
@[simp] theorem emit_p4 (s : State) (e : Emit) : (s.emit e).part4 = s.part4 := rfl
@[simp] theorem draw_p4 (s : State) : s.draw.part4 = s.part4 := rfl
@[simp] theorem begin_p4 (s : State) : s.begin.part4 = s.part4 := rfl
@[simp] theorem ite_p4 (c : Prop) [Decidable c] (a b : State) : (if c then a else b).part4 = if c then a.part4 else b.part4 := by split <;> rfl
@[simp] theorem forEach_p4 {α : Type} (f : State → α → State) (l : List α) (s : State) (h : ∀ s a, (f s a).part4 = s.part4) : (s.forEach l f).part4 = s.part4 := forEach_keeps (·.part4) f h l s
@[simp] theorem when_p4 (f : State → State) (c : Bool) (s : State) (h : ∀ s, (f s).part4 = s.part4) : (s.when c f).part4 = s.part4 := when_keeps (·.part4) f h c s
@[simp] theorem setFlags_p4 (s : State) (p : Page) (off : Nat) (m : W32) : (State.setFlags s p off m).part4 = s.part4 := by
  unfold State.setFlags
  simp
@[simp] theorem setFlag_p4 (s : State) (p : Page) (off n : Nat) : (State.setFlag s p off n).part4 = s.part4 := by
  unfold State.setFlag
  simp
@[simp] theorem evt_p4 (s : State) (n k : Nat) : (State.evt s n k).part4 = s.part4 := by
  unfold State.evt
  simp
@[simp] theorem detectAs_p4 (s : State) (inj : Bool) (det inst : Nat) (infoA infoB : W32) : (State.detectAs s inj det inst infoA infoB).part4 = s.part4 := by
  unfold State.detectAs
  simp
@[simp] theorem detect_p4 (s : State) (det inst : Nat) (infoA infoB : W32) : (State.detect s det inst infoA infoB).part4 = s.part4 := by
  unfold State.detect
  simp
@[simp] theorem detect0_p4 (s : State) (det inst : Nat) : (State.detect0 s det inst).part4 = s.part4 := by
  unfold State.detect0
  simp

@[simp] theorem dropSeeds_p4 (s : State) (k : Nat) : (State.dropSeeds s k).part4 = s.part4 := by
  unfold State.dropSeeds
  simp
@[simp] theorem seedGenFrom_p4 (s : State) (l : List W128) (g : Nat) : (State.seedGenFrom s l g).part4 = s.part4 := by
  unfold State.seedGenFrom
  (repeat' split) <;> simp
@[simp] theorem seedGen_p4 (s : State) (g : Nat) : (State.seedGen s g).part4 = s.part4 := by
  unfold State.seedGen
  (repeat' split) <;> simp
@[simp] theorem klTake_p4 (s : State) (data : W32) : (State.klTake s data).part4 = s.part4 := by
  unfold State.klTake
  simp
@[simp] theorem klBeat_p4 (s : State) (beat : Nat) (data : W32) : (State.klBeat s beat data).part4 = s.part4 := by
  unfold State.klBeat
  simp
@[simp] theorem reseed_p4 (s : State) (g : Nat) (again : Bool) : (State.reseed s g again).part4 = s.part4 := by
  unfold State.reseed
  simp
@[simp] theorem clkOne_p4 (s : State) (i : Nat) (f : W32) : (State.clkOne s i f).part4 = s.part4 := by
  unfold State.clkOne
  simp
theorem execKlBeat_p4 (beat : BitVec 3) (data : W32) (s : State) (t : State) (ht : execKlBeat beat data s = .next t) : t.part4 = s.part4 := by
  unfold execKlBeat at ht
  have h : s.begin.part4 = s.part4 := rfl
  rw [← h]; clear h
  generalize s.begin = b at ht ⊢
  (try dsimp only at ht)
  (repeat' split at ht) <;> (injection ht with ht; subst ht)
  all_goals (repeat' first | (simp; done) | split)
theorem execKlFail_p4 (s : State) (t : State) (ht : execKlFail s = .next t) : t.part4 = s.part4 := by
  unfold execKlFail at ht
  have h : s.begin.part4 = s.part4 := rfl
  rw [← h]; clear h
  generalize s.begin = b at ht ⊢
  (try dsimp only at ht)
  (repeat' split at ht) <;> (injection ht with ht; subst ht)
  all_goals (repeat' first | (simp; done) | split)
theorem execRnFault_p4 (s : State) (t : State) (ht : execRnFault s = .next t) : t.part4 = s.part4 := by
  unfold execRnFault at ht
  have h : s.begin.part4 = s.part4 := rfl
  rw [← h]; clear h
  generalize s.begin = b at ht ⊢
  (try dsimp only at ht)
  (repeat' split at ht) <;> (injection ht with ht; subst ht)
  all_goals (repeat' first | (simp; done) | split)
theorem execMaskReseed_p4 (gen : Fin 47) (s : State) (t : State) (ht : execMaskReseed gen s = .next t) : t.part4 = s.part4 := by
  unfold execMaskReseed at ht
  have h : s.begin.part4 = s.part4 := rfl
  rw [← h]; clear h
  generalize s.begin = b at ht ⊢
  (try dsimp only at ht)
  (repeat' split at ht) <;> (injection ht with ht; subst ht)
  all_goals (repeat' first | (simp; done) | split)
theorem execMaskReseedRetry_p4 (gen : Fin 47) (s : State) (t : State) (ht : execMaskReseedRetry gen s = .next t) : t.part4 = s.part4 := by
  unfold execMaskReseedRetry at ht
  have h : s.begin.part4 = s.part4 := rfl
  rw [← h]; clear h
  generalize s.begin = b at ht ⊢
  (try dsimp only at ht)
  (repeat' split at ht) <;> (injection ht with ht; subst ht)
  all_goals (repeat' first | (simp; done) | split)
theorem execZeroiseComplete_p4 (badBanks : List (BitVec 8)) (s : State) (t : State) (ht : execZeroiseComplete badBanks s = .next t) : t.part4 = s.part4 := by
  unfold execZeroiseComplete at ht
  have h : s.begin.part4 = s.part4 := rfl
  rw [← h]; clear h
  generalize s.begin = b at ht ⊢
  (try dsimp only at ht)
  (repeat' split at ht) <;> (injection ht with ht; subst ht)
  all_goals (repeat' first | (simp; done) | split)
theorem execClkFreqWindow_p4 (line ctl sec : W32) (s : State) (t : State) (ht : execClkFreqWindow line ctl sec s = .next t) : t.part4 = s.part4 := by
  unfold execClkFreqWindow at ht
  have h : s.begin.part4 = s.part4 := rfl
  rw [← h]; clear h
  generalize s.begin = b at ht ⊢
  (try dsimp only at ht)
  (repeat' split at ht) <;> (injection ht with ht; subst ht)
  all_goals (repeat' first | (simp; done) | split)

/-- What the commands of group 5 leave alone. -/
def State.part5 (s : State) := (s.dp, s.slices, s.lease, s.pager, s.keyx, s.store, s.pwr, s.flt, s.pair, s.pending)
@[simp] theorem modSys_p5 (s : State) (f : Sys → Sys) : (s.modSys f).part5 = s.part5 := rfl
@[simp] theorem modRegs_p5 (s : State) (f : Regs → Regs) : (s.modRegs f).part5 = s.part5 := rfl
@[simp] theorem modCh_p5 (s : State) (f : Chans → Chans) : (s.modCh f).part5 = s.part5 := rfl
@[simp] theorem modCnt_p5 (s : State) (f : Counts → Counts) : (s.modCnt f).part5 = s.part5 := rfl
@[simp] theorem emit_p5 (s : State) (e : Emit) : (s.emit e).part5 = s.part5 := rfl
@[simp] theorem draw_p5 (s : State) : s.draw.part5 = s.part5 := rfl
@[simp] theorem begin_p5 (s : State) : s.begin.part5 = s.part5 := rfl
@[simp] theorem ite_p5 (c : Prop) [Decidable c] (a b : State) : (if c then a else b).part5 = if c then a.part5 else b.part5 := by split <;> rfl
@[simp] theorem forEach_p5 {α : Type} (f : State → α → State) (l : List α) (s : State) (h : ∀ s a, (f s a).part5 = s.part5) : (s.forEach l f).part5 = s.part5 := forEach_keeps (·.part5) f h l s
@[simp] theorem when_p5 (f : State → State) (c : Bool) (s : State) (h : ∀ s, (f s).part5 = s.part5) : (s.when c f).part5 = s.part5 := when_keeps (·.part5) f h c s
@[simp] theorem setFlags_p5 (s : State) (p : Page) (off : Nat) (m : W32) : (State.setFlags s p off m).part5 = s.part5 := by
  unfold State.setFlags
  simp
@[simp] theorem setFlag_p5 (s : State) (p : Page) (off n : Nat) : (State.setFlag s p off n).part5 = s.part5 := by
  unfold State.setFlag
  simp
@[simp] theorem modHdr_p5 (s : State) (p : Page) (f : Hdr → Hdr) : (State.modHdr s p f).part5 = s.part5 := by
  unfold State.modHdr
  simp
@[simp] theorem evt_p5 (s : State) (n k : Nat) : (State.evt s n k).part5 = s.part5 := by
  unfold State.evt
  simp
@[simp] theorem lockViol_p5 (s : State) (p : Page) : (State.lockViol s p).part5 = s.part5 := by
  unfold State.lockViol
  simp
@[simp] theorem accessErr_p5 (s : State) (p : Page) : (State.accessErr s p).part5 = s.part5 := by
  unfold State.accessErr
  simp
@[simp] theorem poison_p5 (s : State) (p : Page) : (State.poison s p).part5 = s.part5 := by
  unfold State.poison
  simp
@[simp] theorem answerRead_p5 (s : State) (err : Bool) (w : W32) : (State.answerRead s err w).part5 = s.part5 := by
  unfold State.answerRead
  simp

@[simp] theorem eqxLog_p5 (s : State) (kind chix : Nat) (b : Bool) (an : BitVec 2) (t : Nat) : (State.eqxLog s kind chix b an t).part5 = s.part5 := by
  unfold State.eqxLog
  simp
@[simp] theorem capture_p5 (s : State) (r : TimeReg) : (State.capture s r).part5 = s.part5 := by
  unfold State.capture
  simp
@[simp] theorem logPop_p5 (s : State) : (State.logPop s).part5 = s.part5 := by
  unfold State.logPop
  simp
@[simp] theorem poisonRead_p5 (s : State) (p : Page) (off : Nat) : (State.poisonRead s p off).part5 = s.part5 := by
  unfold State.poisonRead
  (repeat' split) <;> simp
@[simp] theorem readActs_p5 (s : State) (p : Page) (off : Nat) : (State.readActs s p off).part5 = s.part5 := by
  unfold State.readActs
  (repeat' split) <;> simp
@[simp] theorem readAt_p5 (s : State) (a : Nat) : (State.readAt s a).2.part5 = s.part5 := by
  unfold State.readAt
  (repeat' split) <;> simp
@[simp] theorem cpRead_p5 (s : State) (a size : Nat) : (State.cpRead s a size).part5 = s.part5 := by
  unfold State.cpRead
  simp
theorem execLoRegisterRead_p5 (addr : ReadAt) (s : State) (t : State) (ht : execLoRegisterRead addr s = .next t) : t.part5 = s.part5 := by
  unfold execLoRegisterRead at ht
  have h : s.begin.part5 = s.part5 := rfl
  rw [← h]; clear h
  generalize s.begin = b at ht ⊢
  (try dsimp only at ht)
  (repeat' split at ht) <;> (injection ht with ht; subst ht)
  all_goals (repeat' first | (simp; done) | split)
theorem execEqxLogRead_p5 (s : State) (t : State) (ht : execEqxLogRead s = .next t) : t.part5 = s.part5 := by
  unfold execEqxLogRead at ht
  have h : s.begin.part5 = s.part5 := rfl
  rw [← h]; clear h
  generalize s.begin = b at ht ⊢
  (try dsimp only at ht)
  (repeat' split at ht) <;> (injection ht with ht; subst ht)
  all_goals (repeat' first | (simp; done) | split)
theorem execTimeCaptureRead_p5 (which : TimeReg) (s : State) (t : State) (ht : execTimeCaptureRead which s = .next t) : t.part5 = s.part5 := by
  unfold execTimeCaptureRead at ht
  have h : s.begin.part5 = s.part5 := rfl
  rw [← h]; clear h
  generalize s.begin = b at ht ⊢
  (try dsimp only at ht)
  (repeat' split at ht) <;> (injection ht with ht; subst ht)
  all_goals (repeat' first | (simp; done) | split)

/-- What the commands of group 6 leave alone. -/
def State.part6 (s : State) := (s.sys, s.lease, s.pager, s.keyx, s.store, s.pwr, s.pair, s.pending)
@[simp] theorem modRegs_p6 (s : State) (f : Regs → Regs) : (s.modRegs f).part6 = s.part6 := rfl
@[simp] theorem modDp_p6 (s : State) (f : Dp → Dp) : (s.modDp f).part6 = s.part6 := rfl
@[simp] theorem modSlices_p6 (s : State) (f : Slices → Slices) : (s.modSlices f).part6 = s.part6 := rfl
@[simp] theorem modCh_p6 (s : State) (f : Chans → Chans) : (s.modCh f).part6 = s.part6 := rfl
@[simp] theorem modCnt_p6 (s : State) (f : Counts → Counts) : (s.modCnt f).part6 = s.part6 := rfl
@[simp] theorem modFlt_p6 (s : State) (f : Faults → Faults) : (s.modFlt f).part6 = s.part6 := rfl
@[simp] theorem emit_p6 (s : State) (e : Emit) : (s.emit e).part6 = s.part6 := rfl
@[simp] theorem draw_p6 (s : State) : s.draw.part6 = s.part6 := rfl
@[simp] theorem begin_p6 (s : State) : s.begin.part6 = s.part6 := rfl
@[simp] theorem ite_p6 (c : Prop) [Decidable c] (a b : State) : (if c then a else b).part6 = if c then a.part6 else b.part6 := by split <;> rfl
@[simp] theorem forEach_p6 {α : Type} (f : State → α → State) (l : List α) (s : State) (h : ∀ s a, (f s a).part6 = s.part6) : (s.forEach l f).part6 = s.part6 := forEach_keeps (·.part6) f h l s
@[simp] theorem when_p6 (f : State → State) (c : Bool) (s : State) (h : ∀ s, (f s).part6 = s.part6) : (s.when c f).part6 = s.part6 := when_keeps (·.part6) f h c s
@[simp] theorem setFlags_p6 (s : State) (p : Page) (off : Nat) (m : W32) : (State.setFlags s p off m).part6 = s.part6 := by
  unfold State.setFlags
  simp
@[simp] theorem setFlag_p6 (s : State) (p : Page) (off n : Nat) : (State.setFlag s p off n).part6 = s.part6 := by
  unfold State.setFlag
  simp
@[simp] theorem evt_p6 (s : State) (n k : Nat) : (State.evt s n k).part6 = s.part6 := by
  unfold State.evt
  simp
@[simp] theorem evtF_p6 (s : State) (n : Nat) (who : Option Nat × Nat × Dir) : (State.evtF s n who).part6 = s.part6 := by
  unfold State.evtF
  simp
@[simp] theorem portAdd_p6 (s : State) (port idx k : Nat) : (State.portAdd s port idx k).part6 = s.part6 := by
  unfold State.portAdd
  simp
@[simp] theorem portCount_p6 (s : State) (port idx : Nat) : (State.portCount s port idx).part6 = s.part6 := by
  unfold State.portCount
  simp
@[simp] theorem portFlag_p6 (s : State) (port n : Nat) : (State.portFlag s port n).part6 = s.part6 := by
  unfold State.portFlag
  simp
@[simp] theorem outcome_p6 (s : State) (chix : Nat) (incs : List (Nat × Nat)) : (State.outcome s chix incs).part6 = s.part6 := by
  unfold State.outcome
  simp

@[simp] theorem modEntry_p6 (s : State) (e : Nat) (f : Entry → Entry) : (State.modEntry s e f).part6 = s.part6 := by
  unfold State.modEntry
  simp
@[simp] theorem modSlot_p6 (s : State) (v : Nat) (f : Slot → Slot) : (State.modSlot s v f).part6 = s.part6 := by
  unfold State.modSlot
  simp
@[simp] theorem modSl_p6 (s : State) (n : Nat) (f : Slice → Slice) : (State.modSl s n f).part6 = s.part6 := by
  unfold State.modSl
  simp
@[simp] theorem bwAdd_p6 (s : State) (port : Nat) (d : Dir) (k : Nat) : (State.bwAdd s port d k).part6 = s.part6 := by
  unfold State.bwAdd
  simp
@[simp] theorem bwIn_p6 (s : State) (d : Dir) (port k : Nat) : (s.bwIn d port k).part6 = s.part6 :=
  when_p6 _ _ _ (fun s => bwAdd_p6 s _ _ _)
@[simp] theorem solArm_p6 (s : State) (e : Nat) (b : Bool) (stamp : Stamp) : (State.solArm s e b stamp).part6 = s.part6 := by
  unfold State.solArm
  (repeat' split) <;> simp
@[simp] theorem modFrame_p6 (s : State) (id : Nat) (g : Frame → Frame) : (State.modFrame s id g).part6 = s.part6 := by
  unfold State.modFrame
  simp
@[simp] theorem setTicket_p6 (s : State) (id k : Nat) : (State.setTicket s id k).part6 = s.part6 := by
  unfold State.setTicket
  simp
@[simp] theorem takeTicket_p6 (s : State) (f : Frame) : (State.takeTicket s f).part6 = s.part6 := by
  unfold State.takeTicket
  simp
@[simp] theorem payRse_p6 (s : State) (port : Nat) (express : Bool) (n : Nat) : (State.payRse s port express n).part6 = s.part6 := by
  unfold State.payRse
  simp
@[simp] theorem rseReturn_p6 (s : State) (f : Frame) : (State.rseReturn s f).part6 = s.part6 := by
  unfold State.rseReturn
  simp
@[simp] theorem sendTicket_p6 (s : State) (f : Frame) (src : Nat) (v : Bool) : (State.sendTicket s f src v).part6 = s.part6 := by
  unfold State.sendTicket
  (repeat' split) <;> simp
@[simp] theorem setBuf_p6 (s : State) (k n : Nat) : (State.setBuf s k n).part6 = s.part6 := by
  unfold State.setBuf
  simp
@[simp] theorem passTry_p6 (s : State) (f : Frame) : (State.passTry s f).part6 = s.part6 := by
  unfold State.passTry
  simp
@[simp] theorem passAll_p6 (s : State) (p : Frame → Bool) : (State.passAll s p).part6 = s.part6 := by
  unfold State.passAll
  repeat' first | (simp; done) | intro _ | (refine (forEach_p6 _ _ _ ?_).trans ?_) | (refine (when_p6 _ _ _ ?_).trans ?_) | split | simp
@[simp] theorem nextTicket_p6 (s : State) (k : Nat) : (State.nextTicket s k).part6 = s.part6 := by
  unfold State.nextTicket
  repeat' first | (simp; done) | intro _ | (refine (forEach_p6 _ _ _ ?_).trans ?_) | (refine (when_p6 _ _ _ ?_).trans ?_) | split | simp
@[simp] theorem resume_p6 (s : State) (n : Nat) : (State.resume s n).part6 = s.part6 := by
  unfold State.resume
  simp
@[simp] theorem leaveSlice_p6 (s : State) (f : Frame) : (State.leaveSlice s f).part6 = s.part6 := by
  unfold State.leaveSlice
  (repeat' split) <;> simp
@[simp] theorem removeFrame_p6 (s : State) (f : Frame) : (State.removeFrame s f).part6 = s.part6 := by
  unfold State.removeFrame
  simp
@[simp] theorem voidFrame_p6 (s : State) (f : Frame) : (State.voidFrame s f).part6 = s.part6 := by
  unfold State.voidFrame
  simp
@[simp] theorem sendEof_p6 (s : State) (f : Frame) (b : Bytes) (c : Code) : (State.sendEof s f b c).part6 = s.part6 := by
  unfold State.sendEof
  simp
@[simp] theorem refund_p6 (s : State) (f : Frame) (sent : Nat) : (State.refund s f sent).part6 = s.part6 := by
  unfold State.refund
  simp
@[simp] theorem addFrame_p6 (s : State) (f : Frame) : (State.addFrame s f).part6 = s.part6 := by
  unfold State.addFrame
  simp
@[simp] theorem addReport_p6 (s : State) (f : Frame) : (State.addReport s f).part6 = s.part6 := by
  unfold State.addReport
  dsimp only; (repeat' split) <;> simp
@[simp] theorem addStub_p6 (s : State) (f : Frame) : (State.addStub s f).part6 = s.part6 := by
  unfold State.addStub
  simp
@[simp] theorem endFrame_p6 (s : State) (f : Frame) (c : Code) (ctr : Option Nat) : (State.endFrame s f c ctr).part6 = s.part6 := by
  unfold State.endFrame
  repeat' first | (simp; done) | intro _ | (refine (forEach_p6 _ _ _ ?_).trans ?_) | (refine (when_p6 _ _ _ ?_).trans ?_) | split | simp
@[simp] theorem dropStat_p6 (s : State) (f : Frame) (incs : List (Nat × Nat)) : (State.dropStat s f incs).part6 = s.part6 := by
  unfold State.dropStat
  simp
@[simp] theorem specDrop_p6 (s : State) (f : Frame) : (State.specDrop s f).part6 = s.part6 := by
  unfold State.specDrop
  (repeat' split) <;> simp
@[simp] theorem closeFrame_p6 (s : State) (f : Frame) : (State.closeFrame s f).part6 = s.part6 := by
  unfold State.closeFrame
  (repeat' split) <;> simp
@[simp] theorem finalOne_p6 (s : State) (f : Frame) : (State.finalOne s f).part6 = s.part6 := by
  unfold State.finalOne
  simp
@[simp] theorem finalChecks_p6 (s : State) (k : Nat) : (State.finalChecks s k).part6 = s.part6 := by
  unfold State.finalChecks
  repeat' first | (simp; done) | intro _ | (refine (forEach_p6 _ _ _ ?_).trans ?_) | (refine (when_p6 _ _ _ ?_).trans ?_) | split | simp
@[simp] theorem sofRelease_p6 (s : State) (f : Frame) : (State.sofRelease s f).part6 = s.part6 := by
  unfold State.sofRelease
  simp
@[simp] theorem trySof_p6 (s : State) (d : Dir) (port : Nat) (cls : Bool) : (State.trySof s d port cls).part6 = s.part6 := by
  unfold State.trySof
  dsimp only; (repeat' split) <;> simp
@[simp] theorem countEnd_p6 (s : State) (f : Frame) : (State.countEnd s f).part6 = s.part6 := by
  unfold State.countEnd
  (repeat' split) <;> simp
@[simp] theorem tryEof_p6 (s : State) (d : Dir) (port : Nat) (cls : Bool) : (State.tryEof s d port cls).part6 = s.part6 := by
  unfold State.tryEof
  dsimp only; (repeat' split) <;> simp
theorem execBseSofRelease_p6 (port : Fin 32) (cls : Bool) (s : State) (t : State) (ht : execBseSofRelease port cls s = .next t) : t.part6 = s.part6 := by
  unfold execBseSofRelease at ht
  have h : s.begin.part6 = s.part6 := rfl
  rw [← h]; clear h
  generalize s.begin = b at ht ⊢
  (try dsimp only at ht)
  (repeat' split at ht) <;> (injection ht with ht; subst ht)
  all_goals (repeat' first | (simp; done) | split)
theorem execRsiSofRelease_p6 (port : Fin 32) (cls : Bool) (s : State) (t : State) (ht : execRsiSofRelease port cls s = .next t) : t.part6 = s.part6 := by
  unfold execRsiSofRelease at ht
  have h : s.begin.part6 = s.part6 := rfl
  rw [← h]; clear h
  generalize s.begin = b at ht ⊢
  (try dsimp only at ht)
  (repeat' split at ht) <;> (injection ht with ht; subst ht)
  all_goals (repeat' first | (simp; done) | split)
theorem execEofRelease_p6 (dir : Dir) (port : Fin 32) (cls : Bool) (s : State) (t : State) (ht : execEofRelease dir port cls s = .next t) : t.part6 = s.part6 := by
  unfold execEofRelease at ht
  have h : s.begin.part6 = s.part6 := rfl
  rw [← h]; clear h
  generalize s.begin = b at ht ⊢
  (try dsimp only at ht)
  (repeat' split at ht) <;> (injection ht with ht; subst ht)
  all_goals (repeat' first | (simp; done) | split)

end Sys2Proof.Machine
end

