-- ==== Sys2Proof/Laws/Gate.lean ====
section
/-! SUPPORT. The register interface: a write that nothing stands against is carried out. -/
namespace Sys2Proof.Machine

theorem free_parts (s : State) (p : Page) (h : s.free p = true) :
    s.cpUp = true ∧ s.resetOn p.part = false ∧ (s.hdr p).busy = false := by
  unfold State.free at h
  simp only [Bool.and_eq_true, Bool.not_eq_true'] at h
  exact ⟨h.1.1, h.1.2, h.2⟩

/-- The judgement of a write that nothing stands against (R345, R348, R350, R353, R354). -/
theorem gate_ok (s : State) (p : Page) (off : Nat) (data : W32) (r : RegRow) (hr : rowAt p off = some r)
    (hp : s.resetOn p.part = false) (hb : (s.hdr p).busy = false) (hi : r.inert data = false)
    (hl : r.l = 0 ∨ (s.hdr p).unlocked = true) (ho : r.o = 0 ∨ p.at off ∉ s.regs.once)
    (hs : r.s = 0 ∨ (s.hdr p).pending = false) : s.gate p off data = .ok (decide (r.l ≠ 0)) := by
  unfold State.gate
  rw [hr]
  simp only [hp, hb, hi, Bool.false_and, Bool.false_eq_true, if_false]
  have h1 : (decide (r.l ≠ 0) && !(s.hdr p).unlocked) = false := by rcases hl with e | e <;> simp [e]
  have h2 : (decide (r.o ≠ 0) && decide (p.at off ∈ s.regs.once)) = false := by rcases ho with e | e <;> simp [e]
  have h3 : (decide (r.s ≠ 0) && (s.hdr p).pending) = false := by rcases hs with e | e <;> simp [e]
  simp only [h1, h2, h3, Bool.false_eq_true, if_false]

/-- A write that nothing stands against is answered without error and carried out. -/
theorem through_ok (s : State) (p : Page) (off : Nat) (data : W32) (act : State → State) (r : RegRow)
    (hr : rowAt p off = some r) (hf : s.free p = true) (hi : r.inert data = false)
    (hl : r.l = 0 ∨ (s.hdr p).unlocked = true) (ho : r.o = 0 ∨ p.at off ∉ s.regs.once)
    (hs : r.s = 0 ∨ (s.hdr p).pending = false) :
    s.through p off data act =
      (act (((s.emit (.cpDone false)).when (decide (r.l ≠ 0)) (·.setUnlocked p false)).useOnce p off)).when p.aoPosted
        (·.setBusy p true) := by
  obtain ⟨hc, hp, hb⟩ := free_parts s p hf
  have ha : s.answer false = s.emit (.cpDone false) := rfl
  have hg := gate_ok (s.emit (.cpDone false)) p off data r hr hp hb hi hl ho hs
  unfold State.through State.gated
  rw [if_pos hc, ha, hg]
  rfl

/-- The same for a register that is neither locked nor written once, of a page that is not posted. -/
theorem through_plain (s : State) (p : Page) (off : Nat) (data : W32) (act : State → State) (r : RegRow)
    (hr : rowAt p off = some r) (hf : s.free p = true) (hi : r.inert data = false) (hl : r.l = 0) (ho : r.o = 0)
    (hs : r.s = 0) (ha : p.aoPosted = false) : s.through p off data act = act (s.emit (.cpDone false)) := by
  rw [through_ok s p off data act r hr hf hi (.inl hl) (.inl ho) (.inl hs), ha]
  have : (s.emit (.cpDone false)).useOnce p off = s.emit (.cpDone false) := by
    unfold State.useOnce
    rw [hr]
    simp only [ho, if_true]
  simp [hl, this]

end Sys2Proof.Machine
end

