-- ==== Sys2Proof/Laws/SysKeep.lean ====
section
/-! SUPPORT. Which operations leave the security core and the recovery sequencer alone: one lemma for each operation. -/
namespace Sys2Proof.Machine

@[simp] theorem ite_sys (c : Prop) [Decidable c] (a b : State) : (if c then a else b).sys = if c then a.sys else b.sys := by split <;> rfl
@[simp] theorem forEach_sys {α : Type} (f : State → α → State) (l : List α) (s : State) (h : ∀ s a, (f s a).sys = s.sys) : (s.forEach l f).sys = s.sys := forEach_keeps (·.sys) f h l s
@[simp] theorem when_sys (f : State → State) (c : Bool) (s : State) (h : ∀ s, (f s).sys = s.sys) : (s.when c f).sys = s.sys := when_keeps (·.sys) f h c s

@[simp] theorem setCfg_sys (s : State) (p : Page) (off : Nat) (v : W32) : (State.setCfg s p off v).sys = s.sys := by
  unfold State.setCfg
  simp
@[simp] theorem setStaged_sys (s : State) (p : Page) (off : Nat) (v : W32) : (State.setStaged s p off v).sys = s.sys := by
  unfold State.setStaged
  simp
@[simp] theorem setRo_sys (s : State) (p : Page) (off : Nat) (v : W32) : (State.setRo s p off v).sys = s.sys := by
  unfold State.setRo
  simp
@[simp] theorem setFlags_sys (s : State) (p : Page) (off : Nat) (m : W32) : (State.setFlags s p off m).sys = s.sys := by
  unfold State.setFlags
  simp
@[simp] theorem setFlag_sys (s : State) (p : Page) (off n : Nat) : (State.setFlag s p off n).sys = s.sys := by
  unfold State.setFlag
  simp
@[simp] theorem clearFlags_sys (s : State) (p : Page) (off : Nat) (m : W32) : (State.clearFlags s p off m).sys = s.sys := by
  unfold State.clearFlags
  simp
@[simp] theorem modHdr_sys (s : State) (p : Page) (f : Hdr → Hdr) : (State.modHdr s p f).sys = s.sys := by
  unfold State.modHdr
  simp
@[simp] theorem bumpEpoch_sys (s : State) (p : Page) : (State.bumpEpoch s p).sys = s.sys := by
  unfold State.bumpEpoch
  simp
@[simp] theorem evt_sys (s : State) (n k : Nat) : (State.evt s n k).sys = s.sys := by
  unfold State.evt
  simp
@[simp] theorem evtF_sys (s : State) (n : Nat) (who : Option Nat × Nat × Dir) : (State.evtF s n who).sys = s.sys := by
  unfold State.evtF
  simp
@[simp] theorem collide_sys (s : State) (p : Page) : (State.collide s p).sys = s.sys := by
  unfold State.collide
  simp
@[simp] theorem lockViol_sys (s : State) (p : Page) : (State.lockViol s p).sys = s.sys := by
  unfold State.lockViol
  simp
@[simp] theorem accessErr_sys (s : State) (p : Page) : (State.accessErr s p).sys = s.sys := by
  unfold State.accessErr
  simp
@[simp] theorem poison_sys (s : State) (p : Page) : (State.poison s p).sys = s.sys := by
  unfold State.poison
  simp
@[simp] theorem portAdd_sys (s : State) (port idx k : Nat) : (State.portAdd s port idx k).sys = s.sys := by
  unfold State.portAdd
  simp
@[simp] theorem portCount_sys (s : State) (port idx : Nat) : (State.portCount s port idx).sys = s.sys := by
  unfold State.portCount
  simp
@[simp] theorem portFlag_sys (s : State) (port n : Nat) : (State.portFlag s port n).sys = s.sys := by
  unfold State.portFlag
  simp
@[simp] theorem portBFlag_sys (s : State) (port n : Nat) : (State.portBFlag s port n).sys = s.sys := by
  unfold State.portBFlag
  simp
@[simp] theorem outcome_sys (s : State) (chix : Nat) (incs : List (Nat × Nat)) : (State.outcome s chix incs).sys = s.sys := by
  unfold State.outcome
  simp
@[simp] theorem detectAs_sys (s : State) (inj : Bool) (det inst : Nat) (infoA infoB : W32) : (State.detectAs s inj det inst infoA infoB).sys = s.sys := by
  unfold State.detectAs
  simp
@[simp] theorem detect_sys (s : State) (det inst : Nat) (infoA infoB : W32) : (State.detect s det inst infoA infoB).sys = s.sys := by
  unfold State.detect
  simp
@[simp] theorem detect0_sys (s : State) (det inst : Nat) : (State.detect0 s det inst).sys = s.sys := by
  unfold State.detect0
  simp
@[simp] theorem answer_sys (s : State) (err : Bool) : (State.answer s err).sys = s.sys := by
  unfold State.answer
  simp
@[simp] theorem answerRead_sys (s : State) (err : Bool) (w : W32) : (State.answerRead s err w).sys = s.sys := by
  unfold State.answerRead
  simp
@[simp] theorem setBusy_sys (s : State) (p : Page) (b : Bool) : (State.setBusy s p b).sys = s.sys := by
  unfold State.setBusy
  simp
@[simp] theorem setUnlocked_sys (s : State) (p : Page) (b : Bool) : (State.setUnlocked s p b).sys = s.sys := by
  unfold State.setUnlocked
  simp
@[simp] theorem useOnce_sys (s : State) (p : Page) (off : Nat) : (State.useOnce s p off).sys = s.sys := by
  unfold State.useOnce
  (repeat' split) <;> simp
theorem gated_sys (s : State) (p : Page) (off : Nat) (data : W32) (uses : Bool) (act : State → State) (h : ∀ s, (act s).sys = s.sys) : (s.gated p off data uses act).sys = s.sys := by
  unfold State.gated
  dsimp only
  repeat' first | (simp [h]; done) | split
theorem through_sys (s : State) (p : Page) (off : Nat) (data : W32) (act : State → State) (h : ∀ s, (act s).sys = s.sys) : (s.through p off data act).sys = s.sys := by
  unfold State.through
  split
  · rw [gated_sys _ _ _ _ _ _ h, answer_sys]
  · rfl
@[simp] theorem mirrorLease_sys (s : State) (chix : Nat) (slotB valid : Bool) (tag : W32) (ceil : Nat) : (State.mirrorLease s chix slotB valid tag ceil).sys = s.sys := by
  unfold State.mirrorLease
  repeat' first | (simp) | intro _ | (refine (forEach_sys _ _ _ ?_).trans ?_) | (refine (when_sys _ _ _ ?_).trans ?_) | split | simp
@[simp] theorem mirrorSlot_sys (s : State) (it : MItem) : (State.mirrorSlot s it).sys = s.sys := by
  unfold State.mirrorSlot
  repeat' first | (simp) | intro _ | (refine (forEach_sys _ _ _ ?_).trans ?_) | (refine (when_sys _ _ _ ?_).trans ?_) | split | simp
@[simp] theorem mirrorSched_sys (s : State) (it : MItem) : (State.mirrorSched s it).sys = s.sys := by
  unfold State.mirrorSched
  repeat' first | (simp) | intro _ | (refine (forEach_sys _ _ _ ?_).trans ?_) | (refine (when_sys _ _ _ ?_).trans ?_) | split | simp
@[simp] theorem skew_sys (s : State) (k : Nat) : (State.skew s k).sys = s.sys := by
  unfold State.skew
  simp
@[simp] theorem unskew_sys (s : State) (k : Nat) : (State.unskew s k).sys = s.sys := by
  unfold State.unskew
  simp
@[simp] theorem mirrorLose_sys (s : State) (it : Bytes) : (State.mirrorLose s it).sys = s.sys := by
  unfold State.mirrorLose
  simp
@[simp] theorem mirrorFail_sys (s : State) (x : Nat) : (State.mirrorFail s x).sys = s.sys := by
  unfold State.mirrorFail
  simp
@[simp] theorem setEntry_sys (s : State) (e : Nat) (v : Option Entry) : (State.setEntry s e v).sys = s.sys := by
  unfold State.setEntry
  simp
@[simp] theorem modEntry_sys (s : State) (e : Nat) (f : Entry → Entry) : (State.modEntry s e f).sys = s.sys := by
  unfold State.modEntry
  simp
@[simp] theorem modSlot_sys (s : State) (v : Nat) (f : Slot → Slot) : (State.modSlot s v f).sys = s.sys := by
  unfold State.modSlot
  simp
@[simp] theorem setResi_sys (s : State) (x : Nat) (r : Resi) : (State.setResi s x r).sys = s.sys := by
  unfold State.setResi
  simp
@[simp] theorem syncHandle_sys (s : State) (x : Nat) : (State.syncHandle s x).sys = s.sys := by
  unfold State.syncHandle
  simp
@[simp] theorem eqxLog_sys (s : State) (kind chix : Nat) (b : Bool) (an : BitVec 2) (t : Nat) : (State.eqxLog s kind chix b an t).sys = s.sys := by
  unfold State.eqxLog
  simp
@[simp] theorem unexpose_sys (s : State) (x : Nat) (b : Bool) : (State.unexpose s x b).sys = s.sys := by
  unfold State.unexpose
  repeat' first | (simp) | intro _ | (refine (forEach_sys _ _ _ ?_).trans ?_) | (refine (when_sys _ _ _ ?_).trans ?_) | split | simp
@[simp] theorem slotChanged_sys (s : State) (e : Nat) (b : Bool) : (State.slotChanged s e b).sys = s.sys := by
  unfold State.slotChanged
  (repeat' split) <;> simp
@[simp] theorem schedCancelled_sys (s : State) (chix e : Nat) (b : Bool) : (State.schedCancelled s chix e b).sys = s.sys := by
  unfold State.schedCancelled
  simp
@[simp] theorem eqxOnSlot_sys (s : State) (e : Nat) (b : Bool) (c : SlotChange) : (State.eqxOnSlot s e b c).sys = s.sys := by
  unfold State.eqxOnSlot
  (repeat' split) <;> simp
@[simp] theorem solOnSlot_sys (s : State) (e : Nat) (b : Bool) : (State.solOnSlot s e b).sys = s.sys := by
  unfold State.solOnSlot
  (repeat' split) <;> simp
@[simp] theorem schedOnSlot_sys (s : State) (e : Nat) (b : Bool) (c : SlotChange) : (State.schedOnSlot s e b c).sys = s.sys := by
  unfold State.schedOnSlot
  simp
@[simp] theorem modDom_sys (s : State) (d : Nat) (f : Dom → Dom) : (State.modDom s d f).sys = s.sys := by
  unfold State.modDom
  simp
@[simp] theorem modSl_sys (s : State) (n : Nat) (f : Slice → Slice) : (State.modSl s n f).sys = s.sys := by
  unfold State.modSl
  simp
@[simp] theorem pmIssue_sys (s : State) (d : Nat) (op : PmOp) : (State.pmIssue s d op).sys = s.sys := by
  unfold State.pmIssue
  simp
@[simp] theorem pmTry_sys (s : State) (d : Nat) (op : PmOp) : (State.pmTry s d op).sys = s.sys := by
  unfold State.pmTry
  simp
@[simp] theorem pmPump_sys (s : State) : (State.pmPump s).sys = s.sys := by
  unfold State.pmPump
  repeat' first | (simp) | intro _ | (refine (forEach_sys _ _ _ ?_).trans ?_) | (refine (when_sys _ _ _ ?_).trans ?_) | split | simp
@[simp] theorem wakeDom_sys (s : State) (d : Nat) : (State.wakeDom s d).sys = s.sys := by
  unfold State.wakeDom
  dsimp only; (repeat' split) <;> simp
@[simp] theorem wakeNeeded_sys (s : State) : (State.wakeNeeded s).sys = s.sys := by
  unfold State.wakeNeeded
  simp
@[simp] theorem setRsv_sys (s : State) (ing : Bool) (l : NatSet) : (State.setRsv s ing l).sys = s.sys := by
  unfold State.setRsv
  simp
@[simp] theorem rsvReturn_sys (s : State) (n : Nat) : (State.rsvReturn s n).sys = s.sys := by
  unfold State.rsvReturn
  dsimp only; (repeat' split) <;> simp
@[simp] theorem wakeSlice_sys (s : State) (n : Nat) : (State.wakeSlice s n).sys = s.sys := by
  unfold State.wakeSlice
  (repeat' split) <;> simp
@[simp] theorem rsvLeave_sys (s : State) (n : Nat) : (State.rsvLeave s n).sys = s.sys := by
  unfold State.rsvLeave
  dsimp only; (repeat' split) <;> simp
@[simp] theorem slEnter_sys (s : State) (n : Nat) (st : SlState) : (State.slEnter s n st).sys = s.sys := by
  unfold State.slEnter
  (repeat' split) <;> simp
@[simp] theorem wakeSlices_sys (s : State) (ing : Bool) (k : Nat) : (State.wakeSlices s ing k).sys = s.sys := by
  unfold State.wakeSlices
  simp
@[simp] theorem sleepSlice_sys (s : State) (n : Nat) : (State.sleepSlice s n).sys = s.sys := by
  unfold State.sleepSlice
  simp
@[simp] theorem setOver_sys (s : State) (ing : Bool) (v : Option Nat) : (State.setOver s ing v).sys = s.sys := by
  unfold State.setOver
  simp
@[simp] theorem rotTry_sys (s : State) (n : Nat) : (State.rotTry s n).sys = s.sys := by
  unfold State.rotTry
  simp
@[simp] theorem govDir_sys (s : State) (ing : Bool) : (State.govDir s ing).sys = s.sys := by
  unfold State.govDir
  dsimp only; (repeat' split) <;> simp
@[simp] theorem slFailed_sys (s : State) (n : Nat) : (State.slFailed s n).sys = s.sys := by
  unfold State.slFailed
  repeat' first | (simp) | intro _ | (refine (forEach_sys _ _ _ ?_).trans ?_) | (refine (when_sys _ _ _ ?_).trans ?_) | split | simp
@[simp] theorem slPassed_sys (s : State) (n : Nat) : (State.slPassed s n).sys = s.sys := by
  unfold State.slPassed
  simp
@[simp] theorem slTested_sys (s : State) (n : Nat) (pass late : Bool) : (State.slTested s n pass late).sys = s.sys := by
  unfold State.slTested
  simp
@[simp] theorem cmdDone_sys (s : State) (p : Page) (off flag code op detail : Nat) : (State.cmdDone s p off flag code op detail).sys = s.sys := by
  unfold State.cmdDone
  simp
@[simp] theorem storeDone_sys (s : State) (code detail : Nat) : (State.storeDone s code detail).sys = s.sys := by
  unfold State.storeDone
  simp
@[simp] theorem putBytes_sys (s : State) (p : Page) (off : Nat) (b : Bytes) : (State.putBytes s p off b).sys = s.sys := by
  unfold State.putBytes
  simp
@[simp] theorem setKey_sys (s : State) (n : Nat) (k : KeySel) : (State.setKey s n k).sys = s.sys := by
  unfold State.setKey
  simp
@[simp] theorem useKey_sys (s : State) (sel : Nat) : (State.useKey s sel).sys = s.sys := by
  unfold State.useKey
  simp
@[simp] theorem storeReq_sys (s : State) (wr : Bool) (line kix : Nat) (who : Req) (data : Bytes) (mask : W64) : (State.storeReq s wr line kix who data mask).sys = s.sys := by
  unfold State.storeReq
  simp
@[simp] theorem storeRead_sys (s : State) (line kix : Nat) (who : Req) : (State.storeRead s line kix who).sys = s.sys := by
  unfold State.storeRead
  simp
@[simp] theorem storeWrite_sys (s : State) (line kix : Nat) (who : Req) (d : Bytes) : (State.storeWrite s line kix who d).sys = s.sys := by
  unfold State.storeWrite
  simp
@[simp] theorem issueRead_sys (s : State) (r : SReq) (sel : Nat) : (State.issueRead s r sel).sys = s.sys := by
  unfold State.issueRead
  (repeat' split) <;> simp
@[simp] theorem issueWrite_sys (s : State) (r : SReq) (sel : Nat) (d : Bytes) : (State.issueWrite s r sel d).sys = s.sys := by
  unfold State.issueWrite
  (repeat' split) <;> simp
@[simp] theorem modWcb_sys (s : State) (line : Nat) (f : Wcb → Wcb) : (State.modWcb s line f).sys = s.sys := by
  unfold State.modWcb
  simp
@[simp] theorem freeWcb_sys (s : State) (line : Nat) : (State.freeWcb s line).sys = s.sys := by
  unfold State.freeWcb
  simp
@[simp] theorem touchWcb_sys (s : State) (line : Nat) : (State.touchWcb s line).sys = s.sys := by
  unfold State.touchWcb
  (repeat' split) <;> simp
@[simp] theorem mergeWrite_sys (s : State) (r : SReq) : (State.mergeWrite s r).sys = s.sys := by
  unfold State.mergeWrite
  simp
@[simp] theorem writeBack_sys (s : State) (w : Wcb) : (State.writeBack s w).sys = s.sys := by
  unfold State.writeBack
  simp
@[simp] theorem wcbLost_sys (s : State) (w : Wcb) : (State.wcbLost s w).sys = s.sys := by
  unfold State.wcbLost
  simp
theorem wcbRoom_sys (s t : State) (h : s.wcbRoom = some t) : t.sys = s.sys := by
  unfold State.wcbRoom at h
  split at h
  · cases h; rfl
  · split at h
    · cases h; simp
    · cases h
@[simp] theorem hostEnd_sys (s : State) (r : SReq) (f : FinRes) : (State.hostEnd s r f).sys = s.sys := by
  unfold State.hostEnd
  (repeat' split) <;> simp
@[simp] theorem lineFail_sys (s : State) (r : SReq) (f : FinRes) : (State.lineFail s r f).sys = s.sys := by
  unfold State.lineFail
  repeat' first | (simp) | intro _ | (refine (forEach_sys _ _ _ ?_).trans ?_) | (refine (when_sys _ _ _ ?_).trans ?_) | split | simp
@[simp] theorem endReq_sys (s : State) (r : SReq) (f : FinRes) : (State.endReq s r f).sys = s.sys := by
  unfold State.endReq
  (repeat' split) <;> simp
@[simp] theorem fillEnd_sys (s : State) (r : SReq) (f : FinRes) : (State.fillEnd s r f).sys = s.sys := by
  unfold State.fillEnd
  (repeat' split) <;> simp
@[simp] theorem backEnd_sys (s : State) (r : SReq) (f : FinRes) : (State.backEnd s r f).sys = s.sys := by
  unfold State.backEnd
  (repeat' split) <;> simp
@[simp] theorem wholeEnd_sys (s : State) (r : SReq) (f : FinRes) : (State.wholeEnd s r f).sys = s.sys := by
  unfold State.wholeEnd
  (repeat' split) <;> simp
@[simp] theorem modMarch_sys (s : State) (f : March → March) : (State.modMarch s f).sys = s.sys := by
  unfold State.modMarch
  simp
@[simp] theorem marchSettle_sys (s : State) : (State.marchSettle s).sys = s.sys := by
  unfold State.marchSettle
  simp
@[simp] theorem marchDone_sys (s : State) : (State.marchDone s).sys = s.sys := by
  unfold State.marchDone
  simp
@[simp] theorem marchRekeyed_sys (s : State) (line : Nat) : (State.marchRekeyed s line).sys = s.sys := by
  unfold State.marchRekeyed
  simp
@[simp] theorem marchFail_sys (s : State) (line reason : Nat) : (State.marchFail s line reason).sys = s.sys := by
  unfold State.marchFail
  simp
@[simp] theorem marchEnd_sys (s : State) (r : SReq) (f : FinRes) : (State.marchEnd s r f).sys = s.sys := by
  unfold State.marchEnd
  (repeat' split) <;> simp
@[simp] theorem finish_sys (s : State) (r : SReq) (f : FinRes) : (State.finish s r f).sys = s.sys := by
  unfold State.finish
  (repeat' split) <;> simp
@[simp] theorem serveHit_sys (s : State) (r : SReq) (sel : Nat) (w : Wcb) : (State.serveHit s r sel w).sys = s.sys := by
  unfold State.serveHit
  simp
@[simp] theorem serveFill_sys (s : State) (r : SReq) (sel : Nat) : (State.serveFill s r sel).sys = s.sys := by
  unfold State.serveFill
  simp
@[simp] theorem serveFull_sys (s : State) (r : SReq) : (State.serveFull s r).sys = s.sys := by
  unfold State.serveFull
  dsimp only; (repeat' split) <;> simp
@[simp] theorem serveMiss_sys (s : State) (r : SReq) (sel : Nat) : (State.serveMiss s r sel).sys = s.sys := by
  unfold State.serveMiss
  repeat' first | (simp; done) | split
  all_goals (rename_i hr; simp [wcbRoom_sys _ _ hr])
@[simp] theorem serveSel_sys (s : State) (r : SReq) (sel : Nat) : (State.serveSel s r sel).sys = s.sys := by
  unfold State.serveSel
  (repeat' split) <;> simp
@[simp] theorem serveNow_sys (s : State) (r : SReq) : (State.serveNow s r).sys = s.sys := by
  unfold State.serveNow
  (repeat' split) <;> simp
@[simp] theorem notePassed_sys (s : State) (r : SReq) : (State.notePassed s r).sys = s.sys := by
  unfold State.notePassed
  simp
@[simp] theorem serve_sys (s : State) (r : SReq) : (State.serve s r).sys = s.sys := by
  unfold State.serve
  repeat' first | (simp) | intro _ | (refine (forEach_sys _ _ _ ?_).trans ?_) | (refine (when_sys _ _ _ ?_).trans ?_) | split | simp
@[simp] theorem pumpStoreN_sys (k : Nat) (s : State) : (pumpStoreN k s).sys = s.sys := by
  induction k generalizing s with
  | zero => rfl
  | succ k ih => unfold pumpStoreN; split <;> simp [ih]
@[simp] theorem countWaits_sys (s : State) : (State.countWaits s).sys = s.sys := by
  unfold State.countWaits
  repeat' first | (simp) | intro _ | (refine (forEach_sys _ _ _ ?_).trans ?_) | (refine (when_sys _ _ _ ?_).trans ?_) | split | simp
@[simp] theorem flushCheck_sys (s : State) : (State.flushCheck s).sys = s.sys := by
  unfold State.flushCheck
  (repeat' split) <;> simp
@[simp] theorem pumpStore_sys (s : State) : (State.pumpStore s).sys = s.sys := by unfold State.pumpStore; simp [pumpStoreN_sys]
theorem takeOut_sys (s : State) (wr : Bool) (id : Nat) (p : SReq × State) (h : s.takeOut wr id = some p) : p.2.sys = s.sys := by
  unfold State.takeOut at h
  split at h
  · cases h; simp
  · cases h
@[simp] theorem readResp_sys (s : State) (r : SReq) (err : Bool) (data side : Bytes) : (State.readResp s r err data side).sys = s.sys := by
  unfold State.readResp
  dsimp only; (repeat' split) <;> simp
@[simp] theorem writeResp_sys (s : State) (r : SReq) (err : Bool) : (State.writeResp s r err).sys = s.sys := by
  unfold State.writeResp
  simp
@[simp] theorem endOut_sys (s : State) (r : SReq) : (State.endOut s r).sys = s.sys := by
  unfold State.endOut
  simp
@[simp] theorem forgetReqs_sys (s : State) (p : Req → Bool) : (State.forgetReqs s p).sys = s.sys := by
  unfold State.forgetReqs
  simp
@[simp] theorem marchAbandon_sys (s : State) : (State.marchAbandon s).sys = s.sys := by
  unfold State.marchAbandon
  simp
@[simp] theorem marchHold_sys (s : State) : (State.marchHold s).sys = s.sys := by
  unfold State.marchHold
  simp
@[simp] theorem marchDrop_sys (s : State) : (State.marchDrop s).sys = s.sys := by
  unfold State.marchDrop
  simp
@[simp] theorem marchIdle_sys (s : State) : (State.marchIdle s).sys = s.sys := by
  unfold State.marchIdle
  simp
@[simp] theorem leaveWcb_sys (s : State) (sel : Nat) : (State.leaveWcb s sel).sys = s.sys := by
  unfold State.leaveWcb
  simp
@[simp] theorem dropWcb_sys (s : State) (p : Nat → Bool) : (State.dropWcb s p).sys = s.sys := by
  unfold State.dropWcb
  simp
@[simp] theorem setZero_sys (s : State) (x l : Nat) (v : Option Bool) : (State.setZero s x l v).sys = s.sys := by
  unfold State.setZero
  simp
@[simp] theorem modSpill_sys (s : State) (x l : Nat) (f : Spill → Spill) : (State.modSpill s x l f).sys = s.sys := by
  unfold State.modSpill
  simp
@[simp] theorem dropSpill_sys (s : State) (x l : Nat) : (State.dropSpill s x l).sys = s.sys := by
  unfold State.dropSpill
  simp
@[simp] theorem spillWrite_sys (s : State) (x l : Nat) (old : List Nat) : (State.spillWrite s x l old).sys = s.sys := by
  unfold State.spillWrite
  simp
@[simp] theorem spillGo_sys (s : State) (x l : Nat) : (State.spillGo s x l).sys = s.sys := by
  unfold State.spillGo
  (repeat' split) <;> simp
@[simp] theorem spillNext_sys (s : State) : (State.spillNext s).sys = s.sys := by
  unfold State.spillNext
  simp
@[simp] theorem spillScan_sys (s : State) (x : Nat) : (State.spillScan s x).sys = s.sys := by
  unfold State.spillScan
  simp
@[simp] theorem restartLeaves_sys (s : State) (x : Nat) (fs : List Nat) : (State.restartLeaves s x fs).sys = s.sys := by
  unfold State.restartLeaves
  (repeat' split) <;> simp
@[simp] theorem zeroTrunks_sys (s : State) (x : Nat) (fs : List Nat) (who : Nat → Req) : (State.zeroTrunks s x fs who).sys = s.sys := by
  unfold State.zeroTrunks
  simp
@[simp] theorem zeroSlotStats_sys (s : State) (e : Nat) (slotB : Bool) : (State.zeroSlotStats s e slotB).sys = s.sys := by
  unfold State.zeroSlotStats
  (repeat' split) <;> simp
@[simp] theorem zeroCell_sys (s : State) (x : Nat) : (State.zeroCell s x).sys = s.sys := by
  unfold State.zeroCell
  simp
@[simp] theorem spillRead_sys (s : State) (x l : Nat) (f : FinRes) : (State.spillRead s x l f).sys = s.sys := by
  unfold State.spillRead
  (repeat' split) <;> simp
@[simp] theorem spillWrote_sys (s : State) (x l : Nat) (f : FinRes) : (State.spillWrote s x l f).sys = s.sys := by
  unfold State.spillWrote
  (repeat' split) <;> simp
@[simp] theorem zeroWrote_sys (s : State) (x l : Nat) (f : FinRes) : (State.zeroWrote s x l f).sys = s.sys := by
  unfold State.zeroWrote
  (repeat' split) <;> simp
@[simp] theorem spillAgain_sys (s : State) (x l : Nat) : (State.spillAgain s x l).sys = s.sys := by
  unfold State.spillAgain
  dsimp only; (repeat' split) <;> simp
@[simp] theorem applyOutcome_sys (s : State) (o : Counted) : (State.applyOutcome s o).sys = s.sys := by
  unfold State.applyOutcome
  (repeat' split) <;> simp
@[simp] theorem applyAll_sys (s : State) (x : Nat) : (State.applyAll s x).sys = s.sys := by
  unfold State.applyAll
  simp
@[simp] theorem evcOverflow_sys (s : State) (n rem : Nat) (occ : List (Option Nat × Nat × Dir)) : (State.evcOverflow s n rem occ).sys = s.sys := by
  unfold State.evcOverflow
  simp
@[simp] theorem evcUpdate_sys (s : State) (n : Nat) : (State.evcUpdate s n).sys = s.sys := by
  unfold State.evcUpdate
  simp
@[simp] theorem bwAdd_sys (s : State) (port : Nat) (d : Dir) (k : Nat) : (State.bwAdd s port d k).sys = s.sys := by
  unfold State.bwAdd
  simp
@[simp] theorem bwIn_sys (s : State) (d : Dir) (port k : Nat) : (s.bwIn d port k).sys = s.sys :=
  when_sys _ _ _ (fun s => bwAdd_sys s _ _ _)
@[simp] theorem bwClose_sys (s : State) : (State.bwClose s).sys = s.sys := by
  unfold State.bwClose
  simp
@[simp] theorem cannot_sys (s : State) (v : Nat) (c : LCause) : (State.cannot s v c).sys = s.sys := by
  unfold State.cannot
  dsimp only; (repeat' split) <;> simp
@[simp] theorem openHead_sys (s : State) (n : Nat) : (State.openHead s n).sys = s.sys := by
  unfold State.openHead
  simp
@[simp] theorem issueItem_sys (s : State) (h : Nat) (it : JItem) : (State.issueItem s h it).sys = s.sys := by
  unfold State.issueItem
  simp
@[simp] theorem issueFirst_sys (s : State) (h : Nat) (it : JItem) (t : List JItem) : (State.issueFirst s h it t).sys = s.sys := by
  unfold State.issueFirst
  simp
@[simp] theorem nvNone_sys (s : State) : (State.nvNone s).sys = s.sys := by
  unfold State.nvNone
  simp
@[simp] theorem openNext_sys (s : State) : (State.openNext s).sys = s.sys := by
  unfold State.openNext
  (repeat' split) <;> simp
@[simp] theorem retireMark_sys (s : State) (n : Nat) : (State.retireMark s n).sys = s.sys := by
  unfold State.retireMark
  simp
@[simp] theorem writeNext_sys (s : State) (h : Nat) : (State.writeNext s h).sys = s.sys := by
  unfold State.writeNext
  dsimp only; (repeat' split) <;> simp
@[simp] theorem pumpLease1_sys (s : State) : (State.pumpLease1 s).sys = s.sys := by
  unfold State.pumpLease1
  dsimp only; (repeat' split) <;> simp
@[simp] theorem jnlAdmit1_sys (s : State) (it : JItem) : (State.jnlAdmit1 s it).sys = s.sys := by
  unfold State.jnlAdmit1
  (repeat' split) <;> simp
@[simp] theorem jnlAdmit_sys (s : State) : (State.jnlAdmit s).sys = s.sys := by
  unfold State.jnlAdmit
  simp
@[simp] theorem pumpLease_sys (s : State) : (State.pumpLease s).sys = s.sys := by
  unfold State.pumpLease
  repeat' first | (simp) | intro _ | (refine (forEach_sys _ _ _ ?_).trans ?_) | (refine (when_sys _ _ _ ?_).trans ?_) | split | simp
@[simp] theorem pushJournal_sys (s : State) (it : JItem) : (State.pushJournal s it).sys = s.sys := by
  unfold State.pushJournal
  simp
@[simp] theorem makeRequest_sys (s : State) (x v ceil : Nat) : (State.makeRequest s x v ceil).sys = s.sys := by
  unfold State.makeRequest
  simp
@[simp] theorem requestNext_sys (s : State) (v : Nat) : (State.requestNext s v).sys = s.sys := by
  unfold State.requestNext
  dsimp only; (repeat' split) <;> simp
@[simp] theorem startLease_sys (s : State) (v : Nat) : (State.startLease s v).sys = s.sys := by
  unfold State.startLease
  dsimp only; (repeat' split) <;> simp
@[simp] theorem resumeAt_sys (s : State) (v p : Nat) : (State.resumeAt s v p).sys = s.sys := by
  unfold State.resumeAt
  simp
@[simp] theorem leaseAt_sys (s : State) (v p : Nat) : (State.leaseAt s v p).sys = s.sys := by
  unfold State.leaseAt
  simp
@[simp] theorem dropWaits_sys (s : State) (v : Nat) : (State.dropWaits s v).sys = s.sys := by
  unfold State.dropWaits
  simp
@[simp] theorem restartLease_sys (s : State) (v : Nat) : (State.restartLease s v).sys = s.sys := by
  unfold State.restartLease
  (repeat' split) <;> simp
@[simp] theorem commitOne_sys (s : State) (v : Nat) (w : LWait) (blind : Bool) : (State.commitOne s v w blind).sys = s.sys := by
  unfold State.commitOne
  simp
@[simp] theorem tryCommit_sys (k : Nat) (s : State) (v : Nat) : (State.tryCommit k s v).sys = s.sys := by
  induction k generalizing s with
  | zero => rfl
  | succ k ih => unfold State.tryCommit; repeat' first | (simp [ih]; done) | split
@[simp] theorem clearCause_sys (s : State) (c : LCause) (v : Nat) : (State.clearCause s c v).sys = s.sys := by
  unfold State.clearCause
  dsimp only; (repeat' split) <;> simp
@[simp] theorem ackCeil_sys (s : State) (v ceil : Nat) : (State.ackCeil s v ceil).sys = s.sys := by unfold State.ackCeil; simp [tryCommit_sys]
@[simp] theorem blindHold_sys (s : State) (v : Nat) : (State.blindHold s v).sys = s.sys := by
  unfold State.blindHold
  simp
@[simp] theorem drawPn_sys (s : State) (v : Nat) : (State.drawPn s v).sys = s.sys := by
  unfold State.drawPn
  simp
@[simp] theorem putLive_sys (s : State) (x : Nat) (v : Live) : (State.putLive s x v).sys = s.sys := by
  unfold State.putLive
  simp
@[simp] theorem releaseLive_sys (s : State) (x : Nat) : (State.releaseLive s x).sys = s.sys := by
  unfold State.releaseLive
  simp
@[simp] theorem setLive_sys (s : State) (u : Nat) (e : JEnt) (isReq : Bool) : (State.setLive s u e isReq).sys = s.sys := by
  unfold State.setLive
  (repeat' split) <;> simp
@[simp] theorem afterWrite_sys (s : State) (why : JWhy) : (State.afterWrite s why).sys = s.sys := by
  unfold State.afterWrite
  repeat' first | (simp; done) | intro _ | (refine (forEach_sys _ _ _ ?_).trans ?_) | split | simp [tryCommit_sys]
@[simp] theorem countEntry_sys (s : State) (why : JWhy) : (State.countEntry s why).sys = s.sys := by
  unfold State.countEntry
  (repeat' split) <;> simp
@[simp] theorem nvOk_sys (s : State) (w : NvW) : (State.nvOk s w).sys = s.sys := by
  unfold State.nvOk
  (repeat' split) <;> simp
@[simp] theorem sectorFails_sys (s : State) (n : Nat) : (State.sectorFails s n).sys = s.sys := by
  unfold State.sectorFails
  simp
@[simp] theorem nvErr_sys (s : State) (w : NvW) (stale : Bool) : (State.nvErr s w stale).sys = s.sys := by
  unfold State.nvErr
  repeat' first | (simp) | intro _ | (refine (forEach_sys _ _ _ ?_).trans ?_) | (refine (when_sys _ _ _ ?_).trans ?_) | split | simp
@[simp] theorem scanAsk1_sys (s : State) : (State.scanAsk1 s).sys = s.sys := by
  unfold State.scanAsk1
  dsimp only; (repeat' split) <;> simp
@[simp] theorem scanAsk_sys (s : State) : (State.scanAsk s).sys = s.sys := by
  unfold State.scanAsk
  repeat' first | (simp) | intro _ | (refine (forEach_sys _ _ _ ?_).trans ?_) | (refine (when_sys _ _ _ ?_).trans ?_) | split | simp
@[simp] theorem startScan_sys (s : State) : (State.startScan s).sys = s.sys := by
  unfold State.startScan
  simp
@[simp] theorem scanAnswer_sys (s : State) (err : Bool) (b : Bytes) : (State.scanAnswer s err b).sys = s.sys := by
  unfold State.scanAnswer
  dsimp only; (repeat' split) <;> simp
@[simp] theorem buildDir_sys (s : State) : (State.buildDir s).sys = s.sys := by
  unfold State.buildDir
  simp
@[simp] theorem scanFill_sys (s : State) : (State.scanFill s).sys = s.sys := (modLease_sys _ _).trans ((buildDir_sys _).trans (modLease_sys s _))
@[simp] theorem scanOpen_sys (s : State) : (State.scanOpen s).sys = s.sys := by
  unfold State.scanOpen
  (repeat' split) <;> simp
@[simp] theorem scanHead_sys (s : State) (best : Option Nat) (top : Nat) : (State.scanHead s best top).sys = s.sys := by
  unfold State.scanHead
  (repeat' split) <;> simp
@[simp] theorem scanEnd_sys (s : State) : (State.scanEnd s).sys = s.sys := by
  unfold State.scanEnd
  simp
@[simp] theorem zeroBlob_sys (s : State) : (State.zeroBlob s).sys = s.sys := by
  unfold State.zeroBlob
  simp
@[simp] theorem keywDone_sys (s : State) (code gen : Nat) : (State.keywDone s code gen).sys = s.sys := by
  unfold State.keywDone
  simp
@[simp] theorem writeSlot_sys (s : State) (e : Nat) (b : Bool) (m : KeyMat) : (State.writeSlot s e b m).sys = s.sys := by
  unfold State.writeSlot
  (repeat' split) <;> simp
@[simp] theorem endLease_sys (s : State) (v : Nat) : (State.endLease s v).sys = s.sys := by
  unfold State.endLease
  simp
@[simp] theorem settleSlot_sys (s : State) (e : Nat) (b : Bool) : (State.settleSlot s e b).sys = s.sys := by
  unfold State.settleSlot
  dsimp only; (repeat' split) <;> simp
@[simp] theorem installSlot_sys (s : State) (e : Nat) (b : Bool) (m : KeyMat) : (State.installSlot s e b m).sys = s.sys := by
  unfold State.installSlot
  simp
@[simp] theorem invalidate_sys (s : State) (chix : Nat) (b : Bool) (tag : W32) : (State.invalidate s chix b tag).sys = s.sys := by
  unfold State.invalidate
  simp
@[simp] theorem eraseSlot_sys (s : State) (e : Nat) (b : Bool) : (State.eraseSlot s e b).sys = s.sys := by
  unfold State.eraseSlot
  (repeat' split) <;> simp
@[simp] theorem loseSlot_sys (s : State) (e : Nat) (b : Bool) : (State.loseSlot s e b).sys = s.sys := by
  unfold State.loseSlot
  simp
@[simp] theorem unparkSlot_sys (s : State) (e : Nat) (b : Bool) : (State.unparkSlot s e b).sys = s.sys := by
  unfold State.unparkSlot
  (repeat' split) <;> simp
@[simp] theorem setCore_sys (s : State) (c : Nat) (j : Option KJob) : (State.setCore s c j).sys = s.sys := by
  unfold State.setCore
  simp
@[simp] theorem keyxPush_sys (s : State) (j : KJob) : (State.keyxPush s j).sys = s.sys := by
  unfold State.keyxPush
  simp
@[simp] theorem mirrorSwitch_sys (s : State) (e : Nat) (from_ : Bool) (q : Option Eqx) : (State.mirrorSwitch s e from_ q).sys = s.sys := by
  unfold State.mirrorSwitch
  (repeat' split) <;> simp
@[simp] theorem switchActive_sys (s : State) (e : Nat) (kind : Nat) (stamp : Stamp) : (State.switchActive s e kind stamp).sys = s.sys := by
  unfold State.switchActive
  (repeat' split) <;> simp
@[simp] theorem eqxApply_sys (s : State) (e : Nat) (stamp : Stamp) : (State.eqxApply s e stamp).sys = s.sys := by
  unfold State.eqxApply
  (repeat' split) <;> simp
@[simp] theorem eqxForced_sys (s : State) (e : Nat) (stamp : Stamp) : (State.eqxForced s e stamp).sys = s.sys := by
  unfold State.eqxForced
  (repeat' split) <;> simp
@[simp] theorem retire_sys (s : State) (e : Nat) (q : Sol) : (State.retire s e q).sys = s.sys := by
  unfold State.retire
  (repeat' split) <;> simp
@[simp] theorem solArm_sys (s : State) (e : Nat) (b : Bool) (stamp : Stamp) : (State.solArm s e b stamp).sys = s.sys := by
  unfold State.solArm
  (repeat' split) <;> simp
@[simp] theorem putSched_sys (s : State) (w0 w1 w2 w3 : W32) : (State.putSched s w0 w1 w2 w3).sys = s.sys := by
  unfold State.putSched
  simp
@[simp] theorem putTime_sys (s : State) (w0 : W32) (t : Nat) : (State.putTime s w0 t).sys = s.sys := by
  unfold State.putTime
  simp
@[simp] theorem eqxQuery_sys (s : State) (e : Nat) (en : Entry) : (State.eqxQuery s e en).sys = s.sys := by
  unfold State.eqxQuery
  (repeat' split) <;> simp
@[simp] theorem eqxSet_sys (s : State) (e : Nat) (en : Entry) (q : Eqx) : (State.eqxSet s e en q).sys = s.sys := by
  unfold State.eqxSet
  simp
@[simp] theorem eqxCancel_sys (s : State) (e : Nat) (en : Entry) : (State.eqxCancel s e en).sys = s.sys := by
  unfold State.eqxCancel
  (repeat' split) <;> simp
theorem eqxRun_sys (s : State) (e : Nat) (en : Entry) : (s.eqxRun e en).1.sys = s.sys := by
  unfold State.eqxRun
  dsimp only
  repeat' first | (simp; done) | split
@[simp] theorem solQuery_sys (s : State) (en : Entry) : (State.solQuery s en).sys = s.sys := by
  unfold State.solQuery
  (repeat' split) <;> simp
@[simp] theorem solSet_sys (s : State) (e : Nat) (en : Entry) (q : Sol) : (State.solSet s e en q).sys = s.sys := by
  unfold State.solSet
  simp
@[simp] theorem solCancel_sys (s : State) (e : Nat) (en : Entry) : (State.solCancel s e en).sys = s.sys := by
  unfold State.solCancel
  (repeat' split) <;> simp
theorem solRun_sys (s : State) (e : Nat) (en : Entry) : (s.solRun e en).1.sys = s.sys := by
  unfold State.solRun
  dsimp only
  repeat' first | (simp; done) | split
@[simp] theorem modFrame_sys (s : State) (id : Nat) (g : Frame → Frame) : (State.modFrame s id g).sys = s.sys := by
  unfold State.modFrame
  simp
@[simp] theorem setTicket_sys (s : State) (id k : Nat) : (State.setTicket s id k).sys = s.sys := by
  unfold State.setTicket
  simp
@[simp] theorem takeTicket_sys (s : State) (f : Frame) : (State.takeTicket s f).sys = s.sys := by
  unfold State.takeTicket
  simp
@[simp] theorem payRse_sys (s : State) (port : Nat) (express : Bool) (n : Nat) : (State.payRse s port express n).sys = s.sys := by
  unfold State.payRse
  simp
@[simp] theorem rseReturn_sys (s : State) (f : Frame) : (State.rseReturn s f).sys = s.sys := by
  unfold State.rseReturn
  simp
@[simp] theorem rseInit_sys (s : State) (port : Nat) (on : Bool) : (State.rseInit s port on).sys = s.sys := by
  unfold State.rseInit
  simp
@[simp] theorem sendTicket_sys (s : State) (f : Frame) (src : Nat) (v : Bool) : (State.sendTicket s f src v).sys = s.sys := by
  unfold State.sendTicket
  (repeat' split) <;> simp
@[simp] theorem setBuf_sys (s : State) (k n : Nat) : (State.setBuf s k n).sys = s.sys := by
  unfold State.setBuf
  simp
@[simp] theorem passTry_sys (s : State) (f : Frame) : (State.passTry s f).sys = s.sys := by
  unfold State.passTry
  simp
@[simp] theorem passAll_sys (s : State) (p : Frame → Bool) : (State.passAll s p).sys = s.sys := by
  unfold State.passAll
  repeat' first | (simp) | intro _ | (refine (forEach_sys _ _ _ ?_).trans ?_) | (refine (when_sys _ _ _ ?_).trans ?_) | split | simp
@[simp] theorem nextTicket_sys (s : State) (k : Nat) : (State.nextTicket s k).sys = s.sys := by
  unfold State.nextTicket
  repeat' first | (simp) | intro _ | (refine (forEach_sys _ _ _ ?_).trans ?_) | (refine (when_sys _ _ _ ?_).trans ?_) | split | simp
@[simp] theorem resume_sys (s : State) (n : Nat) : (State.resume s n).sys = s.sys := by
  unfold State.resume
  simp
@[simp] theorem leaveSlice_sys (s : State) (f : Frame) : (State.leaveSlice s f).sys = s.sys := by
  unfold State.leaveSlice
  (repeat' split) <;> simp
@[simp] theorem removeFrame_sys (s : State) (f : Frame) : (State.removeFrame s f).sys = s.sys := by
  unfold State.removeFrame
  simp
@[simp] theorem voidFrame_sys (s : State) (f : Frame) : (State.voidFrame s f).sys = s.sys := by
  unfold State.voidFrame
  simp
@[simp] theorem sendEof_sys (s : State) (f : Frame) (b : Bytes) (c : Code) : (State.sendEof s f b c).sys = s.sys := by
  unfold State.sendEof
  simp
@[simp] theorem refund_sys (s : State) (f : Frame) (sent : Nat) : (State.refund s f sent).sys = s.sys := by
  unfold State.refund
  simp
@[simp] theorem addFrame_sys (s : State) (f : Frame) : (State.addFrame s f).sys = s.sys := by
  unfold State.addFrame
  simp
@[simp] theorem addReport_sys (s : State) (f : Frame) : (State.addReport s f).sys = s.sys := by
  unfold State.addReport
  dsimp only; (repeat' split) <;> simp
@[simp] theorem addStub_sys (s : State) (f : Frame) : (State.addStub s f).sys = s.sys := by
  unfold State.addStub
  simp
@[simp] theorem clearStubs_sys (s : State) (d : Dir) (port : Nat) : (State.clearStubs s d port).sys = s.sys := by
  unfold State.clearStubs
  simp
@[simp] theorem endFrame_sys (s : State) (f : Frame) (c : Code) (ctr : Option Nat) : (State.endFrame s f c ctr).sys = s.sys := by
  unfold State.endFrame
  (repeat' split) <;> simp
@[simp] theorem dropFrame_sys (s : State) (f : Frame) (ctr : Nat) : (State.dropFrame s f ctr).sys = s.sys := by
  unfold State.dropFrame
  simp
@[simp] theorem dropStat_sys (s : State) (f : Frame) (incs : List (Nat × Nat)) : (State.dropStat s f incs).sys = s.sys := by
  unfold State.dropStat
  simp
@[simp] theorem quietDrop_sys (s : State) : (State.quietDrop s).sys = s.sys := by
  unfold State.quietDrop
  simp
@[simp] theorem endFrames_sys (s : State) (p : Frame → Bool) (c : Code) (ctr : Frame → Option Nat) : (State.endFrames s p c ctr).sys = s.sys := by
  unfold State.endFrames
  repeat' first | (simp) | intro _ | (refine (forEach_sys _ _ _ ?_).trans ?_) | (refine (when_sys _ _ _ ?_).trans ?_) | split | simp
@[simp] theorem stomp_sys (s : State) (p : Frame → Bool) : (State.stomp s p).sys = s.sys := by
  unfold State.stomp
  simp
@[simp] theorem frameFault_sys (s : State) (det : Nat) (f : Frame) : (State.frameFault s det f).sys = s.sys := by
  unfold State.frameFault
  simp
@[simp] theorem busErrFlag_sys (s : State) (d : Dir) (port : Nat) : (State.busErrFlag s d port).sys = s.sys := by
  unfold State.busErrFlag
  simp
@[simp] theorem specDrop_sys (s : State) (f : Frame) : (State.specDrop s f).sys = s.sys := by
  unfold State.specDrop
  (repeat' split) <;> simp
@[simp] theorem closeFrame_sys (s : State) (f : Frame) : (State.closeFrame s f).sys = s.sys := by
  unfold State.closeFrame
  (repeat' split) <;> simp
@[simp] theorem vfCheck_sys (s : State) (id : Nat) : (State.vfCheck s id).sys = s.sys := by
  unfold State.vfCheck
  (repeat' split) <;> simp
@[simp] theorem missFail_sys (s : State) (p : Frame → Bool) : (State.missFail s p).sys = s.sys := by
  unfold State.missFail
  repeat' first | (simp) | intro _ | (refine (forEach_sys _ _ _ ?_).trans ?_) | (refine (when_sys _ _ _ ?_).trans ?_) | split | simp
@[simp] theorem sawDone_sys (s : State) (code detail : Nat) : (State.sawDone s code detail).sys = s.sys := by
  unfold State.sawDone
  simp
@[simp] theorem pageCmdsFail_sys (s : State) (x code : Nat) : (State.pageCmdsFail s x code).sys = s.sys := by
  unfold State.pageCmdsFail
  dsimp only; (repeat' split) <;> simp
@[simp] theorem modIn_sys (s : State) (x : Nat) (f : PageIn → PageIn) : (State.modIn s x f).sys = s.sys := by
  unfold State.modIn
  simp
@[simp] theorem dropIn_sys (s : State) (x : Nat) : (State.dropIn s x).sys = s.sys := by
  unfold State.dropIn
  simp
@[simp] theorem modOut_sys (s : State) (x : Nat) (f : PageOut → PageOut) : (State.modOut s x f).sys = s.sys := by
  unfold State.modOut
  simp
@[simp] theorem dropOut_sys (s : State) (x : Nat) : (State.dropOut s x).sys = s.sys := by
  unfold State.dropOut
  simp
@[simp] theorem jobCheck_sys (s : State) : (State.jobCheck s).sys = s.sys := by
  unfold State.jobCheck
  simp
@[simp] theorem freeEntry_sys (s : State) (e : Nat) : (State.freeEntry s e).sys = s.sys := by
  unfold State.freeEntry
  simp
@[simp] theorem reap_sys (s : State) : (State.reap s).sys = s.sys := by
  unfold State.reap
  repeat' first | (simp) | intro _ | (refine (forEach_sys _ _ _ ?_).trans ?_) | (refine (when_sys _ _ _ ?_).trans ?_) | split | simp
@[simp] theorem pageFail_sys (s : State) (x reason : Nat) (fresh : Bool) : (State.pageFail s x reason fresh).sys = s.sys := by
  unfold State.pageFail
  (repeat' split) <;> simp
@[simp] theorem pageWant_sys (s : State) (x : Nat) (c : PClass) : (State.pageWant s x c).sys = s.sys := by
  unfold State.pageWant
  (repeat' split) <;> simp
@[simp] theorem tableFull_sys (s : State) (p : PageIn) : (State.tableFull s p).sys = s.sys := by
  unfold State.tableFull
  simp
@[simp] theorem pageReads_sys (s : State) (x : Nat) : (State.pageReads s x).sys = s.sys := by
  unfold State.pageReads
  simp
@[simp] theorem pageStart_sys (s : State) (p : PageIn) : (State.pageStart s p).sys = s.sys := by
  unfold State.pageStart
  dsimp only; (repeat' split) <;> simp
@[simp] theorem pageSlot_sys (s : State) (x : Nat) (b : Bool) : (State.pageSlot s x b).sys = s.sys := by
  unfold State.pageSlot
  (repeat' split) <;> simp
@[simp] theorem pageLease_sys (s : State) (x v : Nat) : (State.pageLease s x v).sys = s.sys := by
  unfold State.pageLease
  dsimp only; (repeat' split) <;> simp
@[simp] theorem keyLost_sys (s : State) (a : Bytes) (m : Option KeyMat) : (State.keyLost s a m).sys = s.sys := by
  unfold State.keyLost
  simp
@[simp] theorem pageSlots_sys (s : State) (e : Nat) (r : Bytes) (ma mb : Option KeyMat) : (State.pageSlots s e r ma mb).sys = s.sys := by
  unfold State.pageSlots
  simp
@[simp] theorem pageExposed_sys (s : State) (x e : Nat) (rx : Bool) : (State.pageExposed s x e rx).sys = s.sys := by
  unfold State.pageExposed
  first
    | (simp; done)
    | ((repeat' split) <;> simp; done)
    | (dsimp only; (repeat' split) <;> simp; done)
    | (repeat' first | (simp; done) | intro _ | (refine (forEach_sys _ _ _ ?_).trans ?_) | (refine (when_sys _ _ _ ?_).trans ?_) | split | simp)
@[simp] theorem pageDone_sys (s : State) (p : PageIn) (r : Bytes) (ma mb : Option KeyMat) : (State.pageDone s p r ma mb).sys = s.sys := by
  unfold State.pageDone
  dsimp only; (repeat' split) <;> simp
@[simp] theorem pageTry_sys (s : State) (x : Nat) : (State.pageTry s x).sys = s.sys := by
  unfold State.pageTry
  dsimp only; (repeat' split) <;> simp
@[simp] theorem pageLine_sys (s : State) (x l : Nat) (f : FinRes) : (State.pageLine s x l f).sys = s.sys := by
  unfold State.pageLine
  (repeat' split) <;> simp
@[simp] theorem pageUnwrapped_sys (s : State) (x : Nat) (b : Bool) : (State.pageUnwrapped s x b).sys = s.sys := by
  unfold State.pageUnwrapped
  simp
@[simp] theorem pushOut_sys (s : State) (o : PageOut) : (State.pushOut s o).sys = s.sys := by
  unfold State.pushOut
  simp
@[simp] theorem evict_sys (s : State) (x e : Nat) (byCmd discard : Bool) : (State.evict s x e byCmd discard).sys = s.sys := by
  unfold State.evict
  simp
@[simp] theorem outDone_sys (s : State) (o : PageOut) (e : Nat) : (State.outDone s o e).sys = s.sys := by
  unfold State.outDone
  simp
@[simp] theorem outTry_sys (s : State) (x : Nat) : (State.outTry s x).sys = s.sys := by
  unfold State.outTry
  (repeat' split) <;> simp
@[simp] theorem outFail_sys (s : State) (x : Nat) : (State.outFail s x).sys = s.sys := by
  unfold State.outFail
  dsimp only; (repeat' split) <;> simp
@[simp] theorem outWrite_sys (s : State) (x : Nat) : (State.outWrite s x).sys = s.sys := by
  unfold State.outWrite
  (repeat' split) <;> simp
@[simp] theorem outNext_sys (s : State) (x : Nat) : (State.outNext s x).sys = s.sys := by
  unfold State.outNext
  (repeat' split) <;> simp
@[simp] theorem outStart_sys (s : State) (x e : Nat) : (State.outStart s x e).sys = s.sys := by
  unfold State.outStart
  simp
@[simp] theorem outWrapped_sys (s : State) (x : Nat) (b : Bool) : (State.outWrapped s x b).sys = s.sys := by
  unfold State.outWrapped
  (repeat' split) <;> simp
@[simp] theorem outWrote_sys (s : State) (x : Nat) (f : FinRes) : (State.outWrote s x f).sys = s.sys := by
  unfold State.outWrote
  dsimp only; (repeat' split) <;> simp
@[simp] theorem pushJob_sys (s : State) (j : GroupJob) : (State.pushJob s j).sys = s.sys := by
  unfold State.pushJob
  simp
@[simp] theorem jobEvict_sys (s : State) (x : Nat) : (State.jobEvict s x).sys = s.sys := by
  unfold State.jobEvict
  (repeat' split) <;> simp
@[simp] theorem runJob_sys (s : State) (j : GroupJob) : (State.runJob s j).sys = s.sys := by
  unfold State.runJob
  simp
@[simp] theorem trunkFailed_sys (s : State) (x l : Nat) (f : FinRes) : (s.trunkFailed x l f).sys = s.sys := by
  unfold State.trunkFailed
  split <;> simp
@[simp] theorem sawLineDone_sys (s : State) (x l : Nat) (f : FinRes) : (s.sawLineDone x l f).sys = s.sys := by
  unfold State.sawLineDone
  (repeat' split) <;> simp
@[simp] theorem deliver1_sys (s : State) (r : SReq) (f : FinRes) : (State.deliver1 s r f).sys = s.sys := by
  unfold State.deliver1
  (repeat' split) <;> simp
@[simp] theorem deliver_sys (s : State) : (State.deliver s).sys = s.sys := by
  unfold State.deliver
  simp
@[simp] theorem storeSettle_sys (k : Nat) (s : State) : (storeSettle k s).sys = s.sys := by
  induction k generalizing s with
  | zero => rfl
  | succ k ih => unfold storeSettle; dsimp only; split <;> simp [ih]
@[simp] theorem sendPair_sys (s : State) (ty : Nat) (body : Bytes) : (State.sendPair s ty body).sys = s.sys := by
  unfold State.sendPair
  (repeat' split) <;> simp
@[simp] theorem commitWaits_sys (s : State) : (State.commitWaits s).sys = s.sys := by unfold State.commitWaits; simp [tryCommit_sys]
@[simp] theorem yieldCheck_sys (s : State) : (State.yieldCheck s).sys = s.sys := by
  unfold State.yieldCheck
  simp
@[simp] theorem refloor_sys (s : State) : (State.refloor s).sys = s.sys := by
  unfold State.refloor
  repeat' first | (simp) | intro _ | (refine (forEach_sys _ _ _ ?_).trans ?_) | (refine (when_sys _ _ _ ?_).trans ?_) | split | simp
@[simp] theorem sessionEnd_sys (s : State) : (State.sessionEnd s).sys = s.sys := by
  unfold State.sessionEnd
  (repeat' split) <;> simp
@[simp] theorem peerLose_sys (s : State) : (State.peerLose s).sys = s.sys := by
  unfold State.peerLose
  simp
@[simp] theorem syncCheck_sys (s : State) : (State.syncCheck s).sys = s.sys := by
  unfold State.syncCheck
  simp
@[simp] theorem syncStart_sys (s : State) : (State.syncStart s).sys = s.sys := by
  unfold State.syncStart
  simp
@[simp] theorem mirrorFlush_sys (s : State) (k : MirKind) : (State.mirrorFlush s k).sys = s.sys := by
  unfold State.mirrorFlush
  simp
@[simp] theorem ackGot_sys (s : State) (a : Nat) : (State.ackGot s a).sys = s.sys := by
  unfold State.ackGot
  repeat' first | (simp) | intro _ | (refine (forEach_sys _ _ _ ?_).trans ?_) | (refine (when_sys _ _ _ ?_).trans ?_) | split | simp
@[simp] theorem sendSyncReq_sys (s : State) : (State.sendSyncReq s).sys = s.sys := by
  unfold State.sendSyncReq
  simp
@[simp] theorem applySlot_sys (s : State) (e x : Nat) (b : Bool) (it : Bytes) : (State.applySlot s e x b it).sys = s.sys := by
  unfold State.applySlot
  simp
@[simp] theorem applySched_sys (s : State) (e : Nat) (en : Entry) (b : Bool) (it : Bytes) : (State.applySched s e en b it).sys = s.sys := by
  unfold State.applySched
  simp
@[simp] theorem applyFloor_sys (s : State) (e : Nat) (en : Entry) (b : Bool) (it : Bytes) : (State.applyFloor s e en b it).sys = s.sys := by
  unfold State.applyFloor
  simp
@[simp] theorem applyItem_sys (s : State) (e : Nat) (en : Entry) (k : MirKind) (it : Bytes) : (State.applyItem s e en k it).sys = s.sys := by
  unfold State.applyItem
  (repeat' split) <;> simp
@[simp] theorem inboxStep_sys (s : State) (q : Nat × MirKind × Bytes) : (State.inboxStep s q).sys = s.sys := by
  unfold State.inboxStep
  dsimp only; (repeat' split) <;> simp
@[simp] theorem inboxPump_sys (s : State) : (State.inboxPump s).sys = s.sys := by
  unfold State.inboxPump
  simp
@[simp] theorem syncJudge_sys (s : State) : (State.syncJudge s).sys = s.sys := by
  unfold State.syncJudge
  (repeat' split) <;> simp
@[simp] theorem ackSend_sys (s : State) : (State.ackSend s).sys = s.sys := by
  unfold State.ackSend
  simp
@[simp] theorem pagerEnd_sys (s : State) : (State.pagerEnd s).sys = s.sys := by
  unfold State.pagerEnd
  simp
@[simp] theorem leaseHeld_sys (s : State) : (State.leaseHeld s).sys = s.sys := by
  unfold State.leaseHeld
  simp
@[simp] theorem storeEnd_sys (s : State) : (State.storeEnd s).sys = s.sys := by
  unfold State.storeEnd
  simp
@[simp] theorem holdUnit_sys (s : State) (p : Part) : (State.holdUnit s p).sys = s.sys := by
  unfold State.holdUnit
  (repeat' split) <;> simp
@[simp] theorem unitFault_sys (s : State) (inj : Bool) (p : Part) (inst : Nat) : (State.unitFault s inj p inst).sys = s.sys := by
  unfold State.unitFault
  (repeat' split) <;> simp
@[simp] theorem framing_sys (s : State) (d : Dir) (port : Nat) : (State.framing s d port).sys = s.sys := by
  unfold State.framing
  simp
@[simp] theorem busParity_sys (s : State) (d : Dir) (port : Nat) (cls : Bool) : (State.busParity s d port cls).sys = s.sys := by
  unfold State.busParity
  simp
@[simp] theorem admitCounts_sys (s : State) (f : Frame) : (State.admitCounts s f).sys = s.sys := by
  unfold State.admitCounts
  simp
@[simp] theorem missJoin_sys (s : State) (f : Frame) : (State.missJoin s f).sys = s.sys := by
  unfold State.missJoin
  simp
@[simp] theorem holdSlot_sys (s : State) (id e : Nat) (b : Bool) (g : Frame → Frame) : (State.holdSlot s id e b g).sys = s.sys := by
  unfold State.holdSlot
  dsimp only; (repeat' split) <;> simp
@[simp] theorem passFrame_sys (s : State) (id : Nat) (out : Bytes) (g : Frame → Frame) : (State.passFrame s id out g).sys = s.sys := by
  unfold State.passFrame
  dsimp only; (repeat' split) <;> simp
@[simp] theorem keepReport_sys (s : State) (id : Nat) (b : Bytes) : (State.keepReport s id b).sys = s.sys := by
  unfold State.keepReport
  (repeat' split) <;> simp
@[simp] theorem setCatch_sys (s : State) (l : List CatchEnt) : (State.setCatch s l).sys = s.sys := by
  unfold State.setCatch
  simp
@[simp] theorem setBucket_sys (s : State) (port : Nat) (b : Bucket) : (State.setBucket s port b).sys = s.sys := by
  unfold State.setBucket
  simp
theorem catchBucket_sys (s : State) (f : Frame) (sci : W64) (peer : Option CatchEnt) (cv : Bool) : (s.catchBucket f sci peer cv).1.sys = s.sys := by
  unfold State.catchBucket
  dsimp only
  repeat' first | (simp; done) | split
theorem catchExamine_sys (s : State) (f : Frame) (sci : W64) (cv : Bool) : (s.catchExamine f sci cv).1.sys = s.sys := by
  unfold State.catchExamine
  dsimp only
  repeat' first | (simp [catchBucket_sys]; done) | (refine (catchBucket_sys _ _ _ _ _).trans ?_) | split
@[simp] theorem voidLong_sys (s : State) (id : Nat) : (State.voidLong s id).sys = s.sys := by
  unfold State.voidLong
  (repeat' split) <;> simp
@[simp] theorem egDraw_sys (s : State) (f : Frame) (e : Nat) (en : Entry) : (State.egDraw s f e en).sys = s.sys := by
  unfold State.egDraw
  simp
@[simp] theorem egChecks_sys (s : State) (f : Frame) (e : Nat) (en : Entry) : (State.egChecks s f e en).sys = s.sys := by
  unfold State.egChecks
  dsimp only; (repeat' split) <;> simp
@[simp] theorem egLookup_sys (s : State) (f : Frame) (queued : Bool) : (State.egLookup s f queued).sys = s.sys := by
  unfold State.egLookup
  (repeat' split) <;> simp
@[simp] theorem egBypass_sys (s : State) (f : Frame) : (State.egBypass s f).sys = s.sys := by
  unfold State.egBypass
  dsimp only; (repeat' split) <;> simp
@[simp] theorem egAction_sys (s : State) (f : Frame) : (State.egAction s f).sys = s.sys := by
  unfold State.egAction
  (repeat' split) <;> simp
@[simp] theorem egRefuse_sys (s : State) (f : Frame) (ctr : Nat) : (State.egRefuse s f ctr).sys = s.sys := by
  unfold State.egRefuse
  simp
@[simp] theorem egAdmit_sys (s : State) (port : Nat) (cls : Bool) (desc : W64) (b : Bytes) (dpBad upErr eof : Bool) : (State.egAdmit s port cls desc b dpBad upErr eof).sys = s.sys := by
  unfold State.egAdmit
  simp
@[simp] theorem issueRest_sys (s : State) (f : Frame) (n : Nat) : (State.issueRest s f n).sys = s.sys := by
  unfold State.issueRest
  simp
@[simp] theorem icvWritten_sys (s : State) (f : Frame) : (State.icvWritten s f).sys = s.sys := by
  unfold State.icvWritten
  dsimp only; (repeat' split) <;> simp
@[simp] theorem caughtDrop_sys (s : State) (f : Frame) (ctr : Nat) (c : Caught) : (State.caughtDrop s f ctr c).sys = s.sys := by
  unfold State.caughtDrop
  (repeat' split) <;> simp
@[simp] theorem inUnknown_sys (s : State) (f : Frame) : (State.inUnknown s f).sys = s.sys := by
  unfold State.inUnknown
  dsimp only
  repeat' first | (simp; done) | split | simp
  all_goals (intros; exact catchExamine_sys _ _ _ _)
@[simp] theorem inSlot_sys (s : State) (f : Frame) (e : Nat) (en : Entry) : (State.inSlot s f e en).sys = s.sys := by
  unfold State.inSlot
  dsimp only; (repeat' split) <;> simp
@[simp] theorem inT10_sys (s : State) (f : Frame) (e : Nat) (en : Entry) : (State.inT10 s f e en).sys = s.sys := by
  unfold State.inT10
  dsimp only; (repeat' split) <;> simp
@[simp] theorem inTagged_sys (s : State) (f : Frame) (e : Nat) (en : Entry) : (State.inTagged s f e en).sys = s.sys := by
  unfold State.inTagged
  simp
@[simp] theorem inChecks_sys (s : State) (f : Frame) (e : Nat) (en : Entry) : (State.inChecks s f e en).sys = s.sys := by
  unfold State.inChecks
  dsimp only
  repeat' first | (simp; done) | split | simp
  all_goals (intros; exact (catchExamine_sys _ _ _ _).trans (by simp))
@[simp] theorem inLookup_sys (s : State) (f : Frame) (queued : Bool) : (State.inLookup s f queued).sys = s.sys := by
  unfold State.inLookup
  (repeat' split) <;> simp
@[simp] theorem inBypass_sys (s : State) (f : Frame) : (State.inBypass s f).sys = s.sys := by
  unfold State.inBypass
  simp
@[simp] theorem inAction_sys (s : State) (f : Frame) : (State.inAction s f).sys = s.sys := by
  unfold State.inAction
  (repeat' split) <;> simp
@[simp] theorem inRefuse_sys (s : State) (f : Frame) (ctr : Nat) : (State.inRefuse s f ctr).sys = s.sys := by
  unfold State.inRefuse
  simp
@[simp] theorem inAdmit_sys (s : State) (port : Nat) (cls : Bool) (desc : W64) (b : Bytes) (dpBad upErr eof : Bool) : (State.inAdmit s port cls desc b dpBad upErr eof).sys = s.sys := by
  unfold State.inAdmit
  simp
@[simp] theorem finalOne_sys (s : State) (f : Frame) : (State.finalOne s f).sys = s.sys := by
  unfold State.finalOne
  simp
@[simp] theorem finalChecks_sys (s : State) (k : Nat) : (State.finalChecks s k).sys = s.sys := by
  unfold State.finalChecks
  repeat' first | (simp) | intro _ | (refine (forEach_sys _ _ _ ?_).trans ?_) | (refine (when_sys _ _ _ ?_).trans ?_) | split | simp
@[simp] theorem icvCompare_sys (s : State) (f : Frame) : (State.icvCompare s f).sys = s.sys := by
  unfold State.icvCompare
  dsimp only; (repeat' split) <;> simp
@[simp] theorem toSlice_sys (s : State) (f : Frame) (n r : Nat) : (State.toSlice s f n r).sys = s.sys := by
  unfold State.toSlice
  simp
@[simp] theorem suspendIn_sys (s : State) (n : Nat) (d : Dir) : (State.suspendIn s n d).sys = s.sys := by
  unfold State.suspendIn
  (repeat' split) <;> simp
@[simp] theorem expWaits_sys (s : State) (f : Frame) : (State.expWaits s f).sys = s.sys := by
  unfold State.expWaits
  simp
@[simp] theorem dispatch_sys (s : State) (f : Frame) : (State.dispatch s f).sys = s.sys := by
  unfold State.dispatch
  dsimp only; (repeat' split) <;> simp
@[simp] theorem sofRelease_sys (s : State) (f : Frame) : (State.sofRelease s f).sys = s.sys := by
  unfold State.sofRelease
  simp
@[simp] theorem trySof_sys (s : State) (d : Dir) (port : Nat) (cls : Bool) : (State.trySof s d port cls).sys = s.sys := by
  unfold State.trySof
  dsimp only; (repeat' split) <;> simp
@[simp] theorem countEnd_sys (s : State) (f : Frame) : (State.countEnd s f).sys = s.sys := by
  unfold State.countEnd
  (repeat' split) <;> simp
@[simp] theorem tryEof_sys (s : State) (d : Dir) (port : Nat) (cls : Bool) : (State.tryEof s d port cls).sys = s.sys := by
  unfold State.tryEof
  dsimp only; (repeat' split) <;> simp
@[simp] theorem underrun_sys (s : State) (f : Frame) : (State.underrun s f).sys = s.sys := by
  unfold State.underrun
  simp
@[simp] theorem lateSegment_sys (s : State) (d : Dir) (port : Nat) (cls : Bool) : (State.lateSegment s d port cls).sys = s.sys := by
  unfold State.lateSegment
  (repeat' split) <;> simp
@[simp] theorem creditReturn_sys (s : State) (d : Dir) (port : Nat) (cls init : Bool) (cnt : Nat) : (State.creditReturn s d port cls init cnt).sys = s.sys := by
  unfold State.creditReturn
  simp
@[simp] theorem xingBad_sys (s : State) (lane : Nat) : (State.xingBad s lane).sys = s.sys := by
  unfold State.xingBad
  simp
@[simp] theorem laneControl_sys (s : State) (lane : Nat) (code : LaneCode) : (State.laneControl s lane code).sys = s.sys := by
  unfold State.laneControl
  (repeat' split) <;> simp
@[simp] theorem linkStatus_sys (s : State) (lane : Nat) (up mf ec : Bool) : (State.linkStatus s lane up mf ec).sys = s.sys := by
  unfold State.linkStatus
  simp
@[simp] theorem blackCount_sys (s : State) (lane ctr inc : Nat) : (State.blackCount s lane ctr inc).sys = s.sys := by
  unfold State.blackCount
  simp
@[simp] theorem blackFault_sys (s : State) (lane det : Nat) : (State.blackFault s lane det).sys = s.sys := by
  unfold State.blackFault
  simp
@[simp] theorem missLeave_sys (s : State) (f : Frame) : (State.missLeave s f).sys = s.sys := by
  unfold State.missLeave
  simp
@[simp] theorem missRelease_sys (s : State) (d : Dir) (x : Nat) : (State.missRelease s d x).sys = s.sys := by
  unfold State.missRelease
  repeat' first | (simp) | intro _ | (refine (forEach_sys _ _ _ ?_).trans ?_) | (refine (when_sys _ _ _ ?_).trans ?_) | split | simp
@[simp] theorem setSawArg_sys (s : State) (n : Nat) (w : W32) : (State.setSawArg s n w).sys = s.sys := by
  unfold State.setSawArg
  simp
@[simp] theorem writeImage_sys (s : State) (x e : Nat) (w : W32) : (State.writeImage s x e w).sys = s.sys := by
  unfold State.writeImage
  simp
@[simp] theorem runWrite_sys (s : State) (x : Nat) : (State.runWrite s x).sys = s.sys := by
  unfold State.runWrite
  (repeat' split) <;> simp
@[simp] theorem putImage_sys (s : State) (en : Entry) (w6 : W32) (a b : Slot) : (State.putImage s en w6 a b).sys = s.sys := by
  unfold State.putImage
  simp
@[simp] theorem askMore_sys (s : State) (l : List (Nat × Nat)) : (State.askMore s l).sys = s.sys := by
  unfold State.askMore
  simp
@[simp] theorem askLines_sys (s : State) (l : List (Nat × Nat)) : (State.askLines s l).sys = s.sys := by
  unfold State.askLines
  simp
@[simp] theorem runRead_sys (s : State) (x : Nat) : (State.runRead s x).sys = s.sys := by
  unfold State.runRead
  (repeat' split) <;> simp
@[simp] theorem forgetJournal_sys (s : State) (x : Nat) (drop : Bool) : (State.forgetJournal s x drop).sys = s.sys := by
  unfold State.forgetJournal
  simp
@[simp] theorem discardSlot_sys (s : State) (e : Nat) (b : Bool) : (State.discardSlot s e b).sys = s.sys := by
  unfold State.discardSlot
  simp
@[simp] theorem discardTry_sys (s : State) (x : Nat) : (State.discardTry s x).sys = s.sys := by
  unfold State.discardTry
  (repeat' split) <;> simp
@[simp] theorem runEvict_sys (s : State) (x : Nat) (discard : Bool) : (State.runEvict s x discard).sys = s.sys := by
  unfold State.runEvict
  (repeat' split) <;> simp
@[simp] theorem runPin_sys (s : State) (x : Nat) : (State.runPin s x).sys = s.sys := by
  unfold State.runPin
  (repeat' split) <;> simp
@[simp] theorem runUnpin_sys (s : State) (x : Nat) : (State.runUnpin s x).sys = s.sys := by
  unfold State.runUnpin
  (repeat' split) <;> simp
@[simp] theorem runSched_sys (s : State) (x : Nat) (sol : Bool) : (State.runSched s x sol).sys = s.sys := by
  unfold State.runSched
  repeat' first | (simp; done) | split | simp
  all_goals (first | exact solRun_sys _ _ _ | exact eqxRun_sys _ _ _)
@[simp] theorem statAnswer_sys (s : State) (x first : Nat) (leaf : Bytes) (resident rx : Bool) : (State.statAnswer s x first leaf resident rx).sys = s.sys := by
  unfold State.statAnswer
  simp
@[simp] theorem runStat_sys (s : State) (x : Nat) : (State.runStat s x).sys = s.sys := by
  unfold State.runStat
  dsimp only; (repeat' split) <;> simp
@[simp] theorem clearLeaves_sys (s : State) (x e : Nat) (fs : List Nat) : (State.clearLeaves s x e fs).sys = s.sys := by
  unfold State.clearLeaves
  simp
@[simp] theorem runClear_sys (s : State) (x : Nat) : (State.runClear s x).sys = s.sys := by
  unfold State.runClear
  (repeat' split) <;> simp
@[simp] theorem runBucket_sys (s : State) (x : Nat) : (State.runBucket s x).sys = s.sys := by
  unfold State.runBucket
  simp
@[simp] theorem sawLost_sys (s : State) (op x : Nat) : (State.sawLost s op x).sys = s.sys := by
  unfold State.sawLost
  simp
@[simp] theorem sawRun_sys (s : State) : (State.sawRun s).sys = s.sys := by
  unfold State.sawRun
  (repeat' split) <;> simp
@[simp] theorem keywHere_sys (s : State) (c : W32) (e : Nat) (en : Entry) : (State.keywHere s c e en).sys = s.sys := by
  unfold State.keywHere
  dsimp only; (repeat' split) <;> simp
@[simp] theorem keywRun_sys (s : State) : (State.keywRun s).sys = s.sys := by
  unfold State.keywRun
  dsimp only; (repeat' split) <;> simp
@[simp] theorem leaseDone_sys (s : State) (code : Nat) : (State.leaseDone s code).sys = s.sys := by
  unfold State.leaseDone
  simp
@[simp] theorem jnlAnswer_sys (s : State) (v : Live) : (State.jnlAnswer s v).sys = s.sys := by
  unfold State.jnlAnswer
  simp
@[simp] theorem leaseRun_sys (s : State) : (State.leaseRun s).sys = s.sys := by
  unfold State.leaseRun
  dsimp only; (repeat' split) <;> simp
@[simp] theorem storeFail_sys (s : State) (c : W32) (code : Nat) : (State.storeFail s c code).sys = s.sys := by
  unfold State.storeFail
  simp
@[simp] theorem keyErase_sys (s : State) (sel : Nat) : (State.keyErase s sel).sys = s.sys := by
  unfold State.keyErase
  simp
@[simp] theorem chkShow_sys (s : State) : (State.chkShow s).sys = s.sys := by
  unfold State.chkShow
  simp
@[simp] theorem setCal_sys (s : State) (n : Nat) (w : W128) : (State.setCal s n w).sys = s.sys := by
  unfold State.setCal
  simp
@[simp] theorem putWords_sys (s : State) (p : Page) (off : Nat) (w : W128) : (State.putWords s p off w).sys = s.sys := by
  unfold State.putWords
  simp
@[simp] theorem calShow_sys (s : State) : (State.calShow s).sys = s.sys := by
  unfold State.calShow
  simp
@[simp] theorem withMode_sys (s : State) (m : Nat) : (State.withMode s m).sys = s.sys := by
  unfold State.withMode
  simp
@[simp] theorem noteHeader_sys (s : State) (ty : Nat) (m : Bytes) : (State.noteHeader s ty m).sys = s.sys := by
  unfold State.noteHeader
  simp
@[simp] theorem sessionUp_sys (s : State) (own peer : W128) : (State.sessionUp s own peer).sys = s.sys := by
  unfold State.sessionUp
  (repeat' split) <;> simp
@[simp] theorem leaveActive_sys (s : State) (r : Role) : (State.leaveActive s r).sys = s.sys := by
  unfold State.leaveActive
  simp
@[simp] theorem toStandby_sys (s : State) : (State.toStandby s).sys = s.sys := by
  unfold State.toStandby
  simp
@[simp] theorem peerActive_sys (s : State) (epoch : Nat) : (State.peerActive s epoch).sys = s.sys := by
  unfold State.peerActive
  simp
@[simp] theorem mirrorGot_sys (s : State) (k : MirKind) (m : Bytes) : (State.mirrorGot s k m).sys = s.sys := by
  unfold State.mirrorGot
  (repeat' split) <;> simp
@[simp] theorem floorJudge_sys (s : State) : (State.floorJudge s).sys = s.sys := by
  unfold State.floorJudge
  simp
@[simp] theorem floorTick_sys (s : State) : (State.floorTick s).sys = s.sys := by
  unfold State.floorTick
  repeat' first | (simp) | intro _ | (refine (forEach_sys _ _ _ ?_).trans ?_) | (refine (when_sys _ _ _ ?_).trans ?_) | split | simp
@[simp] theorem promoSlot_sys (s : State) (v : Nat) : (State.promoSlot s v).sys = s.sys := by
  unfold State.promoSlot
  dsimp only; (repeat' split) <;> simp
@[simp] theorem promoLeases_sys (s : State) : (State.promoLeases s).sys = s.sys := by
  unfold State.promoLeases
  simp
@[simp] theorem loseNow_sys (s : State) : (State.loseNow s).sys = s.sys := by
  unfold State.loseNow
  repeat' first | (simp) | intro _ | (refine (forEach_sys _ _ _ ?_).trans ?_) | (refine (when_sys _ _ _ ?_).trans ?_) | split | simp
@[simp] theorem exposeAll_sys (s : State) : (State.exposeAll s).sys = s.sys := by
  unfold State.exposeAll
  simp
@[simp] theorem promote_sys (s : State) (prev : BitVec 2) : (State.promote s prev).sys = s.sys := by
  unfold State.promote
  simp
@[simp] theorem grantNone_sys (s : State) : (State.grantNone s).sys = s.sys := by
  unfold State.grantNone
  simp
@[simp] theorem grantSelf_sys (s : State) (prev : BitVec 2) : (State.grantSelf s prev).sys = s.sys := by
  unfold State.grantSelf
  (repeat' split) <;> simp
@[simp] theorem grantPeer_sys (s : State) (higher : Bool) : (State.grantPeer s higher).sys = s.sys := by
  unfold State.grantPeer
  dsimp only; (repeat' split) <;> simp
@[simp] theorem grantTake_sys (s : State) (m : Bytes) : (State.grantTake s m).sys = s.sys := by
  unfold State.grantTake
  simp
@[simp] theorem pairDone_sys (s : State) (code op : Nat) : (State.pairDone s code op).sys = s.sys := by
  unfold State.pairDone
  simp
@[simp] theorem pairResync_sys (s : State) : (State.pairResync s).sys = s.sys := by
  unfold State.pairResync
  simp
@[simp] theorem pairKeys_sys (s : State) : (State.pairKeys s).sys = s.sys := by
  unfold State.pairKeys
  simp
@[simp] theorem leavePair_sys (s : State) : (State.leavePair s).sys = s.sys := by
  unfold State.leavePair
  simp
@[simp] theorem toUnpaired_sys (s : State) : (State.toUnpaired s).sys = s.sys := by
  unfold State.toUnpaired
  simp
@[simp] theorem surgeNow_sys (s : State) : (State.surgeNow s).sys = s.sys := by
  unfold State.surgeNow
  simp
@[simp] theorem autumnNext_sys (s : State) (d : Nat) : (State.autumnNext s d).sys = s.sys := by
  unfold State.autumnNext
  simp
@[simp] theorem domBack_sys (s : State) (d : Nat) : (State.domBack s d).sys = s.sys := by
  unfold State.domBack
  simp
@[simp] theorem pagesLost_sys (s : State) : (State.pagesLost s).sys = s.sys := by
  unfold State.pagesLost
  simp
@[simp] theorem domUnavail_sys (s : State) (d : Nat) : (State.domUnavail s d).sys = s.sys := by
  unfold State.domUnavail
  simp
@[simp] theorem wakeFailed_sys (s : State) (d : Nat) : (State.wakeFailed s d).sys = s.sys := by
  unfold State.wakeFailed
  simp
@[simp] theorem wakeNext_sys (s : State) (n : Nat) : (State.wakeNext s n).sys = s.sys := by
  unfold State.wakeNext
  dsimp only; (repeat' split) <;> simp
@[simp] theorem pmRefused_sys (s : State) (d : Nat) (op : PmOp) : (State.pmRefused s d op).sys = s.sys := by
  unfold State.pmRefused
  simp
@[simp] theorem thawTests_sys (s : State) (d : Nat) : (State.thawTests s d).sys = s.sys := by
  unfold State.thawTests
  simp
@[simp] theorem thawEnd_sys (s : State) (d : Nat) (pass late : Bool) : (State.thawEnd s d pass late).sys = s.sys := by
  unfold State.thawEnd
  simp
@[simp] theorem sliceDown_sys (s : State) (n : Nat) : (State.sliceDown s n).sys = s.sys := by
  unfold State.sliceDown
  simp
@[simp] theorem sliceFault_sys (s : State) (inj : Bool) (n det : Nat) : (State.sliceFault s inj n det).sys = s.sys := by
  unfold State.sliceFault
  simp
@[simp] theorem maskDrain_sys (s : State) (n : Nat) : (State.maskDrain s n).sys = s.sys := by
  unfold State.maskDrain
  (repeat' split) <;> simp
@[simp] theorem maskHalt_sys (s : State) (inj : Bool) (n : Nat) : (State.maskHalt s inj n).sys = s.sys := by
  unfold State.maskHalt
  dsimp only; (repeat' split) <;> simp
@[simp] theorem svcSet_sys (s : State) (n : Nat) (force : Bool) : (State.svcSet s n force).sys = s.sys := by
  unfold State.svcSet
  dsimp only; (repeat' split) <;> simp
@[simp] theorem rsvApply_sys (s : State) (ing : Bool) : (State.rsvApply s ing).sys = s.sys := by
  unfold State.rsvApply
  (repeat' split) <;> simp
@[simp] theorem applyRows_sys (s : State) (p : Page) : (State.applyRows s p).sys = s.sys := by
  unfold State.applyRows
  simp
@[simp] theorem applyByp_sys (s : State) : (State.applyByp s).sys = s.sys := by
  unfold State.applyByp
  repeat' first | (simp) | intro _ | (refine (forEach_sys _ _ _ ?_).trans ?_) | (refine (when_sys _ _ _ ?_).trans ?_) | split | simp
@[simp] theorem portSwitched_sys (s : State) (n : Nat) (was : Bool) : (State.portSwitched s n was).sys = s.sys := by
  unfold State.portSwitched
  simp
@[simp] theorem commitRefuse_sys (s : State) (p : Page) : (State.commitRefuse s p).sys = s.sys := by
  unfold State.commitRefuse
  simp
@[simp] theorem commitWrite_sys (s : State) (p : Page) : (State.commitWrite s p).sys = s.sys := by
  unfold State.commitWrite
  simp
@[simp] theorem unlockWrite_sys (s : State) (p : Page) (data : W32) : (State.unlockWrite s p data).sys = s.sys := by
  unfold State.unlockWrite
  simp
@[simp] theorem presetCtr_sys (s : State) (n : Nat) (data : W32) : (State.presetCtr s n data).sys = s.sys := by
  unfold State.presetCtr
  simp
@[simp] theorem pcntClear_sys (s : State) (k : Nat) : (State.pcntClear s k).sys = s.sys := by
  unfold State.pcntClear
  simp
@[simp] theorem pcntClearAll_sys (s : State) (port : Nat) : (State.pcntClearAll s port).sys = s.sys := by
  unfold State.pcntClearAll
  simp
@[simp] theorem pageNext_sys (s : State) : (State.pageNext s).sys = s.sys := by
  unfold State.pageNext
  (repeat' split) <;> simp
@[simp] theorem grpGo_sys (s : State) : (State.grpGo s).sys = s.sys := by
  unfold State.grpGo
  simp
@[simp] theorem addFloor_sys (s : State) (f : Floor) : (State.addFloor s f).sys = s.sys := by
  unfold State.addFloor
  simp
@[simp] theorem fireSeason_sys (s : State) (w : W128) (due : Nat) : (State.fireSeason s w due).sys = s.sys := by
  unfold State.fireSeason
  simp
@[simp] theorem fireEntry_sys (s : State) (n : Nat) (w : W128) (due : Nat) : (State.fireEntry s n w due).sys = s.sys := by
  unfold State.fireEntry
  simp
@[simp] theorem fireAll_sys (s : State) : (State.fireAll s).sys = s.sys := by
  unfold State.fireAll
  repeat' first | (simp) | intro _ | (refine (forEach_sys _ _ _ ?_).trans ?_) | (refine (when_sys _ _ _ ?_).trans ?_) | split | simp
@[simp] theorem keyxStart_sys (s : State) : (State.keyxStart s).sys = s.sys := by
  unfold State.keyxStart
  (repeat' split) <;> simp
@[simp] theorem installDone_sys (s : State) (c : W32) : (State.installDone s c).sys = s.sys := by
  unfold State.installDone
  dsimp only; (repeat' split) <;> simp
@[simp] theorem keyxEnd_sys (s : State) (c : Nat) : (State.keyxEnd s c).sys = s.sys := by
  unfold State.keyxEnd
  dsimp only; (repeat' split) <;> simp
@[simp] theorem nvWritten_sys (s : State) (err : Bool) : (State.nvWritten s err).sys = s.sys := by
  unfold State.nvWritten
  (repeat' split) <;> simp
@[simp] theorem nvRead_sys (s : State) (err : Bool) (data : Bytes) : (State.nvRead s err data).sys = s.sys := by
  unfold State.nvRead
  simp
@[simp] theorem zeroScheds_sys (s : State) : (State.zeroScheds s).sys = s.sys := by
  unfold State.zeroScheds
  repeat' first | (simp) | intro _ | (refine (forEach_sys _ _ _ ?_).trans ?_) | (refine (when_sys _ _ _ ?_).trans ?_) | split | simp
@[simp] theorem zeroSlots_sys (s : State) : (State.zeroSlots s).sys = s.sys := by
  unfold State.zeroSlots
  simp
@[simp] theorem zeroKeyx_sys (s : State) : (State.zeroKeyx s).sys = s.sys := by
  unfold State.zeroKeyx
  repeat' first | (simp) | intro _ | (refine (forEach_sys _ _ _ ?_).trans ?_) | (refine (when_sys _ _ _ ?_).trans ?_) | split | simp
@[simp] theorem selLost_sys (s : State) (p : Nat → Bool) : (State.selLost s p).sys = s.sys := by
  unfold State.selLost
  simp
@[simp] theorem zeroStore_sys (s : State) : (State.zeroStore s).sys = s.sys := by
  unfold State.zeroStore
  simp
@[simp] theorem bootAsk_sys (s : State) (l : List Nat) : (State.bootAsk s l).sys = s.sys := by
  unfold State.bootAsk
  simp
@[simp] theorem domsSummer_sys (s : State) (l : List Nat) : (State.domsSummer s l).sys = s.sys := by
  unfold State.domsSummer
  simp
@[simp] theorem latentPassed_sys (s : State) (t : Nat) : (State.latentPassed s t).sys = s.sys := by
  unfold State.latentPassed
  simp
@[simp] theorem setRec_sys (s : State) (i : Nat) (r : Option FRec) : (State.setRec s i r).sys = s.sys := by
  unfold State.setRec
  simp
@[simp] theorem recLoad_sys (s : State) : (State.recLoad s).sys = s.sys := by
  unfold State.recLoad
  simp
@[simp] theorem recNoted_sys (s : State) (e : FEvent) : (State.recNoted s e).sys = s.sys := by
  unfold State.recNoted
  simp
@[simp] theorem putRec_sys (s : State) (i : Nat) (e : FEvent) : (State.putRec s i e).sys = s.sys := by
  unfold State.putRec
  simp
@[simp] theorem takeEvent_sys (s : State) (e : FEvent) : (State.takeEvent s e).sys = s.sys := by
  unfold State.takeEvent
  (repeat' split) <;> simp
@[simp] theorem recLet_sys (s : State) (was : State) : (State.recLet s was).sys = s.sys := by
  unfold State.recLet
  repeat' first | (simp) | intro _ | (refine (forEach_sys _ _ _ ?_).trans ?_) | (refine (when_sys _ _ _ ?_).trans ?_) | split | simp
@[simp] theorem recClr_sys (s : State) (data : W32) : (State.recClr s data).sys = s.sys := by
  unfold State.recClr
  repeat' first | (simp) | intro _ | (refine (forEach_sys _ _ _ ?_).trans ?_) | (refine (when_sys _ _ _ ?_).trans ?_) | split | simp
@[simp] theorem jobFail_sys (s : State) (j : Option KJob) : (s.jobFail j).sys = s.sys := by
  unfold State.jobFail; split <;> simp
@[simp] theorem keyxFault_sys (s : State) (inj : Bool) (c : Nat) : (State.keyxFault s inj c).sys = s.sys := by
  unfold State.keyxFault
  simp [jobFail_sys]
@[simp] theorem genRemoved_sys (s : State) (g : Nat) : (State.genRemoved s g).sys = s.sys := by
  unfold State.genRemoved
  simp
@[simp] theorem clearPages_sys (s : State) (q : Part) : (State.clearPages s q).sys = s.sys := by
  unfold State.clearPages
  simp
@[simp] theorem resetPort_sys (s : State) (n : Nat) : (State.resetPort s n).sys = s.sys := by
  unfold State.resetPort
  repeat' first | (simp) | intro _ | (refine (forEach_sys _ _ _ ?_).trans ?_) | (refine (when_sys _ _ _ ?_).trans ?_) | split | simp
@[simp] theorem resetPager_sys (s : State) : (State.resetPager s).sys = s.sys := by
  unfold State.resetPager
  simp
@[simp] theorem hostDrop_sys (s : State) : (State.hostDrop s).sys = s.sys := by
  unfold State.hostDrop
  simp
@[simp] theorem resetStore_sys (s : State) : (State.resetStore s).sys = s.sys := by
  unfold State.resetStore
  simp
@[simp] theorem resetMarch_sys (s : State) : (State.resetMarch s).sys = s.sys := by
  unfold State.resetMarch
  simp
@[simp] theorem resetLease_sys (s : State) : (State.resetLease s).sys = s.sys := by
  unfold State.resetLease
  simp
@[simp] theorem keyxRestart_sys (s : State) : (State.keyxRestart s).sys = s.sys := by
  unfold State.keyxRestart
  simp
@[simp] theorem globEnd_sys (s : State) : (State.globEnd s).sys = s.sys := by
  unfold State.globEnd
  simp
@[simp] theorem globTables_sys (s : State) : (State.globTables s).sys = s.sys := by
  unfold State.globTables
  simp
@[simp] theorem storeReturn_sys (s : State) : (State.storeReturn s).sys = s.sys := by
  unfold State.storeReturn
  simp
@[simp] theorem autoDone_sys (s : State) (q : Part) : (State.autoDone s q).sys = s.sys := by
  unfold State.autoDone
  simp
@[simp] theorem lateFault_sys (s : State) (q : Part) : (State.lateFault s q).sys = s.sys := by
  unfold State.lateFault
  dsimp only; (repeat' split) <;> simp
@[simp] theorem sramUe_sys (s : State) (dom : Nat) (addr : W32) (chix : Option Nat) : (State.sramUe s dom addr chix).sys = s.sys := by
  unfold State.sramUe
  simp
@[simp] theorem keyGone_sys (s : State) (f : Frame) : (State.keyGone s f).sys = s.sys := by
  unfold State.keyGone
  simp
@[simp] theorem vaultUe_sys (s : State) (v : Nat) : (State.vaultUe s v).sys = s.sys := by
  unfold State.vaultUe
  repeat' first | (simp) | intro _ | (refine (forEach_sys _ _ _ ?_).trans ?_) | (refine (when_sys _ _ _ ?_).trans ?_) | split | simp
@[simp] theorem pnUe_sys (s : State) (v : Nat) : (State.pnUe s v).sys = s.sys := by
  unfold State.pnUe
  dsimp only; (repeat' split) <;> simp
@[simp] theorem rxUe_sys (s : State) (v : Nat) (bitmap : Bool) : (State.rxUe s v bitmap).sys = s.sys := by
  unfold State.rxUe
  dsimp only; (repeat' split) <;> simp
@[simp] theorem slotOrphan_sys (s : State) (e : Nat) (b : Bool) : (State.slotOrphan s e b).sys = s.sys := by
  unfold State.slotOrphan
  simp
@[simp] theorem chixLost_sys (s : State) (x : Nat) : (State.chixLost s x).sys = s.sys := by
  unfold State.chixLost
  (repeat' split) <;> simp
@[simp] theorem recordUe_sys (s : State) (e : Nat) : (State.recordUe s e).sys = s.sys := by
  unfold State.recordUe
  dsimp only; (repeat' split) <;> simp
@[simp] theorem treeUe_sys (s : State) (e w : Nat) : (State.treeUe s e w).sys = s.sys := by
  unfold State.treeUe
  dsimp only; (repeat' split) <;> simp
@[simp] theorem evcUe_sys (s : State) (n : Nat) : (State.evcUe s n).sys = s.sys := by
  unfold State.evcUe
  simp
@[simp] theorem pcntUe_sys (s : State) (port idx : Nat) : (State.pcntUe s port idx).sys = s.sys := by
  unfold State.pcntUe
  simp
@[simp] theorem bufferUe_sys (s : State) (id : Nat) : (State.bufferUe s id).sys = s.sys := by
  unfold State.bufferUe
  (repeat' split) <;> simp
@[simp] theorem residencyUe_sys (s : State) (w : Nat) : (State.residencyUe s w).sys = s.sys := by
  unfold State.residencyUe
  simp
@[simp] theorem groupUe_sys (s : State) (w : Nat) : (State.groupUe s w).sys = s.sys := by
  unfold State.groupUe
  simp
@[simp] theorem bypassUe_sys (s : State) (n : Nat) : (State.bypassUe s n).sys = s.sys := by
  unfold State.bypassUe
  simp
@[simp] theorem wcbUe_sys (s : State) (line : Nat) : (State.wcbUe s line).sys = s.sys := by
  unfold State.wcbUe
  dsimp only; (repeat' split) <;> simp
@[simp] theorem parityLoss_sys (s : State) (p : Page) (off : Nat) : (State.parityLoss s p off).sys = s.sys := by
  unfold State.parityLoss
  simp
@[simp] theorem comparatorFault_sys (s : State) (inst : Nat) : (State.comparatorFault s inst).sys = s.sys := by
  unfold State.comparatorFault
  (repeat' split) <;> simp
@[simp] theorem aoLock_sys (s : State) (pair : Nat) : (State.aoLock s pair).sys = s.sys := by
  unfold State.aoLock
  simp
@[simp] theorem cacheFill_sys (s : State) (sel : Nat) : (State.cacheFill s sel).sys = s.sys := by
  unfold State.cacheFill
  simp
theorem marchRun_sys (s : State) (op : Nat) : (s.marchRun op).1.sys = s.sys := by
  unfold State.marchRun
  dsimp only
  repeat' first | (simp; done) | split
@[simp] theorem marchIssue_sys (s : State) : (State.marchIssue s).sys = s.sys := by
  unfold State.marchIssue
  dsimp only; (repeat' split) <;> simp
@[simp] theorem logPop_sys (s : State) : (State.logPop s).sys = s.sys := by
  unfold State.logPop
  simp
@[simp] theorem poisonRead_sys (s : State) (p : Page) (off : Nat) : (State.poisonRead s p off).sys = s.sys := by
  unfold State.poisonRead
  (repeat' split) <;> simp
@[simp] theorem glbRecompute_sys (s : State) : (State.glbRecompute s).sys = s.sys := by
  unfold State.glbRecompute
  simp
@[simp] theorem bypLoad_sys (s : State) (n : Nat) : (State.bypLoad s n).sys = s.sys := by
  unfold State.bypLoad
  simp
@[simp] theorem bypStage_sys (s : State) : (State.bypStage s).sys = s.sys := by
  unfold State.bypStage
  simp
@[simp] theorem statusWrite_sys (s : State) (p : Page) (data : W32) : (State.statusWrite s p data).sys = s.sys := by
  unfold State.statusWrite
  simp
@[simp] theorem flagWrite_sys (s : State) (p : Page) (off : Nat) (data : W32) : (State.flagWrite s p off data).sys = s.sys := by
  unfold State.flagWrite
  repeat' first | (simp) | intro _ | (refine (forEach_sys _ _ _ ?_).trans ?_) | (refine (when_sys _ _ _ ?_).trans ?_) | split | simp
@[simp] theorem stageWrite_sys (s : State) (p : Page) (off : Nat) (m data : W32) : (State.stageWrite s p off m data).sys = s.sys := by
  unfold State.stageWrite
  repeat' first | (simp) | intro _ | (refine (forEach_sys _ _ _ ?_).trans ?_) | (refine (when_sys _ _ _ ?_).trans ?_) | split | simp
@[simp] theorem plainWrite_sys (s : State) (p : Page) (off : Nat) (m data : W32) (covered : Bool) : (State.plainWrite s p off m data covered).sys = s.sys := by
  unfold State.plainWrite
  (repeat' split) <;> simp
@[simp] theorem fieldWrite_sys (s : State) (p : Page) (off : Nat) (data : W32) : (State.fieldWrite s p off data).sys = s.sys := by
  unfold State.fieldWrite
  (repeat' split) <;> simp
@[simp] theorem narrowWrite_sys (s : State) (a : Nat) : (State.narrowWrite s a).sys = s.sys := by
  unfold State.narrowWrite
  (repeat' split) <;> simp
@[simp] theorem eofTaken_sys (s : State) (id : Nat) : (State.eofTaken s id).sys = s.sys := by
  unfold State.eofTaken
  dsimp only; (repeat' split) <;> simp
@[simp] theorem longFound_sys (s : State) (f : Frame) : (State.longFound s f).sys = s.sys := by
  unfold State.longFound
  simp
@[simp] theorem arriveFrame_sys (s : State) (f : Frame) (k : Nat) : (State.arriveFrame s f k).sys = s.sys := by
  unfold State.arriveFrame
  simp
@[simp] theorem arriveStub_sys (s : State) (t : Stub) (k : Nat) : (State.arriveStub s t k).sys = s.sys := by
  unfold State.arriveStub
  dsimp only; (repeat' split) <;> simp
@[simp] theorem arriveClass_sys (s : State) (d : Dir) (port : Nat) (cls : Bool) (k : Nat) : (State.arriveClass s d port cls k).sys = s.sys := by
  unfold State.arriveClass
  (repeat' split) <;> simp
@[simp] theorem arrivePort_sys (s : State) (d : Dir) (port : Nat) : (State.arrivePort s d port).sys = s.sys := by
  unfold State.arrivePort
  simp
@[simp] theorem arrive_sys (s : State) : (State.arrive s).sys = s.sys := by
  unfold State.arrive
  simp
@[simp] theorem issueOne_sys (s : State) (n : Nat) : (State.issueOne s n).sys = s.sys := by
  unfold State.issueOne
  (repeat' split) <;> simp
@[simp] theorem issueSlice_sys (s : State) (n : Nat) : (State.issueSlice s n).sys = s.sys := by
  unfold State.issueSlice
  simp
@[simp] theorem issueAll_sys (s : State) : (State.issueAll s).sys = s.sys := by
  unfold State.issueAll
  simp
@[simp] theorem flow_sys (s : State) : (State.flow s).sys = s.sys := by
  unfold State.flow
  simp
@[simp] theorem posted_sys (s : State) (p : Page) : (State.posted s p).sys = s.sys := by
  unfold State.posted
  simp
@[simp] theorem evtIf_sys (s : State) (c : Bool) (n k : Nat) : (State.evtIf s c n k).sys = s.sys := by
  unfold State.evtIf
  simp
@[simp] theorem gather_sys (s : State) : (State.gather s).sys = s.sys := by
  unfold State.gather
  simp

end Sys2Proof.Machine
end

