-- ==== Sys2Proof/Laws/Seeds.lean ====
section
/-! SUPPORT. What is left to do after a command takes, of the security core, the recovery sequencer and the time, nothing but
seed words, the oldest first, and answers a command that waited for its domain. -/
namespace Sys2Proof.Machine

/-- Only the oldest seed words have been taken, and perhaps a waiting KEK_CHK_IDX has been answered. -/
def SeedsOnly (a b : Sys) : Prop := ∃ k c, b = { a with seeds := a.seeds.drop k, chkWait := c }
@[simp] theorem SeedsOnly.refl (a : Sys) : SeedsOnly a a := ⟨0, a.chkWait, rfl⟩
theorem SeedsOnly.trans {a b c : Sys} (h : SeedsOnly a b) (k : SeedsOnly b c) : SeedsOnly a c := by
  obtain ⟨i, u, rfl⟩ := h
  obtain ⟨j, v, rfl⟩ := k
  exact ⟨i + j, v, by simp only [List.drop_drop]⟩
theorem dropSeeds_seeds (y : Sys) (s : State) (k : Nat) (h : SeedsOnly y s.sys) : SeedsOnly y (s.dropSeeds k).sys :=
  h.trans ⟨k, s.sys.chkWait, rfl⟩
theorem when_seeds (y : Sys) (f : State → State) (hf : ∀ s, SeedsOnly y s.sys → SeedsOnly y (f s).sys) (c : Bool)
    (s : State) (h : SeedsOnly y s.sys) : SeedsOnly y (s.when c f).sys := by cases c <;> simp [h, hf]
theorem sendStatus_seeds (y : Sys) (s : State) (h : SeedsOnly y s.sys) : SeedsOnly y (State.sendStatus s).sys := by
  unfold State.sendStatus
  split
  · split
    · simpa using dropSeeds_seeds y s 1 h
    · exact h
  · exact h
theorem pairSince_seeds (y : Sys) (t s : State) (h : SeedsOnly y t.sys) : SeedsOnly y (t.pairSince s).sys := by
  unfold State.pairSince
  extract_lets t1 t2
  have h1 : SeedsOnly y t1.sys := by simp only [t1]; split <;> simp [h]
  have h2 : SeedsOnly y t2.sys := by simp only [t2]; split <;> simp [h1]
  split
  · exact h2
  · exact sendStatus_seeds y t2 h2
theorem pairDo_seeds (y : Sys) (s : State) (f : State → State) (hf : ∀ s, SeedsOnly y s.sys → SeedsOnly y (f s).sys)
    (h : SeedsOnly y s.sys) : SeedsOnly y (State.pairDo s f).sys := pairSince_seeds y _ s (hf s h)
theorem pairPump_seeds (y : Sys) (s : State) (h : SeedsOnly y s.sys) : SeedsOnly y (State.pairPump s).sys := by
  unfold State.pairPump
  split
  · exact h
  · exact pairDo_seeds _ _ _ (fun s h => by simp [h]) h
theorem masterDraw_seeds (y : Sys) (s : State) (h : SeedsOnly y s.sys) : SeedsOnly y (State.masterDraw s).sys := by
  unfold State.masterDraw
  split
  · split
    · simpa using dropSeeds_seeds y s 2 h
    · exact h
  · exact h
theorem keyNew_seeds (y : Sys) (s : State) (c : W32) (h : SeedsOnly y s.sys) : SeedsOnly y (State.keyNew s c).sys := by
  unfold State.keyNew
  extract_lets sel s1
  have h1 : SeedsOnly y s1.sys := masterDraw_seeds y s h
  clear_value s1
  split
  · split <;> simp [h1]
  · simpa using dropSeeds_seeds y s1 1 h1
theorem storeRun_seeds (y : Sys) (s : State) (h : SeedsOnly y s.sys) : SeedsOnly y (State.storeRun s).sys := by
  unfold State.storeRun
  (try dsimp only)
  repeat' first | (simp [h, keyNew_seeds]; done) | split
theorem regRetry_seeds (y : Sys) (s : State) (h : SeedsOnly y s.sys) : SeedsOnly y (State.regRetry s).sys := by
  unfold State.regRetry
  extract_lets s1 puts s2
  have h1 : SeedsOnly y s1.sys := by
    simp only [s1]
    refine when_seeds _ _ (fun s h => h.trans ⟨0, false, ?_⟩) _ _ h
    simp
  clear_value s1
  have e2 : s2.sys = s1.sys := by
    simp only [s2]
    exact when_sys _ _ _ (fun s => (forEach_sys _ _ _ (fun s a => by simp)).trans (by simp))
  rw [when_sys _ _ _ (fun s => by simp), e2]
  exact h1
/-- What is left to do takes seed words and answers a waiting command. -/
theorem settle_seeds (s : State) : SeedsOnly s.sys s.settle.sys := by
  unfold State.settle State.winRetry
  dsimp only
  simp only [pmPump_sys, wakeNeeded_sys]
  refine pairPump_seeds _ _ ?_
  simp only [pumpLease_sys, storeSettle_sys]
  refine storeRun_seeds _ _ ?_
  simp only [leaseRun_sys, keywRun_sys, sawRun_sys]
  refine regRetry_seeds _ _ ?_
  simp

end Sys2Proof.Machine
end

