-- ==== Sys2Proof/Laws/SysStep.lean ====
section
/-! SUPPORT. What every operation may do to the security core and the recovery sequencer: it keeps them sound and ends no
zeroisation. -/
namespace Sys2Proof.Machine

/-- What a part of a command may do to the security core: it keeps it sound, and it does not end a zeroisation. -/
def SysStep (a b : Sys) : Prop := (a.sound → b.sound) ∧ (a.zero ≠ .no → b.zero ≠ .no)
@[simp] theorem SysStep.refl (a : Sys) : SysStep a a := ⟨id, id⟩
theorem SysStep.trans {a b c : Sys} (h : SysStep a b) (k : SysStep b c) : SysStep a c := ⟨k.1 ∘ h.1, k.2 ∘ h.2⟩
theorem forEach_step {α : Type} (y : Sys) (f : State → α → State) (hf : ∀ s a, SysStep y s.sys → SysStep y (f s a).sys) (l : List α)
    (s : State) (h : SysStep y s.sys) : SysStep y (s.forEach l f).sys := forEach_inv (fun s => SysStep y s.sys) f hf l s h
theorem when_step (y : Sys) (f : State → State) (hf : ∀ s, SysStep y s.sys → SysStep y (f s).sys) (c : Bool)
    (s : State) (h : SysStep y s.sys) : SysStep y (s.when c f).sys := by cases c <;> simp [h, hf]
/-- A change that leaves the keys and the phase alone and adds no seed word. -/
theorem modSys_step (y : Sys) (f : Sys → Sys) (s : State) (h : SysStep y s.sys)
    (hs : (f s.sys).seeds.length ≤ s.sys.seeds.length) (hp : (f s.sys).phase = s.sys.phase)
    (hk : (f s.sys).klTaken = s.sys.klTaken) (hr : (f s.sys).rootKey = s.sys.rootKey) (hz : (f s.sys).zero = s.sys.zero)
    (he : (f s.sys).keks = s.sys.keks) (h6 : (f s.sys).kek63 = s.sys.kek63) (hd : (f s.sys).derive = s.sys.derive)
    (hl : (f s.sys).klDead = s.sys.klDead) : SysStep y (s.modSys f).sys := by
  refine h.trans ⟨fun i => ?_, fun i => ?_⟩
  · simp only [modSys_sys]
    unfold Sys.sound at i ⊢
    rw [hp, hk, hr, hz, he, h6, hd, hl]
    exact ⟨hs.trans i.1, i.2⟩
  · simp only [modSys_sys]
    rw [hz]
    exact i
theorem gated_step (y : Sys) (s : State) (p : Page) (off : Nat) (data : W32) (uses : Bool) (act : State → State)
    (hf : ∀ s, SysStep y s.sys → SysStep y (act s).sys) (h : SysStep y s.sys) : SysStep y (s.gated p off data uses act).sys := by
  unfold State.gated
  dsimp only
  split <;> simp [h]
  exact hf _ (by simp [h])
theorem through_step (y : Sys) (s : State) (p : Page) (off : Nat) (data : W32) (act : State → State)
    (hf : ∀ s, SysStep y s.sys → SysStep y (act s).sys) (h : SysStep y s.sys) : SysStep y (s.through p off data act).sys := by
  unfold State.through
  split
  · exact gated_step _ _ _ _ _ _ _ hf (by simp [h])
  · exact h

@[simp] theorem dropSeeds_step (y : Sys) (s : State) (k : Nat) (h : SysStep y s.sys) : SysStep y (State.dropSeeds s k).sys := modSys_step y _ s h (by simp) rfl rfl rfl rfl rfl rfl rfl rfl
@[simp] theorem seedGenFrom_step (y : Sys) (s : State) (l : List W128) (g : Nat) (h : SysStep y s.sys) : SysStep y (State.seedGenFrom s l g).sys := by
  unfold State.seedGenFrom
  split
  · exact modSys_step y _ _ (dropSeeds_step y s 2 h) (Nat.le_refl _) rfl rfl rfl rfl rfl rfl rfl rfl
  · exact modSys_step y _ s h (Nat.le_refl _) rfl rfl rfl rfl rfl rfl rfl rfl
@[simp] theorem seedGen_step (y : Sys) (s : State) (g : Nat) (h : SysStep y s.sys) : SysStep y (State.seedGen s g).sys := seedGenFrom_step y s _ g h
@[simp] theorem seedTest_step (y : Sys) (s : State) (n : Nat) (h : SysStep y s.sys) : SysStep y (State.seedTest s n).sys := by
  unfold State.seedTest
  (try dsimp only)
  repeat' first | (simp [h]; done) | split
@[simp] theorem seedDom_step (y : Sys) (s : State) (d : Nat) (h : SysStep y s.sys) : SysStep y (State.seedDom s d).sys := forEach_step _ _ (fun s g h => seedGenFrom_step _ s _ g h) _ _ h
@[simp] theorem slDrained_step (y : Sys) (s : State) (n : Nat) (h : SysStep y s.sys) : SysStep y (State.slDrained s n).sys := by
  unfold State.slDrained
  (try dsimp only)
  repeat' first | (simp [h]; done) | split
@[simp] theorem drawNonce_step (y : Sys) (s : State) (h : SysStep y s.sys) : SysStep y (State.drawNonce s).sys := by
  unfold State.drawNonce
  (try dsimp only)
  repeat' first | (simp [h]; done) | split
@[simp] theorem sendHello_step (y : Sys) (s : State) (h : SysStep y s.sys) : SysStep y (State.sendHello s).sys := by
  unfold State.sendHello
  (try dsimp only)
  repeat' first | (simp [h]; done) | split
@[simp] theorem sendStatus_step (y : Sys) (s : State) (h : SysStep y s.sys) : SysStep y (State.sendStatus s).sys := by
  unfold State.sendStatus
  (try dsimp only)
  repeat' first | (simp [h]; done) | split
@[simp] theorem pairSince_step (y : Sys) (t s : State) (h : SysStep y t.sys) : SysStep y (State.pairSince t s).sys := by
  unfold State.pairSince
  extract_lets t1 t2
  have h1 : SysStep y t1.sys := by simp only [t1]; split <;> simp [h]
  have h2 : SysStep y t2.sys := by simp only [t2]; split <;> simp [h1]
  split
  · exact h2
  · exact sendStatus_step y t2 h2
@[simp] theorem pairDo_step (y : Sys) (s : State) (f : State → State) (hf : ∀ s, SysStep y s.sys → SysStep y (f s).sys) (h : SysStep y s.sys) : SysStep y (State.pairDo s f).sys := pairSince_step y _ s (hf s h)
@[simp] theorem pairPump_step (y : Sys) (s : State) (h : SysStep y s.sys) : SysStep y (State.pairPump s).sys := by
  unfold State.pairPump
  split
  · exact h
  · exact pairDo_step _ _ _ (fun s h => by simp [h]) h
@[simp] theorem masterDraw_step (y : Sys) (s : State) (h : SysStep y s.sys) : SysStep y (State.masterDraw s).sys := by
  unfold State.masterDraw
  (try dsimp only)
  repeat' first | (simp [h]; done) | split
@[simp] theorem keyNew_step (y : Sys) (s : State) (c : W32) (h : SysStep y s.sys) : SysStep y (State.keyNew s c).sys := by
  unfold State.keyNew
  dsimp only
  split
  · split <;> simp [h]
  · simp [h]
@[simp] theorem storeRun_step (y : Sys) (s : State) (h : SysStep y s.sys) : SysStep y (State.storeRun s).sys := by
  unfold State.storeRun
  (try dsimp only)
  repeat' first | (simp [h]; done) | split
@[simp] theorem regRetry_step (y : Sys) (s : State) (h : SysStep y s.sys) : SysStep y (State.regRetry s).sys := by
  unfold State.regRetry
  extract_lets s1 puts s2
  have h1 : SysStep y s1.sys := by
    simp only [s1]
    refine when_step _ _ (fun s h => ?_) _ _ h
    simpa using modSys_step y (fun y => { y with chkWait := false }) s h (Nat.le_refl _) rfl rfl rfl rfl rfl rfl rfl rfl
  clear_value s1
  have e2 : s2.sys = s1.sys := by
    simp only [s2]
    exact when_sys _ _ _ (fun s => (forEach_sys _ _ _ (fun s a => by simp)).trans (by simp))
  rw [when_sys _ _ _ (fun s => by simp), e2]
  exact h1
@[simp] theorem winRetry_step (y : Sys) (s : State) (h : SysStep y s.sys) : SysStep y (State.winRetry s).sys := by
  unfold State.winRetry
  (try dsimp only)
  repeat' first | (simp [h]; done) | split
@[simp] theorem settle_step (y : Sys) (s : State) (h : SysStep y s.sys) : SysStep y (State.settle s).sys := by
  unfold State.settle
  (try dsimp only)
  repeat' first | (simp [h]; done) | split
@[simp] theorem sawTake_step (y : Sys) (s : State) (c : W32) (h : SysStep y s.sys) : SysStep y (State.sawTake s c).sys := by
  unfold State.sawTake
  (try dsimp only)
  repeat' first | (simp [h]; done) | split
@[simp] theorem sawStart_step (y : Sys) (s : State) (c : W32) (h : SysStep y s.sys) : SysStep y (State.sawStart s c).sys := through_step _ _ _ _ _ _ (fun s h => sawTake_step _ s c h) h
@[simp] theorem keywTake_step (y : Sys) (s : State) (c : W32) (h : SysStep y s.sys) : SysStep y (State.keywTake s c).sys := by
  unfold State.keywTake
  (try dsimp only)
  repeat' first | (simp [h]; done) | split
@[simp] theorem keywStart_step (y : Sys) (s : State) (c : W32) (h : SysStep y s.sys) : SysStep y (State.keywStart s c).sys := through_step _ _ _ _ _ _ (fun s h => keywTake_step _ s c h) h
@[simp] theorem leaseTake_step (y : Sys) (s : State) (c : W32) (h : SysStep y s.sys) : SysStep y (State.leaseTake s c).sys := by
  unfold State.leaseTake
  (try dsimp only)
  repeat' first | (simp [h]; done) | split
@[simp] theorem leaseStart_step (y : Sys) (s : State) (c : W32) (h : SysStep y s.sys) : SysStep y (State.leaseStart s c).sys := through_step _ _ _ _ _ _ (fun s h => leaseTake_step _ s c h) h
@[simp] theorem storeTake_step (y : Sys) (s : State) (c : W32) (h : SysStep y s.sys) : SysStep y (State.storeTake s c).sys := by
  unfold State.storeTake
  (try dsimp only)
  repeat' first | (simp [h]; done) | split
@[simp] theorem storeStart_step (y : Sys) (s : State) (c : W32) (h : SysStep y s.sys) : SysStep y (State.storeStart s c).sys := through_step _ _ _ _ _ _ (fun s h => storeTake_step _ s c h) h
@[simp] theorem sched_step (y : Sys) (s : State) (c : W32) (op m : Nat) (h : SysStep y s.sys) : SysStep y (State.sched s c op m).sys := by
  unfold State.sched
  (try dsimp only)
  repeat' first | (simp [h]; done) | split
@[simp] theorem rxBad_step (y : Sys) (s : State) (seqOnly : Bool) (h : SysStep y s.sys) : SysStep y (State.rxBad s seqOnly).sys := by
  unfold State.rxBad
  (try dsimp only)
  repeat' first | (simp [h]; done) | split
@[simp] theorem pairRx_step (y : Sys) (s : State) (ty : Nat) (m : Bytes) (act : State → State) (hf : ∀ s, SysStep y s.sys → SysStep y (act s).sys) (h : SysStep y s.sys) : SysStep y (State.pairRx s ty m act).sys := by
  unfold State.pairRx
  split
  · split
    · exact settle_step _ _ (pairDo_step _ _ _ (fun s h => hf _ (by simp [h])) h)
    · exact settle_step _ _ (pairDo_step _ _ _ (fun s h => rxBad_step _ s _ h) h)
    · exact rxBad_step _ s _ h
  · exact h
@[simp] theorem helloGot_step (y : Sys) (s : State) (m : Bytes) (h : SysStep y s.sys) : SysStep y (State.helloGot s m).sys := by
  unfold State.helloGot
  (try dsimp only)
  repeat' first | (simp [h]; done) | split
@[simp] theorem pairYield_step (y : Sys) (s : State) (h : SysStep y s.sys) : SysStep y (State.pairYield s).sys := by
  unfold State.pairYield
  split
  · rw [pairDone_sys]; exact pairDo_step _ _ _ (fun s h => by simp [h]) h
  · simp [h]
@[simp] theorem pairRequest_step (y : Sys) (s : State) (h : SysStep y s.sys) : SysStep y (State.pairRequest s).sys := by
  unfold State.pairRequest
  split
  · rw [pairDone_sys]; exact pairDo_step _ _ _ (fun s h => by simp [h]) h
  · simp [h]
@[simp] theorem pairCmd_step (y : Sys) (s : State) (op : Nat) (h : SysStep y s.sys) : SysStep y (State.pairCmd s op).sys := by
  unfold State.pairCmd
  (try dsimp only)
  repeat' first | (simp [h]; done) | split
@[simp] theorem pairCfgApplied_step (y : Sys) (s was : State) (h : SysStep y s.sys) : SysStep y (State.pairCfgApplied s was).sys := by
  unfold State.pairCfgApplied
  split
  · simp [h]
  · refine pairSince_step _ _ _ ?_
    have h1 : SysStep y (((s.modPair (fun p => { p with cfgSet := true })).when s.sys.kekReady (·.pairKeys))).sys :=
      when_step _ _ (fun s h => by simp [h]) _ _ (by simp [h])
    generalize ((s.modPair (fun p => { p with cfgSet := true })).when s.sys.kekReady (·.pairKeys)) = s1 at h1 ⊢
    repeat' first | (simp [h1]; done) | split
@[simp] theorem domLost_step (y : Sys) (s : State) (d : Nat) (h : SysStep y s.sys) : SysStep y (State.domLost s d).sys := by
  have h1 := modSys_step y (fun y => { y with
    maskSeed := (domGens d).foldl Tab.del y.maskSeed, maskLate := (domGens d).foldl delNat y.maskLate }) s h (Nat.le_refl _) rfl rfl rfl rfl rfl rfl rfl rfl
  unfold State.domLost
  dsimp only
  repeat' first | (simpa using h1; done) | split
@[simp] theorem pmDone_step (y : Sys) (s : State) (d : Nat) (op : PmOp) (h : SysStep y s.sys) : SysStep y (State.pmDone s d op).sys := by
  unfold State.pmDone
  (try dsimp only)
  repeat' first | (simp [h]; done) | split
@[simp] theorem pmAgain_step (y : Sys) (s : State) (d : Nat) (h : SysStep y s.sys) : SysStep y (State.pmAgain s d).sys := by
  unfold State.pmAgain
  dsimp only
  split
  · exact when_step _ _ (fun s h => by simp [h]) _ _ (by simp [h])
  · repeat' first | (simp [h]; done) | split
@[simp] theorem enterTest_step (y : Sys) (s : State) (n : Nat) (byRun : Bool) (h : SysStep y s.sys) : SysStep y (State.enterTest s n byRun).sys := by
  unfold State.enterTest
  (try dsimp only)
  repeat' first | (simp [h]; done) | split
@[simp] theorem svcClear_step (y : Sys) (s : State) (n : Nat) (h : SysStep y s.sys) : SysStep y (State.svcClear s n).sys := by
  unfold State.svcClear
  (try dsimp only)
  repeat' first | (simp [h]; done) | split
@[simp] theorem slCtl_step (y : Sys) (s : State) (n : Nat) (data : W32) (h : SysStep y s.sys) : SysStep y (State.slCtl s n data).sys := by
  unfold State.slCtl
  dsimp only
  refine when_step _ _ (fun s h => by simp [h]) _ _ ?_
  split <;> simp [h]
@[simp] theorem cfgActs_step (y : Sys) (s : State) (was : State) (p : Page) (h : SysStep y s.sys) : SysStep y (State.cfgActs s was p).sys := by
  unfold State.cfgActs
  split
  · simp [h]
  · split <;> simp [h]
  · exact when_step _ _ (fun s h => pairCfgApplied_step _ _ _ (by simp [h])) _ _ h
  · exact h
@[simp] theorem commitApply_step (y : Sys) (s : State) (p : Page) (h : SysStep y s.sys) : SysStep y (State.commitApply s p).sys := by
  unfold State.commitApply
  (try dsimp only)
  repeat' first | (simp [h]; done) | split
@[simp] theorem countNext_step (y : Sys) (s : State) (h : SysStep y s.sys) : SysStep y (State.countNext s).sys := by
  unfold State.countNext
  (try dsimp only)
  repeat' first | (simp [h]; done) | split
@[simp] theorem calWrite_step (y : Sys) (s : State) (h : SysStep y s.sys) : SysStep y (State.calWrite s).sys := by
  unfold State.calWrite
  dsimp only
  split
  · simp [h]
  · exact settle_step _ _ (by simp [h])
@[simp] theorem calLoad_step (y : Sys) (s : State) (n : Nat) (h : SysStep y s.sys) : SysStep y (State.calLoad s n).sys := by
  unfold State.calLoad
  (try dsimp only)
  repeat' first | (simp [h]; done) | split
@[simp] theorem zeroise_step (y : Sys) (s : State) (inst : Nat) (h : SysStep y s.sys) : SysStep y (State.zeroise s inst).sys := by
  unfold State.zeroise
  split
  · exact h
  · next hz =>
    extract_lets s1 s2 s3 s4 s5 s6
    have e2 : s2.sys = s.sys := by simp only [s2, s1]; split <;> simp
    have e5 : s5.sys = s3.sys := by simp [s5, s4]
    have h3 : SysStep y s3.sys := by
      refine h.trans ⟨fun i => ?_, fun _ => by simp [s3]⟩
      simp only [s3, modSys_sys, e2]
      exact ⟨i.1, i.2.1, i.2.2.1, by simp, by simp⟩
    have h6 : SysStep y s6.sys := by
      refine pairDo_step _ _ _ (fun s h => by simp [h]) ?_
      rw [modPair_sys, e5]; exact h3
    clear_value s6
    exact when_step _ _ (fun s h => settle_step _ _ (by simp [h])) _ _ h6
@[simp] theorem seedSec_step (y : Sys) (s : State) (h : SysStep y s.sys) : SysStep y (State.seedSec s).sys := by
  unfold State.seedSec
  exact when_step _ _ (fun s h => by simp [h]) _ _ h
@[simp] theorem bootDraw_step (y : Sys) (s : State) (h : SysStep y s.sys) : SysStep y (State.bootDraw s).sys := by
  unfold State.bootDraw
  extract_lets l k
  split
  · next hz =>
    refine seedSec_step _ _ ?_
    refine h.trans ⟨fun i => ?_, fun k => absurd hz k⟩
    exact ⟨by simp only [l, modStore_sys, modSys_sys, List.length_drop]; have := i.1; omega, i.2.1, i.2.2.1, i.2.2.2.1, fun k => absurd hz k⟩
  · refine seedSec_step _ _ ?_
    exact modSys_step y (fun y => { y with seeds := l.drop 2 }) s h (by simp only [l, List.length_drop]; omega) rfl rfl rfl rfl rfl rfl rfl rfl
@[simp] theorem portsStart_step (y : Sys) (s : State) (h : SysStep y s.sys) : SysStep y (State.portsStart s).sys := by
  unfold State.portsStart
  rw [forEach_sys _ _ _ (fun s a => by simp)]
  exact h.trans ⟨fun i => ⟨i.1, by simp, i.2.2⟩, fun k => k⟩
@[simp] theorem phaseEnd_step (y : Sys) (s : State) (h : SysStep y s.sys) : SysStep y (State.phaseEnd s).sys := by
  unfold State.phaseEnd
  extract_lets up
  have hu : s.sys.phase < 5 → SysStep y (up s).sys := fun hp =>
    h.trans ⟨fun i => ⟨i.1, hp, i.2.2⟩, fun k => k⟩
  split
  · next hp => simpa using hu (by omega)
  · next hp =>
    split
    · exact h
    · simpa using hu (by omega)
  · next hp => exact bootDraw_step _ _ (by simpa using hu (by omega))
  · next hp => simpa using hu (by omega)
  · exact portsStart_step _ _ h
  · exact h
@[simp] theorem klBeat_step (y : Sys) (s : State) (beat : Nat) (data : W32) (h : SysStep y s.sys) : SysStep y (State.klBeat s beat data).sys := by
  unfold State.klBeat
  repeat' first | (simp [h]; done) | split
  · next h8 hd hb =>
    unfold State.klTake
    extract_lets v
    split
    · next h7 =>
      refine h.trans ⟨fun i => ⟨i.1, i.2.1, ?_, fun _ => rfl, fun k => ?_⟩, fun k => k⟩
      · simp
      · exact absurd (i.2.2.2.2 k).2.2.2.2 hd
    · next h7 =>
      refine h.trans ⟨fun i => ⟨i.1, i.2.1, ?_, fun k => ?_, fun k => ?_⟩, fun k => k⟩
      · have := i.2.2.1; simp only [modSys_sys]; omega
      · exact absurd (i.2.2.2.1 k) h8
      · exact absurd (i.2.2.2.2 k).2.2.2.2 hd
  · next h8 hd hb =>
    simp only [detect0_sys]
    refine h.trans ⟨fun i => ⟨i.1, i.2.1, Nat.zero_le _, fun k => absurd (i.2.2.2.1 k) h8, fun k => ?_⟩, fun k => k⟩
    obtain ⟨a, b, c, d, _⟩ := i.2.2.2.2 k
    exact ⟨a, b, c, d, rfl⟩
@[simp] theorem deriveEnd_step (y : Sys) (s : State) (h : SysStep y s.sys) : SysStep y (State.deriveEnd s).sys := by
  unfold State.deriveEnd
  split
  · exact modSys_step y _ s h (Nat.le_refl _) rfl rfl rfl rfl rfl rfl rfl rfl
  · exact pairDo_step _ _ _ (fun s h => by simp [h]) (modSys_step y _ s h (Nat.le_refl _) rfl rfl rfl rfl rfl rfl rfl rfl)
@[simp] theorem deriveStart_step (y : Sys) (s : State) (hz : s.sys.zero = .no) (h : SysStep y s.sys) : SysStep y (State.deriveStart s).sys := by
  unfold State.deriveStart
  extract_lets l s1
  have h1 : SysStep y s1.sys := h.trans ⟨fun i => ⟨i.1, i.2.1, i.2.2.1, i.2.2.2.1, fun k => absurd hz k⟩, fun k => k⟩
  clear_value s1
  split <;> simp [h1]
@[simp] theorem deriveOne_step (y : Sys) (s : State) (root : BitVec 256) (n : Nat) (rest : NatSet) (hz : s.sys.zero = .no) (h : SysStep y s.sys) : SysStep y (State.deriveOne s root n rest).sys := by
  unfold State.deriveOne
  extract_lets k s1
  have h1 : SysStep y s1.sys := by
    simp only [s1, evt_sys]
    exact h.trans ⟨fun i => ⟨i.1, i.2.1, i.2.2.1, i.2.2.2.1, fun k => absurd hz k⟩, fun k => k⟩
  clear_value s1
  split <;> simp [h1]
@[simp] theorem chkWrite_step (y : Sys) (s : State) (data : W32) (h : SysStep y s.sys) : SysStep y (State.chkWrite s data).sys := by
  unfold State.chkWrite
  dsimp only
  split
  · simp [h]
  · exact settle_step _ _ (modSys_step y _ _ (by simp [h]) (Nat.le_refl _) rfl rfl rfl rfl rfl rfl rfl rfl)
@[simp] theorem reseed_step (y : Sys) (s : State) (g : Nat) (again : Bool) (h : SysStep y s.sys) : SysStep y (State.reseed s g again).sys := by
  unfold State.reseed
  (try dsimp only)
  repeat' first | (simp [h]; done) | split
@[simp] theorem seedTaken_step (y : Sys) (s : State) (w : W128) (h : SysStep y s.sys) : SysStep y (State.seedTaken s w).sys := by
  unfold State.seedTaken
  split
  · next hc =>
    refine settle_step _ _ (masterDraw_step _ _ (seedSec_step _ _ ?_))
    refine h.trans ⟨fun i => ⟨?_, i.2⟩, fun k => k⟩
    simp only [modSys_sys, List.length_append, List.length_cons, List.length_nil]; omega
  · exact h
@[simp] theorem maskHltX_step (y : Sys) (s : State) (inj : Bool) (g : Nat) (again : Bool) (h : SysStep y s.sys) : SysStep y (State.maskHltX s inj g again).sys := by
  unfold State.maskHltX
  (try dsimp only)
  repeat' first | (simp [h]; done) | split
@[simp] theorem injectNow_step (y : Sys) (s : State) (det inst : Nat) (h : SysStep y s.sys) : SysStep y (State.injectNow s det inst).sys := by
  unfold State.injectNow
  (try dsimp only)
  repeat' first | (simp [h]; done) | split
@[simp] theorem inject_step (y : Sys) (s : State) (data : W32) (h : SysStep y s.sys) : SysStep y (State.inject s data).sys := by
  unfold State.inject
  (try dsimp only)
  repeat' first | (simp [h]; done) | split
@[simp] theorem resetSlice_step (y : Sys) (s : State) (n : Nat) (h : SysStep y s.sys) : SysStep y (State.resetSlice s n).sys := by
  unfold State.resetSlice
  (try dsimp only)
  repeat' first | (simp [h]; done) | split
@[simp] theorem resetPair_step (y : Sys) (s : State) (h : SysStep y s.sys) : SysStep y (State.resetPair s).sys := by
  unfold State.resetPair
  dsimp only
  rw [modCh_sys, modPair_sys, clearPages_sys]
  exact pairDo_step _ _ _ (fun s h => by simp [h]) h
@[simp] theorem resetSec_step (y : Sys) (s : State) (h : SysStep y s.sys) : SysStep y (State.resetSec s).sys := by
  unfold State.resetSec
  extract_lets s1 s2 again l
  have e2 : s2.sys = s.sys := by
    simp only [s2, s1, clearPages_sys]
    rw [forEach_sys _ _ _ (fun s a => by simp)]
    simp
  refine h.trans ⟨fun i => ?_, fun k => by simpa [e2] using k⟩
  simp only [modSys_sys, e2]
  refine ⟨i.1, i.2.1, by dsimp only; split <;> omega, fun k => ?_, fun k => ?_⟩
  · have := i.2.2.2.1 k; simp [this]
  · obtain ⟨a, b, c, d, e⟩ := i.2.2.2.2 k
    refine ⟨a, rfl, c, ?_, e⟩
    have : again = false := by simp [again, e2, a]
    simp [l, this]
@[simp] theorem resetAo_step (y : Sys) (s : State) (h : SysStep y s.sys) : SysStep y (State.resetAo s).sys := by
  unfold State.resetAo
  extract_lets s1 s2
  have h2 : SysStep y s2.sys := by simp [s2, s1, h]
  exact modSys_step y _ s2 h2 (Nat.le_refl _) rfl rfl rfl rfl rfl rfl rfl rfl
@[simp] theorem resetShared_step (y : Sys) (s : State) (p : Page) (offs : List Nat) (h : SysStep y s.sys) : SysStep y (State.resetShared s p offs).sys := by
  unfold State.resetShared
  (try dsimp only)
  repeat' first | (simp [h]; done) | split
@[simp] theorem globPages_step (y : Sys) (s : State) (h : SysStep y s.sys) : SysStep y (State.globPages s).sys := by
  unfold State.globPages
  extract_lets s1
  have h1 : SysStep y s1.sys := by
    simp only [s1]
    rw [modRegs_sys, clearPages_sys]
    exact h
  clear_value s1
  exact resetShared_step _ _ _ _ (resetShared_step _ _ _ _ h1)
@[simp] theorem resetGlob_step (y : Sys) (s : State) (h : SysStep y s.sys) : SysStep y (State.resetGlob s).sys := by
  unfold State.resetGlob
  rw [startScan_sys]
  exact globPages_step _ _ (pairDo_step _ _ _ (fun s h => by simp [h]) (by simp [h]))
@[simp] theorem resetBegin_step (y : Sys) (s : State) (q : Part) (h : SysStep y s.sys) : SysStep y (State.resetBegin s q).sys := by
  unfold State.resetBegin
  extract_lets s1
  have h1 : SysStep y s1.sys := by simp [s1, h]
  clear_value s1
  cases q <;> simp [h1]
@[simp] theorem askReset_step (y : Sys) (s : State) (q : Part) (h : SysStep y s.sys) : SysStep y (State.askReset s q).sys := by
  unfold State.askReset
  (try dsimp only)
  repeat' first | (simp [h]; done) | split
@[simp] theorem backInService_step (y : Sys) (s : State) (q : Part) (h : SysStep y s.sys) : SysStep y (State.backInService s q).sys := by
  unfold State.backInService
  split
  · simp [h]
  · refine when_step _ _ (fun s h => by simp [h]) _ _ h
  · exact forEach_step _ _ (fun s n h => by simp [h]) _ _ h
  · exact h
@[simp] theorem resetReturn_step (y : Sys) (s : State) (q : Part) (h : SysStep y s.sys) : SysStep y (State.resetReturn s q).sys := by
  unfold State.resetReturn
  extract_lets s1 s2 s3
  have h3 : SysStep y s3.sys := by
    simp only [s3, lateFault_sys, autoDone_sys]
    refine backInService_step _ _ _ ?_
    simp [s2, s1, h]
  clear_value s3
  split
  · exact h3
  · exact resetBegin_step _ _ _ (by simp [h3])
@[simp] theorem kekAgain_step (y : Sys) (s : State) (h : SysStep y s.sys) : SysStep y (State.kekAgain s).sys := by
  unfold State.kekAgain
  split
  · next hc =>
    have hz : s.sys.zero = .no := by simp at hc; exact hc.1.2
    exact h.trans ⟨fun i => ⟨i.1, i.2.1, i.2.2.1, i.2.2.2.1, fun k => absurd hz k⟩, fun k => k⟩
  · exact h
@[simp] theorem kekUe_step (y : Sys) (s : State) (n : Nat) (h : SysStep y s.sys) : SysStep y (State.kekUe s n).sys := by
  unfold State.kekUe
  extract_lets s1
  have h1 : SysStep y s1.sys := by simp [s1, h]
  clear_value s1
  split
  · refine h1.trans ⟨fun i => ⟨i.1, i.2.1, i.2.2.1, i.2.2.2.1, fun k => ?_⟩, fun k => k⟩
    obtain ⟨a, b, c, d, e⟩ := i.2.2.2.2 k
    exact ⟨a, b, rfl, d, e⟩
  · refine kekAgain_step _ _ (h1.trans ⟨fun i => ⟨i.1, i.2.1, i.2.2.1, i.2.2.2.1, fun k => ?_⟩, fun k => k⟩)
    obtain ⟨a, b, c, d, e⟩ := i.2.2.2.2 k
    refine ⟨a, ?_, c, d, e⟩
    simp only [modSys_sys]; rw [show s1.sys.keks = [] from b]; rfl
@[simp] theorem rootUe_step (y : Sys) (s : State) (h : SysStep y s.sys) : SysStep y (State.rootUe s).sys := by
  unfold State.rootUe
  have h1 : SysStep y (s.detect 0x23 1 (atBit true 8) 0).sys := by simp [h]
  refine h1.trans ⟨fun i => ⟨i.1, i.2.1, i.2.2.1, fun k => by simp at k, fun k => ?_⟩, fun k => k⟩
  obtain ⟨a, b, c, d, e⟩ := i.2.2.2.2 k
  exact ⟨rfl, b, c, d, e⟩
@[simp] theorem masterUe_step (y : Sys) (s : State) (h : SysStep y s.sys) : SysStep y (State.masterUe s).sys := by
  unfold State.masterUe
  (try dsimp only)
  repeat' first | (simp [h]; done) | split
@[simp] theorem ue_step (y : Sys) (s : State) (loc : UeLoc) (h : SysStep y s.sys) : SysStep y (State.ue s loc).sys := by
  unfold State.ue
  (try dsimp only)
  repeat' first | (simp [h]; done) | split
@[simp] theorem cfgPar_step (y : Sys) (s : State) (p : Page) (off : Nat) (h : SysStep y s.sys) : SysStep y (State.cfgPar s p off).sys := by
  unfold State.cfgPar
  extract_lets t1 t2 t3
  have e1 : SysStep y t1.sys := by simp [t1, h]
  have e2 : SysStep y t2.sys := by
    simp only [t2]
    clear_value t1
    split <;> simp [e1]
  clear_value t2
  refine cfgActs_step _ _ _ _ ?_
  exact when_step _ _ (fun s h => by simp [h]) _ _ e2
@[simp] theorem parityTest_step (y : Sys) (s : State) (p : Page) (n : Nat) (h : SysStep y s.sys) : SysStep y (State.parityTest s p n).sys := by
  unfold State.parityTest
  (try dsimp only)
  repeat' first | (simp [h]; done) | split
@[simp] theorem latentFailed_step (y : Sys) (s : State) (t inst : Nat) (h : SysStep y s.sys) : SysStep y (State.latentFailed s t inst).sys := by
  unfold State.latentFailed
  split
  rotate_right 2
  · split
    · generalize Config.freeReg s.freeCtr = n
      exact parityTest_step y s.draw _ n (by rw [draw_sys]; exact h)
    · exact h
  all_goals repeat' first | (simp [h]; done) | split
@[simp] theorem setTm_step (y : Sys) (s : State) (copyA : Bool) (t : Stamp) (h : SysStep y s.sys) : SysStep y (State.setTm s copyA t).sys := by
  unfold State.setTm
  cases copyA <;> exact modSys_step y _ s h (Nat.le_refl _) rfl rfl rfl rfl rfl rfl rfl rfl
@[simp] theorem stepped_step (y : Sys) (s : State) (copyA : Bool) (old new elapsed : Nat) (h : SysStep y s.sys) : SysStep y (State.stepped s copyA old new elapsed).sys := by
  unfold State.stepped
  extract_lets s1
  have h1 : SysStep y s1.sys := modSys_step y _ _ (by simp [h]) (Nat.le_refl _) rfl rfl rfl rfl rfl rfl rfl rfl
  clear_value s1
  exact when_step _ _ (fun s h => by simp [h]) _ _ h1
@[simp] theorem takeSample_step (y : Sys) (s : State) (copyA vld : Bool) (sec ns elapsed : Nat) (h : SysStep y s.sys) : SysStep y (State.takeSample s copyA vld sec ns elapsed).sys := by
  unfold State.takeSample
  split
  · simp [h]
  · dsimp only
    exact setTm_step _ _ _ _ (when_step _ _ (fun s h => by simp [h]) _ _ h)
@[simp] theorem clkOne_step (y : Sys) (s : State) (i : Nat) (f : W32) (h : SysStep y s.sys) : SysStep y (State.clkOne s i f).sys := by
  unfold State.clkOne
  dsimp only
  exact when_step _ _ (fun s h => by simp [h]) _ _ (modSys_step y _ s h (Nat.le_refl _) rfl rfl rfl rfl rfl rfl rfl rfl)
@[simp] theorem capture_step (y : Sys) (s : State) (r : TimeReg) (h : SysStep y s.sys) : SysStep y (State.capture s r).sys := by
  unfold State.capture
  split
  exact modSys_step y _ s h (Nat.le_refl _) rfl rfl rfl rfl rfl rfl rfl rfl
@[simp] theorem marchCmd_step (y : Sys) (s : State) (op : Nat) (h : SysStep y s.sys) : SysStep y (State.marchCmd s op).sys := by
  unfold State.marchCmd
  exact settle_step _ _ (by simp [marchRun_sys, h])
@[simp] theorem marchStart_step (y : Sys) (s : State) (op : Nat) (h : SysStep y s.sys) : SysStep y (State.marchStart s op).sys := through_step _ _ _ _ _ _ (fun s h => marchCmd_step _ s op h) h
@[simp] theorem marchKeygen_step (y : Sys) (s : State) (h : SysStep y s.sys) : SysStep y (State.marchKeygen s).sys := by
  unfold State.marchKeygen
  split <;> simp [h]
@[simp] theorem readActs_step (y : Sys) (s : State) (p : Page) (off : Nat) (h : SysStep y s.sys) : SysStep y (State.readActs s p off).sys := by
  unfold State.readActs
  (try dsimp only)
  repeat' first | (simp [h]; done) | split
@[simp] theorem readAt_step (y : Sys) (s : State) (a : Nat) (h : SysStep y s.sys) : SysStep y ((State.readAt s a).2).sys := by
  unfold State.readAt
  (try dsimp only)
  repeat' first | (simp [h]; done) | split
@[simp] theorem cpRead_step (y : Sys) (s : State) (a size : Nat) (h : SysStep y s.sys) : SysStep y (State.cpRead s a size).sys := by
  unfold State.cpRead
  (try dsimp only)
  repeat' first | (simp [h]; done) | split
@[simp] theorem writeAct_step (y : Sys) (s : State) (p : Page) (off : Nat) (data : W32) (h : SysStep y s.sys) : SysStep y (State.writeAct s p off data).sys := by
  unfold State.writeAct
  split
  all_goals first
    | (simp [h]; done)
    | skip
  · split
    · next hc =>
      refine deriveStart_step _ _ ?_ h
      unfold State.canDerive at hc
      simp at hc
      exact hc.1.2
    · simp [h]
  all_goals (repeat' first | (simp [h]; done) | split)
@[simp] theorem writeReg_step (y : Sys) (s : State) (p : Page) (off : Nat) (data : W32) (h : SysStep y s.sys) : SysStep y (State.writeReg s p off data).sys := gated_step _ _ _ _ _ _ _ (fun s h => writeAct_step _ s p off data h) h
@[simp] theorem writeAt_step (y : Sys) (s : State) (a : Nat) (data : W32) (h : SysStep y s.sys) : SysStep y (State.writeAt s a data).sys := by
  unfold State.writeAt
  (try dsimp only)
  repeat' first | (simp [h]; done) | split
@[simp] theorem cpWrite_step (y : Sys) (s : State) (a size : Nat) (data : W64) (h : SysStep y s.sys) : SysStep y (State.cpWrite s a size data).sys := by
  unfold State.cpWrite
  (try dsimp only)
  repeat' first | (simp [h]; done) | split
theorem zeroise_sound (s : State) (n : Nat) (h : s.sys.sound) : (s.zeroise n).sys.sound :=
  (zeroise_step s.sys s n (SysStep.refl _)).1 h
theorem coldReset_sound (s : State) (b : Bool) : (s.coldReset b).sys.sound := by
  have h0 : Sys.sound {} := ⟨by simp, by simp, by simp, by simp, by simp⟩
  have h1 : Sys.sound { tamperHeld := true } := ⟨by simp, by simp, by simp, by simp, by simp⟩
  unfold State.coldReset
  cases b
  · simp only [Bool.false_eq_true, if_false]; exact h0
  · simp only [if_true]; exact zeroise_sound _ 1 h1

end Sys2Proof.Machine
end

