-- ==== Sys2Proof/Laws/Security.lean ====
section
/-! SUPPORT. What zeroisation does to the security core: all its keys are gone at once, and beyond that it takes nothing but
seed words and the answer to a waiting KEK_CHK_IDX. -/
namespace Sys2Proof.Machine

/-- A change of a peer's record and the report it may send take nothing of the security core but seed words. -/
theorem pairDo_only (y : Sys) (s : State) (f : State → State) (hy : s.sys = y) (hf : (f s).sys = s.sys) :
    SeedsOnly y (s.pairDo f).sys := by
  subst hy
  exact pairSince_seeds _ _ s (by rw [hf]; exact SeedsOnly.refl _)
theorem when_only (y : Sys) (s : State) (c : Bool) (f : State → State) (h : SeedsOnly y s.sys) (hf : SeedsOnly y (f s).sys) :
    SeedsOnly y (s.when c f).sys := by cases c <;> simp [h, hf]
/-- The security core the moment its keys are gone and the memories are still being erased (R273). -/
def Sys.wiped (y : Sys) : Sys := { y with
      zero := .running, rootKey := none, klPartial := 0, klDead := true, keks := [], kek63 := none, derive := [],
      rederive := false, kekReady := false, vaultMask := none }
theorem wiped_erased (y : Sys) : y.wiped.erased := by simp [Sys.wiped, Sys.erased]
/-- Zeroisation leaves the wiped security core, seed words and a waiting command apart. -/
theorem zeroise_sys (s : State) (n : Nat) (h : s.sys.zero = .no) : SeedsOnly s.sys.wiped (s.zeroise n).sys := by
  unfold State.zeroise
  rw [if_neg (by simp [h])]
  extract_lets s1 s2 s3 s4 s5 s6
  have e1 : s1.sys = s.sys := by simp [s1]
  have e2 : s2.sys = s.sys := by simp only [s2]; split <;> simp [e1]
  have e5 : s5.sys = s3.sys := by simp [s5, s4]
  have e3 : s3.sys = s.sys.wiped := by simp only [s3, modSys_sys, e2]; rfl
  rw [← e3]
  have e6 : SeedsOnly s3.sys s6.sys := by
    simp only [s6]
    rw [← e5]
    exact pairDo_only _ _ _ (by simp) (by simp)
  clear_value s6 s3
  refine when_only _ _ _ _ e6 ?_
  have h := settle_seeds ((s6.wakeDom 1).wakeDom 53)
  simp only [wakeDom_sys] at h
  exact SeedsOnly.trans e6 h
/-- A reset with the tamper input asserted leaves the wiped security core. -/
theorem coldReset_tamper (s : State) : SeedsOnly (Sys.wiped { tamperHeld := true }) (s.coldReset true).sys := by
  unfold State.coldReset
  rw [if_pos rfl]
  exact zeroise_sys _ 1 rfl

end Sys2Proof.Machine
end

