-- ==== Sys2Proof/Laws/Settle.lean ====
section
/-! SUPPORT. What a command leaves to be done: with nothing under way, nothing happens; and a window command that ends at
once is carried no further. -/
namespace Sys2Proof.Machine

/-- A loop none of whose turns does anything does nothing. -/
theorem forEach_id {α : Type} (s : State) (l : List α) (f : State → α → State) (h : ∀ a ∈ l, f s a = s) :
    s.forEach l f = s := by
  induction l with
  | nil => rfl
  | cons a l ih => rw [forEach_cons, h a (by simp)]; exact ih (fun b hb => h b (by simp [hb]))

theorem reap_idle (s : State) (h : s.entriesIdle = true) : s.reap = s := by
  refine forEach_id s _ _ (fun p hp => ?_)
  have := List.all_eq_true.mp h p hp
  dsimp only
  split
  · next en he =>
    rw [he] at this
    rw [if_neg]
    rintro ⟨hl, hv, -⟩
    simp [hl, hv] at this
  · rfl

theorem pumpStore_idle (s : State) (h : s.store.wait = []) (hc : s.store.cmd = none) : s.pumpStore = s := by
  have hn : s.nextReq = none := by unfold State.nextReq; simp [h, firstReq]
  have h1 : ∀ k, pumpStoreN k s = s := fun k => by cases k <;> simp [pumpStoreN, hn]
  have h2 : s.countWaits = s := by unfold State.countWaits; rw [h]; rfl
  unfold State.pumpStore
  rw [h1, h2]
  unfold State.flushCheck
  rw [hc]

theorem storeSettle_idle (k : Nat) (s : State) (h : s.storeIdle = true) (hc : s.store.cmd = none) :
    storeSettle k s = s := by
  unfold State.storeIdle at h
  simp only [Bool.and_eq_true, List.isEmpty_iff] at h
  cases k with
  | zero => rfl
  | succ k => unfold storeSettle; rw [pumpStore_idle s h.1 hc]; simp [h.2]

theorem regRetry_idle (s : State) (h : s.sys.chkWait = false) (hr : s.pager.calRead = false) (hp : s.pager.calPut = []) :
    s.regRetry = s := by
  unfold State.regRetry
  simp [h, hr, hp, State.when]

theorem idle_cmds (s : State) (h : s.windowsIdle = true) :
    s.pager.saw = none ∧ s.pager.keyw = none ∧ s.lease.cmd = none ∧ s.store.cmd = none := by
  unfold State.windowsIdle at h
  simp only [Bool.and_eq_true, Option.isNone_iff_eq_none] at h
  exact ⟨h.1.1.1.1.1.1, h.1.1.1.1.1.2, h.1.1.1.1.2, h.1.1.1.2⟩
theorem idle_regs (s : State) (h : s.windowsIdle = true) : s.regRetry = s := by
  unfold State.windowsIdle at h
  simp only [Bool.and_eq_true, Bool.not_eq_true', List.isEmpty_iff] at h
  exact regRetry_idle s h.1.1.2 h.1.2 h.2
theorem winRetry_idle (s : State) (h : s.windowsIdle = true) : s.winRetry = s := by
  obtain ⟨h1, h2, h3, h4⟩ := idle_cmds s h
  have a : s.sawRun = s := by unfold State.sawRun; rw [h1]
  have b : s.keywRun = s := by unfold State.keywRun; rw [h2]
  have c : s.leaseRun = s := by unfold State.leaseRun; rw [h3]
  have d : s.storeRun = s := by unfold State.storeRun; rw [h4]
  unfold State.winRetry
  rw [idle_regs s h, a, b, c, d]

theorem pumpLease1_idle (s : State) (h : s.journalIdle = true) : s.pumpLease1 = s := by
  unfold State.journalIdle at h
  unfold State.pumpLease1
  dsimp only
  split
  · rfl
  · next hc =>
    have hs : s.lease.scanDone = true := by
      cases hd : s.lease.scanDone
      · exact absurd (Or.inr (Or.inl hd)) hc
      · rfl
    simp only [hs, Bool.not_true, Bool.false_or, Bool.and_eq_true, List.isEmpty_iff, Option.isNone_iff_eq_none,
      Bool.not_eq_true'] at h
    obtain ⟨⟨⟨⟨⟨⟨⟨h1, h2⟩, h3⟩, h4⟩, h5⟩, h6⟩, -⟩, -⟩ := h
    have hr : s.lease.requesters = [] := by unfold Lease.requesters; rw [h1]; rfl
    simp [h1, h2, h3, h4, h5, h6, hr]

theorem jnlAdmit_idle (s : State) (h : s.journalIdle = true) : s.jnlAdmit = s := by
  unfold State.journalIdle at h
  unfold State.jnlAdmit
  split
  · next hs =>
    simp only [hs, Bool.not_true, Bool.false_or, Bool.and_eq_true, List.isEmpty_iff, Bool.not_eq_true'] at h
    obtain ⟨⟨-, h5⟩, h6⟩ := h
    dsimp only
    rw [h5, forEach_nil]
    obtain ⟨sys, regs, dp, slices, ch, lease, pager, keyx, store, cnt, pwr, flt, pair, freeCtr, out, pending⟩ := s
    obtain ⟨⟩ := pair
    simp only at h5 h6
    subst h5 h6
    rfl
  · rfl

theorem pumpLease_idle (s : State) (h : s.journalIdle = true) : s.pumpLease = s := by
  unfold State.pumpLease
  rw [jnlAdmit_idle s h]
  have : ∀ l : List Nat, l.foldl (fun s _ => s.pumpLease1) s = s := fun l => by
    induction l with
    | nil => rfl
    | cons a l ih => rw [List.foldl_cons, pumpLease1_idle s h]; exact ih
  exact this _

theorem pairPump_idle (s : State) (h : s.mirrorIdle = true) : s.pairPump = s := by
  unfold State.mirrorIdle at h
  simp only [Bool.and_eq_true] at h
  unfold State.pairPump
  rw [if_pos ⟨h.1.1, h.1.2, h.2⟩]

theorem wakeNeeded_idle (s : State) (h : s.domainsIdle = true) : s.wakeNeeded = s := by
  unfold State.domainsIdle at h
  simp only [Bool.and_eq_true, Bool.or_eq_true, decide_eq_true_eq] at h
  unfold State.wakeNeeded
  split
  · rfl
  · next hp =>
    have ha := h.1.resolve_left hp
    refine forEach_id s _ _ (fun d hd => ?_)
    have hw : s.wakeDom d = s := by
      have := List.all_eq_true.mp ha d hd
      simp only [Bool.or_eq_true, decide_eq_true_eq] at this
      unfold State.wakeDom
      rcases this with e | e <;> simp only [e]
    unfold State.when
    split
    · exact hw
    · rfl

theorem pmPump_idle (s : State) (h : s.domainsIdle = true) : s.pmPump = s := by
  unfold State.domainsIdle at h
  simp only [Bool.and_eq_true] at h
  refine forEach_id s _ _ (fun d hd => ?_)
  have := List.all_eq_true.mp h.2 d hd
  rw [Option.isNone_iff_eq_none] at this
  rw [this]

theorem idle_parts (s : State) (h : s.idle = true) :
    s.storeIdle = true ∧ s.windowsIdle = true ∧ s.journalIdle = true ∧ s.mirrorIdle = true ∧ s.entriesIdle = true ∧
    s.domainsIdle = true := by
  unfold State.idle at h
  simp only [Bool.and_eq_true] at h
  exact ⟨h.1.1.1.1.1, h.1.1.1.1.2, h.1.1.1.2, h.1.1.2, h.1.2, h.2⟩

/-- What is left to do ends with the window commands in progress when they leave nothing under way. -/
theorem settle_run (s t : State) (hd : s.domainsIdle = true) (he : s.entriesIdle = true) (hs : s.storeIdle = true)
    (hc : s.store.cmd = none) (hr : s.winRetry = t) (ht : t.idle = true) : s.settle = t := by
  obtain ⟨h1, h2, h3, h4, -, h6⟩ := idle_parts t ht
  unfold State.settle
  dsimp only
  rw [wakeNeeded_idle s hd, reap_idle s he, storeSettle_idle 8 s hs hc, hr, storeSettle_idle 8 t h1 (idle_cmds t h2).2.2.2,
    pumpLease_idle t h3, pairPump_idle t h4, wakeNeeded_idle t h6, pmPump_idle t h6]

/-- With nothing under way, nothing is left to do. -/
theorem settle_idle (s : State) (h : s.idle = true) : s.settle = s := by
  obtain ⟨h1, h2, -, -, h5, h6⟩ := idle_parts s h
  exact settle_run s s h6 h5 h1 (idle_cmds s h2).2.2.2 (winRetry_idle s h2) h

/-- A SAW command that ends at once and leaves nothing under way. -/
theorem settle_saw (s t : State) (hd : s.domainsIdle = true) (he : s.entriesIdle = true) (hs : s.storeIdle = true)
    (hc : s.store.cmd = none) (hg : s.regRetry = s) (hr : s.sawRun = t) (ht : t.idle = true) : s.settle = t := by
  refine settle_run s t hd he hs hc ?_ ht
  have hw := (idle_parts t ht).2.1
  obtain ⟨-, b, c, d⟩ := idle_cmds t hw
  unfold State.winRetry
  rw [hg, hr]
  have b' : t.keywRun = t := by unfold State.keywRun; rw [b]
  have c' : t.leaseRun = t := by unfold State.leaseRun; rw [c]
  have d' : t.storeRun = t := by unfold State.storeRun; rw [d]
  rw [b', c', d']

end Sys2Proof.Machine
end

