-- ==== Sys2Proof/WellFormed.lean ====
section
/-! DEFINITION. Commands that the world can bring: operands of the sizes the buses carry. A meaning does not assume
that its command is well formed; a command that is not is one that no neighbour of the block can send. -/
namespace Sys2Proof

/-- A frame's bytes as segments carry them: whole segments of 32 B until the EOF segment, which has 1 to 32 (R26).
[DESIGN CHOICE: log 9] -/
def wfFrame (bytes : Bytes) (eof : Bool) : Bool :=
  decide (0 < bytes.length) && (eof || decide (bytes.length % 32 = 0))
/-- A pair or arbiter message is a whole number of bytes that its transport carries: at least a header and a tag, at
most 1,000 B (R317, R319). [DESIGN CHOICE: log 9] -/
def wfMsg (msg : Bytes) : Bool := decide (40 ≤ msg.length) && decide (msg.length ≤ 1000)

/-- A command that a neighbour of the block can bring. [DEDUCED, DESIGN CHOICE: log 9, 108] -/
def Instr.wf : Instr → Bool
  | .timeSample _ _ _ ns _ => decide (ns.toNat < 1000000000)
  | .egressFrameAdmit _ _ _ bytes _ _ eof => wfFrame bytes eof
  | .ingressFrameAdmit _ _ _ bytes _ _ eof => wfFrame bytes eof
  | .storeReadResponse _ err data side _ => err || (decide (data.length = 64) && decide (side.length = 8))
  | .nvReadResponse err data => err || decide (data.length = 32)
  | .hello m => wfMsg m
  | .beat m => wfMsg m
  | .health m => wfMsg m
  | .ack m => wfMsg m
  | .syncReq m => wfMsg m
  | .lease m => wfMsg m
  | .slot m => wfMsg m
  | .sched m => wfMsg m
  | .floor m => wfMsg m
  | .syncEnd m => wfMsg m
  | .grant m => wfMsg m
  | .zeroiseComplete bad => decide bad.Nodup
  | .sliceFault _ det => decide (1 ≤ det.toNat) && decide (det.toNat ≤ 9)
  | _ => true

end Sys2Proof
end

