-- ==== Sys2Proof/Tests/Slice0.lean ====
section
/-! SUPPORT. Small tests of single steps, ill-formed commands that the checks refuse, and for each statement with hypotheses a
named witness: states and operands that meet them, clause by clause, with what the command then leaves. -/
set_option Elab.async false
open Sys2Proof Sys2Proof.Machine

/-- A window command has ended, as a Boolean. -/
def Sys2Proof.Machine.State.endedB (t : State) (p : Page) (off flag code op detail : Nat) : Bool :=
  !(t.hdr p).busy && t.roW p off == (atPos (code % 256) 24 ||| atPos (op % 256) 16 ||| atPos (detail % 65536) 0) &&
    t.flag p 0x40 flag
/-- Zeroisation has erased the keys, as a Boolean. -/
def Sys2Proof.Machine.Sys.erasedB (y : Sys) : Bool :=
  y.rootKey.isNone && y.klPartial == 0 && y.klDead && y.keks.isEmpty && y.kek63.isNone && y.derive.isEmpty &&
    !y.kekReady && y.vaultMask.isNone

namespace Sys2Proof.Tests

def nextOf (o : Host.Outcome State Fault Refusal) (p : State → Bool) : Bool :=
  match o with
  | .next t => p t
  | _ => false
def doms : Tab Dom := ([1, 2, 3] ++ (List.range 10).map (· + 44)).map (fun d => (d, { season := .summer }))
def on : State := { sys := { phase := 5 }, pwr := { dom := doms } }
def slUp : Tab Slice := (List.range 40).map (fun n => (n, { st := .summer }))
def onSl : State := { on with slices := { sl := slUp } }
def ch5 (en : Entry) (a b : Slot) (s : State) : State :=
  { s with ch := { s.ch with
      resi := [(5, { v := true, idx := 0 })], entries := [(0, some en)], slots := [(0, a), (1, b)].filter (fun p => p.2 ≠ {}) } }
def unl (p : Page) (s : State) : State := s.setUnlocked p true
def prt (n : Nat) (s : State) : State := ((s.setCfg (.port n) 0x80 0x100).setStaged (.port n) 0x80 0x100).modPair (fun p =>
    { p with role := .unpaired })
def bypAll : W128 := BitVec.ofNat 128 (2 ^ 127 + 2 ^ 126 + 2 ^ 125 + 2 ^ 32 - 1)
def dsc (v : Nat) : W64 := withChk v
def lng : Bytes := zeros 12 ++ [0x08, 0x00] ++ zeros 46
def stopFrame : Frame := { id := 3, dir := .egress, port := 31, express := false, desc := 0, stamp := {}, at_ := 0, bytes := lng, eof := true }
def frs (l : List Frame) (s : State) : State := { s with dp := { s.dp with frames := l, nextFrame := 9 } }
def txCfg (port suite : Nat) : W32 := atBit true 31 ||| atPos port 24 ||| atPos suite 21
def liveSl : Slot := { st := .live, an := 2, gen := 7, klc := 1, key := zeros 16, salt := zeros 12, next := 40, bnd := 50, ceil := 60, lst := .run }
def tbl (s : State) : State := { s with ch := { s.ch with entries := [(0, some { chix := 7, live := true })] } }
def lineOf (k : Nat) : Bytes := (List.range 64).map (fun i => BitVec.ofNat 8 (i + k))
def req (wr : Bool) : SReq := { ser := 3, wr := wr, line := 9, kix := 4, who := .host, id := 255, sel := 4, seed := 6 }
def hostSt (wr : Bool) : State := { on with store := { on.store with nextId := 4, master := 5, out := [req wr], cmd := some 0x00040001 } }
def hdrBytes (sec : Nat) (st : Byte) : Bytes :=
  let b : Bytes := [0x43, 0x57, 0x4A, 0x31, st, 0x01] ++ beBytes 2 sec ++ beBytes 8 77 ++ beBytes 4 5 ++ zeros 8
  b ++ beBytes 4 (crc32 b).toNat
def calW (kind p sec : Nat) : W128 := BitVec.ofNat 128
    (kind * 2 ^ 126 + 1 * 2 ^ 125 + 9 * 2 ^ 112 + 4095 * 2 ^ 100 + p * 2 ^ 80 + sec * 2 ^ 32 + 1)
def tmA (t : Nat) (s : State) : State := { s with sys := { s.sys with tmA := { vld := true, ns := t } } }
def tmL (t : Nat) (s : State) : State := { s with sys := { s.sys with tmL := { vld := true, ns := t } } }
def mrch (m : March) (s : State) : State := { (s.setCfg .march 0x94 60) with store := { s.store with march := m } }
def large (s : State) : State := (s.setCfg .store 0x80 1).setCfg .store 0x84 1024
def keyed : State := let s := large on; { s with store := { s.store with sels := [(0, { seed := some 6 })], cache := [0] } }
def dm (d : Nat) (m : Dom) (s : State) : State := { s with pwr := { s.pwr with dom := Tab.set {} s.pwr.dom d m } }
def slc (n : Nat) (c : Slice) (s : State) : State := { s with slices := { s.slices with sl := Tab.set {} s.slices.sl n c } }
def gov (s : State) : State := s.setCfg .pwr 0x80 0xF
def sds (l : List W128) (s : State) : State := { s with sys := { s.sys with seeds := l } }
def ev0 : FEvent := { cls := 1, alarm := false, det := 0x47, inst := 3, inj := false, infoA := 1, infoB := 2, page := 5, at_ := {} }
def fl (f : Faults) (s : State) : State := { s with flt := f }
def hld (q : Part) (s : State) : State := { s with flt := { s.flt with held := [q] } }
def pkey : Bytes := beBytes 32 7
def ses : Session := { sid := 0x01020304, keyTx := beBytes 32 8, keyRx := beBytes 32 9, txSeq := 5, rxSeq := 6 }
def pr (r : Role) (s : State) : State := (s.setCfg .pair 0x80 1).modPair (fun p => { p with
  role := r, cfgSet := true, session := some ses, pk := some pkey, ak := some pkey, peerLost := false })
def nonced (s : State) : State := s.modPair (fun p => { p with nonces := [beBytes 12 3], epoch := 7 })
def mit : MItem := { bytes := leaseItem 5 false true 9 600 |>.bytes, chix := 5, slotB := false, tag := 9, ceil := 600 }
def setArgs (l : List W32) (s : State) : State := (List.range l.length).foldl (fun s i => s.setCfg .saw (0xC0 + 4 * i)
    (l.getD i 0)) s
def enTx : Entry := { chix := 5, live := true, cfg0 := txCfg 31 3 }
def enRx : Entry := { chix := 5, live := true, cfg0 := txCfg 31 3 ||| 0x40000000 }
def quiet (sl : Slot) : Slot := { sl with lst := .none }
def jl : Live := { ent := { chix := 5, kind := 0, av := true, tagA := 9, ceilA := 600, bv := false, tagB := 0, ceilB := 0x0123456789 }, unit := 3, handle := 1 }
def jst : State := { on with lease := { on.lease with scanDone := true, dir := [(5, some jl)] } }
def act (s : State) : State := s.modPair (fun p => { p with role := .unpaired })
def stord (s : State) : State := { s with ch := { s.ch with resi := [(5, { v := true, idx := 0xFFFF, rec_ := true })] } }
def blobB (klc : Byte) : Bytes := [0x01, 0, klc, 1, 0, 9, 0, 0] ++ zeros 152
def kwIn (s : State) : State := { s with sys := { s.sys with rootKey := some 1, klTaken := 8, keks := [(0, 1)] } }
def prtReq (n : Nat) : State := (((on.setStaged (.port n) 0x80 0x100)).modHdr (.port n) (fun h => { h with dirty := true }))
def chk (d : Dir) (p : Nat) (c : Bool) (s : State) : State := ({ s with out := [] } : State).finalChecks (chanKey d p c)

/-! ### Commands that no neighbour can send -/

theorem test_wf_time : Instr.wf (.timeSample false true 0 1000000000 0) = false := by decide
theorem test_wf_frame_empty : Instr.wf (.egressFrameAdmit 0 false 0 [] false false true) = false := by decide
theorem test_wf_frame_part : Instr.wf (.ingressFrameAdmit 0 false 0 (zeros 33) false false false) = false := by decide
theorem test_wf_line : Instr.wf (.storeReadResponse 0 false (zeros 63) (zeros 8) false) = false := by decide
theorem test_wf_unit : Instr.wf (.nvReadResponse false (zeros 31)) = false := by decide
theorem test_wf_msg_short : ∀ c ∈ [Instr.hello (zeros 39), .beat (zeros 39), .health (zeros 39), .ack (zeros 39), .syncReq (zeros 39),
    .lease (zeros 39), .slot (zeros 39), .sched (zeros 39), .floor (zeros 39), .syncEnd (zeros 39), .grant (zeros 39)],
    c.wf = false := by decide
theorem test_wf_msg_long : Instr.wf (.lease (zeros 1001)) = false := by decide +kernel
theorem test_wf_banks : Instr.wf (.zeroiseComplete [3, 3]) = false := by decide
theorem test_wf_detector : Instr.wf (.sliceFault 0 10) = false ∧ Instr.wf (.sliceFault 0 0) = false := by decide
theorem test_wf_good : Instr.wf (.egressFrameAdmit 0 false 0 (zeros 64) false false false) = true ∧ Instr.wf .grpGo = true := by decide
theorem test_no_words : decodeTableWord 0 0 = none ∧ State.withFetchWord on 16 5 = on := by decide +kernel

/-! ### Words that the specification works out

The check byte of a descriptor (R30), the example keys and blocks of the standards that R67, R154, R161 and R246 name. -/

theorem test_aes_fips197 : aes (beBytes 16 0x000102030405060708090a0b0c0d0e0f) (beBytes 16 0x00112233445566778899aabbccddeeff) =
    beBytes 16 0x69c4e0d86a7b0430d8cdb78070b4c55a := by decide +kernel
theorem test_cmac_rfc4493 : cmacWhole (beBytes 16 0x2b7e151628aed2a6abf7158809cf4f3c) (beBytes 16 0x6bc1bee22e409f96e93d7e117393172a) =
    beBytes 16 0x070a16b46b4d4144f79bdd9dd04a287c := by decide +kernel
theorem test_gcm_zero_tag : gmac (zeros 16) (zeros 12) [] = beBytes 16 0x58e2fccefa7e3061367f1d57a4e7455a := by decide +kernel

/-! ### Witnesses of the statements about two states -/

def next (s : State) : State :=
  match step s with
  | .next t => t
  | _ => s
theorem wit_StepTakesFront :
    (∃ (c : Instr) (rest : List Instr) (s : State), s.pending = c :: rest ∧
      nextOf (step s) (fun t => decide (t.pending = rest ∧ t.sys.rnErr = true)) = true) ∧
    ∃ s : State, s.pending = [] ∧ nextOf (step s) (fun t => decide (t.sys.aoClk = 1 ∧ (t.hdr .flt).busy = false)) = true :=
  ⟨⟨.rnFault, [.klFail], { on with pending := [.rnFault, .klFail] }, by decide +kernel⟩, on.setBusy .flt true,
      by decide +kernel⟩
theorem wit_SoundKept : ∃ s t : State, s.sys.sound ∧ step s = .next t :=
  ⟨{ on with pending := [.klFail] }, _, by unfold Sys.sound; decide +kernel, rfl⟩
theorem wit_FramesNumberedKept : ∃ s t : State, s.dp.numbered ∧ step s = .next t :=
  ⟨frs [stopFrame] { on with pending := [.bseSofRelease 31 false] }, _, by simp only [Dp.numbered]; decide +kernel, rfl⟩
theorem wit_ZeroisationLasts : ∃ (c : Instr) (rest : List Instr) (s t : State), s.sys.sound ∧ s.pending = c :: rest ∧
    (∀ b, c ≠ .rstN b) ∧ s.sys.zero ≠ .no ∧ step s = .next t :=
  ⟨.klBeat 0 1, [], { on with sys := { on.sys with zero := .running, klDead := true }, pending := [.klBeat 0 1] }, _,
    by unfold Sys.sound; decide +kernel, rfl, (by intro b h; cases h), by decide, rfl⟩
theorem wit_DatapathFrame : ∃ t : State, exec (.bseSofRelease 31 false) on = .next t := ⟨_, rfl⟩
theorem wit_RegisterFrame : ∃ t : State, exec .fltRecClrOne on = .next t := ⟨_, rfl⟩
theorem wit_PairFrame : ∃ t : State, exec .beatTimer (pr .active on) = .next t := ⟨_, rfl⟩
theorem wit_SecurityFrame : (∃ t : State, exec (.klBeat 0 1) on = .next t) ∧ ∃ t : State, exec .eqxLogRead on = .next t :=
  ⟨⟨_, rfl⟩, _, rfl⟩
theorem wit_BucketDigest : ∃ (cmd : W32) (f : Nat → Bytes) (s : State), s.canRun .saw = true ∧ s.sawClear = true ∧
    (∀ y ∈ s.bucketChans (cmdChix cmd / 1024), ∃ (e : Nat) (en : Entry), s.resident y = some e ∧ s.entry e = some en ∧
      f y = bucketString y en.cfg0 en.pinned en.window en.sci (s.groupOf y)) ∧ s.bucketChans (cmdChix cmd / 1024) ≠ [] := by
  refine ⟨0x500, fun y => bucketString y (txCfg 31 3) false 0 0 0, ch5 enTx (quiet liveSl) {} on, by decide +kernel,
      by decide +kernel,
    fun y hy => ⟨0, enTx, ?_⟩, by decide +kernel⟩
  have h : State.bucketChans (ch5 enTx (quiet liveSl) {} on) (cmdChix 0x500 / 1024) = [5] := by decide +kernel
  rw [h, List.mem_singleton] at hy
  subst hy
  exact ⟨by decide +kernel, by decide +kernel, by rw [show State.groupOf (ch5 enTx
      (quiet liveSl) {} on) 5 = 0 by decide +kernel]; rfl⟩

/-! ### Witnesses of the statements, clause by clause -/


theorem wit_ZeroisationErasesKeys :
    (∃ (f : Fin 2) (s : State),
      s.sys.zero = .no ∧
      (f.val = 0 ∨ s.secOn = true) ∧
      nextOf (exec (.tamper f) s) (fun t => decide (t.sys.zero = .running) && decide (t.sys.erasedB = true)) = true) ∧
    (∃ (f : Fin 2) (s : State),
      s.sys.zero = .no ∧
      (f.val = 0 ∨ s.secOn = true)) ∧
    (∃ (data : W32) (s : State),
      s.sys.zero = .no ∧
      s.free .sec = true ∧
      (s.hdr .sec).unlocked = true ∧
      bit data 0 = true ∧
      nextOf (exec (.zeroise data) s) (fun t => decide (t.sys.zero = .running) && decide (t.sys.erasedB = true)) = true) ∧
    (∃ (banks : List (BitVec 8)) (s : State),
      s.sys.zero = .running ∧
      nextOf (exec (.zeroiseComplete banks) s) (fun t => decide (t.sys = { s.sys with zero := .done })) = true) :=
  ⟨⟨0, State.reset, by decide +kernel⟩,
  ⟨1, on, by decide +kernel⟩,
  ⟨1, (unl .sec on), by decide +kernel⟩,
  ⟨[], { on with sys := { on.sys with zero := .running } }, by decide +kernel⟩⟩

theorem wit_RootKeyAndSeeds :
    (∃ (beat : BitVec 3) (data : W32) (s : State),
      4 ≤ s.sys.phase ∧
      s.sys.klTaken < 8 ∧
      s.sys.klDead = false ∧
      beat.toNat = s.sys.klTaken ∧
      nextOf (exec (.klBeat beat data) s) (fun t => decide (t.sys = (let v := s.sys.klPartial <<< 32 ||| BitVec.ofNat 256 (ofBe (leBytes 4 data.toNat))
        if beat = 7 then { s.sys with rootKey := some v, klPartial := 0, klTaken := 8, klAck := true }
        else { s.sys with klPartial := v, klTaken := s.sys.klTaken + 1 }))) = true) ∧
    (∃ (beat : BitVec 3) (data : W32) (s : State),
      4 ≤ s.sys.phase ∧
      s.sys.klTaken < 8 ∧
      s.sys.klDead = false ∧
      beat.toNat = s.sys.klTaken) ∧
    (∃ (beat : BitVec 3) (data : W32) (s : State),
      4 ≤ s.sys.phase ∧
      s.sys.klTaken < 8 ∧
      s.sys.klDead = false ∧
      beat.toNat ≠ s.sys.klTaken ∧
      nextOf (exec (.klBeat beat data) s) (fun t => decide
          (t.sys = { s.sys with klPartial := 0, klTaken := 0, klDead := true }) && decide
          (t.counted 0x32 = s.counted 0x32 + 1)) = true) ∧
    (∃ (s : State),
      s.sys.klTaken < 8 ∧
      s.sys.klDead = false ∧
      nextOf (exec .klFail s) (fun t => decide (t.sys = { s.sys with klPartial := 0, klTaken := 0, klDead := true }) && decide
          (t.counted 0x33 = s.counted 0x33 + 1)) = true) ∧
    (∃ (beat : BitVec 3) (data : W32) (s : State),
      4 ≤ s.sys.phase ∧
      s.sys.klTaken < 8 ∧
      s.sys.klDead = true) ∧
    (∃ (s : State),
      (s.sys.klTaken = 8 ∨ s.sys.klDead = true)) ∧
    (∃ (s : State),
      (s.sys.klTaken = 8 ∨ s.sys.klDead = true)) ∧
    (∃ (beat : BitVec 3) (data : W32) (s : State),
      4 ≤ s.sys.phase ∧
      s.sys.klTaken = 8) ∧
    (∃ (w : W128) (s : State),
      1 ≤ s.sys.phase ∧
      s.sys.seeds.length < 16 ∧
      nextOf (exec (.seedWordTaken w) s) (fun t => decide (t.sys.rnErr = false) && decide (t.sys.seeds <:+ s.sys.seeds ++
          [w])) = true) ∧
    (∃ (w : W128) (s : State),
      1 ≤ s.sys.phase ∧
      s.sys.seeds.length < 16) ∧
    (∃ (w : W128) (s : State),
      1 ≤ s.sys.phase ∧
      s.sys.seeds.length < 16 ∧
      s.idle = true ∧
      s.store.masterLost = false ∧
      (s.domUp 1 = false ∨ (s.sys.maskSeed.any (fun p => decide (p.1 = 46))) = true)) ∧
    (∃ (w : W128) (s : State),
      1 ≤ s.sys.phase ∧
      s.sys.seeds.length < 16 ∧
      s.idle = true ∧
      s.store.masterLost = false ∧
      (s.domUp 1 = false ∨ (s.sys.maskSeed.any (fun p => decide (p.1 = 46))) = true)) ∧
    (∃ (w : W128) (s : State),
      (s.sys.phase = 0 ∨ 16 ≤ s.sys.seeds.length)) ∧
    (∃ (w : W128) (s : State),
      (s.sys.phase = 0 ∨ 16 ≤ s.sys.seeds.length)) ∧
    (∃ (g : Fin 47) (a b : W128) (rest : List W128) (s : State),
      s.genOn g.val = true ∧
      s.seedsFree = a :: b :: rest ∧
      nextOf (exec (.maskReseed g) s) (fun t => decide (t.sys = { s.sys with
        seeds := s.sys.seeds.drop 2, maskSeed := Tab.set 0 s.sys.maskSeed g.val (b ++ a)
        maskLate := s.sys.maskLate.filter (· ≠ g.val) }) && decide (t.counted 300 = s.counted 300 + 1)) = true) ∧
    (∃ (g : Fin 47) (s : State),
      s.genOn g.val = true ∧
      s.seedsFree.length < 2) ∧
    (∃ (g : Fin 47) (a b : W128) (rest : List W128) (s : State),
      g.val ∈ s.sys.maskLate ∧
      s.seedsFree = a :: b :: rest ∧
      nextOf (exec (.maskReseedRetry g) s) (fun t => decide (t.sys = { s.sys with
        seeds := s.sys.seeds.drop 2, maskSeed := Tab.set 0 s.sys.maskSeed g.val (b ++ a)
        maskLate := s.sys.maskLate.filter (· ≠ g.val) }) && decide (t.counted 300 = s.counted 300 + 1)) = true) :=
  ⟨⟨0, 0x03020100, on, by decide +kernel⟩,
  ⟨7, 0x1F1E1D1C, { on with sys := { on.sys with klTaken := 7, klPartial := 5 } }, by decide +kernel⟩,
  ⟨7, 0, { on with sys := { on.sys with klTaken := 6 } }, by decide +kernel⟩,
  ⟨State.reset, by decide +kernel⟩,
  ⟨3, 5, { on with sys := { on.sys with klDead := true } }, by decide +kernel⟩,
  ⟨{ on with sys := { on.sys with klTaken := 8 } }, by decide +kernel⟩,
  ⟨{ on with sys := { on.sys with klDead := true } }, by decide +kernel⟩,
  ⟨7, 5, { on with sys := { on.sys with klTaken := 8 } }, by decide +kernel⟩,
  ⟨5, { sys := { phase := 1, seeds := List.replicate 15 7 } }, by decide +kernel⟩,
  ⟨5, { on with sys := { on.sys with seeds := List.replicate 15 7, maskLate := [46], rnErr := true } }, by decide +kernel⟩,
  ⟨5, { on with sys := { on.sys with seeds := List.replicate 15 7, maskSeed := [(46, 9)], rnErr := true } }, by decide +kernel⟩,
  ⟨5, { sys := { phase := 1 }, pwr := { dom := [(1, {})] } }, by decide +kernel⟩,
  ⟨5, { on with sys := { on.sys with seeds := List.replicate 16 7 } }, by decide +kernel⟩,
  ⟨5, State.reset, by decide +kernel⟩,
  ⟨46, 1, 2, [3], { on with sys := { on.sys with seeds := [1, 2, 3], maskSeed := [(46, 9)] } }, by decide +kernel⟩,
  ⟨46, { on with sys := { on.sys with seeds := [1], maskSeed := [(46, 9)] } }, by decide +kernel⟩,
  ⟨0, 1, 2, [], { onSl with sys := { on.sys with seeds := [1, 2], maskLate := [0, 3] } }, by decide +kernel⟩⟩

theorem wit_KeksDerive :
    (∃ (data : W32) (s : State),
      s.free .sec = true ∧
      (s.hdr .sec).unlocked = true ∧
      bit data 0 = true ∧
      Page.at .sec 0x90 ∉ s.regs.once ∧
      s.sys.rootKey.isSome = true ∧
      s.sys.zero = .no ∧
      s.held .sec = false ∧
      s.kekEnabled ≠ [] ∧
      nextOf (exec (.kekDerive data) s) (fun u => decide (Page.at .sec 0x90 ∈ u.regs.once) && decide
          ((u.hdr .sec).unlocked = false) && decide
          (u.sys = { s.sys with derive := s.kekEnabled, kekReady := false, rederive := false })) = true) ∧
    (∃ (data : W32) (s : State),
      s.free .sec = true ∧
      (s.hdr .sec).unlocked = true ∧
      bit data 0 = true ∧
      Page.at .sec 0x90 ∉ s.regs.once ∧
      s.sys.rootKey.isSome = false) ∧
    (∃ (n m : Nat) (rest : NatSet) (root : BitVec 256) (s : State),
      s.sys.derive = n :: m :: rest ∧
      s.sys.rootKey = some root ∧
      s.domUp 1 = true ∧
      s.held .sec = false) :=
  ⟨⟨1, ((unl .sec { on with sys := { on.sys with rootKey := some 1, klTaken := 8 } }).setCfg .sec 0x8C 0x40000000),
      by decide +kernel⟩,
  ⟨1, (unl .sec on), by decide +kernel⟩,
  ⟨0, 2, [], 1, { on with sys := { on.sys with rootKey := some 1, klTaken := 8, derive := [0, 2] } }, by decide +kernel⟩⟩

theorem wit_KekCheckValue :
    (∃ (data : W32) (s : State),
      s.free .sec = true ∧
      s.held .sec = false ∧
      s.domUp 1 = false ∧
      nextOf (exec (.kekCheck data) s) (fun u => decide (u.cfg .sec 0x9C = BitVec.ofNat 32 (fld data 5 0)) && decide
          (u.sys.chkWait = true)) = true) ∧
    (∃ (data : W32) (s : State),
      s.free .sec = true ∧
      s.held .sec = false ∧
      s.domUp 1 = true) ∧
    (∃ (data : W32) (s : State),
      s.free .sec = true ∧
      s.held .sec = false ∧
      s.domUp 1 = true) :=
  ⟨⟨63, (dm 1 {} on), by decide +kernel⟩,
  ⟨63, on, by decide +kernel⟩,
  ⟨0, { on with sys := { on.sys with keks := [(0, 1)] } }, by decide +kernel⟩⟩

theorem wit_TimeSampled :
    (∃ (a : Bool) (sec : BitVec 48) (ns el : W32) (s : State),
      5 ≤ s.sys.phase ∧
      ns.toNat < 1000000000 ∧
      (s.tm a).vld = false ∧
      nextOf (exec (.timeSample a true sec ns el) s) (fun t_ => decide (t_ =
          (({ s with out := [] } : State).setTm a { vld := true, ns := sec.toNat * 1000000000 + ns.toNat }))) = true) ∧
    (∃ (a : Bool) (sec : BitVec 48) (ns el : W32) (s : State),
      5 ≤ s.sys.phase ∧
      ns.toNat < 1000000000 ∧
      (s.tm a).vld = false) ∧
    (∃ (a v : Bool) (sec : BitVec 48) (ns el : W32) (s : State),
      5 ≤ s.sys.phase ∧
      1000000000 ≤ ns.toNat) ∧
    (∃ (a v : Bool) (sec : BitVec 48) (ns el : W32) (s : State),
      5 ≤ s.sys.phase ∧
      1000000000 ≤ ns.toNat) ∧
    (∃ (a : Bool) (sec : BitVec 48) (ns el : W32) (s : State),
      5 ≤ s.sys.phase ∧
      ns.toNat < 1000000000 ∧
      (s.tm a).vld = true ∧
      timeStep (s.tm a).ns (sec.toNat * 1000000000 + ns.toNat) el.toNat = true ∧
      nextOf (exec (.timeSample a true sec ns el) s) (fun t => decide
          (t.tm a = { vld := true, ns := sec.toNat * 1000000000 + ns.toNat }) && decide
          (t.sys.stepTime = sec.toNat * 1000000000 + ns.toNat) && decide (t.sys.stepCopyA = a) && decide
          (t.flag .time 0x40 2 = true) && decide (t.counted 118 = s.counted 118 + 1)) = true) ∧
    (∃ (r : TimeReg) (s : State),
      s.cpUp = true ∧
      nextOf (exec (.timeCaptureRead r) s) (fun t => decide (Tab.get 0 t.sys.capHi (capIdx r) = (BitVec.ofNat 32 (nsSec
          (s.capTime r).1 / 2 ^ 32 % 65536) ||| atBit (s.capTime r).2 31)) && decide (Tab.get 0 t.sys.capNs
          (capIdx r) = BitVec.ofNat 32 (nsNs (s.capTime r).1))) = true) ∧
    (∃ (r : TimeReg) (s : State),
      s.cpUp = true) :=
  ⟨⟨true, 7, 999999999, 0, on, by decide +kernel⟩,
  ⟨false, 7, 0, 0, on, by decide +kernel⟩,
  ⟨false, true, 7, 1000000000, 0, on, by decide +kernel⟩,
  ⟨true, false, 7, 1000000000, 0, on, by decide +kernel⟩,
  ⟨true, 9, 5, 1000, { on with sys := { on.sys with tmA := { vld := true, ns := 7000000000 } } }, by decide +kernel⟩,
  ⟨.step, { on with sys := { on.sys with stepTime := 9000000007, stepCopyA := true } }, by decide +kernel⟩,
  ⟨.tmA, { on with sys := { on.sys with tmA := { vld := true, ns := 2 ^ 32 * 1000000000 + 999999999 } } }, by decide +kernel⟩⟩

theorem wit_BypassFrameAdmitted :
    (∃ (port : Fin 32) (cls : Bool) (desc : W64) (bytes : Bytes) (dpBad upErr eof : Bool) (s : State),
      s.dp.numbered ∧
      s.admits .egress port cls desc = true ∧
      dAction desc = 1 ∧
      s.bypPass (s.newFrame .egress port cls desc bytes dpBad upErr eof) = true ∧
      bytes.length + 4 ≤ s.blkMtu port ∧
      s.ticketsOut (chanKey .egress port cls) < 4096 ∧
      s.ticketWaits (chanKey .egress port cls) s.dp.nextFrame = false ∧
      s.dp.quiet = false ∧
      nextOf (exec (.egressFrameAdmit port cls desc bytes dpBad upErr eof) s) (fun t => match t.frame (s.dp.nextFrame) with | some f => decide (f.dir = .egress ∧ f.port = port ∧ f.express = cls ∧ f.kind = .bypass ∧ f.outcome = .bypassed ∧ f.stage = .written ∧ f.outBytes = bytes.take 16348 ∧ f.ticket = some (Tab.get 0 s.dp.ticketNext (chanKey .egress port cls) % 4096)) | none => false) = true) ∧
    (∃ (port : Fin 32) (cls : Bool) (desc : W64) (bytes : Bytes) (dpBad upErr eof : Bool) (s : State),
      s.dp.numbered ∧
      s.admits .egress port cls desc = true ∧
      dAction desc = 1 ∧
      s.bypPass (s.newFrame .egress port cls desc bytes dpBad upErr eof) = true ∧
      bytes.length + 4 ≤ s.blkMtu port ∧
      s.ticketsOut (chanKey .egress port cls) < 4096 ∧
      s.ticketWaits (chanKey .egress port cls) s.dp.nextFrame = false ∧
      s.dp.quiet = false) ∧
    (∃ (port : Fin 32) (cls : Bool) (desc : W64) (bytes : Bytes) (dpBad upErr eof : Bool) (s : State),
      s.dp.numbered ∧
      s.admits .ingress port cls desc = true ∧
      dAction desc = 1 ∧
      s.bypPass (s.newFrame .ingress port cls desc bytes dpBad upErr eof) = true ∧
      s.ticketsOut (chanKey .ingress port cls) < 4096 ∧
      s.ticketWaits (chanKey .ingress port cls) s.dp.nextFrame = false ∧
      16352 ≤ s.rsiFree port ∧
      nextOf (exec (.ingressFrameAdmit port cls desc bytes dpBad upErr eof) s) (fun t => match t.frame (s.dp.nextFrame) with | some f => decide (f.dir = .ingress ∧ f.port = port ∧ f.express = cls ∧ f.kind = .bypass ∧ f.outcome = .bypassed ∧ f.stage = .written ∧ f.outBytes = bytes.take 16348 ∧ f.result = 1 ∧ f.noch = true ∧ f.ticket = some (Tab.get 0 s.dp.ticketNext (chanKey .ingress port cls) % 4096)) | none => false) = true) :=
  ⟨⟨31, false, (dsc (2 ^ 21)), (zeros 12 ++ [8, 0] ++ zeros 46), false, false, true, ((prt 31 on).modDp (fun d =>
      { d with byp := [(255, bypAll)] })), by simp only [Dp.numbered]; decide +kernel⟩,
  ⟨31, true, (dsc (2 ^ 20 + 2 ^ 21)), (zeros 12 ++ [8, 0] ++ zeros 18), true, false, false, ((prt 31 on).modDp (fun d =>
      { d with byp := [(255, bypAll)] })), by simp only [Dp.numbered]; decide +kernel⟩,
  ⟨0, true, (dsc (2 ^ 20 + 2 ^ 21)), (zeros 12 ++ [8, 0] ++ zeros 46), false, false, true, ((prt 0 on).modDp (fun d =>
      { d with byp := [(0, bypAll)] })), by simp only [Dp.numbered]; decide +kernel⟩⟩

theorem wit_EgressFrameDrawsPn :
    (∃ (port : Fin 32) (cls : Bool) (desc : W64) (bytes : Bytes) (dpBad upErr eof : Bool) (e : Nat) (en : Entry) (s : State),
      s.dp.numbered ∧
      s.admits .egress port cls desc = true ∧
      dAction desc = 0 ∧
      s.find (dChix desc) true = .entry e en ∧
      cEn en.cfg0 = true ∧
      cRx en.cfg0 = false ∧
      cPort en.cfg0 = port ∧
      cExpress en.cfg0 = cls ∧
      suiteT10 (cSuite en.cfg0) = false ∧
      cClear en.cfg0 ≤ dTags desc ∧
      tagsOk (bytes.take 16348) (cClear en.cfg0) = true ∧
      14 + 4 * cClear en.cfg0 ≤ (bytes.take 16348).length ∧
      en.eqx = none ∧
      (s.slot (vslotOf e en.act)).st = .live ∧
      (s.slot (vslotOf e en.act)).lst = .run ∧
      (s.slot (vslotOf e en.act)).next < (s.slot (vslotOf e en.act)).bnd ∧
      (s.slot (vslotOf e en.act)).bnd ≤ (s.slot (vslotOf e en.act)).ceil ∧
      (s.slot (vslotOf e en.act)).next < s.forcedAt en ∧
      bytes.length + (if cScInc en.cfg0 then 16 else 8) + 20 ≤ s.blkMtu port ∧
      s.dp.quiet = false) ∧
    (∃ (port : Fin 32) (cls : Bool) (desc : W64) (bytes : Bytes) (dpBad upErr eof : Bool) (e : Nat) (en : Entry) (s : State),
      s.dp.numbered ∧
      s.admits .egress port cls desc = true ∧
      dAction desc = 0 ∧
      s.find (dChix desc) true = .entry e en ∧
      cEn en.cfg0 = true ∧
      cRx en.cfg0 = false ∧
      cPort en.cfg0 = port ∧
      cExpress en.cfg0 = cls ∧
      suiteT10 (cSuite en.cfg0) = false ∧
      cClear en.cfg0 ≤ dTags desc ∧
      tagsOk (bytes.take 16348) (cClear en.cfg0) = true ∧
      14 + 4 * cClear en.cfg0 ≤ (bytes.take 16348).length ∧
      en.eqx = none ∧
      (s.slot (vslotOf e en.act)).st = .live ∧
      (s.slot (vslotOf e en.act)).lst = .run ∧
      (s.slot (vslotOf e en.act)).next < (s.slot (vslotOf e en.act)).bnd ∧
      (s.slot (vslotOf e en.act)).bnd ≤ (s.slot (vslotOf e en.act)).ceil ∧
      (s.slot (vslotOf e en.act)).next < s.forcedAt en ∧
      bytes.length + (if cScInc en.cfg0 then 16 else 8) + 20 ≤ s.blkMtu port ∧
      s.dp.quiet = false) :=
  ⟨⟨1, false, (dsc 5), (zeros 12 ++ [8, 0] ++ zeros 46), false, false, true, 0,
      { chix := 5, live := true, cfg0 := txCfg 1 0 },
      (ch5 { chix := 5, live := true, cfg0 := txCfg 1 0 } { liveSl with next := 49, ceil := 50 } {} (prt 1 onSl)),
      by simp only [Dp.numbered]; decide +kernel⟩,
  ⟨1, true, (dsc (5 + 2 ^ 20 + 2 ^ 26)), (zeros 12 ++ [0x81, 0,0,1, 8, 0]), false, false, true, 0,
      { chix := 5, live := true, cfg0 := txCfg 1 2 ||| 0x20014100 },
      (ch5 { chix := 5, live := true, cfg0 := txCfg 1 2 ||| 0x20014100 } {} liveSl (prt 1 onSl)),
      by simp only [Dp.numbered]; decide +kernel⟩⟩

theorem wit_BulkFrameDispatched :
    (∃ (id : Nat) (f : Frame) (s : State),
      s.dp.numbered ∧
      s.frame id = some f ∧
      f.waits = true ∧
      f.asExpress = false ∧
      s.roomFor f = true ∧
      (s.pickBulk f).isSome = true ∧
      nextOf (exec (.sliceDispatch id) s) (fun t => match t.frame id with | some g => (match g.stage with | .inSlice n r => decide (n ∈ slicesOf (decide (f.dir = .ingress)) ∧ (s.sl n).st = .summer ∧ 1 ≤ r ∧ r ≤ 4 ∧ s.recTaken n r = false ∧ g.pn = f.pn ∧ g.ticket = f.ticket) | _ => false) | none => false) = true) ∧
    (∃ (n : Fin 40) (s : State),
      s.expressIn n.val = false ∧
      nextOf (exec (.bulkResume n) s) (fun t_ => decide (t_ = { s with out := [] })) = true) ∧
    (∃ (n : Fin 40) (s : State),
      s.expressIn n.val = true) ∧
    (∃ (d : Dir) (x : BitVec 20) (f : Frame) (s : State),
      s.missReady x.toNat = true ∧
      s.frame f.id = some f ∧
      s.dp.frames.filter (fun g => decide (g.stage = .missq) && decide (g.chix = x.toNat) && decide (g.dir = d)) = [f] ∧
      nextOf (exec (.missQueueRelease d x) s) (fun t_ => decide (t_ = (
      let g := { f with stage := FStage.waiting }
      let s' := { s with out := [], dp := { s.dp with frames := s.dp.frames.filter (fun (h : Frame) => decide (h.id ≠ f.id)) ++ [g] } }
      if d = .egress then s'.egLookup g false else s'.inLookup g false))) = true) ∧
    (∃ (d : Dir) (x : BitVec 20) (f : Frame) (s : State),
      s.missReady x.toNat = true ∧
      s.frame f.id = some f ∧
      s.dp.frames.filter (fun g => decide (g.stage = .missq) && decide (g.chix = x.toNat) && decide (g.dir = d)) = [f]) ∧
    (∃ (x : BitVec 20) (f : Frame) (s : State),
      s.find x.toNat false = .unknown ∧
      s.frame f.id = some f ∧
      s.dp.frames.filter (fun g => decide (g.stage = .missq) && decide (g.chix = x.toNat) && decide (g.dir = .egress)) = [f] ∧
      f.sofOut = false ∧
      f.ticket = none) :=
  ⟨⟨3, ({ stopFrame with kind := .macsec, ticket := some 4, pn := 40 }),
      (frs [{ stopFrame with kind := .macsec, ticket := some 4, pn := 40 }]
      ({ onSl with dp := { onSl.dp with bufFree := [(chanKey .egress 31 false, 1000)] } })),
      by simp only [Dp.numbered]; decide +kernel⟩,
  ⟨7, (frs [{ stopFrame with kind := .macsec, ticket := some 4, pn := 40, stage := .inSlice 7 0, eof := false }] onSl),
      by decide +kernel⟩,
  ⟨7, (frs [{ stopFrame with kind := .macsec, ticket := some 4, pn := 40, stage := .inSlice 7 1, suspended := true }] { onSl with slices := { sl := [(7, { st := .summer, susp := some { frame := 3, ctr := 0, pos := 0, acc := 0 } })] } }), by decide +kernel⟩,
  ⟨.egress, 5, ({ stopFrame with kind := .plain, chix := 5, stage := .missq }),
      (frs [{ stopFrame with kind := .plain, chix := 5, stage := .missq }] on), by decide +kernel⟩,
  ⟨.ingress, 5, ({ stopFrame with dir := .ingress, kind := .plain, chix := 5, stage := .missq }),
      (frs [{ stopFrame with dir := .ingress, kind := .plain, chix := 5, stage := .missq }]
      (ch5 { chix := 5, live := true, cfg0 := txCfg 31 0 ||| 0x40000000 } { liveSl with an := 0 } {} (prt 31 on))),
      by decide +kernel⟩,
  ⟨5, ({ stopFrame with kind := .plain, chix := 5, stage := .missq }),
      (frs [{ stopFrame with kind := .plain, chix := 5, stage := .missq }] on), by decide +kernel⟩⟩

theorem wit_SliceWorkEnds :
    (∃ (id n r : Nat) (f : Frame) (s : State),
      s.dp.numbered ∧
      s.frame id = some f ∧
      f.dir = .egress ∧
      f.stage = .inSlice n r ∧
      s.icvMay f = true ∧
      f.tooLong = false ∧
      s.dp.quiet = false ∧
      nextOf (exec (.egressIcvWritten id) s) (fun t => match t.frame (id) with | some f => decide (f.stage = .written ∧ f.icvDone = true ∧ f.key = [] ∧ f.salt = [] ∧ f.holds = false ∧ f.eof = true) | none => false) = true) ∧
    (∃ (id n r : Nat) (f : Frame) (s : State),
      s.dp.numbered ∧
      s.frame id = some f ∧
      f.dir = .ingress ∧
      f.stage = .inSlice n r ∧
      s.icvMay f = true ∧
      f.verifyFirst = false ∧
      nextOf (exec (.ingressIcvCompare id) s) (fun t => match t.frame (id) with | some f => decide (f.stage = .written ∧ f.icvDone = true) | none => false) = true) :=
  ⟨⟨3, 19, 4, ({ stopFrame with kind := .plain, ticket := some 4, stage := .inSlice 19 4, holds := true, key := [1], salt := [2] }), (frs [{ stopFrame with kind := .plain, ticket := some 4, stage := .inSlice 19 4, holds := true, key := [1], salt := [2] }] onSl), by simp only [Dp.numbered]; decide +kernel⟩,
  ⟨3, 39, 0, ({ stopFrame with dir := .ingress, kind := .plain, ticket := some 4, stage := .inSlice 39 0, holds := true, key := [1], salt := [2] }), (frs [{ stopFrame with dir := .ingress, kind := .plain, ticket := some 4, stage := .inSlice 39 0, holds := true, key := [1], salt := [2] }] onSl), by simp only [Dp.numbered]; decide +kernel⟩⟩

theorem wit_FramesReleased :
    (∃ (port : Fin 32) (cls : Bool) (f : Frame) (s : State),
      s.dp.numbered ∧
      s.headFrame (chanKey .egress port cls) = some f ∧
      s.mayRelease .egress port f = true ∧
      nextOf (exec (.bseSofRelease port cls) s) (fun t => match t.frame f.id with | some g => decide (g.sofOut = true ∧ .sof f.dir f.port f.express f.outDesc ∈ t.out ∧ t.credit f.key_ = s.credit f.key_ - f.segs ∧ t.credit f.key_ = 0) | none => false) = true) ∧
    (∃ (port : Fin 32) (cls : Bool) (f : Frame) (s u : State),
      s.dp.numbered ∧
      u = ({ s with out := [] } : State).finalChecks (chanKey .ingress port cls) ∧
      u.headFrame (chanKey .ingress port cls) = some f ∧
      u.mayRelease .ingress port f = true ∧
      nextOf (exec (.rsiSofRelease port cls) s) (fun t => match t.frame f.id with | some g => decide (g.sofOut = true ∧ .sof f.dir f.port f.express f.outDesc ∈ t.out ∧ t.credit f.key_ = s.credit f.key_ - f.segs) | none => false) = true) ∧
    (∃ (d : Dir) (port : Fin 32) (cls : Bool) (f : Frame) (s u : State),
      u = (if d = .ingress then ({ s with out := [] } : State).finalChecks (chanKey d port cls) else { s with out := [] }) ∧
      u.headFrame (chanKey d port cls) = some f ∧
      f.sofOut = true ∧
      f.stage = .written ∧
      f.checked = true ∧
      u.expressReady d port cls = false ∧
      (f.dir = .egress → s.dp.quiet = false) ∧
      nextOf (exec (.eofRelease d port cls) s) (fun t => decide
          (.eof f.dir f.port f.express f.outBytes f.code ∈ t.out) && decide (t.frame f.id = none)) = true) ∧
    (∃ (d : Dir) (port : Fin 32) (cls : Bool) (f : Frame) (s u : State),
      u = (if d = .ingress then ({ s with out := [] } : State).finalChecks (chanKey d port cls) else { s with out := [] }) ∧
      u.headFrame (chanKey d port cls) = some f ∧
      f.sofOut = true ∧
      f.stage = .written ∧
      f.checked = true ∧
      u.expressReady d port cls = false ∧
      (f.dir = .egress → s.dp.quiet = false)) :=
  ⟨⟨31, false, ({ stopFrame with kind := .bypass, ticket := some 4, stage := .written, outBytes := zeros 60 }),
      (frs [{ stopFrame with kind := .bypass, ticket := some 4, stage := .written, outBytes := zeros 60 }] { on with dp := { on.dp with credit := [(chanKey .egress 31 false, 2)] } }), by simp only [Dp.numbered]; decide +kernel⟩,
  ⟨31, true, ({ stopFrame with dir := .ingress, express := true, kind := .bypass, ticket := some 4, stage := .written, outBytes := zeros 64 }), (frs [{ stopFrame with dir := .ingress, express := true, kind := .bypass, ticket := some 4, stage := .written, outBytes := zeros 64 }] { on with dp := { on.dp with credit := [(chanKey .ingress 31 true, 3)] } }), (chk .ingress 31 true (frs [{ stopFrame with dir := .ingress, express := true, kind := .bypass, ticket := some 4, stage := .written, outBytes := zeros 64 }] { on with dp := { on.dp with credit := [(chanKey .ingress 31 true, 3)] } })), by simp only [Dp.numbered]; decide +kernel⟩,
  ⟨.egress, 31, false, ({ stopFrame with kind := .bypass, ticket := some 4, stage := .written, outBytes := zeros 60, sofOut := true, checked := true, outcome := .bypassed }), (frs [{ stopFrame with kind := .bypass, ticket := some 4, stage := .written, outBytes := zeros 60, sofOut := true, checked := true, outcome := .bypassed }] on), (frs [{ stopFrame with kind := .bypass, ticket := some 4, stage := .written, outBytes := zeros 60, sofOut := true, checked := true, outcome := .bypassed }] on), by decide +kernel⟩,
  ⟨.ingress, 31, false, ({ stopFrame with dir := .ingress, kind := .bypass, ticket := some 4, stage := .written, outBytes := zeros 60, sofOut := true, checked := true, outcome := .bypassed }), (frs [{ stopFrame with dir := .ingress, kind := .bypass, ticket := some 4, stage := .written, outBytes := zeros 60, sofOut := true, checked := true, outcome := .bypassed }] on), (chk .ingress 31 false (frs [{ stopFrame with dir := .ingress, kind := .bypass, ticket := some 4, stage := .written, outBytes := zeros 60, sofOut := true, checked := true, outcome := .bypassed }] on)), by decide +kernel⟩⟩

theorem wit_BrokenFramesEnd :
    (∃ (port : Fin 32) (cls : Bool) (f : Frame) (s : State),
      s.headFrame (chanKey .egress port cls) = some f ∧
      f.dir = .egress ∧
      f.sofOut = true ∧
      (f.stage ≠ .written ∨ f.eof = false) ∧
      s.dp.quiet = false ∧
      nextOf (exec (.bseUnderrun port cls) s) (fun t => decide (t.frame f.id = none) && decide
          (.eof .egress f.port f.express [] .busErr ∈ t.out) && decide (t.counted 0x12 = s.counted 0x12 + 1)) = true) ∧
    (∃ (port : Fin 32) (cls : Bool) (f : Frame) (s : State),
      s.headFrame (chanKey .ingress port cls) = some f ∧
      f.dir = .ingress ∧
      f.sofOut = true ∧
      (f.stage ≠ .written ∨ f.eof = false) ∧
      nextOf (exec (.rsiUnderrun port cls) s) (fun t => decide (t.frame f.id = none) && decide
          (.eof .ingress f.port f.express [] .busErr ∈ t.out) && decide (t.counted 0x10 = s.counted 0x10 + 1)) = true) ∧
    (∃ (id n r : Nat) (f : Frame) (s : State),
      s.frame id = some f ∧
      f.stage = .inSlice n r ∧
      nextOf (exec (.recordTimeout id) s) (fun t => decide (t.frame id = none) && decide (t.counted
          (if f.dir = .egress then 0x12 else 0x10) = s.counted (if f.dir = .egress then 0x12 else 0x10) + 1)) = true) ∧
    (∃ (id n r : Nat) (f : Frame) (s : State),
      s.frame id = some f ∧
      f.stage = .inSlice n r) ∧
    (∃ (d : Dir) (port : Fin 32) (cls : Bool) (f : Frame) (s : State),
      s.headFrame (chanKey d port cls) = some f ∧
      f.sofOut = true ∧
      (f.dir = .egress → s.dp.quiet = false) ∧
      nextOf (exec (.outPar d port cls) s) (fun t => decide (t.frame f.id = none) && decide
          (.eof f.dir f.port f.express [] .fault ∈ t.out) && decide (t.counted 0x13 = s.counted 0x13 + 1)) = true) ∧
    (∃ (d : Dir) (port : Fin 32) (cls : Bool) (f : Frame) (s : State),
      s.headFrame (chanKey d port cls) = some f ∧
      f.sofOut = true ∧
      (f.dir = .egress → s.dp.quiet = false)) :=
  ⟨⟨31, false, ({ stopFrame with kind := .macsec, ticket := some 4, stage := .inSlice 19 4, sofOut := true }),
      (frs [{ stopFrame with kind := .macsec, ticket := some 4, stage := .inSlice 19 4, sofOut := true }] onSl),
      by decide +kernel⟩,
  ⟨31, false, ({ stopFrame with dir := .ingress, kind := .macsec, ticket := some 4, stage := .inSlice 19 4, sofOut := true }),
      (frs [{ stopFrame with dir := .ingress, kind := .macsec, ticket := some 4, stage := .inSlice 19 4, sofOut := true }] onSl), by decide +kernel⟩,
  ⟨3, 19, 4, ({ stopFrame with kind := .macsec, ticket := some 4, stage := .inSlice 19 4, sofOut := true }),
      (frs [{ stopFrame with kind := .macsec, ticket := some 4, stage := .inSlice 19 4, sofOut := true }] onSl),
      by decide +kernel⟩,
  ⟨3, 19, 4, ({ stopFrame with dir := .ingress, kind := .macsec, ticket := some 4, stage := .inSlice 19 4, sofOut := true }),
      (frs [{ stopFrame with dir := .ingress, kind := .macsec, ticket := some 4, stage := .inSlice 19 4, sofOut := true }] onSl), by decide +kernel⟩,
  ⟨.egress, 31, false, ({ stopFrame with kind := .macsec, ticket := some 4, stage := .inSlice 19 4, sofOut := true }),
      (frs [{ stopFrame with kind := .macsec, ticket := some 4, stage := .inSlice 19 4, sofOut := true }] onSl),
      by decide +kernel⟩,
  ⟨.ingress, 31, false, ({ stopFrame with dir := .ingress, kind := .macsec, ticket := some 4, stage := .inSlice 19 4, sofOut := true }), (frs [{ stopFrame with dir := .ingress, kind := .macsec, ticket := some 4, stage := .inSlice 19 4, sofOut := true }] onSl), by decide +kernel⟩⟩

theorem wit_CreditsAndCrossings :
    (∃ (d : Dir) (port : Fin 32) (cls : Bool) (n : BitVec 10) (s : State),
      chanKey d port cls ∉ s.dp.crInit ∧
      nextOf (exec (.creditReturn d port cls false n) s) (fun t_ => decide (t_ = { s with out := [] })) = true) ∧
    (∃ (d : Dir) (port : Fin 32) (cls : Bool) (n : BitVec 10) (s : State),
      chanKey d port cls ∈ s.dp.crInit) ∧
    (∃ (d : Dir) (port : Fin 32) (cls : Bool) (n : BitVec 10) (s : State),
      Tab.get 0 s.dp.sent (chanKey d port cls) ≤ n.toNat) ∧
    (∃ (lane : Fin 32) (ctr : BitVec 7) (inc : BitVec 16) (s : State),
      portCtrNamed ctr.toNat = true ∧
      nextOf (exec (.blackCounterIncrement lane ctr inc true) s) (fun t => decide (Tab.get 0 t.cnt.port
          ((s.portOfLane lane).getD lane * 128 + ctr.toNat) =
        Tab.get 0 s.cnt.port ((s.portOfLane lane).getD lane * 128 + ctr.toNat) + BitVec.ofNat 48 inc.toNat)) = true) ∧
    (∃ (lane : Fin 32) (ctr : BitVec 7) (inc : BitVec 16) (s : State),
      portCtrNamed ctr.toNat = true) ∧
    (∃ (lane : Fin 32) (det : BitVec 8) (s : State),
      det.toNat ∈ [0x10, 0x11, 0x13, 0x14, 0x15, 0x16] ∧
      nextOf (exec (.blackFaultEvent lane det true) s) (fun t => decide (t.counted (det.toNat - 1) = s.counted
          (det.toNat - 1) + 1) && decide (t.flag (.port ((s.portOfLane lane).getD lane)) 0x44 6 = true) && decide
          ((0x15 ≤ det.toNat → s.resetOn (.port (Fin.ofNat 32 ((s.portOfLane lane).getD lane))) = false →
        t.held (.port (Fin.ofNat 32 ((s.portOfLane lane).getD lane))) = true))) = true) ∧
    (∃ (lane : Fin 32) (det : BitVec 8) (s : State),
      det.toNat ∈ [0x10, 0x11, 0x13, 0x14, 0x15, 0x16]) ∧
    (∃ (lane : Fin 32) (up mf ec cls : Bool) (code : LaneCode) (free inc : BitVec 16) (ctr : BitVec 7) (det : BitVec 8)
        (s : State) (c : Instr),
      c ∈ [Instr.laneControl lane code false, .linkStatus lane up mf ec false, .bufferLevel lane cls free false,
          .blackCounterIncrement lane ctr inc false, .blackFaultEvent lane det false] ∧
      nextOf (exec c s) (fun t => decide (t.dp = s.dp ∧ t.counted 0x15 = s.counted 0x15 + 1)) = true) ∧
    (∃ (lane : Fin 32) (up mf ec cls : Bool) (code : LaneCode) (free inc : BitVec 16) (ctr : BitVec 7) (det : BitVec 8)
        (s : State) (c : Instr),
      c ∈ [Instr.laneControl lane code false, .linkStatus lane up mf ec false, .bufferLevel lane cls free false,
          .blackCounterIncrement lane ctr inc false, .blackFaultEvent lane det false]) :=
  ⟨⟨.egress, 31, true, 1023, on, by decide +kernel⟩,
  ⟨.egress, 31, true, 1023,
      { on with dp := { on.dp with crInit := [chanKey .egress 31 true], sent := [(chanKey .egress 31 true, 5)] } },
      by decide +kernel⟩,
  ⟨.ingress, 0, false, 5, { on with dp := { on.dp with sent := [(chanKey .ingress 0 false, 5)] } }, by decide +kernel⟩,
  ⟨31, 0, 0xFFFF, (prt 31 on), by decide +kernel⟩,
  ⟨3, 0x51, 1, on, by decide +kernel⟩,
  ⟨0, 0x16, on, by decide +kernel⟩,
  ⟨31, 0x10, (prt 31 on), by decide +kernel⟩,
  ⟨31, true, false, false, true, .reset, 1, 1, 3, 0x16, on, (.laneControl 31 .reset false), by decide +kernel⟩,
  ⟨31, true, false, false, true, .reset, 1, 1, 3, 0x16, on, (.blackFaultEvent 31 0x16 false), by decide +kernel⟩⟩

theorem wit_PageInsRun :
    (∃ (p : PageIn) (e : Nat) (s : State),
      s.nextIn = some p ∧
      s.pageIn p.chix = some p ∧
      s.pagerFree = true ∧
      s.domsLost pageDoms = false ∧
      s.domsUp (1 :: tableDoms) = true ∧
      s.lowestFree = some e ∧
      s.outBefore p.rank p.ser = false ∧
      (p.cls = .prewarm → p.demand = false → s.freeLowAt + 1 ≤ s.freeEntries) ∧
      nextOf (exec .pageInStart s) (fun u => decide (u.entry e = some { chix := p.chix, live := false } ∧ (u.pageIn p.chix).any (fun q => q.started && decide (q.entry = e)) = true ∧ u.counted (match p.cls with | .demand => 152 | .command => 153 | .prewarm => 154) = 1)) = true) ∧
    (∃ (p : PageIn) (e : Nat) (s : State),
      s.nextIn = some p ∧
      s.pageIn p.chix = some p ∧
      s.pagerFree = true ∧
      s.domsLost pageDoms = false ∧
      s.domsUp (1 :: tableDoms) = true ∧
      s.lowestFree = some e ∧
      s.outBefore p.rank p.ser = false ∧
      (p.cls = .prewarm → p.demand = false → s.freeLowAt + 1 ≤ s.freeEntries)) ∧
    (∃ (x : BitVec 20) (p : PageIn) (s : State),
      s.pageIn x.toNat = some p ∧
      p.started = true ∧
      nextOf (exec (.pageInTimeout x) s) (fun u => decide (u.pageIn x.toNat = none) && decide (u.pager.failInfo =
          (atPos 5 28 ||| atPos x.toNat 8))) = true) :=
  ⟨⟨({ chix := 5, cls := .command, demand := false }), 1,
      (tbl { keyed with pager := { on.pager with ins := [{ chix := 5, cls := .command, demand := false }] } }),
      by decide +kernel⟩,
  ⟨({ chix := 5, cls := .prewarm, demand := false }), 0,
      ({ keyed with pager := { on.pager with ins := [{ chix := 5, cls := .prewarm, demand := false }] } }), by decide +kernel⟩,
  ⟨1048575, ({ chix := 1048575, cls := .demand, demand := true, started := true, entry := 0 }),
      { on with pager := { on.pager with ins := [{ chix := 1048575, cls := .demand, demand := true, started := true, entry := 0 }] }, ch := { on.ch with entries := [(0, some { chix := 1048575, live := false })] } }, by decide +kernel⟩⟩

theorem wit_StoreAnswers :
    (∃ (id : BitVec 8) (data side d : Bytes) (fx : Bool) (r : SReq) (c : W32) (s : State),
      s.store.out.find? (fun q => decide (q.id = id.toNat) && (q.wr == false)) = some r ∧
      r.who = .host ∧
      r.wr = false ∧
      s.store.cmd = some c ∧
      checkLine s.store.master r data side = .ok d fx ∧
      d.length = 64) ∧
    (∃ (id : BitVec 8) (r : SReq) (c : W32) (s : State),
      s.store.out.find? (fun q => decide (q.id = id.toNat) && (q.wr == true)) = some r ∧
      r.who = .host ∧
      r.wr = true ∧
      s.store.cmd = some c ∧
      nextOf (exec (.storeWriteAck id false) s) (fun u => decide (u.store.cmd = none) && decide
          (u.store.out = s.store.out.filter (fun q => decide (q.id ≠ id.toNat))) && decide (u.endedB .store 0xD4 8 0
          (cmdOp c) 0)) = true) ∧
    (∃ (sel : BitVec 12) (s : State),
      sel.toNat ∈ s.store.missed ∧
      s.domUp 45 = true ∧
      nextOf (exec (.keyCacheFill sel) s) (fun t_ => decide (t_ = (State.settle { s with
      out := []
      store := { s.store with
        missed := delNat s.store.missed sel.toNat
        cache := (sel.toNat :: s.store.cache.filter (· ≠ sel.toNat)).take s.cacheRoom } }))) = true) ∧
    (∃ (line : BitVec 34) (w : Wcb) (i : Nat) (s : State),
      s.wcb line.toNat = some w ∧
      s.mayBack w = true ∧
      s.domUp 45 = true ∧
      s.freeId = some i) :=
  ⟨⟨255, (beBytes 64 8761301559685273464280315502076099722253135659996571078217449173797217163360909344218696859004642533326441321719694692029999518581895917518789561766434170), (beBytes 8 16748679069579986663), (lineOf 0), false, (req false), 0x00040001, (hostSt false), by decide +kernel⟩,
  ⟨255, (req true), 0x00040002, { hostSt true with store := { (hostSt true).store with cmd := some 0x00040002 } },
      by decide +kernel⟩,
  ⟨4095, { on with store := { on.store with missed := [4095], cache := List.range 64 } }, by decide +kernel⟩,
  ⟨9, ({ line := 9, sel := 4, data := lineOf 1, valid := fullMask, dirty := 1, filling := false }), 0,
      { on with store := { on.store with sels := [(4, { seed := some 6 })], cache := [4], wcb := [{ line := 9, sel := 4, data := lineOf 1, valid := fullMask, dirty := 1, filling := false }] } }, by decide +kernel⟩⟩

theorem wit_KeyxJobs :
    (∃ (j : KJob) (c : Nat) (s : State),
      s.domUp 44 = true ∧
      s.nextJob = some j ∧
      s.coreFor j = some c ∧
      nextOf (exec .keyxJobStart s) (fun t => decide (t.core c = some j) && decide
          (t.keyx.queue = s.keyx.queue.erase j) && decide (Tab.get 64 t.keyx.held c = s.jobKek j)) = true) ∧
    (∃ (j : KJob) (c : Nat) (s : State),
      s.domUp 44 = true ∧
      s.nextJob = some j ∧
      s.coreFor j = some c) ∧
    (∃ (c : Fin 4) (x : Nat) (b : Bool) (p : PageIn) (s : State),
      s.core c.val = some (.unwrap x b) ∧
      s.kekWaits (.unwrap x b) = false ∧
      s.pageIn x = some p ∧
      p.whole = false ∧
      nextOf (exec (.keyxJobDone c) s) (fun u => decide (u.core c.val = none ∧ (u.pageIn x).any (fun q => decide
          (b ∈ q.done)) = true)) = true) ∧
    (∃ (c : Fin 4) (w : W32) (e : Nat) (en : Entry) (k : Bytes) (r : Nat) (s : State),
      s.core c.val = some .install ∧
      s.kekWaits .install = false ∧
      s.pager.keyw = some w ∧
      s.whereIs (cmdChix w) = .here e en ∧
      s.kek ((byteAt s.blob 1).toNat) = some k ∧
      unwrapBlob k (s.blob.drop 8) (usageOf en.cfg0 false) (byteAt s.blob 2).toNat (cmdChix w) (ofBe (slice s.blob 4 2)) 1
          (cmdB28 w) = .error r) :=
  ⟨⟨.install, 0, { on with keyx := { on.keyx with queue := [.install] }, pager := { on.pager with keyw := some 0x500 } },
      by decide +kernel⟩,
  ⟨(.unwrap 5 true), 3, { on with keyx := { on.keyx with queue := [.wrap 6 true, .unwrap 5 true], cores := [(0, some .install), (1, some (.wrap 6 false)), (2, some (.wrap 9 true))] }, pager := { on.pager with ins := [{ chix := 5, cls := .demand, demand := true, started := true }] } }, by decide +kernel⟩,
  ⟨3, 5, true, ({ chix := 5, cls := .demand, demand := true, started := true, queued := [true] }),
      { on with keyx := { on.keyx with cores := [(3, some (.unwrap 5 true))] }, pager := { on.pager with ins := [{ chix := 5, cls := .demand, demand := true, started := true, queued := [true] }] } }, by decide +kernel⟩,
  ⟨0, 0x10000501, 0, { chix := 5, live := true, cfg0 := txCfg 1 0 }, (beBytes 32 1), 0x16,
      (ch5 { chix := 5, live := true, cfg0 := txCfg 1 0 } {} {} { on.putBytes .keyw 0x100 (blobB 1) with sys := { on.sys with keks := [(0, 1)] }, keyx := { on.keyx with cores := [(0, some .install)] }, pager := { on.pager with keyw := some 0x10000501 } }), by decide +kernel⟩⟩

theorem wit_PageOutsRun :
    (∃ (x : BitVec 20) (e : Nat) (o : PageOut) (s : State),
      s.pageOut x.toNat = some o ∧
      s.resident x.toNat = some e ∧
      s.outWaits o = true ∧
      s.pagerFree = true ∧
      s.outFirst o = true ∧
      s.domsUp (1 :: tableDoms) = true ∧
      s.outcomesOf x.toNat = [] ∧
      s.zerosLeft x.toNat = false ∧
      s.sys.kek63.isSome = true ∧
      [false, true].filter (fun b => decide ((s.slot (vslotOf e b)).st = .live)) ≠ [] ∧
      nextOf (exec (.pageOutStart x) s) (fun u => decide (u.keyx.queue = [.wrap 5 false])) = true) ∧
    (∃ (j : GroupJob) (rest : List GroupJob) (x e : Nat) (en : Entry) (s : State),
      s.pager.jobs = j :: rest ∧
      s.pager.running = false ∧
      s.pagerUp = true ∧
      s.domsUp tableDoms = true ∧
      j.evict = true ∧
      s.jobChans j = [x] ∧
      s.resident x = some e ∧
      s.entry e = some en ∧
      en.pinned = false ∧
      en.evicting = false ∧
      s.pageOut x = none ∧
      nextOf (exec .groupJobStart s) (fun u => decide (u.pager.running = true) && decide
          (u.entry e = some { en with evicting := true }) && decide (u.pager.outs = s.pager.outs ++
          [{ chix := x, ser := s.pager.nextSer }]) && decide (u.counted 168 = s.counted 168 + 1)) = true) :=
  ⟨⟨5, 0, ({ chix := 5 }),
      (ch5 { chix := 5, live := true, evicting := true } { liveSl with lst := .none } {} { on with sys := { on.sys with kek63 := some 1 }, pager := { on.pager with outs := [{ chix := 5 }] } }), by decide +kernel⟩,
  ⟨({ evict := true, group := 0xFF0, mask := 0xFFF }), [], 5, 0, { chix := 5, live := true },
      (ch5 { chix := 5, live := true } {} {} { on with ch := { on.ch with group := [(5, 0xFF0)] }, pager := { on.pager with jobs := [{ evict := true, group := 0xFF0, mask := 0xFFF }] } }), by decide +kernel⟩⟩

theorem wit_CalendarFires :
    (∃ (n t : Nat) (w : W128) (s : State),
      s.sys.tmA.vld = true ∧
      s.domUp 53 = true ∧
      s.pager.cal = [(n, w)] ∧
      calDue w = some t ∧
      t ≤ s.sys.tmA.ns ∧
      calFld w 127 126 = 1 ∧
      s.pager.jobs.length < 8 ∧
      nextOf (exec .calendarFire s) (fun u => decide (u.calEntry n = calNext w t s.sys.tmA.ns) && decide
          (u.pager.jobs = s.pager.jobs ++
        [{ evict := w.getLsbD 125, group := BitVec.ofNat 12 (calFld w 123 112), mask := BitVec.ofNat 12 (calFld w 111 100) }])) = true) ∧
    (∃ (n t : Nat) (w : W128) (s : State),
      s.sys.tmA.vld = true ∧
      s.domUp 53 = true ∧
      s.pager.cal = [(n, w)] ∧
      calDue w = some t ∧
      t ≤ s.sys.tmA.ns ∧
      calFld w 127 126 = 1 ∧
      s.pager.jobs.length < 8) ∧
    (∃ (n t : Nat) (w : W128) (s : State),
      s.sys.tmA.vld = true ∧
      s.domUp 53 = true ∧
      s.pager.cal = [(n, w)] ∧
      calDue w = some t ∧
      t ≤ s.sys.tmA.ns ∧
      calFld w 127 126 = 2 ∧
      calFld w 111 100 ≠ 0 ∧
      s.pager.floors.length < 8 ∧
      nextOf (exec .calendarFire s) (fun u => decide (u.calEntry n = calNext w t s.sys.tmA.ns) && decide (u.counted 181 = s.counted 181 + 1) && decide (u.pager.floors = s.pager.floors ++ [{
        ef := min 20 (calFld w 125 121), ifl := min 20 (calFld w 120 116), kx := w.getLsbD 115,
        ends := t + calFld w 111 100 * 1000000000 }])) = true) ∧
    (∃ (s : State),
      s.sys.tmA.vld = true ∧
      nextOf (exec .seasonFloorEnd s) (fun t_ => decide (t_ = { s with
    out := []
    pager := { s.pager with floors := s.pager.floors.filter (fun f => decide (s.sys.tmA.ns < f.ends)) } })) = true) ∧
    (∃ (s : State),
      s.sys.tmA.vld = false) :=
  ⟨⟨255, 5000000001, (calW 1 0 5), (tmA 5000000001 { on with pager := { on.pager with cal := [(255, calW 1 0 5)] } }),
      by decide +kernel⟩,
  ⟨0, 5000000001, (calW 1 1 5),
      (tmA 9000000000 { on with pager := { on.pager with cal := [(0, calW 1 1 5)], jobs := List.replicate 7 { evict := false, group := 0, mask := 0 } } }), by decide +kernel⟩,
  ⟨0, 5000000001, (calW 2 1000 5), (tmA 9000000000 { on with pager := { on.pager with cal := [(0, calW 2 1000 5)] } }),
      by decide +kernel⟩,
  ⟨(tmA 8 { on with pager := { on.pager with floors := [{ ef := 1, ifl := 1, kx := true, ends := 8 }, { ef := 1, ifl := 1, kx := true, ends := 9 }] } }), by decide +kernel⟩,
  ⟨{ on with pager := { on.pager with floors := [{ ef := 1, ifl := 1, kx := true, ends := 8 }] } }, by decide +kernel⟩⟩

theorem wit_KeyChangesEnd :
    (∃ (x : BitVec 20) (e : Nat) (en : Entry) (q : Sol) (s : State),
      s.resident x.toNat = some e ∧
      s.entry e = some en ∧
      en.sol = some q ∧
      s.solDue q = true ∧
      nextOf (exec (.solsticeRetire x) s) (fun t => decide (t.entry e = some { en with sol := none }) && decide (t.slot
          (vslotOf e q.slotB) = { s.slot (vslotOf e q.slotB) with retired := true, retAt := q.val }) && decide
          (t.counted 150 = s.counted 150 + 1)) = true) ∧
    (∃ (x : BitVec 20) (e : Nat) (en : Entry) (q : Eqx) (s : State),
      s.resident x.toNat = some e ∧
      s.entry e = some en ∧
      en.eqx = some q ∧
      q.deferred = true ∧
      q.stalled = false ∧
      nextOf (exec (.eqxStall x) s) (fun t => decide
          (t.entry e = some { en with eqx := some { q with stalled := true } }) && decide
          (t.flag .glb 0x50 2 = true) && decide (t.counted 148 = s.counted 148 + 1)) = true) ∧
    (∃ (x : BitVec 20) (b : Bool) (e : Nat) (en : Entry) (s : State),
      s.resident x.toNat = some e ∧
      s.entry e = some en ∧
      (s.slot (vslotOf e b)).st = .erased ∧
      (s.slot (vslotOf e b)).clearing = true ∧
      s.holders (vslotOf e b) (s.slot (vslotOf e b)).gen = false ∧
      s.pageOut x.toNat = none ∧
      nextOf (exec (.slotDrainDone x b) s) (fun u => decide (u.slot
          (vslotOf e b) = { (s.slot (vslotOf e b)).cleared with gen := (s.slot (vslotOf e b)).gen + 1 })) = true) :=
  ⟨⟨5, 0, ({ chix := 5, live := true, cfg0 := txCfg 1 0 ||| 0x40000000, sol := some { mode := .time, slotB := true, watch := false, val := 800 } }), ({ mode := .time, slotB := true, watch := false, val := 800 }), (tmL 800 (ch5 ({ chix := 5, live := true, cfg0 := txCfg 1 0 ||| 0x40000000, sol := some { mode := .time, slotB := true, watch := false, val := 800 } }) { liveSl with lst := .none } { liveSl with lst := .none } on)), by decide +kernel⟩,
  ⟨5, 0, ({ chix := 5, live := true, cfg0 := txCfg 1 0, eqx := some { mode := .pn, fromB := true, defer := true, deferred := true, val := 800 } }), ({ mode := .pn, fromB := true, defer := true, deferred := true, val := 800 }), (ch5 ({ chix := 5, live := true, cfg0 := txCfg 1 0, eqx := some { mode := .pn, fromB := true, defer := true, deferred := true, val := 800 } }) liveSl liveSl on), by decide +kernel⟩,
  ⟨5, true, 0, ({ chix := 5, live := true, cfg0 := txCfg 1 0 }), (ch5
      ({ chix := 5, live := true, cfg0 := txCfg 1 0 }) {} { liveSl with st := .erased, clearing := true, gen := 255, lst := .none } on), by decide +kernel⟩⟩

theorem wit_LeasesCommit :
    (∃ (u : Nat) (je : JEnt) (it : JItem) (rest : List NvW) (v c : Nat) (b : Bool) (tag : W32) (w : Live) (s : State),
      s.lease.staleW = [] ∧
      s.lease.nvw = .entry u je it :: rest ∧
      it.why = .request [(b, v, tag, c)] ∧
      (je.av || je.bv) = true ∧
      s.lease.live je.chix = some w ∧
      s.noPeer = true ∧
      s.held .lease = false ∧
      s.lease.waits = [{ vslot := v, ceil := c, written := false, acked := false }] ∧
      nextOf (exec (.nvWriteResponse false) s) (fun t => decide (t.lease.nvw =
          (({ s.lease with nvw := rest } : Lease).noteDone je.chix it.top).nvw) && decide (t.lease.waits = []) && decide
          (t.lease.live je.chix = some { w with ent := je, unit := u, restart := false }) && decide
          ((t.slot v).ceil = c) && decide (t.counted 128 = s.counted 128 + 1) && decide
          (t.counted 129 = s.counted 129 + 1)) = true) ∧
    (∃ (u : Nat) (je : JEnt) (it : JItem) (rest : List NvW) (s : State),
      s.lease.staleW = [] ∧
      s.lease.nvw = .entry u je it :: rest ∧
      it.why ≠ .copy ∧
      nextOf (exec (.nvWriteResponse true) s) (fun t => decide (t.lease.nvw = rest) && decide ((t.lease.sector
          (u / 128)).retired = true) && decide (t.lease.head ≠ some (u / 128)) && decide
          (t.lease.todo = redoInto { it with redo := true } s.lease.todo)) = true) ∧
    (∃ (data : Bytes) (ret : Bool) (seq wc : Nat) (s : State),
      s.lease.staleR = 0 ∧
      s.lease.scanning = true ∧
      s.lease.got < s.lease.asked ∧
      s.lease.got < 1024 ∧
      readHeader s.lease.got data = some (ret, seq, wc) ∧
      nextOf (exec (.nvReadResponse false data) s) (fun t => decide (t.lease.got = s.lease.got + 1) && decide (t.lease.sector s.lease.got = {
        valid := true, retired := ret || decide (s.lease.got ∈ s.lease.retiring), openSeq := seq, wcount := wc })) = true) ∧
    (∃ (data : Bytes) (ret : Bool) (seq wc : Nat) (s : State),
      s.lease.staleR = 0 ∧
      s.lease.scanning = true ∧
      s.lease.got < s.lease.asked ∧
      s.lease.got < 1024 ∧
      readHeader s.lease.got data = some (ret, seq, wc)) ∧
    (∃ (s : State),
      s.lease.scanRead = true) :=
  ⟨⟨4, ({ chix := 5, kind := 0, av := true, tagA := 9, ceilA := 600, bv := false, tagB := 0, ceilB := 0 }),
      ({ chix := 5, why := .request [(false, 0, 9, 600)] }), [], 0, 600, false, 9,
      ({ ent := { chix := 5, kind := 0, av := true, tagA := 9, ceilA := 60, bv := false, tagB := 0, ceilB := 0 }, unit := 3, handle := 1 }), ((ch5 { chix := 5, live := true } { liveSl with lst := .wait, tag := 9 } {} { on with pair := { on.pair with role := .unpaired }, lease := { on.lease with nvw := [.entry 4 ({ chix := 5, kind := 0, av := true, tagA := 9, ceilA := 600, bv := false, tagB := 0, ceilB := 0 }) ({ chix := 5, why := .request [(false, 0, 9, 600)] })], dir := [(5, some ({ ent := { chix := 5, kind := 0, av := true, tagA := 9, ceilA := 60, bv := false, tagB := 0, ceilB := 0 }, unit := 3, handle := 1 }))], waits := [{ vslot := 0, ceil := 600, written := false, acked := false }] } })), by decide +kernel⟩,
  ⟨4, ({ chix := 5, kind := 0, av := true, tagA := 9, ceilA := 600, bv := false, tagB := 0, ceilB := 0 }),
      ({ chix := 5, why := .request [(false, 0, 9, 600)] }), [],
      { on with lease := { on.lease with nvw := [.entry 4 ({ chix := 5, kind := 0, av := true, tagA := 9, ceilA := 600, bv := false, tagB := 0, ceilB := 0 }) ({ chix := 5, why := .request [(false, 0, 9, 600)] })] } }, by decide +kernel⟩,
  ⟨(hdrBytes 1023 0x0F), false, 77, 5, { on with lease := { on.lease with scanning := true, asked := 1024, got := 1023 } },
      by decide +kernel⟩,
  ⟨(hdrBytes 0 0xF0), true, 77, 5, { on with lease := { on.lease with scanning := true, asked := 64, got := 0 } },
      by decide +kernel⟩,
  ⟨{ on with lease := { on.lease with scanning := true, asked := 1024, got := 1024 } }, by decide +kernel⟩⟩

theorem wit_MarchWorks :
    (∃ (w : W128) (rest : List W128) (s : State),
      s.store.march.st = .keygen ∧
      s.domUp 45 = true ∧
      s.seedsFree = w :: rest ∧
      s.domainsIdle = true ∧
      nextOf (exec .marchKeygenDone s) (fun t_ => decide (t_ = { s with
      out := []
      sys := { s.sys with seeds := s.sys.seeds.drop 1 }
      store := { s.store with march := { s.store.march with st := .run, split := true, nextSeed := some w } } })) = true) ∧
    (∃ (k : Nat) (s : State),
      s.store.march.st = .run ∧
      s.store.march.stopping = false ∧
      s.marchRate ≠ 0 ∧
      s.domUp 45 = true ∧
      s.held .march = false ∧
      s.resetOn .march = false ∧
      s.resetOn .store = false ∧
      s.store.march.nextLine = some k ∧
      nextOf (exec .marchLineIssue s) (fun t_ => decide (t_ = (State.settle { s with
      out := []
      store := { s.store with
        nextId := s.store.nextId + 1
        wait := s.store.wait ++ [{ ser := s.store.nextId, wr := false, line := k, kix := s.store.march.tgt, who := .march }]
        march := { s.store.march with
          hwm := max s.store.march.hwm (k + 1), flight := insNat s.store.march.flight k
          redo := if k < s.store.march.hwm then insNat s.store.march.redo k else s.store.march.redo } } }))) = true) ∧
    (∃ (k : Nat) (s : State),
      s.store.march.st = .run ∧
      s.store.march.stopping = false ∧
      s.marchRate ≠ 0 ∧
      s.domUp 45 = true ∧
      s.held .march = false ∧
      s.resetOn .march = false ∧
      s.resetOn .store = false ∧
      s.store.march.nextLine = some k) ∧
    (∃ (f l : Nat) (s : State),
      s.free .march = true ∧
      s.held .march = false ∧
      s.store.march.st = .idle ∧
      s.store.march.split = false ∧
      s.marchSpan = some (f, l) ∧
      (s.keySel (fld (s.cfg .march 0x80) 11 0)).seed.isSome = true ∧
      nextOf (exec .marchStart s) (fun u => decide (u.roW .march 0x9C = (atPos 0 24 ||| atPos 1 16)) && decide (u.store.march = { s.store.march with
        st := .keygen, tgt := fld (s.cfg .march 0x80) 11 0, first := f, last := l, bound := f, hwm := f, rekeyed := []
        flight := [], redo := [], reason := 0, failed := none })) = true) ∧
    (∃ (s : State),
      s.free .march = true ∧
      s.held .march = false ∧
      s.marchSpan = none) ∧
    (∃ (s : State),
      s.free .march = true ∧
      s.held .march = false ∧
      s.marchSpan = none) ∧
    (∃ (s : State),
      s.free .march = true ∧
      s.held .march = false ∧
      s.store.march.st = .run ∧
      s.store.march.stopping = false ∧
      nextOf (exec .marchPause s) (fun u => decide (u.roW .march 0x9C = (atPos 0 24 ||| atPos 2 16)) && decide
          (u.store.march = if s.store.march.bound = s.store.march.hwm then { s.store.march with st := .paused, pausing := false }
        else { s.store.march with pausing := true })) = true) ∧
    (∃ (s : State),
      s.free .march = true ∧
      s.held .march = false ∧
      s.store.march.st = .run ∧
      s.store.march.stopping = false) ∧
    (∃ (s : State),
      s.free .march = true ∧
      s.held .march = false ∧
      s.store.march.st = .paused ∧
      nextOf (exec .marchResume s) (fun u => decide (u.roW .march 0x9C = (atPos 0 24 ||| atPos 3 16)) && decide
          (u.store.march = { s.store.march with st := .run })) = true) ∧
    (∃ (k : Nat) (s : State),
      s.free .march = true ∧
      s.held .march = false ∧
      s.store.march.st = .halted ∧
      s.store.march.stopping = false ∧
      s.store.march.failed = some k) ∧
    (∃ (s : State),
      s.free .march = true ∧
      s.held .march = false ∧
      s.store.march.st ∈ [MState.run, .paused, .halted] ∧
      s.store.march.flight = [] ∧
      nextOf (exec .marchStop s) (fun u => decide (u.roW .march 0x9C = (atPos 0 24 ||| atPos 6 16)) && decide (u.store.march = { s.store.march with
        st := .stopped, reason := 0, failed := none, stopping := false, pausing := false })) = true) ∧
    (∃ (s : State),
      s.free .march = true ∧
      s.held .march = false ∧
      s.store.march.st ∈ [MState.run, .paused, .halted] ∧
      s.store.march.flight = []) ∧
    (∃ (s : State) (p : Instr × Nat),
      s.free .march = true ∧
      s.store.march.st ∈ [MState.idle, .keygen, .stopped] ∧
      p ∈ [(Instr.marchPause, 2), (.marchResume, 3), (.marchRetry, 4), (.marchZero, 5), (.marchStop, 6)] ∧
      nextOf (exec p.1 s) (fun u => decide (u.roW .march 0x9C = (atPos 0x40 24 ||| atPos p.2 16) ∧
          u.store.march = s.store.march)) = true) ∧
    (∃ (s : State) (p : Instr × Nat),
      s.free .march = true ∧
      s.held .march = true ∧
      p ∈ [(Instr.marchStart, 1), (.marchPause, 2), (.marchResume, 3), (.marchRetry, 4), (.marchZero, 5), (.marchStop, 6)]) ∧
    (∃ (s : State) (p : Instr × Nat),
      s.free .march = true ∧
      s.held .march = true ∧
      p ∈ [(Instr.marchStart, 1), (.marchPause, 2), (.marchResume, 3), (.marchRetry, 4), (.marchZero, 5), (.marchStop, 6)]) :=
  ⟨⟨4, [5], (mrch { st := .keygen } { on with sys := { on.sys with seeds := [4, 5] } }), by decide +kernel⟩,
  ⟨200, (mrch { st := .run, tgt := 3, split := true, nextSeed := some 4, bound := 150, hwm := 200, first := 0, last := 200, flight := (List.range 50).map (· + 150) } on), by decide +kernel⟩,
  ⟨150, (mrch { st := .run, tgt := 3, split := true, nextSeed := some 4, bound := 150, hwm := 151, first := 0, last := 200 } on), by decide +kernel⟩,
  ⟨1, 2, ((((mrch {} (large { on with store := { on.store with sels := [(3, { seed := some 6 })] } })).setCfg .march 0x80 3).setCfg .march 0x84 64).setCfg .march 0x8C 128), by decide +kernel⟩,
  ⟨(mrch {} on), by decide +kernel⟩,
  ⟨((mrch {} (large on)).setCfg .march 0x84 1), by decide +kernel⟩,
  ⟨(mrch { st := .run, bound := 5, hwm := 5 } on), by decide +kernel⟩,
  ⟨(mrch { st := .run, bound := 5, hwm := 6, flight := [5] } on), by decide +kernel⟩,
  ⟨(mrch { st := .paused } on), by decide +kernel⟩,
  ⟨7, (mrch { st := .halted, tgt := 3, split := true, nextSeed := some 4, bound := 7, hwm := 8, first := 0, last := 9, failed := some 7, reason := 2 } on), by decide +kernel⟩,
  ⟨(mrch { st := .paused, bound := 5, hwm := 6 } on), by decide +kernel⟩,
  ⟨(mrch { st := .halted, bound := 5, hwm := 6, failed := some 5, reason := 1 } on), by decide +kernel⟩,
  ⟨(mrch { st := .idle } on), (.marchStop, 6), by decide +kernel⟩,
  ⟨(hld .march (mrch { st := .stopped } on)), (.marchStart, 1), by decide +kernel⟩,
  ⟨(hld .march (mrch { st := .stopped } on)), (.marchRetry, 4), by decide +kernel⟩⟩

theorem wit_CountersUpdate :
    (∃ (x : BitVec 20) (l : Fin 4) (s : State),
      s.zeroSt x.toNat l.val = some true ∧
      s.store.spills.any (fun p => decide (p.chix = x.toNat) && decide (p.line = l.val) && p.active) = false ∧
      nextOf (exec (.spillRetry x l) s) (fun u => decide (u.counted 244 = 1)) = true) ∧
    (∃ (o : Counted) (e : Nat) (en : Entry) (s : State),
      s.nextOutcome = some o ∧
      s.resident o.chix = some e ∧
      s.entry e = some en ∧
      nextOf (exec .counterOutcome s) (fun u => decide (u.cnt.queue = s.cnt.queue.erase o) && decide (u.entry e = some
          (o.incs.foldl (fun x p => x.addField p.1 p.2) en))) = true) ∧
    (∃ (n : BitVec 9) (s : State),
      ((Tab.get none s.cnt.preset n.toNat).getD (Tab.get 0 s.cnt.evc n.toNat)).toNat + s.counted n.toNat < 2 ^ 48 ∧
      nextOf (exec (.evcUpdateSlot n) s) (fun t_ => decide (t_ = { s with
      out := []
      cnt := { s.cnt with
        evc := Tab.set 0 s.cnt.evc n.toNat (BitVec.ofNat 48
          (((Tab.get none s.cnt.preset n.toNat).getD (Tab.get 0 s.cnt.evc n.toNat)).toNat + s.counted n.toNat))
        acc := Tab.set 0 s.cnt.acc n.toNat 0
        preset := Tab.set none s.cnt.preset n.toNat none
        occs := Tab.set [] s.cnt.occs n.toNat [] } })) = true) :=
  ⟨⟨5, 3, { keyed with store := { keyed.store with zeros := [(23, some true)] } }, by decide +kernel⟩,
  ⟨{ chix := 5, incs := [(2, 1), (3, 0xFFFFFFFF)] }, 0, { chix := 5, live := true },
      (ch5 { chix := 5, live := true } {} {} { on with cnt := { on.cnt with queue := [{ chix := 5, incs := [(2, 1), (3, 0xFFFFFFFF)] }] } }), by decide +kernel⟩,
  ⟨511, { on with cnt := { on.cnt with acc := [(511, 7)], evc := [(511, 0xFFFFFFFFFFF8)] } }, by decide +kernel⟩⟩

theorem wit_GovernorEvaluates :
    (∃ (s : State),
      s.govUp = true ∧
      nextOf (exec .govEvaluation s) (fun u => decide (u.pwr.targetE = s.target false) && decide
          (u.pwr.targetI = s.target true) && decide (u.slices.issuedE = 0) && decide (u.slices.issuedI = 0)) = true) ∧
    (∃ (s : State),
      s.govUp = true) ∧
    (∃ (port : Fin 32) (s : State),
      s.govUp = true ∧
      s.surging port.val = true ∧
      s.surgeOpen = false ∧
      nextOf (exec (.surge port) s) (fun u => decide (u.flag .pwr 0x40 3 = true) && decide
          (u.counted 180 = s.counted 180 + 1) && decide (u.pwr.overI = none) && decide (u.pwr.surge = (s.wakeOrder true).take
        (min s.govSurge (s.serviceableCnt true - (s.awakeCnt true + s.wantCnt true)))) && decide (∀ n ∈ u.pwr.surge,
            (u.sl n).st = .summer ∨ (u.sl n).st = .thaw ∨ (u.dom (n + 4)).want = some .on)) = true) ∧
    (∃ (d : Fin 54) (s : State),
      s.govUp = true ∧
      d.val ∈ govDoms ∧
      (s.dom d.val).season = .summer ∧
      s.needed d.val = false ∧
      nextOf (exec (.domainIdleExpiry d) s) (fun t => decide (t.dom d.val = { s.dom d.val with season := .autumn }) && decide
          (t.counted 179 = s.counted 179 + 1)) = true) ∧
    (∃ (d : Fin 54) (s : State),
      s.govUp = true ∧
      d.val ∈ govDoms ∧
      (s.dom d.val).season = .summer ∧
      s.needed d.val = false) ∧
    (∃ (d : Fin 54) (s : State),
      s.govUp = true ∧
      d.val ∈ govDoms ∧
      (s.dom d.val).season = .summer ∧
      s.needed d.val = false) ∧
    (∃ (d : Fin 54) (s : State),
      s.govUp = true ∧
      d.val ∈ govDoms ∧
      (s.dom d.val).season = .autumn ∧
      s.needed d.val = false ∧
      (s.dom d.val).req = none ∧
      s.domDrained d.val = true ∧
      (s.dom d.val).unavail = false ∧
      (s.dom d.val).refused = false ∧
      s.pmOut < 8 ∧
      nextOf (exec (.domainAutumnDrained d) s) (fun t => decide (t.out = [.pm d.val (sleepOp d.val)]) && decide
          (t.dom d.val = { s.dom d.val with req := some (sleepOp d.val), want := none, seedWait := false })) = true) ∧
    (∃ (d : Fin 54) (s : State),
      s.govUp = true ∧
      d.val ∈ govDoms ∧
      (s.dom d.val).season = .autumn ∧
      s.needed d.val = false ∧
      (s.dom d.val).req = none ∧
      s.domDrained d.val = true ∧
      (s.dom d.val).unavail = false ∧
      (s.dom d.val).refused = false ∧
      s.pmOut < 8) ∧
    (∃ (d : Fin 54) (s : State),
      s.govUp = true ∧
      d.val ∈ govDoms ∧
      (s.dom d.val).season = .autumn ∧
      s.needed d.val = true ∧
      (s.dom d.val).req = none ∧
      (s.dom d.val).unavail = false) :=
  ⟨⟨on, by decide +kernel⟩,
  ⟨(prt 0 (sds (List.replicate 16 1) on)), by decide +kernel⟩,
  ⟨31, ((prt 31 (frs [{ stopFrame with dir := .ingress, bytes := zeros 3277 }] (sds
      (List.replicate 16 1) on))).setCfg .pwr 0x94 10), by decide +kernel⟩,
  ⟨44, (gov on), by decide +kernel⟩,
  ⟨53, (gov on), by decide +kernel⟩,
  ⟨1, (gov on), by decide +kernel⟩,
  ⟨1, (dm 1 { season := .autumn } (gov on)), by decide +kernel⟩,
  ⟨45, (dm 45 { season := .autumn } (gov on)), by decide +kernel⟩,
  ⟨3, (dm 3 { season := .autumn } (on.setCfg .pwr 0x80 0)), by decide +kernel⟩⟩

theorem wit_PowerManagerAnswers :
    (∃ (d : Fin 54) (s : State),
      isSliceDom d.val = false ∧
      (s.dom d.val).req = some (sleepOp d.val) ∧
      (s.dom d.val).want = none ∧
      nextOf (exec (.pmAck d true) s) (fun u => decide
          (u.dom d.val = { s.dom d.val with req := none, season := .winter, want := none, seedWait := false })) = true) ∧
    (∃ (d : Fin 54) (s : State),
      isSliceDom d.val = false ∧
      (s.dom d.val).req = some (sleepOp d.val) ∧
      (s.dom d.val).want = none) ∧
    (∃ (n : Fin 40) (d : Fin 54) (s : State),
      d.val = n.val + 4 ∧
      (s.dom d.val).req = some .off ∧
      (s.sl n.val).st = .autumn) ∧
    (∃ (n : Fin 40) (d : Fin 54) (a b : W128) (rest : List W128) (s : State),
      d.val = n.val + 4 ∧
      (s.dom d.val).req = some .on ∧
      (s.sl n.val).st = .thaw ∧
      s.sys.seeds = a :: b :: rest ∧
      nextOf (exec (.pmAck d true) s) (fun u => decide ((u.dom d.val).req = none) && decide
          (u.sl n.val = s.sl n.val) && decide (u.sys.seeds = rest) && decide (Tab.get 0 u.sys.maskSeed n.val = b ++
          a)) = true) ∧
    (∃ (d : Fin 54) (op : PmOp) (s : State),
      (s.dom d.val).req = some op) ∧
    (∃ (d : Fin 54) (op : PmOp) (s : State),
      (s.dom d.val).req = some op) ∧
    (∃ (d : Fin 54) (s : State),
      isSliceDom d.val = false ∧
      (s.dom d.val).refused = true ∧
      (s.dom d.val).season = .autumn ∧
      s.needed d.val = false ∧
      (s.dom d.val).req = none ∧
      s.domDrained d.val = true ∧
      (s.dom d.val).unavail = false ∧
      s.pmOut < 8 ∧
      nextOf (exec (.pmRetry d) s) (fun u => decide (u.out = [.pm d.val (sleepOp d.val)]) && decide
          ((u.dom d.val).refused = false) && decide ((u.dom d.val).req = some (sleepOp d.val))) = true) ∧
    (∃ (d : Fin 54) (op : PmOp) (s : State),
      (s.dom d.val).req = some op ∧
      nextOf (exec (.pmTimeout d) s) (fun u => decide ((u.dom d.val).unavail = true) && decide
          ((u.dom d.val).req = none) && decide (u.flag .pwr 0x40 1 = true)) = true) ∧
    (∃ (d : Fin 54) (op : PmOp) (s : State),
      (s.dom d.val).req = some op) ∧
    (∃ (d : Fin 54) (late : Bool) (s : State),
      isSliceDom d.val = false ∧
      (s.dom d.val).season = .thaw ∧
      (s.dom d.val).req = none ∧
      s.seeded d.val = true ∧
      nextOf (exec (.domainThawDone d true late) s) (fun u => decide
          (u.dom d.val = { s.dom d.val with season := .summer }) && decide (u.counted 183 = s.counted 183 + b2n late)) = true) ∧
    (∃ (d : Fin 54) (late : Bool) (s : State),
      isSliceDom d.val = false ∧
      (s.dom d.val).season = .thaw ∧
      (s.dom d.val).req = none ∧
      s.seeded d.val = true ∧
      nextOf (exec (.domainThawDone d false late) s) (fun u => decide ((u.dom d.val).season = .winter) && decide
          ((u.dom d.val).unavail = true)) = true) ∧
    (∃ (d : Fin 54) (late : Bool) (s : State),
      isSliceDom d.val = false ∧
      (s.dom d.val).season = .thaw ∧
      (s.dom d.val).req = none ∧
      s.seeded d.val = true) ∧
    (∃ (d : Fin 54) (pass late : Bool) (s : State),
      isSliceDom d.val = false ∧
      (s.dom d.val).season = .thaw ∧
      (s.dom d.val).req = none ∧
      s.seeded d.val = false) :=
  ⟨⟨46, (dm 46 { season := .autumn, req := some .retain } (gov on)), by decide +kernel⟩,
  ⟨45, (dm 45 { season := .autumn, req := some .off } (gov on)), by decide +kernel⟩,
  ⟨39, 43, (dm 43 { req := some .off } (slc 39 { st := .autumn } on)), by decide +kernel⟩,
  ⟨0, 4, 1, 2, [3], (sds [1, 2, 3] (dm 4 { req := some .on } (slc 0 { st := .thaw } on))), by decide +kernel⟩,
  ⟨4, .on, (dm 4 { req := some .on } (slc 0 { st := .thaw } on)), by decide +kernel⟩,
  ⟨46, .retain, (dm 46 { season := .autumn, req := some .retain } (gov on)), by decide +kernel⟩,
  ⟨46, (dm 46 { season := .autumn, refused := true } (gov on)), by decide +kernel⟩,
  ⟨45, .on, (dm 45 { season := .thaw, req := some .on } on), by decide +kernel⟩,
  ⟨4, .on, (dm 4 { req := some .on } (slc 0 { st := .thaw } on)), by decide +kernel⟩,
  ⟨44, true, (dm 44 { season := .thaw } on), by decide +kernel⟩,
  ⟨1, false, (dm 1 { season := .thaw } on), by decide +kernel⟩,
  ⟨50, false, (dm 50 { season := .thaw } on), by decide +kernel⟩,
  ⟨44, true, true, { (dm 44 { season := .thaw } on) with sys := { on.sys with maskLate := [40, 44] } }, by decide +kernel⟩⟩

theorem wit_SlicesServed :
    (∃ (n : Fin 40) (s : State),
      s.slEmpty n.val = true ∧
      (s.sl n.val).st = .drain ∧
      (s.sl n.val).maskFault = false ∧
      (s.sl n.val).svcOut = false ∧
      (s.sl n.val).rotPending = true ∧
      nextOf (exec (.sliceDrained n) s) (fun u => decide
          (u.sl n.val = { s.sl n.val with st := .test, byTestRun := false })) = true) ∧
    (∃ (n : Fin 40) (s : State),
      s.slEmpty n.val = true ∧
      (s.sl n.val).st = .autumn ∧
      (s.dom (n.val + 4)).req = none ∧
      (s.dom (n.val + 4)).unavail = false ∧
      (s.dom (n.val + 4)).refused = false ∧
      s.pmOut < 8) ∧
    (∃ (n : Fin 40) (s : State),
      (s.sl n.val).st = .test ∧
      (s.sl n.val).svcOut = false ∧
      (s.sl n.val).byTestRun = false ∧
      (s.sl n.val).testWake = false ∧
      n.val ∉ s.sys.maskLate ∧
      nextOf (exec (.sliceSelfTestDone n true) s) (fun u => decide (u.sl n.val = { s.sl n.val with
        st := .summer, katPass := true, testAt := some s.sys.aoClk, byTestRun := false, rotPending := false })) = true) ∧
    (∃ (n : Fin 40) (s : State),
      (s.sl n.val).st = .test ∧
      n.val ∉ s.rsv (isIng n.val) ∧
      n.val ∉ s.sys.maskLate ∧
      s.resetOn (.slice n) = false ∧
      nextOf (exec (.sliceSelfTestDone n false) s) (fun u => decide (u.flag (.slice n.val) 0x40 1 = true) && decide (u.counted 7 = s.counted 7 + 1) && decide (u.sl n.val = { s.sl n.val with
        st := .faulted, katPass := false, byTestRun := false, rotPending := false, testWake := false })) = true) ∧
    (∃ (n : Fin 40) (s : State),
      (s.sl n.val).st = .summer ∧
      nextOf (exec (.rotationTestDue n) s) (fun u => decide (u.sl n.val = if s.rotAllowed n.val = true ∧ s.rotBusy
          (isIng n.val) = false
        then { s.sl n.val with st := .drain, rotPending := true, postponed := none }
        else { s.sl n.val with postponed := some ((s.sl n.val).postponed.getD s.sys.aoClk) })) = true) ∧
    (∃ (n : Fin 40) (s : State),
      (s.sl n.val).st = .summer) ∧
    (∃ (n : Fin 40) (s : State),
      (s.sl n.val).st = .summer) ∧
    (∃ (n : Fin 40) (s : State),
      (s.sl n.val).st ≠ .winter ∧
      (s.sl n.val).testAt.isSome = true ∧
      nextOf (exec (.testLate n) s) (fun t => decide (t.counted 9 = s.counted 9 + 1)) = true) ∧
    (∃ (n : Fin 40) (data : W32) (s : State),
      s.free (.slice n.val) = true ∧
      bit data 0 = true ∧
      bit data 2 = false ∧
      (s.sl n.val).svcOut = false ∧
      s.svcRefused n.val (bit data 1) = false ∧
      (s.sl n.val).st = .summer ∧
      nextOf (exec (.svcOut n data) s) (fun u => decide (u.out = [.cpDone false]) && decide
          (u.sl n.val = { s.sl n.val with svcOut := true, st := .drain })) = true) ∧
    (∃ (n : Fin 40) (data : W32) (s : State),
      s.free (.slice n.val) = true ∧
      bit data 0 = true ∧
      bit data 2 = false ∧
      (s.sl n.val).svcOut = false ∧
      s.svcRefused n.val (bit data 1) = false ∧
      (s.sl n.val).st = .summer) ∧
    (∃ (n : Fin 40) (data : W32) (s : State),
      s.free (.slice n.val) = true ∧
      bit data 0 = true ∧
      bit data 2 = false ∧
      (s.sl n.val).svcOut = false ∧
      s.svcRefused n.val (bit data 1) = true ∧
      nextOf (exec (.svcOut n data) s) (fun u => decide (u.out = [.cpDone false]) && decide
          (u.sl n.val = s.sl n.val) && decide (u.flag (.slice n.val) 0x40 0 = true)) = true) ∧
    (∃ (n : Fin 40) (data : W32) (s : State),
      s.free (.slice n.val) = true ∧
      bit data 0 = true ∧
      (s.sl n.val).svcOut = true ∧
      (s.sl n.val).st = .held ∧
      nextOf (exec (.testRun n data) s) (fun u => decide (u.out = [.cpDone false]) && decide
          (u.sl n.val = { s.sl n.val with st := .test, byTestRun := true, rotPending := false })) = true) :=
  ⟨⟨39, (sds [1, 2] (slc 39 { st := .drain, rotPending := true, byTestRun := true } onSl)), by decide +kernel⟩,
  ⟨0, (slc 0 { st := .autumn } onSl), by decide +kernel⟩,
  ⟨0, (slc 0 { st := .test, rotPending := true } onSl), by decide +kernel⟩,
  ⟨20, (slc 20 { st := .test, rotPending := true } onSl), by decide +kernel⟩,
  ⟨20, onSl, by decide +kernel⟩,
  ⟨39, (slc 38 { st := .test } onSl), by decide +kernel⟩,
  ⟨1, (slc 2 { st := .drain, rotPending := true } onSl), by decide +kernel⟩,
  ⟨5, (slc 5 { st := .summer, testAt := some 0 } on), by decide +kernel⟩,
  ⟨5, 1, onSl, by decide +kernel⟩,
  ⟨5, 3, onSl, by decide +kernel⟩,
  ⟨5, 1, (((List.range 18).map (· + 2)).foldl (fun s n => slc n { st := .faulted } s) onSl), by decide +kernel⟩,
  ⟨5, 5, (slc 5 { st := .held, svcOut := true } onSl), by decide +kernel⟩⟩

theorem wit_SliceFaults :
    (∃ (n : Fin 40) (det : BitVec 8) (s : State),
      ((1 ≤ det.toNat ∧ det.toNat ≤ 6) ∨ det.toNat = 8 ∨ det.toNat = 9) ∧
      s.resetOn (.slice n) = false ∧
      n.val ∉ s.rsv (isIng n.val) ∧
      nextOf (exec (.sliceFault n det) s) (fun u => decide ((u.sl n.val).st = .faulted) && decide
          ((u.sl n.val).susp = none) && decide (∀ f ∈ u.dp.frames, f.inSl n.val = true → f.void_ = true)) = true) ∧
    (∃ (n : Fin 40) (det : BitVec 8) (s : State),
      ((1 ≤ det.toNat ∧ det.toNat ≤ 6) ∨ det.toNat = 8 ∨ det.toNat = 9) ∧
      s.resetOn (.slice n) = false ∧
      n.val ∉ s.rsv (isIng n.val)) ∧
    (∃ (n : Fin 40) (s : State),
      (s.sl n.val).st ∈ [SlState.summer, .autumn, .test, .drain] ∧
      s.resetOn (.slice n) = false ∧
      nextOf (exec (.maskFault n) s) (fun u => decide
          (u.sl n.val = { s.sl n.val with st := .drain, maskFault := true }) && decide (u.flag
          (.slice n.val) 0x40 2 = true) && decide (u.counted 6 = s.counted 6 + 1) && decide (u.dp = s.dp)) = true) ∧
    (∃ (n : Fin 40) (s : State),
      (s.sl n.val).st ∈ [SlState.summer, .autumn, .test, .drain] ∧
      s.resetOn (.slice n) = false) ∧
    (∃ (n : Fin 40) (s : State),
      (s.sl n.val).st = .faulted ∧
      fld (s.cfg (.slice n.val) 0x88) 3 0 ≠ 0 ∧
      s.resetOn (.slice n) = false ∧
      .glob ∉ s.regs.resetting ∧
      .glob ∉ s.regs.resetWait ∧
      nextOf (exec (.sliceAutoRepair n) s) (fun u => decide (u.resetOn (.slice n) = true) && decide
          ((u.sl n.val).st = .test) && decide (u.flag (.slice n.val) 0x40 4 = true) && decide (u.cfg
          (.slice n.val) 0x88 = BitVec.ofNat 32 (fld (s.cfg (.slice n.val) 0x88) 3 0 - 1))) = true) :=
  ⟨⟨17, 1, (frs [{ stopFrame with kind := .macsec, ticket := some 4, stage := .inSlice 17 4, sofOut := true },
      { stopFrame with id := 4, kind := .macsec, ticket := some 5, stage := .inSlice 17 3 }] onSl), by decide +kernel⟩,
  ⟨17, 9, (frs [{ stopFrame with kind := .macsec, ticket := some 4, stage := .inSlice 17 4, sofOut := true },
      { stopFrame with id := 4, kind := .macsec, ticket := some 5, stage := .inSlice 17 3 }] onSl), by decide +kernel⟩,
  ⟨17, (frs [{ stopFrame with kind := .macsec, ticket := some 4, stage := .inSlice 17 4, sofOut := true }]
      (slc 17 { st := .summer } onSl)), by decide +kernel⟩,
  ⟨17, (frs [{ stopFrame with kind := .macsec, ticket := some 4, stage := .inSlice 17 4, sofOut := true }]
      (slc 17 { st := .drain } onSl)), by decide +kernel⟩,
  ⟨39, ((slc 39 { st := .faulted } onSl).setCfg (.slice 39) 0x88 1), by decide +kernel⟩⟩

theorem wit_MemoryErrors :
    (∃ (n : BitVec 6) (s : State),
      n ≠ 63 ∧
      s.sys.rootKey = none ∧
      nextOf (exec (.sramUe (.kek n)) s) (fun u => decide
          (u.sys = { s.sys with keks := Tab.del s.sys.keks n.toNat }) && decide (u.counted 0x22 = s.counted 0x22 + 1)) = true) ∧
    (∃ (n : BitVec 6) (s : State),
      n ≠ 63 ∧
      s.sys.rootKey = none) ∧
    (∃ (v : BitVec 17) (s : State),
      (s.slot v.toNat).st = .live ∧
      nextOf (exec (.vaultUe v) s) (fun u => decide ((u.slot v.toNat).st = .erased) && decide
          ((u.slot v.toNat).vaultErr = true) && decide ((u.slot v.toNat).key = []) && decide ((u.slot v.toNat).gen =
          (s.slot v.toNat).gen)) = true) ∧
    (∃ (v : BitVec 17) (s : State),
      (s.slot v.toNat).st = .live) ∧
    (∃ (page : BitVec 8) (off : BitVec 12) (p : Page) (s : State),
      pageOf page.toNat = some p ∧
      hasParity p off.toNat = true ∧
      nextOf (exec (.cfgPar page off) s) (fun u => decide (p.at off.toNat ∈ u.regs.parBad) && decide
          (u.cfg p off.toNat = regReset (p.at off.toNat)) && decide (u.stg p off.toNat = regReset (p.at off.toNat))) = true) ∧
    (∃ (page : BitVec 8) (off : BitVec 12) (p : Page) (s : State),
      pageOf page.toNat = some p ∧
      hasParity p off.toNat = true) :=
  ⟨⟨0, { on with sys := { on.sys with keks := [(0, 1), (62, 2)] } }, by decide +kernel⟩,
  ⟨62, { on with sys := { on.sys with keks := [(0, 1), (62, 2)] } }, by decide +kernel⟩,
  ⟨1, (ch5 { chix := 5, live := true } {} { liveSl with lst := .none } on), by decide +kernel⟩,
  ⟨1, (ch5 { chix := 5, live := true } {} liveSl on), by decide +kernel⟩,
  ⟨0x2F, 0x80, (.port 31), (prt 31 on), by decide +kernel⟩,
  ⟨5, 0x24, .flt, on, by decide +kernel⟩⟩

theorem wit_UnitFaults :
    (∃ (q : Part) (s : State),
      (q = .pager ∨ q = .store ∨ q = .march ∨ q = .lease ∨ q = .sec ∨ ∃ n, q = .port n) ∧
      s.resetOn q = false ∧
      nextOf (exec (.unitFaultHold q) s) (fun u => decide (u.held q = true)) = true) ∧
    (∃ (q : Part) (s : State),
      (q = .pager ∨ q = .store ∨ q = .march ∨ q = .lease ∨ q = .sec ∨ ∃ n, q = .port n) ∧
      s.resetOn q = false) ∧
    (∃ (g : Fin 7) (a b : W128) (rest : List W128) (s : State),
      lately s.sys.aoClk (Tab.get [] s.keyx.maskFires g.val) = [] ∧
      s.seedsFree = a :: b :: rest ∧
      nextOf (exec (.maskHltX g false) s) (fun u => decide (u.counted 0x36 = s.counted 0x36 + 1) && decide
          (Tab.get 0 u.sys.maskSeed (40 + g.val) = b ++ a) && decide (u.sys.seeds = s.sys.seeds.drop 2) && decide
          (Tab.get [] u.keyx.maskFires g.val = [s.sys.aoClk])) = true) ∧
    (∃ (g : Fin 7) (a b : W128) (rest : List W128) (s : State),
      lately s.sys.aoClk (Tab.get [] s.keyx.maskFires g.val) = [] ∧
      s.seedsFree = a :: b :: rest) ∧
    (∃ (g : Fin 7) (s : State),
      g.val < 4) ∧
    (∃ (q : Part) (s : State),
      s.autoMay q = true ∧
      s.resetOn q = false ∧
      .glob ∉ s.regs.resetting ∧
      .glob ∉ s.regs.resetWait ∧
      nextOf (exec (.autoPartitionReset q) s) (fun u => decide (u.resetOn q = true) && decide (u.held q = false) && decide
          (q ∈ u.flt.autoNow)) = true) ∧
    (∃ (q : Part) (s : State),
      s.autoMay q = true ∧
      s.resetOn q = false ∧
      .glob ∉ s.regs.resetting ∧
      .glob ∉ s.regs.resetWait) :=
  ⟨⟨.pager, on, by decide +kernel⟩,
  ⟨(.port 31), on, by decide +kernel⟩,
  ⟨6, 1, 2, [3], (sds [1, 2, 3] on), by decide +kernel⟩,
  ⟨0, 1, 2, [], (sds [1, 2] on), by decide +kernel⟩,
  ⟨3, on, by decide +kernel⟩,
  ⟨.lease, ((hld .lease on).setCfg .flt 0xA4 0xFFFF), by decide +kernel⟩,
  ⟨(.port 31), ((hld (.port 31) on).setCfg .flt 0xA4 0xFFFF), by decide +kernel⟩⟩

theorem wit_LatentTests :
    (∃ (t : Fin 8) (i : BitVec 9) (s : State),
      t.val ≠ 0 ∧
      nextOf (exec (.latentTest t i true) s) (fun t_ => decide (t_ = { s with
    out := []
    flt := { s.flt with
      latentAt := Tab.set none s.flt.latentAt t.val (some s.sys.aoClk), latentLate := delNat s.flt.latentLate t.val } })) = true) ∧
    (∃ (i : BitVec 9) (s : State),
      s.resetOn .sec = false) ∧
    (∃ (t : Fin 8) (s : State),
      t.val ≠ 0 ∧
      (∀ d, latentDom t.val = some d → s.domUp d = true) ∧
      t.val ∉ s.flt.latentLate) ∧
    (∃ (t : Fin 8) (s : State),
      t.val ≠ 0 ∧
      (∀ d, latentDom t.val = some d → s.domUp d = true) ∧
      t.val ∉ s.flt.latentLate ∧
      nextOf (exec (.latentLate t) s) (fun u => decide (t.val ∈ u.flt.latentLate ∧ u.counted 0x46 = 1)) = true) :=
  ⟨⟨7, 0, { on with flt := { on.flt with latentLate := [7] } }, by decide +kernel⟩,
  ⟨0, on, by decide +kernel⟩,
  ⟨1, on, by decide +kernel⟩,
  ⟨7, on, by decide +kernel⟩⟩

theorem wit_FaultRecords :
    (∃ (e : FEvent) (rest : List FEvent) (i : Nat) (s : State),
      s.flt.queue = e :: rest ∧
      s.recMasked e = false ∧
      (s.recsValid.find? (fun p => p.2.ev.same e)) = none ∧
      s.recFree = some i ∧
      nextOf (exec .faultEvent s) (fun t => decide (t.flt.queue = rest) && decide
          (t.rec_ i = some { ev := e, count := 1, serial := s.flt.serial })) = true) ∧
    (∃ (e : FEvent) (rest : List FEvent) (i : Nat) (r : FRec) (s : State),
      s.flt.queue = e :: rest ∧
      s.recMasked e = false ∧
      (s.recsValid.find? (fun p => p.2.ev.same e)) = some (i, r) ∧
      nextOf (exec .faultEvent s) (fun t => decide (t.flt.queue = rest) && decide
          (t.rec_ i = some { r with count := min 255 (r.count + 1) })) = true) ∧
    (∃ (e : FEvent) (rest : List FEvent) (s : State),
      s.flt.queue = e :: rest ∧
      s.recMasked e = true) ∧
    (∃ (data : W32) (s : State),
      s.free .flt = true ∧
      nextOf (exec (.fltRecSel data) s) (fun t => decide (t.recSel = fld data 5 0) && decide
          ((t.hdr .flt).busy = true) && decide (∀ i ∈ List.range 5, t.roW .flt (0x88 + 4 * i) = (recWords (s.rec_
          (fld data 5 0))).getD i 0)) = true) ∧
    (∃ (s : State),
      s.free .flt = true ∧
      nextOf (exec .fltRecClrOne s) (fun t => decide (t.rec_ s.recSel = none ∧ (t.hdr .flt).busy = true ∧
          t.rec_ 63 = s.rec_ 63)) = true) ∧
    (∃ (s : State),
      s.free .flt = true ∧
      nextOf (exec .fltRecClrAll s) (fun t => decide (t.flt.recs = []) && decide ((t.hdr .flt).busy = true) && decide
          (∀ i ∈ List.range 5, t.roW .flt (0x88 + 4 * i) = 0)) = true) ∧
    (∃ (data : W32) (s : State),
      s.free .flt = true ∧
      (s.hdr .flt).unlocked = true ∧
      bit data 0 = true ∧
      (detClass (fld data 26 19)).1 ≠ 7 ∧
      instExists (fld data 26 19) (fld data 18 10) = true ∧
      fld data 26 19 ∈ [0x0A, 0x10, 0x11, 0x12, 0x13, 0x14, 0x16, 0x18, 0x20, 0x21, 0x22, 0x23, 0x28, 0x29, 0x2B, 0x2D, 0x32,
          0x33, 0x34, 0x35, 0x36, 0x38, 0x40, 0x41, 0x42, 0x43, 0x45, 0x46, 0x47] ∧
      nextOf (exec (.fltInject data) s) (fun u => decide ((u.hdr .flt).unlocked = false ∧ u.counted (fld data 26 19 - 1) = 1 ∧
          u.dp = s.dp ∧ u.sys = s.sys)) = true) ∧
    (∃ (data : W32) (s : State),
      s.free .flt = true ∧
      (s.hdr .flt).unlocked = true ∧
      bit data 0 = true ∧
      (detClass (fld data 26 19)).1 ≠ 7 ∧
      instExists (fld data 26 19) (fld data 18 10) = true ∧
      fld data 26 19 ∈ [0x0A, 0x10, 0x11, 0x12, 0x13, 0x14, 0x16, 0x18, 0x20, 0x21, 0x22, 0x23, 0x28, 0x29, 0x2B, 0x2D, 0x32,
          0x33, 0x34, 0x35, 0x36, 0x38, 0x40, 0x41, 0x42, 0x43, 0x45, 0x46, 0x47]) ∧
    (∃ (data : W32) (s : State),
      s.free .flt = true ∧
      (s.hdr .flt).unlocked = true ∧
      bit data 0 = true ∧
      (detClass (fld data 26 19)).1 ≠ 7 ∧
      instExists (fld data 26 19) (fld data 18 10) = true ∧
      fld data 26 19 ∈ [0x0A, 0x10, 0x11, 0x12, 0x13, 0x14, 0x16, 0x18, 0x20, 0x21, 0x22, 0x23, 0x28, 0x29, 0x2B, 0x2D, 0x32,
          0x33, 0x34, 0x35, 0x36, 0x38, 0x40, 0x41, 0x42, 0x43, 0x45, 0x46, 0x47]) ∧
    (∃ (data : W32) (s : State),
      s.free .flt = true ∧
      (s.hdr .flt).unlocked = true ∧
      bit data 0 = true ∧
      instExists (fld data 26 19) (fld data 18 10) = false) ∧
    (∃ (data : W32) (s : State),
      s.free .flt = true ∧
      (s.hdr .flt).unlocked = true ∧
      bit data 0 = true ∧
      instExists (fld data 26 19) (fld data 18 10) = false) ∧
    (∃ (data : W32) (s : State),
      s.free .flt = true ∧
      (s.hdr .flt).unlocked = true ∧
      bit data 0 = true ∧
      instExists (fld data 26 19) (fld data 18 10) = false) :=
  ⟨⟨ev0, [], 63, (fl { on.flt with queue := [ev0], recs := (List.range 63).map (fun i => (i, some { ev := { ev0 with inst := BitVec.ofNat 9 (i + 9) }, count := 1, serial := i })), serial := 63 } (on.setCfg .flt 0x20 0x1F)), by decide +kernel⟩,
  ⟨ev0, [ev0], 5, { ev := ev0, count := 255, serial := 2 },
      (fl { on.flt with queue := [ev0, ev0], recs := [(5, some { ev := ev0, count := 255, serial := 2 })] }
      (on.setCfg .flt 0x20 0x1F)), by decide +kernel⟩,
  ⟨ev0, [], (fl { on.flt with queue := [ev0] } (on.setCfg .flt 0x20 0)), by decide +kernel⟩,
  ⟨63, (fl { on.flt with recs := [(63, some { ev := ev0, count := 2, serial := 2 })] } on), by decide +kernel⟩,
  ⟨(fl { on.flt with recs := [(0, some { ev := ev0, count := 2, serial := 2 }), (63, some { ev := ev0, count := 2, serial := 2 })] } on), by decide +kernel⟩,
  ⟨(fl { on.flt with recs := [(0, some { ev := ev0, count := 2, serial := 2 }), (63, some { ev := ev0, count := 2, serial := 2 })] } on), by decide +kernel⟩,
  ⟨5282817, ((unl .flt on)), by decide +kernel⟩,
  ⟨36224001, ((unl .flt on)), by decide +kernel⟩,
  ⟨18351105, ((unl .flt on)), by decide +kernel⟩,
  ⟨5283841, (unl .flt on), by decide +kernel⟩,
  ⟨1, (unl .flt on), by decide +kernel⟩,
  ⟨133693441, (unl .flt on), by decide +kernel⟩⟩

theorem wit_ResetsEnd :
    (∃ (q : Part) (s : State),
      s.resetOn q = true ∧
      s.restored q = true ∧
      s.regs.resetWait = [] ∧
      nextOf (exec (.partitionResetDone q) s) (fun u => decide (u.resetOn q = false) && decide (∀ p ∈ partPages q,
          (u.hdr p).epoch = (s.hdr p).epoch + 1)) = true) ∧
    (∃ (q : Part) (s : State),
      s.resetOn q = true ∧
      s.restored q = true ∧
      s.regs.resetWait = []) ∧
    (∃ (page : BitVec 8) (p : Page) (s : State),
      pageOf page.toNat = some p ∧
      s.free p = true ∧
      (s.hdr p).unlocked = true ∧
      p.part ≠ .glob ∧
      .glob ∉ s.regs.resetting ∧
      .glob ∉ s.regs.resetWait ∧
      p.aoPosted = false ∧
      nextOf (exec (.pgReset page) s) (fun u => decide (u.resetOn p.part = true) && decide
          ((u.hdr p).pending = false) && decide (u.held p.part = false)) = true) ∧
    (∃ (page : BitVec 8) (p : Page) (s : State),
      pageOf page.toNat = some p ∧
      s.free p = true ∧
      (s.hdr p).unlocked = true ∧
      p.part ≠ .glob ∧
      .glob ∉ s.regs.resetting ∧
      .glob ∉ s.regs.resetWait ∧
      p.aoPosted = false) ∧
    (∃ (page : BitVec 8) (p : Page) (s : State),
      pageOf page.toNat = some p ∧
      s.free p = true ∧
      (s.hdr p).unlocked = true ∧
      p.part ≠ .glob ∧
      .glob ∉ s.regs.resetting ∧
      .glob ∉ s.regs.resetWait ∧
      p.aoPosted = false) :=
  ⟨⟨(.port 0), { on with regs := { on.regs with resetting := [.port 0] } }, by decide +kernel⟩,
  ⟨.lease, { on with regs := { on.regs with resetting := [.lease] }, lease := { on.lease with scanDone := true } },
      by decide +kernel⟩,
  ⟨0x2F, (.port 31), (hld (.port 31) (unl (.port 31) on)), by decide +kernel⟩,
  ⟨9, .keyw, (hld .sec (unl .keyw on)), by decide +kernel⟩,
  ⟨0x57, (.slice 39), (unl (.slice 39) onSl), by decide +kernel⟩⟩

theorem wit_PeerHeardAndLost :
    (∃ (s : State) (c : Instr),
      s.pair.peerLost = false ∧
      c ∈ [Instr.ppLinkDown, .peerLost]) ∧
    (∃ (s : State) (c : Instr),
      s.pair.peerLost = false ∧
      c ∈ [Instr.ppLinkDown, .peerLost]) ∧
    (∃ (m k : Bytes) (s : State),
      s.pairListens = true ∧
      s.rxCheck 0x01 m = .ok ∧
      s.pair.session = none ∧
      s.pair.nonce = some (blockOf (slice m 40 16)) ∧
      s.pair.pk = some k ∧
      nextOf (exec (.hello m) s) (fun u => decide (u.pair.peerLost = false ∧ u.counted 226 = 1) && u.pair.session.any
          (fun q => decide (q.keyTx = sessionKey k (blockOf (slice m 40 16) ^^^ blockOf (slice m 24 16)) 0))) = true) ∧
    (∃ (k : Bytes) (n : W128) (s : State),
      s.pairOn = true ∧
      s.resetOn .pair = false ∧
      s.pair.session = none ∧
      s.pair.pk = some k ∧
      s.pair.nonce = some n ∧
      nextOf (exec .helloTimer s) (fun t_ => decide (t_ = { s with out := [.pp (
      let m := s.pairHeader 1 72 0 0 ++ ofBlock n ++ ofBlock s.pair.echo
      m ++ gmac k ((ofBlock n).take 12) m)] })) = true) ∧
    (∃ (b : Bool) (s : State),
      s.pairListens = true ∧
      nextOf (exec (.pairRxBad true b) s) (fun t => decide (t.pair = s.pair) && decide
          (t.counted 225 = s.counted 225 + 1)) = true) ∧
    (∃ (s : State),
      s.pairListens = true) ∧
    (∃ (s : State),
      s.pairListens = true ∧
      s.pair.session.isSome = true) :=
  ⟨⟨(pr .standby on), .peerLost, by decide +kernel⟩,
  ⟨(pr .active on), .ppLinkDown, by decide +kernel⟩,
  ⟨(beBytes 72 0x1010048810000000000000000000000000000000000000000000000000000000000000000abcdef00000000000000000000000000000005c1e4334c1df91248f033f71671fdf1bf), pkey, ((pr .seek on).modPair (fun p => { p with session := none, nonce := some 5, peerLost := true })), by decide +kernel⟩,
  ⟨pkey, 5, ((pr .seek on).modPair (fun p => { p with session := none, nonce := some 5 })), by decide +kernel⟩,
  ⟨true, (pr .seek on), by decide +kernel⟩,
  ⟨(pr .active on), by decide +kernel⟩,
  ⟨(pr .standby (sds [1] on)), by decide +kernel⟩⟩

theorem wit_PairMessagesSent :
    (∃ (q : Session) (s : State),
      s.pairOn = true ∧
      s.resetOn .pair = false ∧
      s.pair.session = some q ∧
      nextOf (exec .beatTimer s) (fun t_ => decide (t_ = { s with
      out := [.pp (
        let m := s.pairHeader 0x02 48 q.sid (q.txSeq + 1) ++ beBytes 8 s.ackNow
        m ++ gmac q.keyTx (sessionIv q.sid (q.txSeq + 1)) m)]
      pair := { s.pair with session := some { q with txSeq := q.txSeq + 1 } } })) = true) ∧
    (∃ (q : Session) (s : State),
      s.pairOn = true ∧
      s.resetOn .pair = false ∧
      s.pair.session = some q ∧
      s.pair.role = .standby ∧
      nextOf (exec .healthTimer s) (fun t_ => decide (t_ = { s with
      out := [.pp (
        let m := s.pairHeader 0x03 (40 + s.healthBody.length) q.sid (q.txSeq + 1) ++ s.healthBody
        m ++ gmac q.keyTx (sessionIv q.sid (q.txSeq + 1)) m)]
      pair := { s.pair with session := some { q with txSeq := q.txSeq + 1 } } })) = true) ∧
    (∃ (k : MirKind) (q : Session) (s : State),
      s.pairOn = true ∧
      s.resetOn .pair = false ∧
      s.pair.session = some q ∧
      s.pair.role = .active ∧
      s.pair.queue k ≠ [] ∧
      (s.pair.syncing = false ∨ k = .lease ∨ s.pair.qLease = []) ∧
      nextOf (exec (.mirrorFlush k) s) (fun t => decide (t.pair.queue k = (s.pair.queue k).drop (mirMax k) ∧
          t.pair.sentSeqs = s.pair.sentSeqs ++ [q.txSeq + 1] ∧ t.counted 237 = 1)) = true) ∧
    (∃ (k : MirKind) (q : Session) (s : State),
      s.pairOn = true ∧
      s.resetOn .pair = false ∧
      s.pair.session = some q ∧
      s.pair.role = .active ∧
      s.pair.queue k ≠ [] ∧
      (s.pair.syncing = false ∨ k = .lease ∨ s.pair.qLease = [])) ∧
    (∃ (v at_ : Nat) (en : Entry) (s : State),
      s.mirrors = true ∧
      s.resetOn .pair = false ∧
      s.floorsDue = [(v, at_)] ∧
      s.entry (v / 2) = some en ∧
      nextOf (exec .floorTimer s) (fun t => decide ((t.slot v).floorAt = none) && decide (t.pair.qFloor = s.pair.qFloor ++
          [{ (floorItem en.chix (decide (v % 2 = 1)) (s.slot v)) with at_ := some at_ }])) = true) ∧
    (∃ (k : Bytes) (w : W128) (rest : List W128) (s : State),
      s.pairOn = true ∧
      s.pair.ak = some k ∧
      s.seedsFree = w :: rest ∧
      nextOf (exec .statusTimer s) (fun t_ => decide (t_ = (
      let n := ((ofBlock w).take 12).set 0 (byteAt (ofBlock w) 0 &&& 0x7F)
      let m := s.statusHead ++ n ++ zeros 12
      { s with
        out := [.ab (m ++ gmac k n m)]
        sys := { s.sys with seeds := s.sys.seeds.drop 1 }
        pair := { s.pair with nonces := (n :: s.pair.nonces).take 4 } }))) = true) :=
  ⟨⟨ses, (pr .active on), by decide +kernel⟩,
  ⟨ses, (pr .standby on), by decide +kernel⟩,
  ⟨.lease, ses, ((pr .active on).modPair (fun p => { p with qLease := List.replicate 61 mit })), by decide +kernel⟩,
  ⟨.floor, ses, ((pr .active on).modPair (fun p => { p with syncing := true, qFloor := [mit] })), by decide +kernel⟩,
  ⟨1, 0, { chix := 5, live := true }, (ch5 { chix := 5, live := true } {} { liveSl with lpn := 4, floorAt := some 0 }
      (pr .active on)), by decide +kernel⟩,
  ⟨pkey, 5, [6], (sds [5, 6] (pr .active on)), by decide +kernel⟩⟩

theorem wit_PairMessagesTaken :
    (∃ (m : Bytes) (s : State),
      s.pairListens = true ∧
      s.rxCheck 0x02 m = .ok ∧
      s.pair.role = .active ∧
      msgRole m = 3 ∧
      s.pair.epoch.toNat < msgEpoch m ∧
      nextOf (exec (.beat m) s) (fun u => decide (u.pair.role = .standby) && decide (u.pair.ready = false) && decide
          (u.flag .pair 0x40 5 = true) && decide (u.counted 230 = s.counted 230 + 1)) = true) ∧
    (∃ (m : Bytes) (s : State),
      s.pairListens = true ∧
      s.rxCheck 0x03 m = .ok ∧
      s.pair.role = .active) ∧
    (∃ (s : State),
      s.pair.role = .active ∧
      nextOf (exec .healthStale s) (fun t_ => decide
          (t_ = { s with out := [], pair := { s.pair with healthStale := true } })) = true) ∧
    (∃ (m : Bytes) (s : State),
      s.pairListens = true ∧
      s.rxCheck 0x04 m = .ok ∧
      s.pair.role = .active) ∧
    (∃ (m : Bytes) (q : Session) (s : State),
      s.pairListens = true ∧
      s.rxCheck 0x06 m = .ok ∧
      s.pair.role = .active ∧
      s.pair.session = some q ∧
      s.lease.waits = []) ∧
    (∃ (m : Bytes) (s : State),
      s.pairListens = true ∧
      s.rxCheck 0x10 m = .ok ∧
      s.pair.role = .standby) ∧
    (∃ (m : Bytes) (s : State) (p : Instr × Nat × MirKind),
      s.pairListens = true ∧
      s.pair.role = .standby ∧
      p ∈ [(Instr.slot m, 0x11, MirKind.slot), (.sched m, 0x12, .sched), (.floor m, 0x13, .floor)] ∧
      s.rxCheck p.2.1 m = .ok) ∧
    (∃ (m : Bytes) (s : State),
      s.pairListens = true ∧
      s.rxCheck 0x14 m = .ok ∧
      s.pair.role = .standby) :=
  ⟨⟨(beBytes 48 0x201003083000000000000010102030400000000000000070000000000000000bee75f587f2e40c18ca38c931010ab5e),
      (pr .active on), by decide +kernel⟩,
  ⟨(beBytes 136 0x30100888200000000000000010203040000000000000007000000000000000000000000000000000000000000000000000000000000000000000000000000000000000000000000000000000000000000000000000000000000000000000000000000000000000000000000000000000000000000000000de378c1b00f0f64984785ed9bc17e7f8), (pr .active on), by decide +kernel⟩,
  ⟨(pr .active on), by decide +kernel⟩,
  ⟨(beBytes 48 0x4010030820000000000000001020304000000000000000700000000000000055ec2567b96b04cbfe05de9c934980d08),
      ((pr .active on).modPair (fun p => { p with sentSeqs := [4, 5, 6] })), by decide +kernel⟩,
  ⟨(beBytes 40 0x601002882000000000000000102030400000000000000073ae2449afaefa10b08481fdda467a3e0), ses, (pr .active on),
      by decide +kernel⟩,
  ⟨(beBytes 56 0x1001003883000000000000000102030400000000000000070000058000000009000000000000025835877f2536ce004a1d04d6de8a9e5ffc), (pr .standby on), by decide +kernel⟩,
  ⟨(beBytes 52 0x130100348300000000000000010203040000000000000007000000000000000000000000a8672f8c811f79d80c9f4e6ae156a98f),
      (pr .standby on), (.floor
      (beBytes 52 0x130100348300000000000000010203040000000000000007000000000000000000000000a8672f8c811f79d80c9f4e6ae156a98f),
      0x13, .floor), by decide +kernel⟩,
  ⟨(beBytes 48 0x1401003083000000000000000102030400000000000000070000000100000001f4dc9dc8c3c46ad6495f0e1520b4233f),
      (pr .standby on), by decide +kernel⟩⟩

theorem wit_GrantsObeyed :
    (∃ (m : Bytes) (s : State),
      s.pairOn = true ∧
      s.grantOk m = true ∧
      (byteAt m 2).toNat % 4 = 3) ∧
    (∃ (m : Bytes) (s : State),
      s.pairOn = true ∧
      s.grantOk m = true ∧
      (byteAt m 2).toNat % 4 = s.pairUnit ∧
      ((s.pair.role = .standby ∧ s.pair.ready = true) ∨ (s.pair.role = .seek ∧ (s.pairPrimary || s.pair.ready) = true)) ∧
      nextOf (exec (.grant m) s) (fun u => decide (u.pair.role = .active) && decide (u.pair.granted = true) && decide
          (u.pair.epoch = BitVec.ofNat 32 (ofBe (slice m 4 4))) && decide (u.flag .pair 0x40 4 = true) && decide
          (u.counted 229 = s.counted 229 + 1)) = true) ∧
    (∃ (m : Bytes) (s : State),
      s.pairOn = true ∧
      s.grantOk m = true ∧
      (byteAt m 2).toNat % 4 = s.pairUnit ∧
      ((s.pair.role = .standby ∧ s.pair.ready = true) ∨ (s.pair.role = .seek ∧ (s.pairPrimary || s.pair.ready) = true))) ∧
    (∃ (m : Bytes) (s : State),
      s.pairOn = true ∧
      s.grantOk m = true ∧
      (byteAt m 2).toNat % 4 = 1 - s.pairUnit ∧
      (s.pair.role = .seek ∨ (s.pair.role = .active ∧ s.pair.epoch.toNat < ofBe (slice m 4 4)))) ∧
    (∃ (m : Bytes) (s : State),
      s.pairOn = true ∧
      s.grantOk m = true ∧
      (byteAt m 2).toNat % 4 = 1 - s.pairUnit ∧
      (s.pair.role = .seek ∨ (s.pair.role = .active ∧ s.pair.epoch.toNat < ofBe (slice m 4 4)))) ∧
    (∃ (m : Bytes) (s : State),
      s.pairOn = true ∧
      s.grantOk m = false) ∧
    (∃ (m : Bytes) (s : State),
      s.pairOn = true ∧
      s.grantOk m = false) ∧
    (∃ (s : State),
      s.pairOn = true ∧
      nextOf (exec .arbLost s) (fun t_ => decide
          (t_ = { s with out := [], pair := { s.pair with arbLost := true } })) = true) :=
  ⟨⟨(beBytes 48 0x31010300000000078000000000000000000000030000000000000000000000009cc26811eda6eb22cde09445d1b58383), (nonced
      (pr .active on)), by decide +kernel⟩,
  ⟨(beBytes 48 0x310100000000000880000000000000000000000300000000000000000000000012dfd78559d707f1fd126e90f2d91501), (nonced
      ((pr .standby on).modPair (fun p => { p with ready := true }))), by decide +kernel⟩,
  ⟨(beBytes 48 0x31010000000000078000000000000000000000030000000000000000000000001656c3d5d797c1f529c09b117aadb533), (nonced
      (((pr .seek on).setCfg .pair 0x80 5))), by decide +kernel⟩,
  ⟨(beBytes 48 0x31010100000000088000000000000000000000030000000000000000000000006b53b1394fc7e1bca10d945c942ef891), (nonced
      (pr .active on)), by decide +kernel⟩,
  ⟨(beBytes 48 0x31010100000000078000000000000000000000030000000000000000000000006fdaa569c18727b875df61dd1c5a58a3), (nonced
      (pr .seek on)), by decide +kernel⟩,
  ⟨(beBytes 48 0x3101020000000007800000000000000000000003000000000000000000000000e54e0eadfbb60d6f91ff6e89b7426e13), (nonced
      (pr .active on)), by decide +kernel⟩,
  ⟨(beBytes 48 0x31010000000000068000000000000000000000030000000000000000000000008e823fda30ce4d9395d68bf737f1aac9), (nonced
      (pr .active on)), by decide +kernel⟩,
  ⟨(pr .active on), by decide +kernel⟩⟩

theorem wit_PairCommands :
    (∃ (s : State),
      s.free .pair = true ∧
      s.pair.role = .active ∧
      nextOf (exec .yield s) (fun t => decide (t.pair.yielding = true) && decide (t.pair.role = .active) && decide
          ((t.hdr .pair).busy = true) && decide (t.roW .pair 0x8C = (atPos 0 24 ||| atPos 1 16)) && decide
          (t.flag .pair 0x40 12 = true)) = true) ∧
    (∃ (s : State),
      s.free .pair = true ∧
      s.pair.role = .standby ∧
      nextOf (exec .request s) (fun t => decide (t.pair.reqHold = true) && decide ((t.hdr .pair).busy = true) && decide
          (t.roW .pair 0x8C = (atPos 0 24 ||| atPos 2 16)) && decide (t.flag .pair 0x40 12 = true)) = true) ∧
    (∃ (s : State),
      s.free .pair = true ∧
      s.pair.role = .standby ∧
      nextOf (exec .resync s) (fun t => decide (t.pair.gotHalves = []) && decide (t.pair.gotChans = []) && decide
          (t.pair.syncEnd = none) && decide ((t.hdr .pair).busy = true) && decide (t.roW .pair 0x8C =
          (atPos 0 24 ||| atPos 3 16)) && decide (t.flag .pair 0x40 12 = true)) = true) ∧
    (∃ (s : State) (p : Instr × Nat),
      s.free .pair = true ∧
      p ∈ [(Instr.yield, 1), (.request, 2), (.resync, 3)] ∧
      s.pair.role ≠ (if p.2 = 1 then .active else .standby)) ∧
    (∃ (s : State) (p : Instr × Nat),
      s.free .pair = true ∧
      p ∈ [(Instr.yield, 1), (.request, 2), (.resync, 3)] ∧
      s.pair.role ≠ (if p.2 = 1 then .active else .standby)) ∧
    (∃ (s : State) (p : Instr × Nat),
      s.free .pair = true ∧
      p ∈ [(Instr.yield, 1), (.request, 2), (.resync, 3)] ∧
      s.pair.role ≠ (if p.2 = 1 then .active else .standby)) :=
  ⟨⟨(pr .active on), by decide +kernel⟩,
  ⟨(pr .standby on), by decide +kernel⟩,
  ⟨(pr .standby on), by decide +kernel⟩,
  ⟨(pr .standby on), (.yield, 1), by decide +kernel⟩,
  ⟨(pr .active on), (.request, 2), by decide +kernel⟩,
  ⟨(pr .seek on), (.resync, 3), by decide +kernel⟩⟩

theorem wit_BadImageRefused :
    (∃ (cmd : W32) (s : State),
      s.canRun .saw = true ∧
      (4 < cSuite (s.sawArg 0) ∨ cOffset (s.sawArg 0) = 3 ∨ cClear (s.sawArg 0) = 3 ∨ cValidate
          (s.sawArg 0) = 3 ∨ s.sawArg 0 &&& 0x2FF ≠ 0 ∨ fld (s.sawArg 4) 31 12 ≠ 0 ∨ fld (s.sawArg 6) 27 16 ≠ 0 ∨ 0x40000000 <
          (s.sawArg 1).toNat ∨ (cRx (s.sawArg 0) = false ∧ cEs (s.sawArg 0) = true ∧ cScInc (s.sawArg 0) = true)) ∧
      nextOf (exec (.chWrite cmd) s) (fun t => decide (t.endedB .saw 0x84 0 0x02 0x01 0) && decide (t.ch = s.ch) && decide
          (t.store = s.store)) = true) ∧
    (∃ (cmd : W32) (s : State),
      s.canRun .saw = true ∧
      (4 < cSuite (s.sawArg 0) ∨ cOffset (s.sawArg 0) = 3 ∨ cClear (s.sawArg 0) = 3 ∨ cValidate
          (s.sawArg 0) = 3 ∨ s.sawArg 0 &&& 0x2FF ≠ 0 ∨ fld (s.sawArg 4) 31 12 ≠ 0 ∨ fld (s.sawArg 6) 27 16 ≠ 0 ∨ 0x40000000 <
          (s.sawArg 1).toNat ∨ (cRx (s.sawArg 0) = false ∧ cEs (s.sawArg 0) = true ∧ cScInc (s.sawArg 0) = true))) ∧
    (∃ (cmd : W32) (s : State),
      s.canRun .saw = true ∧
      (4 < cSuite (s.sawArg 0) ∨ cOffset (s.sawArg 0) = 3 ∨ cClear (s.sawArg 0) = 3 ∨ cValidate
          (s.sawArg 0) = 3 ∨ s.sawArg 0 &&& 0x2FF ≠ 0 ∨ fld (s.sawArg 4) 31 12 ≠ 0 ∨ fld (s.sawArg 6) 27 16 ≠ 0 ∨ 0x40000000 <
          (s.sawArg 1).toNat ∨ (cRx (s.sawArg 0) = false ∧ cEs (s.sawArg 0) = true ∧ cScInc (s.sawArg 0) = true))) ∧
    (∃ (cmd : W32) (s : State),
      s.canRun .saw = true ∧
      (4 < cSuite (s.sawArg 0) ∨ cOffset (s.sawArg 0) = 3 ∨ cClear (s.sawArg 0) = 3 ∨ cValidate
          (s.sawArg 0) = 3 ∨ s.sawArg 0 &&& 0x2FF ≠ 0 ∨ fld (s.sawArg 4) 31 12 ≠ 0 ∨ fld (s.sawArg 6) 27 16 ≠ 0 ∨ 0x40000000 <
          (s.sawArg 1).toNat ∨ (cRx (s.sawArg 0) = false ∧ cEs (s.sawArg 0) = true ∧ cScInc (s.sawArg 0) = true))) ∧
    (∃ (cmd : W32) (s : State),
      s.canRun .saw = true ∧
      (4 < cSuite (s.sawArg 0) ∨ cOffset (s.sawArg 0) = 3 ∨ cClear (s.sawArg 0) = 3 ∨ cValidate
          (s.sawArg 0) = 3 ∨ s.sawArg 0 &&& 0x2FF ≠ 0 ∨ fld (s.sawArg 4) 31 12 ≠ 0 ∨ fld (s.sawArg 6) 27 16 ≠ 0 ∨ 0x40000000 <
          (s.sawArg 1).toNat ∨ (cRx (s.sawArg 0) = false ∧ cEs (s.sawArg 0) = true ∧ cScInc (s.sawArg 0) = true))) ∧
    (∃ (cmd : W32) (s : State),
      s.canRun .saw = true ∧
      (4 < cSuite (s.sawArg 0) ∨ cOffset (s.sawArg 0) = 3 ∨ cClear (s.sawArg 0) = 3 ∨ cValidate
          (s.sawArg 0) = 3 ∨ s.sawArg 0 &&& 0x2FF ≠ 0 ∨ fld (s.sawArg 4) 31 12 ≠ 0 ∨ fld (s.sawArg 6) 27 16 ≠ 0 ∨ 0x40000000 <
          (s.sawArg 1).toNat ∨ (cRx (s.sawArg 0) = false ∧ cEs (s.sawArg 0) = true ∧ cScInc (s.sawArg 0) = true))) ∧
    (∃ (cmd : W32) (s : State),
      s.canRun .saw = true ∧
      (4 < cSuite (s.sawArg 0) ∨ cOffset (s.sawArg 0) = 3 ∨ cClear (s.sawArg 0) = 3 ∨ cValidate
          (s.sawArg 0) = 3 ∨ s.sawArg 0 &&& 0x2FF ≠ 0 ∨ fld (s.sawArg 4) 31 12 ≠ 0 ∨ fld (s.sawArg 6) 27 16 ≠ 0 ∨ 0x40000000 <
          (s.sawArg 1).toNat ∨ (cRx (s.sawArg 0) = false ∧ cEs (s.sawArg 0) = true ∧ cScInc (s.sawArg 0) = true))) ∧
    (∃ (cmd : W32) (s : State),
      s.canRun .saw = true ∧
      (4 < cSuite (s.sawArg 0) ∨ cOffset (s.sawArg 0) = 3 ∨ cClear (s.sawArg 0) = 3 ∨ cValidate
          (s.sawArg 0) = 3 ∨ s.sawArg 0 &&& 0x2FF ≠ 0 ∨ fld (s.sawArg 4) 31 12 ≠ 0 ∨ fld (s.sawArg 6) 27 16 ≠ 0 ∨ 0x40000000 <
          (s.sawArg 1).toNat ∨ (cRx (s.sawArg 0) = false ∧ cEs (s.sawArg 0) = true ∧ cScInc (s.sawArg 0) = true))) ∧
    (∃ (cmd : W32) (s : State),
      s.canRun .saw = true ∧
      (4 < cSuite (s.sawArg 0) ∨ cOffset (s.sawArg 0) = 3 ∨ cClear (s.sawArg 0) = 3 ∨ cValidate
          (s.sawArg 0) = 3 ∨ s.sawArg 0 &&& 0x2FF ≠ 0 ∨ fld (s.sawArg 4) 31 12 ≠ 0 ∨ fld (s.sawArg 6) 27 16 ≠ 0 ∨ 0x40000000 <
          (s.sawArg 1).toNat ∨ (cRx (s.sawArg 0) = false ∧ cEs (s.sawArg 0) = true ∧ cScInc (s.sawArg 0) = true))) ∧
    (∃ (cmd : W32) (s : State),
      s.canRun .saw = true ∧
      (4 < cSuite (s.sawArg 0) ∨ cOffset (s.sawArg 0) = 3 ∨ cClear (s.sawArg 0) = 3 ∨ cValidate
          (s.sawArg 0) = 3 ∨ s.sawArg 0 &&& 0x2FF ≠ 0 ∨ fld (s.sawArg 4) 31 12 ≠ 0 ∨ fld (s.sawArg 6) 27 16 ≠ 0 ∨ 0x40000000 <
          (s.sawArg 1).toNat ∨ (cRx (s.sawArg 0) = false ∧ cEs (s.sawArg 0) = true ∧ cScInc (s.sawArg 0) = true))) ∧
    (∃ (cmd : W32) (s : State),
      s.canRun .saw = true ∧
      (4 < cSuite (s.sawArg 0) ∨ cOffset (s.sawArg 0) = 3 ∨ cClear (s.sawArg 0) = 3 ∨ cValidate
          (s.sawArg 0) = 3 ∨ s.sawArg 0 &&& 0x2FF ≠ 0 ∨ fld (s.sawArg 4) 31 12 ≠ 0 ∨ fld (s.sawArg 6) 27 16 ≠ 0 ∨ 0x40000000 <
          (s.sawArg 1).toNat ∨ (cRx (s.sawArg 0) = false ∧ cEs (s.sawArg 0) = true ∧ cScInc (s.sawArg 0) = true))) :=
  ⟨⟨0x500, (setArgs [0x80A00000] on), by decide +kernel⟩,
  ⟨0x500, (setArgs [0x000C0000] on), by decide +kernel⟩,
  ⟨0x500, (setArgs [0x0000C000] on), by decide +kernel⟩,
  ⟨0x500, (setArgs [0x00003000] on), by decide +kernel⟩,
  ⟨0x500, (setArgs [1] on), by decide +kernel⟩,
  ⟨0x500, (setArgs [0x200] on), by decide +kernel⟩,
  ⟨0x500, (setArgs [0, 0x40000001] on), by decide +kernel⟩,
  ⟨0x500, (setArgs [0, 0, 0, 0, 0x1000] on), by decide +kernel⟩,
  ⟨0x500, (setArgs [0, 0, 0, 0, 0, 0, 0x10000] on), by decide +kernel⟩,
  ⟨0x500, (setArgs [0x00030000] on), by decide +kernel⟩,
  ⟨0x500, (setArgs [0x00A00000] (ch5 enTx {} {} on)), by decide +kernel⟩⟩

theorem wit_ChannelsWritten :
    (∃ (cmd : W32) (e : Nat) (s : State),
      s.canRun .saw = true ∧
      s.imageOk = true ∧
      s.known (cmdChix cmd) = false ∧
      s.trunksServed (cmdChix cmd) = true ∧
      (cExpress (s.sawArg 0) = false ∨ s.pinnedCnt < 61440) ∧
      s.lowestFree = some e) ∧
    (∃ (cmd : W32) (e : Nat) (en : Entry) (s : State),
      s.canRun .saw = true ∧
      s.imageOk = true ∧
      s.whereIs (cmdChix cmd) = .here e en ∧
      (identityDiffers (s.sawArg 0) en.cfg0 = false ∨ ((s.slot (vslotOf e false)).keyed = false ∧ (s.slot
          (vslotOf e true)).keyed = false)) ∧
      (cExpress (s.sawArg 0) = false ∨ en.pinned = true ∨ s.pinnedCnt < 61440) ∧
      nextOf (exec (.chWrite cmd) s) (fun t => decide (t.endedB .saw 0x84 0 0 0x01 e) && decide (t.ch.slots = s.ch.slots) && decide (t.groupOf (cmdChix cmd) = BitVec.ofNat 12 (fld (s.sawArg 4) 11 0)) && decide (t.entry e = some { en with
        cfg0 := withActive (s.sawArg 0) en.act, window := (s.sawArg 1).toNat, sci := s.imageSci
        pinned := en.pinned || cExpress (withActive (s.sawArg 0) en.act) })) = true) ∧
    (∃ (cmd : W32) (e : Nat) (en : Entry) (s : State),
      s.canRun .saw = true ∧
      s.imageOk = true ∧
      s.whereIs (cmdChix cmd) = .here e en ∧
      (identityDiffers (s.sawArg 0) en.cfg0 = false ∨ ((s.slot (vslotOf e false)).keyed = false ∧ (s.slot
          (vslotOf e true)).keyed = false)) ∧
      (cExpress (s.sawArg 0) = false ∨ en.pinned = true ∨ s.pinnedCnt < 61440)) ∧
    (∃ (cmd : W32) (e : Nat) (en : Entry) (s : State),
      s.canRun .saw = true ∧
      s.imageOk = true ∧
      s.whereIs (cmdChix cmd) = .here e en ∧
      identityDiffers (s.sawArg 0) en.cfg0 = true ∧
      ((s.slot (vslotOf e false)).keyed = true ∨ (s.slot (vslotOf e true)).keyed = true)) :=
  ⟨⟨0xFFFFF00, 0, (setArgs [txCfg 31 3, 0x40000000, 0x04030201, 0x08070605, 0xFFF] (keyed.setCfg .pager 0x80 0)),
      by decide +kernel⟩,
  ⟨0x500, 0, { enTx with cfg0 := txCfg 31 3 ||| 0x100 }, (setArgs [txCfg 31 3 ||| 0x00100000, 0x40000000, 1, 2, 5]
      (ch5 { enTx with cfg0 := txCfg 31 3 ||| 0x100 } liveSl liveSl on)), by decide +kernel⟩,
  ⟨0x500, 0, enTx, (setArgs [txCfg 30 0 ||| 0x60000000, 0, 1, 2, 5] (ch5 enTx { st := .erased } {} on)), by decide +kernel⟩,
  ⟨0x500, 0, enTx, (setArgs [txCfg 30 3, 0, 1, 2, 5] (ch5 enTx {} (quiet liveSl) on)), by decide +kernel⟩⟩

theorem wit_ChannelsReadAndPinned :
    (∃ (cmd : W32) (e : Nat) (en : Entry) (s : State),
      s.canRun .saw = true ∧
      s.sawClear = true ∧
      s.whereIs (cmdChix cmd) = .here e en ∧
      nextOf (exec (.chRead cmd) s) (fun t => decide (t.endedB .saw 0x84 0 0 0x02 e) && decide (t.ch = s.ch) && decide
          (t.sawArg 0 = en.cfg0) && decide (t.sawArg 1 = BitVec.ofNat 32 en.window) && decide
          (t.sawArg 5 = en.lastUsed) && decide (t.sawArg 7 = (s.slot (vslotOf e false)).statusWord) && decide (t.sawArg 8 =
          (s.slot (vslotOf e true)).statusWord) && decide (t.sawArg 12 = lo32 (slotPn (cRx en.cfg0) (s.slot
          (vslotOf e false)))) && decide (t.sawArg 14 = lo32 (slotPn (cRx en.cfg0) (s.slot (vslotOf e true))))) = true) ∧
    (∃ (cmd : W32) (e : Nat) (en : Entry) (s : State),
      s.canRun .saw = true ∧
      s.sawClear = true ∧
      s.whereIs (cmdChix cmd) = .here e en) ∧
    (∃ (cmd : W32) (s : State),
      s.canRun .saw = true ∧
      s.sawClear = true ∧
      s.whereIs (cmdChix cmd) = .unknown) ∧
    (∃ (cmd : W32) (e : Nat) (en : Entry) (s : State),
      s.canRun .saw = true ∧
      s.whereIs (cmdChix cmd) = .here e en ∧
      en.pinned = false ∧
      s.pinnedCnt < 61440 ∧
      nextOf (exec (.chPin cmd) s) (fun t => decide (t.endedB .saw 0x84 0 0 0x04 e) && decide
          (t.entry e = some { en with pinned := true }) && decide (t.ch.slots = s.ch.slots) && decide
          (t.ch.resi = s.ch.resi)) = true) ∧
    (∃ (cmd : W32) (e : Nat) (en : Entry) (s : State),
      s.canRun .saw = true ∧
      s.whereIs (cmdChix cmd) = .here e en ∧
      (en.pinned = true ∨ 61440 ≤ s.pinnedCnt)) ∧
    (∃ (cmd : W32) (e : Nat) (en : Entry) (s : State),
      s.canRun .saw = true ∧
      s.whereIs (cmdChix cmd) = .here e en ∧
      cExpress en.cfg0 = false ∧
      nextOf (exec (.chUnpin cmd) s) (fun t => decide (t.endedB .saw 0x84 0 0 0x05 0) && decide
          (t.entry e = some { en with pinned := false }) && decide (t.ch.slots = s.ch.slots) && decide
          (t.ch.resi = s.ch.resi)) = true) ∧
    (∃ (cmd : W32) (e : Nat) (en : Entry) (s : State),
      s.canRun .saw = true ∧
      s.whereIs (cmdChix cmd) = .here e en ∧
      cExpress en.cfg0 = true) :=
  ⟨⟨0x500, 0, enTx, (ch5 enTx (quiet liveSl) { st := .erased, gen := 255 } on), by decide +kernel⟩,
  ⟨0x500, 0, enRx, (ch5 enRx { quiet liveSl with retired := true, lpn := 77 } {} on), by decide +kernel⟩,
  ⟨0x600, (ch5 enTx liveSl {} on), by decide +kernel⟩,
  ⟨0x500, 0, enTx, (ch5 enTx {} {} on), by decide +kernel⟩,
  ⟨0x500, 0, { enTx with pinned := true }, (ch5 { enTx with pinned := true } {} {} on), by decide +kernel⟩,
  ⟨0x500, 0, { enTx with pinned := true }, (ch5 { enTx with pinned := true } {} {} on), by decide +kernel⟩,
  ⟨0x500, 0, { enTx with pinned := true, cfg0 := txCfg 31 3 ||| 0x20000000 },
      (ch5 { enTx with pinned := true, cfg0 := txCfg 31 3 ||| 0x20000000 } {} {} on), by decide +kernel⟩⟩

theorem wit_ChannelsEvicted :
    (∃ (cmd : W32) (e : Nat) (en : Entry) (s : State),
      s.canRun .saw = true ∧
      s.whereIs (cmdChix cmd) = .here e en ∧
      en.pinned = false ∧
      (s.slot (vslotOf e false)).unsettled = false ∧
      (s.slot (vslotOf e true)).unsettled = false ∧
      s.pageOut (cmdChix cmd) = none ∧
      nextOf (exec (.chEvict cmd) s) (fun u => decide ((u.hdr .saw).busy = true ∧
          u.entry e = some { en with evicting := true } ∧ (u.pageOut 5).isSome = true)) = true) ∧
    (∃ (cmd : W32) (e : Nat) (en : Entry) (s : State) (p : Instr),
      s.canRun .saw = true ∧
      s.whereIs (cmdChix cmd) = .here e en ∧
      en.pinned = true ∧
      s.pageOut (cmdChix cmd) = none ∧
      p ∈ [Instr.chEvict cmd, .chEvictDiscard cmd] ∧
      nextOf (exec p s) (fun t => decide (t.endedB .saw 0x84 0 0x06 0x03 0 = true ∧ t.ch = s.ch)) = true) ∧
    (∃ (cmd : W32) (s : State),
      s.canRun .saw = true ∧
      s.whereIs (cmdChix cmd) = .stored ∧
      s.pageIn (cmdChix cmd) = none ∧
      s.pageOut (cmdChix cmd) = none ∧
      (nextOf (exec (.chEvict cmd) s) (fun t => decide (t.endedB .saw 0x84 0 0 0x03 0 = true ∧ t.ch = s.ch)) && nextOf (exec
          (.chEvictDiscard cmd) s) (fun t => decide (t.endedB .saw 0x84 0 0 0x03 0 = true ∧ t.known
          (cmdChix cmd) = false))) = true) ∧
    (∃ (cmd : W32) (e : Nat) (en : Entry) (s : State),
      s.canRun .saw = true ∧
      s.whereIs (cmdChix cmd) = .here e en ∧
      en.pinned = false ∧
      (s.slot (vslotOf e false)).unsettled = false ∧
      (s.slot (vslotOf e true)).unsettled = false ∧
      s.pageOut (cmdChix cmd) = none ∧
      s.pageIn (cmdChix cmd) = none ∧
      s.holders (vslotOf e false) (s.slot (vslotOf e false)).gen = false ∧
      s.holders (vslotOf e true) (s.slot (vslotOf e true)).gen = false ∧
      nextOf (exec (.chEvictDiscard cmd) s) (fun u => decide (u.endedB .saw 0x84 0 0 0x03 0) && decide (u.known
          (cmdChix cmd) = false) && decide (u.entry e = none) && decide (u.slot (vslotOf e false) = {}) && decide (u.slot
          (vslotOf e true) = {})) = true) :=
  ⟨⟨0x500, 0, enTx, (ch5 enTx (quiet liveSl) {} on), by decide +kernel⟩,
  ⟨0x500, 0, { enTx with pinned := true }, (ch5 { enTx with pinned := true } {} {} on), (.chEvictDiscard 0x500),
      by decide +kernel⟩,
  ⟨0x500, (stord on), by decide +kernel⟩,
  ⟨0x500, 0, enTx, (ch5 enTx (quiet liveSl) { quiet liveSl with st := .erased } on), by decide +kernel⟩⟩

theorem wit_EquinoxScheduled :
    (∃ (cmd : W32) (e : Nat) (en : Entry) (s : State),
      s.canRun .saw = true ∧
      s.whereIs (cmdChix cmd) = .here e en ∧
      cRx en.cfg0 = false ∧
      fld (s.sawArg 0) 26 0 = 0 ∧
      nextOf (exec (.eqxScheduleTime cmd) s) (fun t => decide (t.endedB .saw 0x84 0 0x23 0x10 0 = true ∧
          t.entry e = some { en with eqx := some { mode := .time, fromB := en.act, defer := true, val := 5000000007 } })) = true) ∧
    (∃ (cmd : W32) (e : Nat) (en : Entry) (s : State),
      s.canRun .saw = true ∧
      s.whereIs (cmdChix cmd) = .here e en ∧
      cRx en.cfg0 = false ∧
      fld (s.sawArg 0) 26 0 = 0) ∧
    (∃ (cmd : W32) (e : Nat) (en : Entry) (s : State),
      s.canRun .saw = true ∧
      s.whereIs (cmdChix cmd) = .here e en ∧
      cRx en.cfg0 = false ∧
      fld (s.sawArg 0) 26 0 = 0 ∧
      nextOf (exec (.eqxSchedulePn cmd) s) (fun t => decide (t.endedB .saw 0x84 0 0 0x10 0 = true ∧
          t.entry e = some { en with eqx := some { mode := .pn, fromB := en.act, defer := true, val := 5 } })) = true) ∧
    (∃ (cmd : W32) (e : Nat) (en : Entry) (s : State),
      s.canRun .saw = true ∧
      s.whereIs (cmdChix cmd) = .here e en ∧
      cRx en.cfg0 = false ∧
      fld (s.sawArg 0) 26 0 = 0 ∧
      nextOf (exec (.eqxScheduleNow cmd) s) (fun t => decide (t.endedB .saw 0x84 0 0 0x10 0 = true ∧
          t.entry e = some { en with eqx := some { mode := .now, fromB := en.act, defer := true, val := 0 } })) = true) ∧
    (∃ (cmd : W32) (e : Nat) (en : Entry) (s : State),
      s.canRun .saw = true ∧
      s.whereIs (cmdChix cmd) = .here e en ∧
      cRx en.cfg0 = false ∧
      fld (s.sawArg 0) 26 0 = 0 ∧
      nextOf (exec (.eqxScheduleCancel cmd) s) (fun t => decide (t.endedB .saw 0x84 0 0 0x10 0 = true ∧
          t.entry e = some { en with eqx := none })) = true) ∧
    (∃ (cmd : W32) (e : Nat) (en : Entry) (s : State),
      s.canRun .saw = true ∧
      s.whereIs (cmdChix cmd) = .here e en ∧
      cRx en.cfg0 = false ∧
      fld (s.sawArg 0) 26 0 = 0 ∧
      nextOf (exec (.eqxScheduleQuery cmd) s) (fun t => decide (t.endedB .saw 0x84 0 0 0x10 0 = true ∧ t.ch = s.ch ∧
          t.sawArg 0 = (atPos 2 29 ||| atBit false 28 ||| atBit true 27 ||| atBit true 26))) = true) ∧
    (∃ (cmd : W32) (e : Nat) (en : Entry) (s : State),
      s.canRun .saw = true ∧
      s.whereIs (cmdChix cmd) = .here e en ∧
      cRx en.cfg0 = false ∧
      fld (s.sawArg 0) 26 0 = 0) :=
  ⟨⟨0x500, 0, { enTx with cfg0 := txCfg 31 3 ||| 0x100 }, (setArgs [0x18000000, 5, 0, 7] (tmL 5000000007 (act
      (ch5 { enTx with cfg0 := txCfg 31 3 ||| 0x100 } (quiet liveSl) {} on)))), by decide +kernel⟩,
  ⟨0x500, 0, { enTx with cfg0 := txCfg 31 3 ||| 0x100 }, (setArgs [0x18000000, 5, 0, 7] (tmL 5000000006 (act
      (ch5 { enTx with cfg0 := txCfg 31 3 ||| 0x100 } (quiet liveSl) {} on)))), by decide +kernel⟩,
  ⟨0x500, 0, { enTx with cfg0 := txCfg 31 3 ||| 0x100 }, (setArgs [0x18000000, 5, 0, 7] (tmL 5000000007 (act
      (ch5 { enTx with cfg0 := txCfg 31 3 ||| 0x100 } (quiet liveSl) {} on)))), by decide +kernel⟩,
  ⟨0x500, 0, { enTx with cfg0 := txCfg 31 3 ||| 0x100 }, (setArgs [0x18000000, 5, 0, 7] (tmL 5000000007 (act
      (ch5 { enTx with cfg0 := txCfg 31 3 ||| 0x100 } (quiet liveSl) {} on)))), by decide +kernel⟩,
  ⟨0x500, 0, { enTx with cfg0 := txCfg 31 3 ||| 0x100 }, (setArgs [0x18000000, 5, 0, 7] (tmL 5000000007 (act
      (ch5 { enTx with cfg0 := txCfg 31 3 ||| 0x100 } (quiet liveSl) {} on)))), by decide +kernel⟩,
  ⟨0x500, 0, { enTx with eqx := some { mode := .pn, fromB := false, defer := true, deferred := true, val := 5 } },
      (pr .standby (ch5 { enTx with eqx := some { mode := .pn, fromB := false, defer := true, deferred := true, val := 5 } }
      (quiet liveSl) {} on)), by decide +kernel⟩,
  ⟨0x500, 0, { enTx with eqx := some { mode := .pn, fromB := false, defer := true, deferred := true, val := 5 } },
      (pr .standby (ch5 { enTx with eqx := some { mode := .pn, fromB := false, defer := true, deferred := true, val := 5 } }
      (quiet liveSl) {} on)), by decide +kernel⟩⟩

theorem wit_SolsticeScheduled :
    (∃ (cmd : W32) (e : Nat) (en : Entry) (b : Bool) (s : State),
      s.canRun .saw = true ∧
      s.whereIs (cmdChix cmd) = .here e en ∧
      cRx en.cfg0 = true ∧
      fld (s.sawArg 0) 27 0 = 0 ∧
      bit (s.sawArg 0) 28 = b ∧
      nextOf (exec (.solScheduleTime cmd) s) (fun t => decide (t.endedB .saw 0x84 0 0 0x11 0 = true ∧
          t.entry e = some { en with sol := some { mode := .time, slotB := b, watch := false, val := s.schedTime } })) = true) ∧
    (∃ (cmd : W32) (e : Nat) (en : Entry) (b : Bool) (s : State),
      s.canRun .saw = true ∧
      s.whereIs (cmdChix cmd) = .here e en ∧
      cRx en.cfg0 = true ∧
      fld (s.sawArg 0) 27 0 = 0 ∧
      bit (s.sawArg 0) 28 = b) ∧
    (∃ (cmd : W32) (e : Nat) (en : Entry) (b : Bool) (s : State),
      s.canRun .saw = true ∧
      s.whereIs (cmdChix cmd) = .here e en ∧
      cRx en.cfg0 = true ∧
      fld (s.sawArg 0) 27 0 = 0 ∧
      bit (s.sawArg 0) 28 = b ∧
      nextOf (exec (.solScheduleFirstValid cmd) s) (fun t => decide (t.endedB .saw 0x84 0 0 0x11 0 = true ∧
          t.entry e = some { en with sol := some { mode := .firstValid, slotB := b, watch := true, val := 5 } })) = true) ∧
    (∃ (cmd : W32) (e : Nat) (en : Entry) (b : Bool) (s : State),
      s.canRun .saw = true ∧
      s.whereIs (cmdChix cmd) = .here e en ∧
      cRx en.cfg0 = true ∧
      fld (s.sawArg 0) 27 0 = 0 ∧
      bit (s.sawArg 0) 28 = b ∧
      nextOf (exec (.solScheduleNow cmd) s) (fun t => decide (t.endedB .saw 0x84 0 0 0x11 0 = true ∧
          t.entry e = some { en with sol := none } ∧ (t.slot 1).retired = true ∧ (t.slot 1).retAt = 5000000006)) = true) ∧
    (∃ (cmd : W32) (e : Nat) (en : Entry) (b : Bool) (s : State),
      s.canRun .saw = true ∧
      s.whereIs (cmdChix cmd) = .here e en ∧
      cRx en.cfg0 = true ∧
      fld (s.sawArg 0) 27 0 = 0 ∧
      bit (s.sawArg 0) 28 = b ∧
      nextOf (exec (.solScheduleCancel cmd) s) (fun t => decide (t.endedB .saw 0x84 0 0 0x11 0 = true ∧
          t.entry e = some { en with sol := none })) = true) ∧
    (∃ (cmd : W32) (e : Nat) (en : Entry) (b : Bool) (s : State),
      s.canRun .saw = true ∧
      s.whereIs (cmdChix cmd) = .here e en ∧
      cRx en.cfg0 = true ∧
      fld (s.sawArg 0) 27 0 = 0 ∧
      bit (s.sawArg 0) 28 = b ∧
      nextOf (exec (.solScheduleQuery cmd) s) (fun t => decide (t.endedB .saw 0x84 0 0 0x11 0 = true ∧ t.ch = s.ch ∧
          t.sawArg 0 = (atPos 2 29 ||| atBit true 28 ||| atBit true 27))) = true) :=
  ⟨⟨0x500, 0, enRx, true, (setArgs [0x10000000, 5, 0, 7] (tmL 5000000006 (act (ch5 enRx (quiet liveSl) (quiet liveSl) on)))),
      by decide +kernel⟩,
  ⟨0x500, 0, enRx, true, (setArgs [0x10000000, 5, 0, 7] (tmL 5000000007 (act (ch5 enRx (quiet liveSl) (quiet liveSl) on)))),
      by decide +kernel⟩,
  ⟨0x500, 0, enRx, true, (setArgs [0x10000000, 5, 0, 7] (tmL 5000000006 (act (ch5 enRx (quiet liveSl) (quiet liveSl) on)))),
      by decide +kernel⟩,
  ⟨0x500, 0, enRx, true, (setArgs [0x10000000, 10000000, 0, 7] (tmL 5000000006 (act (ch5 enRx (quiet liveSl)
      (quiet liveSl) on)))), by decide +kernel⟩,
  ⟨0x500, 0, enRx, true, (setArgs [0x10000000, 5, 0, 7] (tmL 5000000006 (act (ch5 enRx (quiet liveSl) (quiet liveSl) on)))),
      by decide +kernel⟩,
  ⟨0x500, 0, { enRx with sol := some { mode := .firstValid, slotB := true, watch := true, val := 9 } }, true,
      (setArgs [0x10000000, 5, 0, 7] (tmL 5000000006 (act
      (ch5 { enRx with sol := some { mode := .firstValid, slotB := true, watch := true, val := 9 } } (quiet liveSl)
      (quiet liveSl) on)))), by decide +kernel⟩⟩

theorem wit_StatisticsCommands :
    (∃ (cmd : W32) (e : Nat) (en : Entry) (s : State),
      s.canRun .saw = true ∧
      s.sawClear = true ∧
      s.whereIs (cmdChix cmd) = .here e en ∧
      s.spilling (cmdChix cmd) = false ∧
      s.outcomesOf (cmdChix cmd) = [] ∧
      s.domsLost [45] = false ∧
      (∀ l, l < 4 → s.zeroSt (cmdChix cmd) l = some true) ∧
      nextOf (exec (.statRead cmd) s) (fun t => decide (t.endedB .saw 0x84 0 0 0x20 0 = true ∧ t.ch = s.ch ∧
          t.counted 245 = 1 ∧ t.sawArg 14 = 0x10 ∧ t.sawArg 0 = 3 ∧ t.sawArg 1 = 0 ∧ t.sawArg 2 = 4)) = true) ∧
    (∃ (cmd : W32) (e : Nat) (en : Entry) (s : State),
      s.canRun .saw = true ∧
      s.sawClear = true ∧
      s.whereIs (cmdChix cmd) = .here e en ∧
      s.spilling (cmdChix cmd) = false ∧
      s.outcomesOf (cmdChix cmd) = [] ∧
      s.domsLost [45] = false ∧
      nextOf (exec (.statClear cmd) s) (fun u => decide ((u.hdr .saw).busy = true ∧ u.ch = s.ch ∧
          u.store.out.length = 2)) = true) ∧
    (∃ (cmd : W32) (s : State),
      s.canRun .saw = true ∧
      s.sawClear = true ∧
      s.whereIs (cmdChix cmd) = .stored ∧
      s.pageIn (cmdChix cmd) = none ∧
      s.domsLost [45] = false) :=
  ⟨⟨0x500, 0, { enTx with ctr := [(28, 3), (29, 4), (30, 0x10)] }, (setArgs [28]
      (ch5 { enTx with ctr := [(28, 3), (29, 4), (30, 0x10)] } {} {}
      ({ keyed with store := { keyed.store with zeros := [(20, some true), (21, some true), (22, some true), (23, some true)] } }))), by decide +kernel⟩,
  ⟨0x500, 0, enTx, (setArgs [0x20000001] (ch5 enTx {} {} keyed)), by decide +kernel⟩,
  ⟨0x500, (stord on), by decide +kernel⟩⟩

theorem wit_SlotsInstalledAndErased :
    (∃ (cmd : W32) (e : Nat) (en : Entry) (s : State),
      s.canRun .keyw = true ∧
      s.domsUp [1, 44] = true ∧
      s.domsLost [1, 44] = false ∧
      s.installing = false ∧
      s.sys.rootKey.isSome = true ∧
      s.sys.zero = .no ∧
      s.kekWaits .install = false ∧
      s.whereIs (cmdChix cmd) = .here e en ∧
      (s.slot (vslotOf e (cmdB28 cmd))).unsettled = false ∧
      nextOf (exec (.slotInstall cmd) s) (fun u => decide ((u.hdr .keyw).busy = true ∧ u.ch = s.ch ∧
          u.keyx.queue = [.install] ∧ s.installCheck e en (cmdB28 cmd) = none)) = true) ∧
    (∃ (cmd : W32) (e : Nat) (en : Entry) (s : State),
      s.canRun .keyw = true ∧
      s.domsUp [1, 44] = true ∧
      s.domsLost [1, 44] = false ∧
      s.installing = false ∧
      s.sys.rootKey.isSome = true ∧
      s.sys.zero = .no ∧
      s.kekWaits .install = false ∧
      s.whereIs (cmdChix cmd) = .here e en ∧
      (s.slot (vslotOf e (cmdB28 cmd))).unsettled = false ∧
      nextOf (exec (.slotInstall cmd) s) (fun t => decide (s.installCheck e en (cmdB28 cmd) = some 0x15 ∧ t.ch = s.ch ∧
          t.endedB .keyw 0x84 0 0x15 1 0 = true)) = true) ∧
    (∃ (cmd : W32) (s : State),
      s.canRun .keyw = true ∧
      s.installing = false ∧
      s.sys.rootKey = none) ∧
    (∃ (cmd : W32) (e : Nat) (en : Entry) (s : State),
      s.canRun .keyw = true ∧
      s.domUp 1 = true ∧
      s.domsLost [1] = false ∧
      s.installing = false ∧
      s.whereIs (cmdChix cmd) = .here e en ∧
      (s.slot (vslotOf e (cmdB28 cmd))).st = .live ∧
      (s.slot (vslotOf e (cmdB28 cmd))).clearing = false ∧
      s.holders (vslotOf e (cmdB28 cmd)) (s.slot (vslotOf e (cmdB28 cmd))).gen = false ∧
      nextOf (exec (.slotErase cmd) s) (fun u => decide ((u.slot (vslotOf e (cmdB28 cmd))).st = .erased) && decide ((u.slot
          (vslotOf e (cmdB28 cmd))).key = []) && decide ((u.slot (vslotOf e (cmdB28 cmd))).h = []) && decide ((u.slot
          (vslotOf e (cmdB28 cmd))).gen = (s.slot (vslotOf e (cmdB28 cmd))).gen + 1) && decide (u.endedB .keyw 0x84 0 0 2
          (((s.slot (vslotOf e (cmdB28 cmd))).gen + 1).toNat * 256))) = true) ∧
    (∃ (cmd : W32) (s : State),
      s.canRun .keyw = true ∧
      s.domUp 1 = true ∧
      s.domsLost [1] = false ∧
      s.installing = false ∧
      s.whereIs (cmdChix cmd) = .unknown) :=
  ⟨⟨0x10000500, 0, { enTx with cfg0 := txCfg 31 0 }, ((((kwIn
      (ch5 { enTx with cfg0 := txCfg 31 0 } {} {} on)).putBytes .keyw 0x100
      (blobB 1)).setCfg .keyw 0x88 0x2801).setCfg .keyw 0x90 1), by decide +kernel⟩,
  ⟨0x10000500, 0, { enTx with cfg0 := txCfg 31 0 }, ((((kwIn
      (ch5 { enTx with cfg0 := txCfg 31 0 } {} {} on)).putBytes .keyw 0x100
      (blobB 1)).setCfg .keyw 0x88 0x2801).setCfg .keyw 0x90 0), by decide +kernel⟩,
  ⟨0x500, on, by decide +kernel⟩,
  ⟨0x10000500, 0, enTx, (ch5 enTx {} (quiet liveSl) on), by decide +kernel⟩,
  ⟨0x600, on, by decide +kernel⟩⟩

theorem wit_StoreAndJournalCommands :
    (∃ (cmd : W32) (v : Live) (s : State),
      s.canRun .lease = true ∧
      s.dropping = false ∧
      s.lease.scanDone = true ∧
      s.lease.live (cmdChix cmd) = some v ∧
      nextOf (exec (.jnlRead cmd) s) (fun t => decide (t.endedB .lease 0xC4 6 0 1 0) && decide (t.lease = s.lease) && decide
          (t.roW .lease 0xCC = lo32 v.ent.ceilA) && decide (t.roW .lease 0xD0 = hi32 v.ent.ceilA) && decide
          (t.roW .lease 0xD4 = lo32 v.ent.ceilB) && decide (t.roW .lease 0xD8 = hi32 v.ent.ceilB)) = true) ∧
    (∃ (cmd : W32) (s : State),
      s.canRun .lease = true ∧
      s.dropping = false ∧
      s.lease.scanDone = true ∧
      s.lease.live (cmdChix cmd) = none) ∧
    (∃ (cmd : W32) (v : Live) (s : State),
      s.canRun .lease = true ∧
      s.dropping = false ∧
      s.lease.scanDone = true ∧
      s.known (cmdChix cmd) = false ∧
      s.lease.live (cmdChix cmd) = some v ∧
      (((s.lease.content (cmdChix cmd)).half false).isSome = true ∨ ((s.lease.content (cmdChix cmd)).half true).isSome = true) ∧
      nextOf (exec (.jnlDrop cmd) s) (fun u => decide ((u.hdr .lease).busy = true)) = true) ∧
    (∃ (cmd : W32) (s : State),
      s.canRun .lease = true ∧
      s.dropping = false ∧
      s.lease.scanDone = true ∧
      s.known (cmdChix cmd) = true) ∧
    (∃ (cmd : W32) (s : State),
      s.canRun .store = true ∧
      s.hostBusy = false ∧
      s.domUp 45 = true ∧
      (s.dom 45).unavail = false ∧
      fld cmd 31 29 = 0 ∧
      fld cmd 15 8 = 0 ∧
      nextOf (exec (.hswRead cmd) s) (fun u => decide ((u.hdr .store).busy = true ∧ s.hswAddr % 64 = 0 ∧
          u.store.out.length = 1)) = true) ∧
    (∃ (cmd : W32) (s : State),
      s.canRun .store = true ∧
      s.hostBusy = false ∧
      s.domUp 45 = true ∧
      (s.dom 45).unavail = false ∧
      fld cmd 31 29 = 0 ∧
      fld cmd 15 8 = 0 ∧
      nextOf (exec (.hswWrite cmd) s) (fun u => decide ((u.hdr .store).busy = true ∧ s.hswMask ≠ 0)) = true) ∧
    (∃ (cmd : W32) (s : State),
      s.canRun .store = true ∧
      s.hostBusy = false ∧
      s.domUp 45 = true ∧
      (s.dom 45).unavail = false ∧
      fld cmd 31 29 = 0 ∧
      fld cmd 15 8 = 0) ∧
    (∃ (cmd : W32) (s : State),
      s.canRun .store = true ∧
      s.hostBusy = false ∧
      s.domUp 45 = true ∧
      (s.dom 45).unavail = false ∧
      fld cmd 31 29 = 0 ∧
      fld cmd 15 8 = 0) ∧
    (∃ (cmd : W32) (s : State),
      s.canRun .store = true ∧
      s.hostBusy = false ∧
      s.domUp 45 = true ∧
      (s.dom 45).unavail = false ∧
      fld cmd 31 29 = 0 ∧
      fld cmd 15 8 = 0 ∧
      nextOf (exec (.keyNew cmd) s) (fun u => decide (u.endedB .store 0xD4 8 0 3 0 = true ∧ u.sys.seeds = [] ∧
          u.keySel 4095 = { seed := some 9, zkeep := true })) = true) ∧
    (∃ (cmd : W32) (s : State),
      s.canRun .store = true ∧
      s.hostBusy = false ∧
      s.domUp 45 = true ∧
      (s.dom 45).unavail = false ∧
      fld cmd 31 29 = 0 ∧
      fld cmd 15 8 = 0) ∧
    (∃ (cmd : W32) (s : State),
      s.canRun .store = true ∧
      s.hostBusy = false ∧
      s.domUp 45 = true ∧
      (s.dom 45).unavail = false ∧
      fld cmd 31 29 = 0 ∧
      fld cmd 15 8 = 0 ∧
      nextOf (exec (.keyErase cmd) s) (fun u => decide (u.endedB .store 0xD4 8 0 4 0 = true ∧ u.keySel 0 = {} ∧
          0 ∉ u.store.cache)) = true) ∧
    (∃ (cmd : W32) (s : State),
      s.canRun .store = true ∧
      s.hostBusy = false ∧
      s.domUp 45 = true ∧
      (s.dom 45).unavail = false ∧
      fld cmd 31 29 = 0 ∧
      fld cmd 15 8 = 0) ∧
    (∃ (cmd : W32) (s : State),
      s.canRun .store = true ∧
      s.hostBusy = false ∧
      s.domUp 45 = true ∧
      (s.dom 45).unavail = false ∧
      fld cmd 31 29 = 0 ∧
      fld cmd 15 8 = 0 ∧
      nextOf (exec (.wcbFlush cmd) s) (fun u => decide (u.endedB .store 0xD4 8 0 5 0 = true)) = true) ∧
    (∃ (cmd : W32) (s : State),
      s.canRun .store = true ∧
      s.hostBusy = false ∧
      s.domUp 45 = true ∧
      (s.dom 45).unavail = false ∧
      fld cmd 31 29 = 0 ∧
      fld cmd 15 8 = 0 ∧
      nextOf (exec (.keyQuery cmd) s) (fun u => decide (u.endedB .store 0xD4 8 0 6 1 = true)) = true) :=
  ⟨⟨0x500, jl, jst, by decide +kernel⟩,
  ⟨0x600, jst, by decide +kernel⟩,
  ⟨0x500, jl, jst, by decide +kernel⟩,
  ⟨0x500, (ch5 enTx {} {} jst), by decide +kernel⟩,
  ⟨0x0, ((keyed.setCfg .store 0xC0 64).setCfg .store 0xC8 1), by decide +kernel⟩,
  ⟨0x0, ((keyed.setCfg .store 0xC0 64).setCfg .store 0xC8 1), by decide +kernel⟩,
  ⟨0x0, (keyed.setCfg .store 0xC0 64), by decide +kernel⟩,
  ⟨0x0, (keyed.setCfg .store 0xC0 63), by decide +kernel⟩,
  ⟨0x1FFF0000, (sds [9] keyed), by decide +kernel⟩,
  ⟨0x000F0000, { (on) with sys := { on.sys with rnErr := true } }, by decide +kernel⟩,
  ⟨0x00000000, keyed, by decide +kernel⟩,
  ⟨0x00030000, (mrch { st := .run, tgt := 3 } keyed), by decide +kernel⟩,
  ⟨0x00000000, keyed, by decide +kernel⟩,
  ⟨0x00000000, keyed, by decide +kernel⟩⟩

theorem wit_PortEnableRefused :
    (∃ (page : BitVec 8) (n : Nat) (s : State),
      pageOf page.toNat = some (.port n) ∧
      s.free (.port n) = true ∧
      (s.hdr (.port n)).pending = false ∧
      (s.hdr (.port n)).dirty = true ∧
      s.portEn n = false ∧
      bit (s.stg (.port n) 0x80) 8 = true ∧
      bit (s.flags .glb 0x40) 0 = false ∧
      nextOf (exec (.pgCommit page) s) (fun u => decide ((u.hdr (.port n)).refused = true) && decide ((u.hdr
          (.port n)).pending = false) && decide ((u.hdr (.port n)).epoch = (s.hdr (.port n)).epoch) && decide
          (u.regs.cfg = s.regs.cfg) && decide (u.regs.staged = s.regs.staged) && decide
          (u.counted 115 = s.counted 115 + 1)) = true) ∧
    (∃ (page : BitVec 8) (n : Nat) (s : State),
      pageOf page.toNat = some (.port n) ∧
      s.free (.port n) = true ∧
      (s.hdr (.port n)).pending = false ∧
      (s.hdr (.port n)).dirty = true ∧
      s.portEn n = false ∧
      bit (s.stg (.port n) 0x80) 8 = true ∧
      bit (s.flags .glb 0x40) 0 = false) ∧
    (∃ (page : BitVec 8) (n : Nat) (s : State),
      pageOf page.toNat = some (.port n) ∧
      (s.hdr (.port n)).pending = true ∧
      s.resetOn (Page.port n).part = false ∧
      s.commitReady (.port n) = true ∧
      s.portEn n = false ∧
      bit (s.stg (.port n) 0x80) 8 = true ∧
      bit (s.flags .glb 0x40) 0 = false ∧
      nextOf (exec (.commitApply page) s) (fun u => decide ((u.hdr (.port n)).refused = true) && decide ((u.hdr
          (.port n)).pending = false) && decide ((u.hdr (.port n)).epoch = (s.hdr (.port n)).epoch) && decide
          (u.regs.cfg = s.regs.cfg) && decide (u.regs.staged = s.regs.staged) && decide
          (u.counted 115 = s.counted 115 + 1)) = true) :=
  ⟨⟨0x2F, 31, (prtReq 31), by decide +kernel⟩,
  ⟨0x10, 0, (prtReq 0), by decide +kernel⟩,
  ⟨0x2F, 31, ((prtReq 31).modHdr (.port 31) (fun h => { h with pending := true })), by decide +kernel⟩⟩

theorem wit_PagesCommit :
    (∃ (page : BitVec 8) (p : Page) (s : State),
      pageOf page.toNat = some p ∧
      s.free p = true ∧
      (s.hdr p).pending = false ∧
      (s.hdr p).dirty = true ∧
      s.commitRefuses p = false) ∧
    (∃ (page : BitVec 8) (p : Page) (s : State),
      pageOf page.toNat = some p ∧
      s.free p = true ∧
      (s.hdr p).pending = false ∧
      (s.hdr p).dirty = true ∧
      s.commitRefuses p = false) ∧
    (∃ (page : BitVec 8) (p : Page) (s : State),
      pageOf page.toNat = some p ∧
      s.free p = true ∧
      (s.hdr p).pending = false ∧
      (s.hdr p).dirty = false) ∧
    (∃ (page : BitVec 8) (p : Page) (s : State),
      pageOf page.toNat = some p ∧
      s.free p = true ∧
      (s.hdr p).pending = false ∧
      (s.hdr p).dirty = false) ∧
    (∃ (page : BitVec 8) (n : Nat) (s : State),
      pageOf page.toNat = some (.port n) ∧
      (s.hdr (.port n)).pending = true ∧
      s.resetOn (Page.port n).part = false ∧
      s.commitReady (.port n) = true ∧
      s.commitRefuses (.port n) = false) ∧
    (∃ (page : BitVec 8) (n : Nat) (s : State),
      pageOf page.toNat = some (.port n) ∧
      (s.hdr (.port n)).pending = true ∧
      s.resetOn (Page.port n).part = false ∧
      s.commitReady (.port n) = true ∧
      s.commitRefuses (.port n) = false) ∧
    (∃ (s : State),
      s.regs.digestStale = true ∧
      4 ≤ s.sys.phase ∧
      s.resetOn .glob = false) :=
  ⟨⟨0x2F, (.port 31), (frs [{ stopFrame with eof := false }] ((((on.setStaged (.port 31) 0x84 0x00400005)).modHdr (.port 31)
      (fun h => { h with dirty := true })))), by decide +kernel⟩,
  ⟨6, .pair, (((on.setStaged .pair 0x80 0)).modHdr .pair (fun h => { h with dirty := true })), by decide +kernel⟩,
  ⟨0x2F, (.port 31), on, by decide +kernel⟩,
  ⟨6, .pair, on, by decide +kernel⟩,
  ⟨0x2F, 31, ((((on.setStaged (.port 31) 0x84 0x00400005)).modHdr (.port 31) (fun h =>
      { h with dirty := true, pending := true, epoch := 0xFFFFFFFF }))), by decide +kernel⟩,
  ⟨0x10, 0, ((((on.setCfg (.port 0) 0x80 0x100).setStaged (.port 0) 0x80 0).modHdr (.port 0) (fun h =>
      { h with dirty := true, pending := true }))), by decide +kernel⟩,
  ⟨{ on with regs := { on.regs with digestStale := true } }, by decide +kernel⟩⟩

theorem wit_RegistersWritten :
    (∃ (port : Fin 32) (s : State),
      s.free (.port port) = true ∧
      nextOf (exec (.pcntClrSelected port) s) (fun t_ => decide (t_ = { s with
      out := [.cpDone false]
      cnt := { s.cnt with
        port := Tab.set 0 s.cnt.port (port * 128 + s.pcntSel port) 0
        portPoison := delNat s.cnt.portPoison (port * 128 + s.pcntSel port) } })) = true) ∧
    (∃ (port : Fin 32) (s : State),
      s.free (.port port) = true ∧
      nextOf (exec (.pcntClrAll port) s) (fun u => decide (u.cnt.port = [])) = true) ∧
    (∃ (s : State),
      s.free .pager = true ∧
      s.pager.jobs.length < 8 ∧
      nextOf (exec .grpGo s) (fun t_ => decide (t_ = (State.settle { s with
      out := [.cpDone false]
      pager := { s.pager with jobs := s.pager.jobs ++ [{
        evict := bit (s.cfg .pager 0xA8) 28, group := BitVec.ofNat 12 (fld (s.cfg .pager 0xA8) 27 16)
        mask := BitVec.ofNat 12 (fld (s.cfg .pager 0xA8) 11 0) }] } }))) = true) ∧
    (∃ (s : State),
      s.free .pager = true ∧
      s.domUp 53 = true ∧
      nextOf (exec .calWr s) (fun t_ => decide (t_ = { s with
      out := [.cpDone false]
      pager := { s.pager with cal := Tab.set 0 s.pager.cal (fld (s.cfg .pager 0xC0) 7 0) s.calData } })) = true) ∧
    (∃ (s : State),
      s.free .pager = true ∧
      s.domUp 53 = false) ∧
    (∃ (data : W32) (s : State),
      s.free .pager = true ∧
      s.domUp 53 = false ∧
      nextOf (exec (.calSel data) s) (fun u => decide (u.pager = { s.pager with calRead := true }) && decide
          (u.cfg .pager 0xC0 = BitVec.ofNat 32 (fld data 7 0))) = true) ∧
    (∃ (data : W32) (s : State),
      s.free .pager = true ∧
      s.domUp 53 = true) ∧
    (∃ (data : W32) (s : State),
      s.free .byp = true ∧
      nextOf (exec (.bypSel data) s) (fun t => decide (t.dp = s.dp) && decide (t.cfg .byp 0x80 = BitVec.ofNat 32
          (fld data 7 0)) && decide (t.bypData = bypMask (s.bypCopy (fld data 7 0)))) = true) ∧
    (∃ (s : State),
      s.free .byp = true ∧
      (s.hdr .byp).unlocked = true ∧
      (s.hdr .byp).pending = false ∧
      nextOf (exec .bypWr s) (fun t => decide (t.bypCopy (fld (s.cfg .byp 0x80) 7 0) = s.bypData) && decide
          (t.dp.byp = s.dp.byp) && decide ((t.hdr .byp).unlocked = false) && decide ((t.hdr .byp).dirty = true)) = true) ∧
    (∃ (ctr : BitVec 9) (data : W32) (s : State),
      s.free (evcPage ctr.toNat) = true ∧
      nextOf (exec (.evcPreset ctr data) s) (fun t => decide (t.cnt.evc = s.cnt.evc) && decide
          (Tab.get none t.cnt.preset ctr.toNat = some (BitVec.ofNat 48 (fld data 15 0 * 2 ^ 32 +
        (Tab.get 0 s.regs.held ((evcPage ctr.toNat).at (0x100 + 8 * (ctr.toNat % 64)))).toNat)))) = true) ∧
    (∃ (ctr : BitVec 9) (data : W32) (s : State),
      s.free (evcPage ctr.toNat) = true) ∧
    (∃ (addr : BitVec 21) (n : Nat) (data : W64) (s : State),
      pageOf (addr.toNat / 0x1000) = some (.port n) ∧
      addr.toNat % 0x1000 = 0x80 ∧
      addr.toNat < 0x100000 ∧
      s.free (.port n) = true ∧
      (s.hdr (.port n)).pending = false ∧
      nextOf (exec (.registerWrite addr 2 data) s) (fun u => decide (u.out = [.cpDone false] ∧ u.stg
          (.port n) 0x80 = mergeBits 0x107 (lo32 data.toNat) (s.stg (.port n) 0x80) ∧ u.regs.cfg = s.regs.cfg ∧ (u.hdr
          (.port n)).dirty = true)) = true) ∧
    (∃ (addr : BitVec 21) (size : BitVec 2) (data : W64) (s : State),
      s.cpUp = true ∧
      addr.toNat % 2 ^ size.toNat ≠ 0 ∧
      nextOf (exec (.registerWrite addr size data) s) (fun u => decide (u.out = [.cpDone true] ∧ u.counted 117 = 1)) = true) ∧
    (∃ (addr : BitVec 21) (size : BitVec 2) (data : W64) (s : State),
      s.cpUp = true ∧
      addr.toNat % 2 ^ size.toNat ≠ 0) ∧
    (∃ (addr : BitVec 21) (size : BitVec 2) (data : W64) (s : State),
      s.cpUp = true ∧
      addr.toNat % 2 ^ size.toNat ≠ 0) :=
  ⟨⟨31, (on.setCfg (.port 31) 0xA0 127), by decide +kernel⟩,
  ⟨31, { on with cnt := { on.cnt with port := [(31 * 128, 7), (31 * 128 + 127, 9)] } }, by decide +kernel⟩,
  ⟨((on.setCfg .pager 0xA8 0x1FFF0FFF).modPager (fun p =>
      { p with jobs := List.replicate 7 { evict := false, group := 0, mask := 0 } })), by decide +kernel⟩,
  ⟨((on.setCfg .pager 0xC0 255).setCfg .pager 0xC4 7), by decide +kernel⟩,
  ⟨(dm 53 {} ((on.setCfg .pager 0xC0 255).setCfg .pager 0xC4 7)), by decide +kernel⟩,
  ⟨255, (dm 53 {} on), by decide +kernel⟩,
  ⟨255, { on with pager := { on.pager with cal := [(255, calW 1 0 5)] } }, by decide +kernel⟩,
  ⟨255, { on with dp := { on.dp with bypStaged := [(255, some 5)] } }, by decide +kernel⟩,
  ⟨(unl .byp (on.setCfg .byp 0x80 255)), by decide +kernel⟩,
  ⟨511, 0xFFFFFFFF, { on with regs := { on.regs with held := [((evcPage 511).at 0x2F8, 9)] } }, by decide +kernel⟩,
  ⟨0, 1, on, by decide +kernel⟩,
  ⟨0x2F080, 31, 0xFFFFFFFF, on, by decide +kernel⟩,
  ⟨0x2F082, 2, 5, on, by decide +kernel⟩,
  ⟨4, 3, 5, on, by decide +kernel⟩,
  ⟨1, 1, 5, on, by decide +kernel⟩⟩

theorem wit_RegistersRead :
    (∃ (e : W32 × W32) (rest : List (W32 × W32)) (s : State),
      s.cpUp = true ∧
      s.resetOn .glob = false ∧
      s.ch.eqxLog = e :: rest ∧
      nextOf (exec .eqxLogRead s) (fun t => decide (t.out = [.cpData false e.1]) && decide
          (t.ch = { s.ch with eqxLog := rest }) && decide (t.readReg .glb 0x20C = e.2)) = true) ∧
    (∃ (s : State),
      s.cpUp = true ∧
      s.resetOn .glob = false ∧
      s.ch.eqxLog = []) ∧
    (∃ (addr : ReadAt) (a : Nat) (p : Page) (h : Nat) (s : State),
      s.cpUp = true ∧
      addr.addr.toNat % 2 ^ addr.size.toNat = 0 ∧
      a = addr.addr.toNat / 4 * 4 ∧
      a < 0x100000 ∧
      pageOf (a / 0x1000) = some p ∧
      hiOf p (a % 0x1000) = some h ∧
      loOf p (a % 0x1000) = none ∧
      nextOf (exec (.loRegisterRead addr) s) (fun u => decide (u.out = [.cpData false (s.value p (a % 0x1000) &&& 0xFF00)] ∧
          Tab.get 0 u.regs.latch (p.at h) = s.value p h)) = true) ∧
    (∃ (addr : ReadAt) (a : Nat) (p : Page) (h : Nat) (s : State),
      s.cpUp = true ∧
      addr.addr.toNat % 2 ^ addr.size.toNat = 0 ∧
      a = addr.addr.toNat / 4 * 4 ∧
      a < 0x100000 ∧
      pageOf (a / 0x1000) = some p ∧
      hiOf p (a % 0x1000) = some h ∧
      loOf p (a % 0x1000) = none) ∧
    (∃ (addr : ReadAt) (a : Nat) (p : Page) (h : Nat) (s : State),
      s.cpUp = true ∧
      addr.addr.toNat % 2 ^ addr.size.toNat = 0 ∧
      a = addr.addr.toNat / 4 * 4 ∧
      a < 0x100000 ∧
      pageOf (a / 0x1000) = some p ∧
      hiOf p (a % 0x1000) = some h ∧
      loOf p (a % 0x1000) = none) ∧
    (∃ (addr : ReadAt) (a : Nat) (p : Page) (h : Nat) (s : State),
      s.cpUp = true ∧
      addr.addr.toNat % 2 ^ addr.size.toNat = 0 ∧
      a = addr.addr.toNat / 4 * 4 ∧
      a < 0x100000 ∧
      pageOf (a / 0x1000) = some p ∧
      hiOf p (a % 0x1000) = some h ∧
      loOf p (a % 0x1000) = none) ∧
    (∃ (addr : ReadAt) (s : State),
      s.cpUp = true ∧
      addr.addr.toNat % 2 ^ addr.size.toNat ≠ 0) ∧
    (∃ (addr : ReadAt) (s : State),
      s.cpUp = true ∧
      addr.addr.toNat % 2 ^ addr.size.toNat ≠ 0) ∧
    (∃ (addr : ReadAt) (s : State),
      s.cpUp = true ∧
      addr.addr.toNat % 2 ^ addr.size.toNat ≠ 0) ∧
    (∃ (page : BitVec 8) (p : Page) (s : State),
      s.cpUp = true ∧
      pageOf page.toNat = some p ∧
      nextOf (exec (.pgUnlock page (0xC1E00000 + BitVec.ofNat 32 p.num)) s) (fun t => decide
          ((t.hdr p).unlocked = true) && decide ((t.hdr p).lockViol = (s.hdr p).lockViol) && decide
          (t.regs.cfg = s.regs.cfg)) = true) ∧
    (∃ (page : BitVec 8) (p : Page) (s : State),
      s.cpUp = true ∧
      pageOf page.toNat = some p) ∧
    (∃ (page : BitVec 8) (data : W32) (p : Page) (s : State),
      s.cpUp = true ∧
      pageOf page.toNat = some p ∧
      data ≠ 0xC1E00000 + BitVec.ofNat 32 p.num) ∧
    (∃ (page : BitVec 8) (data : W32) (p : Page) (s : State),
      s.cpUp = true ∧
      pageOf page.toNat = some p ∧
      data ≠ 0xC1E00000 + BitVec.ofNat 32 p.num) ∧
    (∃ (page : BitVec 8) (p : Page) (s : State),
      pageOf page.toNat = some p ∧
      nextOf (exec (.unlockExpiry page) s) (fun t => decide ((t.hdr p).unlocked = false) && decide ((t.hdr p).epoch =
          (s.hdr p).epoch) && decide (t.regs.cfg = s.regs.cfg)) = true) :=
  ⟨⟨(5, 6), [(7, 8)], { on with ch := { on.ch with eqxLog := [(5, 6), (7, 8)] } }, by decide +kernel⟩,
  ⟨on, by decide +kernel⟩,
  ⟨{ addr := 0x15, size := 0 }, 0x14, .glb, 0x18, on, by decide +kernel⟩,
  ⟨{ addr := 0x16, size := 1 }, 0x14, .glb, 0x18, on, by decide +kernel⟩,
  ⟨{ addr := 0x602F8, size := 3 }, 0x602F8, (.evc 0), 0x2FC, { on with cnt := { on.cnt with evc := [(63, 0x123456789)] } },
      by decide +kernel⟩,
  ⟨{ addr := 0x602F8, size := 2 }, 0x602F8, (.evc 0), 0x2FC, { on with cnt := { on.cnt with evc := [(63, 0x123456789)] } },
      by decide +kernel⟩,
  ⟨{ addr := 3, size := 1 }, on, by decide +kernel⟩,
  ⟨{ addr := 0x1FFFFE, size := 2 }, on, by decide +kernel⟩,
  ⟨{ addr := 4, size := 3 }, on, by decide +kernel⟩,
  ⟨0, .glb, on, by decide +kernel⟩,
  ⟨0x67, (.evc 7), on, by decide +kernel⟩,
  ⟨5, 0, .flt, on, by decide +kernel⟩,
  ⟨0x10, 0xC1E00011, (.port 0), on, by decide +kernel⟩,
  ⟨0x57, (.slice 39), (unl (.slice 39) on), by decide +kernel⟩⟩

end Sys2Proof.Tests
end

section
/-! PROOFS. The registers: a read after a write, and the reads that a write leaves as they were. -/
namespace Sys2Proof.Machine

theorem not_mem_delNat (l : NatSet) (k : Nat) : k ∉ delNat l k := by simp [delNat]

/-- A write of a register that is not staged restores its parity, so that the value is in force at once (R299, R355). -/
@[simp] theorem cfg_setCfg (s : State) (p : Page) (off : Nat) (v : W32) : (s.setCfg p off v).cfg p off = v := by
  have hbad : p.at off ∉ (s.setCfg p off v).regs.parBad := not_mem_delNat _ _
  unfold State.cfg
  rw [if_neg hbad]
  exact Tab.get_set _ _ _ _
@[simp] theorem roW_setRo (s : State) (p : Page) (off : Nat) (v : W32) : (s.setRo p off v).roW p off = v :=
  Tab.get_set _ _ _ _
theorem stickyW_setFlags (s : State) (p : Page) (off : Nat) (m : W32) :
    (s.setFlags p off m).stickyW p off = s.stickyW p off ||| m := Tab.get_set _ _ _ _
theorem flag_setFlag (s : State) (p : Page) (off n : Nat) (hn : n < 32) : (s.setFlag p off n).flag p off n = true := by
  unfold State.flag State.setFlag bit
  rw [stickyW_setFlags]
  simp [hn]
@[simp] theorem hdr_modHdr (s : State) (p : Page) (f : Hdr → Hdr) : (s.modHdr p f).hdr p = f (s.hdr p) :=
  Tab.get_modify _ _ _ _

@[simp] theorem setRo_cfg (s : State) (p : Page) (off : Nat) (v : W32) : (s.setRo p off v).cfg = s.cfg := rfl
@[simp] theorem setFlag_cfg (s : State) (p : Page) (off n : Nat) : (s.setFlag p off n).cfg = s.cfg := rfl
@[simp] theorem setFlag_roW (s : State) (p : Page) (off n : Nat) : (s.setFlag p off n).roW = s.roW := rfl
@[simp] theorem modHdr_roW (s : State) (p : Page) (f : Hdr → Hdr) : (s.modHdr p f).roW = s.roW := rfl
@[simp] theorem setFlag_hdr (s : State) (p : Page) (off n : Nat) : (s.setFlag p off n).hdr = s.hdr := rfl

/-- A field from bit 0 on, placed in a word of its own, reads back. -/
theorem fld_ofNat_fld (w : W32) (hi : Nat) (h : hi < 32) : fld (BitVec.ofNat 32 (fld w hi 0)) hi 0 = fld w hi 0 := by
  have hle : 2 ^ (hi + 1) ≤ 2 ^ 32 := Nat.pow_le_pow_right (by decide) h
  have hlt : w.toNat % 2 ^ (hi + 1) < 2 ^ (hi + 1) := Nat.mod_lt _ (Nat.two_pow_pos _)
  simp only [fld, Nat.shiftRight_zero, Nat.sub_zero, BitVec.toNat_ofNat, Nat.mod_eq_of_lt (hlt.trans_le hle), Nat.mod_mod]

end Sys2Proof.Machine
end

section
/-! PROOFS. KEK_CHK_IDX and KEK_CHK_VAL (R157). -/
namespace Sys2Proof.Machine

/-- A write of KEK_CHK_IDX that nothing stands against is taken. -/
theorem exec_kekCheck (data : W32) (s : State) (hf : s.free .sec = true) :
    exec (.kekCheck data) s = .next ((s.begin.emit (.cpDone false)).chkWrite data) :=
  congrArg Host.Outcome.next
    (through_plain s.begin .sec 0x9C data (·.chkWrite data) { off := 0x9C, rw := 0x3F } rfl hf rfl rfl rfl rfl rfl)

theorem kekCheck_of_none (s : State) (n : Nat) (hk : s.kek n = none) : s.kekCheck n = 0 := by
  unfold State.kekCheck
  rw [hk]
/-- While the security core is not held, the check value is that of the KEK, but for KEK 63 (R157, R307). -/
theorem kekCheck_of_some (s : State) (n : Nat) (k : Bytes) (hk : s.kek n = some k) (hh : s.held .sec = false) :
    s.kekCheck n = if n = 63 then 0 else BitVec.ofNat 32 (ofLe ((aes k (zeros 16)).take 4)) := by
  unfold State.kekCheck
  rw [hk]
  simp only [hh, Bool.false_eq_true, or_false]

theorem chkShow_flag (s : State) : s.chkShow.flag .sec 0x40 4 = true := flag_setFlag _ _ _ _ (by decide)
theorem chkShow_cfg (s : State) : s.chkShow.cfg = s.cfg := by
  unfold State.chkShow
  rw [setFlag_cfg, setRo_cfg]
theorem chkShow_value (s : State) : s.chkShow.roW .sec 0xA0 = s.kekCheck (fld (s.cfg .sec 0x9C) 5 0) := by
  unfold State.chkShow
  rw [setFlag_roW, roW_setRo]

/-- The state in which KEK_CHK_IDX has taken its index. -/
def State.chkIndexed (s : State) (data : W32) : State :=
  (s.begin.emit (.cpDone false)).setCfg .sec 0x9C (BitVec.ofNat 32 (fld data 5 0))
theorem chkIndexed_index (s : State) (data : W32) :
    (s.chkIndexed data).cfg .sec 0x9C = BitVec.ofNat 32 (fld data 5 0) := cfg_setCfg _ _ _ _

/-- The index is taken at once, and the value waits while PD_SEC sleeps (R279, R281). -/
theorem exec_kekCheck_asleep (data : W32) (s : State) (hf : s.free .sec = true) (hd : s.domUp 1 = false) :
    exec (.kekCheck data) s = .next ((s.chkIndexed data).modSys (fun y => { y with chkWait := true })).settle := by
  have hd' : ¬ (s.chkIndexed data).domUp 1 = true := Bool.eq_false_iff.mp hd
  rw [exec_kekCheck data s hf]
  exact congrArg Host.Outcome.next (if_neg hd')
theorem exec_kekCheck_awake (data : W32) (s : State) (hf : s.free .sec = true) (hd : s.domUp 1 = true) :
    exec (.kekCheck data) s = .next (s.chkIndexed data).chkShow := by
  have hd' : (s.chkIndexed data).domUp 1 = true := hd
  rw [exec_kekCheck data s hf]
  exact congrArg Host.Outcome.next (if_pos hd')

/-- Settles O15: the write takes its index; the value follows at once or waits for PD_SEC. -/
theorem kekCheckValue : Obligations.KekCheckValue := by
  unfold Obligations.KekCheckValue
  refine ⟨fun data s hf _ hd => ?_, fun data s hf hh hd => ?_⟩
  · exact ⟨_, exec_kekCheck_asleep data s hf hd, chkIndexed_index s data, rfl⟩
  · refine ⟨_, exec_kekCheck_awake data s hf hd, chkShow_flag _, ?_, ?_⟩
    · rw [chkShow_cfg, chkIndexed_index]
    · rw [chkShow_value, chkIndexed_index, fld_ofNat_fld data 5 (by decide)]
      cases hk : s.kek (fld data 5 0) with
      | none => exact kekCheck_of_none _ _ hk
      | some k => exact kekCheck_of_some _ _ k hk hh

end Sys2Proof.Machine
end

section
/-! PROOFS. A SAW command that ends at once: what its taking and its end leave alone, and that nothing further follows
(R165). -/
namespace Sys2Proof.Machine

/-- Two states agree in all that decides what is still to be done, the SAW command in progress apart. -/
structure State.AgreesBesideSaw (s t : State) : Prop where
  sys : t.sys = s.sys
  slices : t.slices = s.slices
  ch : t.ch = s.ch
  lease : t.lease = s.lease
  store : t.store = s.store
  pwr : t.pwr = s.pwr
  pair : t.pair = s.pair
  cfg : t.cfg = s.cfg
  keyw : t.pager.keyw = s.pager.keyw
  calRead : t.pager.calRead = s.pager.calRead
  calPut : t.pager.calPut = s.pager.calPut

namespace State.AgreesBesideSaw

theorem trans {a b c : State} (h : a.AgreesBesideSaw b) (k : b.AgreesBesideSaw c) : a.AgreesBesideSaw c where
  sys := k.sys.trans h.sys
  slices := k.slices.trans h.slices
  ch := k.ch.trans h.ch
  lease := k.lease.trans h.lease
  store := k.store.trans h.store
  pwr := k.pwr.trans h.pwr
  pair := k.pair.trans h.pair
  cfg := k.cfg.trans h.cfg
  keyw := k.keyw.trans h.keyw
  calRead := k.calRead.trans h.calRead
  calPut := k.calPut.trans h.calPut

variable {s t : State} (h : s.AgreesBesideSaw t)
include h

theorem storeIdle : t.storeIdle = s.storeIdle := by unfold State.storeIdle; rw [h.store]
theorem journalIdle : t.journalIdle = s.journalIdle := by
  unfold State.journalIdle State.wornSectors State.followerBad State.retireAt
  rw [h.lease, h.pair, h.cfg]
theorem mirrorIdle : t.mirrorIdle = s.mirrorIdle := by unfold State.mirrorIdle; rw [h.pair]
theorem entriesIdle : t.entriesIdle = s.entriesIdle := by unfold State.entriesIdle; rw [h.ch]
theorem domainsIdle : t.domainsIdle = s.domainsIdle := by
  unfold State.domainsIdle State.pmOrder State.dom
  rw [h.sys, h.pwr, h.slices]
theorem windowsIdle (hs : s.windowsIdle = true) (ht : t.pager.saw = none) : t.windowsIdle = true := by
  unfold State.windowsIdle at hs ⊢
  rw [h.keyw, h.lease, h.store, h.sys, h.calRead, h.calPut, ht]
  simp only [Bool.and_eq_true] at hs ⊢
  obtain ⟨⟨⟨⟨⟨⟨-, hkeyw⟩, hlease⟩, hstore⟩, hchk⟩, hread⟩, hput⟩ := hs
  exact ⟨⟨⟨⟨⟨⟨rfl, hkeyw⟩, hlease⟩, hstore⟩, hchk⟩, hread⟩, hput⟩
/-- A block with nothing under way beside the SAW command has nothing under way once that has ended. -/
theorem idle (hs : s.idle = true) (ht : t.pager.saw = none) : t.idle = true := by
  obtain ⟨hstore, hwin, hjnl, hmir, hent, hdom⟩ := idle_parts s hs
  unfold State.idle
  simp only [h.storeIdle, h.windowsIdle hwin ht, h.journalIdle, h.mirrorIdle, h.entriesIdle, h.domainsIdle, hstore, hjnl,
    hmir, hent, hdom, Bool.and_self]
theorem regRetry (hs : s.windowsIdle = true) : t.regRetry = t := by
  unfold State.windowsIdle at hs
  simp only [Bool.and_eq_true, Bool.not_eq_true', List.isEmpty_iff] at hs
  obtain ⟨⟨⟨-, hchk⟩, hread⟩, hput⟩ := hs
  exact regRetry_idle t (h.sys ▸ hchk) (h.calRead.trans hread) (h.calPut.trans hput)
theorem tablesUp : t.tablesUp = s.tablesUp := by
  unfold State.tablesUp State.domsUp State.domsLost State.domUp State.season State.sl State.dom
  rw [h.pwr, h.slices]
theorem imageOk : t.imageOk = s.imageOk := by
  unfold State.imageOk State.sawArg
  rw [h.cfg]

end State.AgreesBesideSaw

/-- The state in which SAW_CMD has taken a command. -/
def State.sawTaken (s : State) (c : W32) : State :=
  ((s.begin.emit (.cpDone false)).setBusy .saw true).modPager (fun p => { p with saw := some c })
theorem sawTaken_agrees (s : State) (c : W32) : s.AgreesBesideSaw (s.sawTaken c) :=
  ⟨rfl, rfl, rfl, rfl, rfl, rfl, rfl, rfl, rfl, rfl, rfl⟩
theorem sawTaken_saw (s : State) (c : W32) : (s.sawTaken c).pager.saw = some c := rfl

theorem evt_agrees (s : State) (n k : Nat) : s.AgreesBesideSaw (s.evt n k) :=
  ⟨rfl, rfl, rfl, rfl, rfl, rfl, rfl, rfl, rfl, rfl, rfl⟩
/-- What counts the command and its failure changes nothing else. -/
theorem evt_when_agrees (s : State) (c : Bool) : s.AgreesBesideSaw ((s.evt 110 1).when c (·.evt 111 1)) := by
  cases c with
  | false => exact evt_agrees s 110 1
  | true => exact (evt_agrees s 110 1).trans (evt_agrees _ 111 1)
theorem sawDone_agrees (s : State) (code detail : Nat) : s.AgreesBesideSaw (s.sawDone code detail) :=
  (evt_when_agrees s _).trans ⟨rfl, rfl, rfl, rfl, rfl, rfl, rfl, rfl, rfl, rfl, rfl⟩
theorem sawDone_saw (s : State) (code detail : Nat) : (s.sawDone code detail).pager.saw = none := rfl

/-- A window command that is ended has ended (R165). -/
theorem cmdDone_ended (s : State) (p : Page) (off flag code op detail : Nat) (hflag : flag < 32) :
    (s.cmdDone p off flag code op detail).ended p off flag code op detail := by
  unfold State.cmdDone State.ended
  refine ⟨?_, ?_, flag_setFlag _ _ _ _ hflag⟩
  · rw [setFlag_hdr, hdr_modHdr]
  · rw [setFlag_roW, modHdr_roW, roW_setRo]
theorem sawDone_ended (s : State) (c : W32) (code detail : Nat) (hc : s.pager.saw = some c) :
    (s.sawDone code detail).ended .saw 0x84 0 code (cmdOp c) detail := by
  unfold State.sawDone
  rw [hc]
  exact cmdDone_ended _ _ _ _ _ _ _ (by decide)

theorem canRun_parts (s : State) (p : Page) (h : s.canRun p = true) :
    s.idle = true ∧ s.free p = true ∧ s.tablesUp = true := by
  unfold State.canRun at h
  simp only [Bool.and_eq_true] at h
  obtain ⟨⟨hidle, hfree⟩, htab⟩ := h
  exact ⟨hidle, hfree, htab⟩

/-- A SAW command that runs to its end with nothing else under way is answered within the step of its write. -/
theorem sawStart_of_sawDone (s : State) (c : W32) (code detail : Nat) (h : s.canRun .saw = true)
    (hrun : (s.sawTaken c).sawRun = (s.sawTaken c).sawDone code detail) :
    s.begin.sawStart c = (s.sawTaken c).sawDone code detail := by
  obtain ⟨hidle, hfree, -⟩ := canRun_parts s .saw h
  obtain ⟨hstore, hwin, -, -, hent, hdom⟩ := idle_parts s hidle
  obtain ⟨-, -, -, hcmd⟩ := idle_cmds s hwin
  have htake : s.begin.sawStart c = (s.sawTaken c).settle :=
    through_plain s.begin .saw 0x80 c (·.sawTake c) { off := 0x80, wo := 0x1FFFFFFF } rfl hfree rfl rfl rfl rfl rfl
  have ha := sawTaken_agrees s c
  have hend := (ha.trans (sawDone_agrees _ code detail)).idle hidle (sawDone_saw _ _ _)
  rw [htake]
  exact settle_saw _ _ (ha.domainsIdle.trans hdom) (ha.entriesIdle.trans hent) (ha.storeIdle.trans hstore)
    ((congrArg Store.cmd ha.store).trans hcmd) (ha.regRetry hwin) hrun hend

/-- The opcode that a row gives its SAW command. -/
theorem cmdOp_sawCmd (c : W32) (op : Nat) (h : op < 256) : cmdOp (sawCmd c op) = op := by
  have hlow : (sawCmd c op).setWidth 8 = BitVec.ofNat 8 op := by
    unfold sawCmd withOp mergeBits
    have hmask : (255#8) = BitVec.allOnes 8 := rfl
    simp only [BitVec.ofNat_eq_ofNat, BitVec.zero_and, BitVec.reduceNot, BitVec.zero_or, BitVec.setWidth_and,
      BitVec.setWidth_or, Nat.reduceLeDiff, BitVec.setWidth_ofNat_of_le, BitVec.reduceOfNat, BitVec.and_zero,
      BitVec.or_zero]
    rw [hmask, BitVec.and_allOnes, BitVec.and_allOnes]
  have := congrArg BitVec.toNat hlow
  simpa [cmdOp, fld, Nat.mod_eq_of_lt h] using this

end Sys2Proof.Machine
end

section
/-! PROOFS. CH_WRITE with a bad image (R145). -/
namespace Sys2Proof.Machine

/-- CH_WRITE needs the tables alone (R281). -/
theorem sawNeeds_write (s : State) (x : Nat) (d : Bool) : s.sawNeeds 0x01 x d = tableDoms := by
  simp [State.sawNeeds]

/-- While the tables serve, a SAW command with the opcode of CH_WRITE writes its channel. -/
theorem sawRun_write (s : State) (c : W32) (hc : s.pager.saw = some c) (hop : cmdOp c = 0x01) (ht : s.tablesUp = true) :
    s.sawRun = s.runWrite (cmdChix c) := by
  unfold State.tablesUp at ht
  simp only [Bool.and_eq_true, Bool.not_eq_true'] at ht
  obtain ⟨hup, hlost⟩ := ht
  unfold State.sawRun
  rw [hc]
  simp [hop, sawNeeds_write, hlost, hup, sawOps]

theorem runWrite_badImage (s : State) (x : Nat) (h : s.imageOk = false) : s.runWrite x = s.sawDone 0x02 0 := by
  unfold State.runWrite
  simp [h]

/-- What makes an image bad (R145). -/
theorem imageOk_eq_false (s : State)
    (h : 4 < cSuite (s.sawArg 0) ∨ cOffset (s.sawArg 0) = 3 ∨ cClear (s.sawArg 0) = 3 ∨ cValidate (s.sawArg 0) = 3 ∨
      s.sawArg 0 &&& 0x2FF ≠ 0 ∨ fld (s.sawArg 4) 31 12 ≠ 0 ∨ fld (s.sawArg 6) 27 16 ≠ 0 ∨ 0x40000000 < (s.sawArg 1).toNat ∨
      (cRx (s.sawArg 0) = false ∧ cEs (s.sawArg 0) = true ∧ cScInc (s.sawArg 0) = true)) :
    s.imageOk = false := by
  rw [← Bool.not_eq_true]
  intro hok
  simp only [State.imageOk, Bool.and_eq_true, decide_eq_true_eq, Bool.not_eq_true', Bool.and_eq_false_iff,
    Bool.not_eq_false'] at hok
  obtain ⟨⟨⟨⟨⟨⟨⟨⟨hsuite, hoff⟩, hclear⟩, hval⟩, hres0⟩, hwin⟩, hres4⟩, hres6⟩, hsc⟩ := hok
  rcases h with h | h | h | h | h | h | h | h | ⟨hrx, hes, hinc⟩
  · omega
  · exact hoff h
  · exact hclear h
  · exact hval h
  · exact h hres0
  · exact h hres4
  · exact h hres6
  · omega
  · simp [hrx, hes, hinc] at hsc

/-- CH_WRITE of a bad image ends at once and writes nothing. -/
theorem exec_chWrite_badImage (cmd : W32) (s : State) (h : s.canRun .saw = true) (hi : s.imageOk = false) :
    exec (.chWrite cmd) s = .next ((s.sawTaken (sawCmd cmd 0x01)).sawDone 0x02 0) := by
  have ha := sawTaken_agrees s (sawCmd cmd 0x01)
  obtain ⟨-, -, htab⟩ := canRun_parts s .saw h
  have hrun : (s.sawTaken (sawCmd cmd 0x01)).sawRun = (s.sawTaken (sawCmd cmd 0x01)).sawDone 0x02 0 := by
    rw [sawRun_write _ _ (sawTaken_saw s _) (cmdOp_sawCmd cmd 0x01 (by decide)) (ha.tablesUp.trans htab),
      runWrite_badImage _ _ (ha.imageOk.trans hi)]
  exact congrArg Host.Outcome.next (sawStart_of_sawDone s _ _ _ h hrun)

/-- Settles O47: a bad image is refused before any table is looked at, and the end of the command leaves channels and
store alone. -/
theorem badImageRefused : Obligations.BadImageRefused := by
  unfold Obligations.BadImageRefused
  intro cmd s h hbad
  have hend := sawDone_ended _ _ 0x02 0 (sawTaken_saw s (sawCmd cmd 0x01))
  rw [cmdOp_sawCmd cmd 0x01 (by decide)] at hend
  have ha := (sawTaken_agrees s (sawCmd cmd 0x01)).trans (sawDone_agrees _ 0x02 0)
  exact ⟨_, exec_chWrite_badImage cmd s h (imageOk_eq_false s hbad), hend, ha.ch, ha.store⟩

end Sys2Proof.Machine
end

section
/-! PROOFS. A commit that would enable a port before READY (R351, R391). -/
namespace Sys2Proof.Machine

/-- The first condition of a register of three level flags stands in bit 0. -/
theorem bit_bitsW_first : ∀ a b c : Bool, bit (bitsW [a, b, c]) 0 = a := by decide

/-- Bit 0 of GLB_FLAGS reads as 1 while the conditions of READY hold (R363). -/
theorem glbReady_eq_false (s : State) (h : bit (s.flags .glb 0x40) 0 = false) : s.glbReady = false := by
  have hbit : bit (s.flags .glb 0x40) 0 = (bit (s.stickyW .glb 0x40) 0 || bit (s.levels .glb 0x40) 0) := BitVec.getLsbD_or
  have hlev : bit (s.levels .glb 0x40) 0 = s.glbReady := bit_bitsW_first _ _ _
  rw [hbit, hlev, Bool.or_eq_false_iff] at h
  exact h.2

/-- An enable before READY is among the refusals of a port (R391). -/
theorem portRefuses_enable (s : State) (n : Nat) (hen : s.portEn n = false) (hst : bit (s.stg (.port n) 0x80) 8 = true)
    (hr : bit (s.flags .glb 0x40) 0 = false) : s.portRefuses n = true := by
  have hready : (s.sys.rootKey.isSome && s.sys.kekReady && s.lease.scanDone && !decide (s.sys.zero = .done)) = false :=
    glbReady_eq_false s hr
  unfold State.portRefuses
  simp only [hen, hst, hready, Bool.not_false, Bool.and_self, Bool.or_true]
theorem commitRefuses_enable (s : State) (n : Nat) (hen : s.portEn n = false)
    (hst : bit (s.stg (.port n) 0x80) 8 = true) (hr : bit (s.flags .glb 0x40) 0 = false) :
    s.commitRefuses (.port n) = true := by
  unfold State.commitRefuses
  simp only [portRefuses_enable s n hen hst hr, Bool.or_true]

/-- A refusal is marked in the page's header and counted; nothing is applied, and the staged copies stay (R351). -/
theorem commitRefuse_effect (s : State) (p : Page) :
    ((s.commitRefuse p).hdr p).refused = true ∧ ((s.commitRefuse p).hdr p).pending = false ∧
    ((s.commitRefuse p).hdr p).epoch = (s.hdr p).epoch ∧ (s.commitRefuse p).regs.cfg = s.regs.cfg ∧
    (s.commitRefuse p).regs.staged = s.regs.staged ∧ (s.commitRefuse p).counted 115 = s.counted 115 + 1 := by
  have hhdr : (s.commitRefuse p).hdr p = { s.hdr p with refused := true, pending := false, dirty := false, waits := [] } :=
    hdr_modHdr s p _
  rw [hhdr]
  exact ⟨rfl, rfl, rfl, rfl, rfl, counted_evt _ 115 1⟩

/-- A write of COMMIT that nothing stands against, of a page that is not posted, is carried out (R345, R349). -/
theorem exec_pgCommit (page : BitVec 8) (p : Page) (s : State) (hp : pageOf page.toNat = some p) (hf : s.free p = true)
    (ha : p.aoPosted = false) :
    exec (.pgCommit page) s = .next ((s.begin.emit (.cpDone false)).commitWrite p).settle := by
  have hthrough := through_plain s.begin p 0x08 1 (fun s => (s.commitWrite p).settle) { off := 0x08, w1s := 1 } rfl hf
    (by decide) rfl rfl rfl ha
  change execPgCommit page s = _
  unfold execPgCommit
  simp only [hp, hthrough]

theorem commitWrite_refused (s : State) (p : Page) (hp : (s.hdr p).pending = false) (hd : (s.hdr p).dirty = true)
    (hr : s.commitRefuses p = true) : s.commitWrite p = s.commitRefuse p := by
  unfold State.commitWrite
  simp only [hp, hd, hr, Bool.false_eq_true, Bool.not_true, if_false, if_true]

/-- A pending commit is judged again when its boundary has come (R351). -/
theorem exec_commitApply_refused (page : BitVec 8) (p : Page) (s : State) (hp : pageOf page.toNat = some p)
    (hpend : (s.hdr p).pending = true) (ho : s.resetOn p.part = false) (hb : s.commitReady p = true)
    (hr : s.commitRefuses p = true) : exec (.commitApply page) s = .next (s.begin.commitRefuse p).settle := by
  have hdue : ((s.begin.hdr p).pending && !s.begin.resetOn p.part && s.begin.commitReady p) = true := by
    change ((s.hdr p).pending && !s.resetOn p.part && s.commitReady p) = true
    rw [hpend, ho, hb]
    rfl
  have hr' : s.begin.commitRefuses p = true := hr
  change execCommitApply page s = _
  unfold execCommitApply
  simp only [hp, hdue, hr', if_true]

/-- Settles O56: READY 0 makes the enable a refusal, at the write of COMMIT and at its boundary alike. -/
theorem portEnableRefused : Obligations.PortEnableRefused := by
  unfold Obligations.PortEnableRefused
  refine ⟨fun page n s hp hf hpend hd hen hst hr => ?_, fun page n s hp hpend ho hb hen hst hr => ?_⟩
  · have href : (s.begin.emit (.cpDone false)).commitRefuses (.port n) = true := commitRefuses_enable s n hen hst hr
    refine ⟨_, ?_, commitRefuse_effect (s.begin.emit (.cpDone false)) (.port n)⟩
    rw [exec_pgCommit page _ s hp hf rfl, commitWrite_refused (s.begin.emit _) _ hpend hd href]
  · exact ⟨_, exec_commitApply_refused page _ s hp hpend ho hb (commitRefuses_enable s n hen hst hr),
      commitRefuse_effect s.begin (.port n)⟩

end Sys2Proof.Machine
end

section
/-! PROOFS. What every command keeps: each row answers a next state, the frames stay numbered, and the security core takes
only steps that keep it sound and end no zeroisation. -/
namespace Sys2Proof.Machine

/-- An outcome is a next state of which `p` holds. -/
def Nexts (p : State → Prop) (o : Host.Outcome State Fault Refusal) : Prop := ∃ t, o = .next t ∧ p t

theorem Nexts.intro {p : State → Prop} {t : State} (h : p t) : Nexts p (.next t) := ⟨t, rfl, h⟩
theorem Nexts.of_next {p : State → Prop} {o : Host.Outcome State Fault Refusal} {t : State} (h : Nexts p o)
    (ht : o = .next t) : p t := by
  obtain ⟨u, hu, hp⟩ := h
  rw [ht] at hu
  exact Host.Outcome.next.inj hu ▸ hp

/-- No row of the table ends in a fault or a refusal. -/
theorem exec_next (c : Instr) (s : State) : ∃ t, exec c s = .next t := by
  cases c
  case egressIcvWritten | ingressIcvCompare | sliceDispatch | recordTimeout | pmAck | pmTimeout | kekDerived =>
    all_goals
      dsimp only [exec, execEgressIcvWritten, execIngressIcvCompare, execSliceDispatch, execRecordTimeout, execPmAck,
        execPmTimeout, execKekDerived]
      split <;> exact ⟨_, rfl⟩
  all_goals exact ⟨_, rfl⟩

theorem step_next (s : State) : ∃ t, step s = .next t := by
  unfold step
  split
  · exact ⟨_, rfl⟩
  · exact exec_next _ _

/-- Settles O2: each step, of a command or of a cycle, answers a next state. -/
theorem everyRunCompletes : Obligations.EveryRunCompletes := by
  unfold Obligations.EveryRunCompletes
  intro k
  induction k with
  | zero => exact fun _ => trivial
  | succ k ih =>
    intro s
    obtain ⟨t, ht⟩ := step_next s
    exact ⟨t, ht, ih t⟩

theorem exec_numbered (c : Instr) (s : State) (h : s.dp.numbered) : Nexts (·.dp.numbered) (exec c s) := by
  cases c
  case egressIcvWritten | ingressIcvCompare | sliceDispatch | recordTimeout | pmAck | kekDerived =>
    all_goals
      dsimp only [exec, execEgressIcvWritten, execIngressIcvCompare, execSliceDispatch, execRecordTimeout, execPmAck,
        execKekDerived]
      split <;> refine .intro ?_
      all_goals repeat' first | (simp -implicitDefEqProofs [h]; done) | split
  case pmTimeout d =>
    dsimp only [exec, execPmTimeout]
    split
    · refine .intro (settle_num _ (domUnavail_num _ _ ?_))
      simp [when_dp, h]
    · exact .intro h
  case storeReadResponse | storeWriteAck =>
    all_goals
      refine .intro ?_
      split
      · next r u hr =>
        have hu : u.dp.numbered := takeOut_dp _ _ _ _ hr ▸ h
        simp -implicitDefEqProofs [hu, when_dp]
      · exact h
  case zeroise | kekCheck | grpGo | calWr | calSel | fltInject | bypWr =>
    all_goals exact .intro (through_num _ _ _ _ _ (fun s h => by simp -implicitDefEqProofs [h]) h)
  case pgCommit | pgReset =>
    all_goals
      refine .intro ?_
      split
      · exact through_num _ _ _ _ _ (fun s h => by simp -implicitDefEqProofs [h]) h
      · split <;> simp -implicitDefEqProofs [h]
  all_goals refine .intro ?_
  all_goals repeat' first | (simp -implicitDefEqProofs [h, through_dp, gated_dp]; done) | split

theorem tick_numbered (s : State) (h : s.dp.numbered) : (tick s).dp.numbered := by
  have hclk : (s.begin.modSys (fun y => { y with aoClk := y.aoClk + 1 })).dp.numbered := h
  unfold tick
  rw [gather_dp, forEach_dp _ _ _ posted_dp]
  exact flow_num _ hclk

/-- Settles O5: a command keeps the numbers apart, and so does a cycle. -/
theorem framesNumberedKept : Obligations.FramesNumberedKept := by
  unfold Obligations.FramesNumberedKept
  intro s t h ht
  unfold step at ht
  split at ht
  · exact Host.Outcome.next.inj ht ▸ tick_numbered s h
  · next c rest _ =>
    have hq : ({ s with pending := rest } : State).dp.numbered := h
    exact (exec_numbered c _ hq).of_next ht

/-- The end of zeroisation changes nothing of a sound security core but the state of zeroisation itself (R58). -/
theorem zeroiseComplete_sysStep (s : State) (bad : List (BitVec 8)) :
    Nexts (fun t => SysStep s.sys t.sys) (execZeroiseComplete bad s) := by
  refine .intro ?_
  split
  · next hz =>
    obtain hz : s.sys.zero = .running := hz
    rw [modSys_sys, forEach_sys _ _ _ (fun s b => detect_sys s _ _ _ _)]
    refine ⟨fun ⟨hseed, hph, hkl, hroot, hgone⟩ => ⟨hseed, hph, hkl, hroot, fun _ => hgone (by simp [hz])⟩, fun _ => by simp⟩
  · exact .refl _
/-- A failed delivery before the eighth beat leaves no root key behind (R50, R51). -/
theorem klFail_sysStep (s : State) : Nexts (fun t => SysStep s.sys t.sys) (execKlFail s) := by
  refine .intro ?_
  split
  · exact .refl _
  · next hk =>
    have h8 : s.sys.klTaken ≠ 8 := fun h => hk (.inl h)
    rw [detect0_sys, modSys_sys]
    refine ⟨fun ⟨hseed, hph, _, hroot, hgone⟩ => ⟨hseed, hph, Nat.zero_le _, fun h => absurd (hroot h) h8, fun hz => ?_⟩, id⟩
    obtain ⟨hr, hkeks, h63, hd, _⟩ := hgone hz
    exact ⟨hr, hkeks, h63, hd, rfl⟩
/-- A KEK is derived while no zeroisation has begun: a sound core has no derivation left after that (R173). -/
theorem kekDerived_sysStep (s : State) (hs : s.sys.sound) : Nexts (fun t => SysStep s.sys t.sys) (execKekDerived s) := by
  have h : SysStep s.sys s.sys := .refl _
  obtain ⟨-, -, -, -, hgone⟩ := hs
  dsimp only [execKekDerived]
  split
  · next n rest root hd hr =>
    obtain hd : s.sys.derive = n :: rest := hd
    have hz : s.sys.zero = .no := by
      by_contra hz
      simp [hd] at hgone
      exact hz hgone
    refine .intro ?_
    split
    · exact settle_step _ _ (deriveOne_step _ s.begin root n rest hz h)
    · exact h
  · exact .intro h
/-- A write that reaches its page leaves the security core as it was, or runs its action on a state with that core. -/
theorem gated_sys_or (s : State) (p : Page) (off : Nat) (data : W32) (uses : Bool) (act : State → State) :
    (s.gated p off data uses act).sys = s.sys ∨ ∃ u, u.sys = s.sys ∧ (s.gated p off data uses act).sys = (act u).sys := by
  unfold State.gated
  dsimp only
  split
  case h_7 l _ =>
    refine .inr ⟨(s.when l (·.setUnlocked p false)).when uses (·.useOnce p off), by simp [when_sys], ?_⟩
    simp [when_sys]
  all_goals exact .inl (by simp [when_sys])
/-- KEK_DERIVE starts a derivation only while no zeroisation has begun (R154). -/
theorem kekDerive_sysStep (s : State) (data : W32) : Nexts (fun t => SysStep s.sys t.sys) (execKekDerive data s) := by
  have h : SysStep s.sys s.sys := .refl _
  refine .intro ?_
  split
  · refine settle_step _ _ ?_
    obtain hg | ⟨u, hu, hg⟩ := gated_sys_or (s.begin.answer false) .sec 0x90 data s.begin.canDerive
      (fun t => if s.begin.canDerive then t.deriveStart else t.setFlag .sec 0x40 3)
    · rw [hg, answer_sys]
      exact h
    · rw [hg]
      rw [answer_sys] at hu
      have hstep : SysStep s.sys u.sys := by rw [hu]; exact h
      split
      · next hd =>
        have hz : s.sys.zero = .no := by
          simp only [State.canDerive, Bool.and_eq_true, decide_eq_true_eq] at hd
          exact hd.1.2
        exact deriveStart_step _ u (by rw [hu]; exact hz) hstep
      · rw [setFlag_sys]
        exact hstep
  · exact h

/-- Every command but RST_N keeps the security core sound and ends no zeroisation. -/
theorem exec_sysStep (c : Instr) (s : State) (hs : s.sys.sound) (hc : ∀ b, c ≠ .rstN b) :
    Nexts (fun t => SysStep s.sys t.sys) (exec c s) := by
  have h : SysStep s.sys s.sys := .refl _
  have hb : SysStep s.sys s.begin.sys := h
  cases c
  case rstN b => exact absurd rfl (hc b)
  case zeroiseComplete bad => exact zeroiseComplete_sysStep s bad
  case klFail => exact klFail_sysStep s
  case kekDerived => exact kekDerived_sysStep s hs
  case kekDerive data => exact kekDerive_sysStep s data
  case rnFault =>
    exact .intro (by rw [detect0_sys]; exact modSys_step _ _ _ hb (Nat.le_refl _) rfl rfl rfl rfl rfl rfl rfl rfl)
  case clkFreqWindow => exact .intro (clkOne_step _ _ _ _ (clkOne_step _ _ _ _ (clkOne_step _ _ _ _ hb)))
  case egressIcvWritten | ingressIcvCompare | sliceDispatch | recordTimeout | pmAck =>
    all_goals
      dsimp only [exec, execEgressIcvWritten, execIngressIcvCompare, execSliceDispatch, execRecordTimeout, execPmAck]
      split <;> refine .intro ?_
      all_goals repeat' first | (simp -implicitDefEqProofs; done) | split
  case pmTimeout d =>
    dsimp only [exec, execPmTimeout]
    split
    · exact .intro (settle_step _ _ (by simp [when_sys]))
    · exact .intro hb
  case storeReadResponse | storeWriteAck =>
    all_goals
      refine .intro ?_
      split
      · next r u hr =>
        have hu : SysStep s.sys u.sys := by rw [takeOut_sys _ _ _ _ hr]; exact h
        simp -implicitDefEqProofs [hu, when_sys]
      · exact hb
  case zeroise | yield | request | kekCheck | grpGo | calWr | calSel | fltInject =>
    all_goals exact .intro (through_step _ _ _ _ _ _ (fun s h => by simp -implicitDefEqProofs [h]) hb)
  case svcOut | testRun =>
    all_goals exact .intro (settle_step _ _ (through_step _ _ _ _ _ _ (fun s h => by simp [h]) hb))
  case pgCommit | pgReset =>
    all_goals
      refine .intro ?_
      split
      · exact through_step _ _ _ _ _ _ (fun s h => by simp -implicitDefEqProofs [h]) hb
      · split <;> simp
  case hello m => exact .intro (pairRx_step _ _ _ _ _ (fun s h => helloGot_step _ s m h) hb)
  case pairRxBad =>
    refine .intro ?_
    repeat' first | (simp -implicitDefEqProofs; done) | exact pairDo_step _ _ _ (fun s h => rxBad_step _ s true h) hb | split
  all_goals refine .intro ?_
  all_goals repeat' first | (simp -implicitDefEqProofs [through_sys]; done) | split

/-- Settles O4: RST_N leads to a sound state from any, and every other command and every cycle keeps one. -/
theorem soundKept : Obligations.SoundKept := by
  unfold Obligations.SoundKept
  intro s t hs ht
  unfold step at ht
  split at ht
  · rw [← Host.Outcome.next.inj ht]
    unfold tick
    rw [gather_sys, forEach_sys _ _ _ posted_sys, flow_sys]
    exact hs
  · next c rest _ =>
    have hq : ({ s with pending := rest } : State).sys.sound := hs
    by_cases hc : ∃ b, c = .rstN b
    · obtain ⟨b, rfl⟩ := hc
      exact Host.Outcome.next.inj ht ▸ coldReset_sound _ b
    · exact ((exec_sysStep c _ hq (fun b h => hc ⟨b, h⟩)).of_next ht).1 hq

/-- Settles O6: such a step ends no zeroisation and leads to a sound state, which has no key while zeroisation lasts. -/
theorem zeroisationLasts : Obligations.ZeroisationLasts := by
  unfold Obligations.ZeroisationLasts
  intro c rest s t hs hp hc hz ht
  unfold step at ht
  rw [hp] at ht
  have hq : ({ s with pending := rest } : State).sys.sound := hs
  obtain ⟨hsound, hlasts⟩ := (exec_sysStep c _ hq hc).of_next ht
  obtain ⟨-, -, -, -, hgone⟩ := hsound hq
  obtain ⟨hroot, hkeks, h63, -, -⟩ := hgone (hlasts hz)
  exact ⟨hlasts hz, hroot, hkeks, h63⟩

end Sys2Proof.Machine
end

section
/-! PROOFS. What groups of commands leave of the configuration: the registers in force and the staged copies, one lemma for
each operation that the datapath, the pair's timers, the security rows and the reads use. -/
namespace Sys2Proof.Machine

/-- The values of the configuration registers, in force and staged (R349, R350). -/
def State.settings (s : State) := (s.regs.cfg, s.regs.staged)
@[simp] theorem modDp_settings (s : State) (f : Dp → Dp) : (s.modDp f).settings = s.settings := rfl
@[simp] theorem modSlices_settings (s : State) (f : Slices → Slices) : (s.modSlices f).settings = s.settings := rfl
@[simp] theorem modCnt_settings (s : State) (f : Counts → Counts) : (s.modCnt f).settings = s.settings := rfl
@[simp] theorem modFlt_settings (s : State) (f : Faults → Faults) : (s.modFlt f).settings = s.settings := rfl
@[simp] theorem emit_settings (s : State) (e : Emit) : (s.emit e).settings = s.settings := rfl
@[simp] theorem draw_settings (s : State) : s.draw.settings = s.settings := rfl
@[simp] theorem begin_settings (s : State) : s.begin.settings = s.settings := rfl
@[simp] theorem ite_settings (c : Prop) [Decidable c] (a b : State) : (if c then a else b).settings = if c then a.settings else b.settings := by split <;> rfl
@[simp] theorem forEach_settings {α : Type} (f : State → α → State) (l : List α) (s : State) (h : ∀ s a, (f s a).settings = s.settings) : (s.forEach l f).settings = s.settings := forEach_keeps (·.settings) f h l s
@[simp] theorem when_settings (f : State → State) (c : Bool) (s : State) (h : ∀ s, (f s).settings = s.settings) : (s.when c f).settings = s.settings := when_keeps (·.settings) f h c s
@[simp] theorem setFlags_settings (s : State) (p : Page) (off : Nat) (m : W32) : (State.setFlags s p off m).settings = s.settings := rfl
@[simp] theorem setFlag_settings (s : State) (p : Page) (off n : Nat) : (State.setFlag s p off n).settings = s.settings := by
  unfold State.setFlag
  simp
@[simp] theorem evt_settings (s : State) (n k : Nat) : (State.evt s n k).settings = s.settings := by
  unfold State.evt
  simp
@[simp] theorem evtF_settings (s : State) (n : Nat) (who : Option Nat × Nat × Dir) : (State.evtF s n who).settings = s.settings := by
  unfold State.evtF
  simp
@[simp] theorem portAdd_settings (s : State) (port idx k : Nat) : (State.portAdd s port idx k).settings = s.settings := by
  unfold State.portAdd
  simp
@[simp] theorem portCount_settings (s : State) (port idx : Nat) : (State.portCount s port idx).settings = s.settings := by
  unfold State.portCount
  simp
@[simp] theorem portFlag_settings (s : State) (port n : Nat) : (State.portFlag s port n).settings = s.settings := by
  unfold State.portFlag
  simp
@[simp] theorem portBFlag_settings (s : State) (port n : Nat) : (State.portBFlag s port n).settings = s.settings := by
  unfold State.portBFlag
  simp
@[simp] theorem detectAs_settings (s : State) (inj : Bool) (det inst : Nat) (infoA infoB : W32) : (State.detectAs s inj det inst infoA infoB).settings = s.settings := by
  unfold State.detectAs
  simp
@[simp] theorem detect_settings (s : State) (det inst : Nat) (infoA infoB : W32) : (State.detect s det inst infoA infoB).settings = s.settings := by
  unfold State.detect
  simp
@[simp] theorem modSl_settings (s : State) (n : Nat) (f : Slice → Slice) : (State.modSl s n f).settings = s.settings := by
  unfold State.modSl
  simp
@[simp] theorem modFrame_settings (s : State) (id : Nat) (g : Frame → Frame) : (State.modFrame s id g).settings = s.settings := by
  unfold State.modFrame
  simp
@[simp] theorem setTicket_settings (s : State) (id k : Nat) : (State.setTicket s id k).settings = s.settings := by
  unfold State.setTicket
  simp
@[simp] theorem takeTicket_settings (s : State) (f : Frame) : (State.takeTicket s f).settings = s.settings := by
  unfold State.takeTicket
  simp
@[simp] theorem payRse_settings (s : State) (port : Nat) (express : Bool) (n : Nat) : (State.payRse s port express n).settings = s.settings := by
  unfold State.payRse
  simp
@[simp] theorem rseReturn_settings (s : State) (f : Frame) : (State.rseReturn s f).settings = s.settings := by
  unfold State.rseReturn
  simp
@[simp] theorem sendTicket_settings (s : State) (f : Frame) (src : Nat) (v : Bool) : (State.sendTicket s f src v).settings = s.settings := by
  unfold State.sendTicket
  (repeat' split) <;> simp
@[simp] theorem setBuf_settings (s : State) (k n : Nat) : (State.setBuf s k n).settings = s.settings := by
  unfold State.setBuf
  simp
@[simp] theorem passTry_settings (s : State) (f : Frame) : (State.passTry s f).settings = s.settings := by
  unfold State.passTry
  simp
@[simp] theorem passAll_settings (s : State) (p : Frame → Bool) : (State.passAll s p).settings = s.settings := by
  unfold State.passAll
  repeat' first | simp | intro _ | (refine (forEach_settings _ _ _ ?_).trans ?_) | (refine (when_settings _ _ _ ?_).trans ?_) | split
@[simp] theorem nextTicket_settings (s : State) (k : Nat) : (State.nextTicket s k).settings = s.settings := by
  unfold State.nextTicket
  repeat' first | simp | intro _ | (refine (forEach_settings _ _ _ ?_).trans ?_) | (refine (when_settings _ _ _ ?_).trans ?_) | split
@[simp] theorem resume_settings (s : State) (n : Nat) : (State.resume s n).settings = s.settings := by
  unfold State.resume
  simp
@[simp] theorem leaveSlice_settings (s : State) (f : Frame) : (State.leaveSlice s f).settings = s.settings := by
  unfold State.leaveSlice
  (repeat' split) <;> simp
@[simp] theorem removeFrame_settings (s : State) (f : Frame) : (State.removeFrame s f).settings = s.settings := by
  unfold State.removeFrame
  simp
@[simp] theorem voidFrame_settings (s : State) (f : Frame) : (State.voidFrame s f).settings = s.settings := by
  unfold State.voidFrame
  simp
@[simp] theorem sendEof_settings (s : State) (f : Frame) (b : Bytes) (c : Code) : (State.sendEof s f b c).settings = s.settings := by
  unfold State.sendEof
  simp
@[simp] theorem refund_settings (s : State) (f : Frame) (sent : Nat) : (State.refund s f sent).settings = s.settings := by
  unfold State.refund
  simp
@[simp] theorem addFrame_settings (s : State) (f : Frame) : (State.addFrame s f).settings = s.settings := by
  unfold State.addFrame
  simp
@[simp] theorem addReport_settings (s : State) (f : Frame) : (State.addReport s f).settings = s.settings := by
  unfold State.addReport
  dsimp only; (repeat' split) <;> simp
@[simp] theorem addStub_settings (s : State) (f : Frame) : (State.addStub s f).settings = s.settings := by
  unfold State.addStub
  simp
@[simp] theorem clearStubs_settings (s : State) (d : Dir) (port : Nat) : (State.clearStubs s d port).settings = s.settings := by
  unfold State.clearStubs
  simp
@[simp] theorem endFrame_settings (s : State) (f : Frame) (c : Code) (ctr : Option Nat) : (State.endFrame s f c ctr).settings = s.settings := by
  unfold State.endFrame
  repeat' first | simp | intro _ | (refine (forEach_settings _ _ _ ?_).trans ?_) | (refine (when_settings _ _ _ ?_).trans ?_) | split
@[simp] theorem dropFrame_settings (s : State) (f : Frame) (ctr : Nat) : (State.dropFrame s f ctr).settings = s.settings := by
  unfold State.dropFrame
  simp
@[simp] theorem quietDrop_settings (s : State) : (State.quietDrop s).settings = s.settings := by
  unfold State.quietDrop
  simp
@[simp] theorem endFrames_settings (s : State) (p : Frame → Bool) (c : Code) (ctr : Frame → Option Nat) : (State.endFrames s p c ctr).settings = s.settings := by
  unfold State.endFrames
  repeat' first | simp | intro _ | (refine (forEach_settings _ _ _ ?_).trans ?_) | (refine (when_settings _ _ _ ?_).trans ?_) | split
@[simp] theorem frameFault_settings (s : State) (det : Nat) (f : Frame) : (State.frameFault s det f).settings = s.settings := by
  unfold State.frameFault
  simp
@[simp] theorem busErrFlag_settings (s : State) (d : Dir) (port : Nat) : (State.busErrFlag s d port).settings = s.settings := by
  unfold State.busErrFlag
  simp
@[simp] theorem specDrop_settings (s : State) (f : Frame) : (State.specDrop s f).settings = s.settings := by
  unfold State.specDrop
  (repeat' split) <;> simp
@[simp] theorem bwIn_settings (s : State) (d : Dir) (port k : Nat) : (s.bwIn d port k).settings = s.settings :=
  when_settings _ _ _ (fun s => by unfold State.bwAdd; simp)
@[simp] theorem closeFrame_settings (s : State) (f : Frame) : (State.closeFrame s f).settings = s.settings := by
  unfold State.closeFrame
  (repeat' split) <;> simp
@[simp] theorem framing_settings (s : State) (d : Dir) (port : Nat) : (State.framing s d port).settings = s.settings := by
  unfold State.framing
  simp
@[simp] theorem setCatch_settings (s : State) (l : List CatchEnt) : (State.setCatch s l).settings = s.settings := by
  unfold State.setCatch
  simp
@[simp] theorem issueRest_settings (s : State) (f : Frame) (n : Nat) : (State.issueRest s f n).settings = s.settings := by
  unfold State.issueRest
  simp
@[simp] theorem icvWritten_settings (s : State) (f : Frame) : (State.icvWritten s f).settings = s.settings := by
  unfold State.icvWritten
  dsimp only; (repeat' split) <;> simp
@[simp] theorem toSlice_settings (s : State) (f : Frame) (n r : Nat) : (State.toSlice s f n r).settings = s.settings := by
  unfold State.toSlice
  simp
@[simp] theorem suspendIn_settings (s : State) (n : Nat) (d : Dir) : (State.suspendIn s n d).settings = s.settings := by
  unfold State.suspendIn
  (repeat' split) <;> simp
@[simp] theorem expWaits_settings (s : State) (f : Frame) : (State.expWaits s f).settings = s.settings := by
  unfold State.expWaits
  simp
@[simp] theorem dispatch_settings (s : State) (f : Frame) : (State.dispatch s f).settings = s.settings := by
  unfold State.dispatch
  dsimp only; (repeat' split) <;> simp
@[simp] theorem underrun_settings (s : State) (f : Frame) : (State.underrun s f).settings = s.settings := by
  unfold State.underrun
  simp
@[simp] theorem lateSegment_settings (s : State) (d : Dir) (port : Nat) (cls : Bool) : (State.lateSegment s d port cls).settings = s.settings := by
  unfold State.lateSegment
  (repeat' split) <;> simp
@[simp] theorem creditReturn_settings (s : State) (d : Dir) (port : Nat) (cls init : Bool) (cnt : Nat) : (State.creditReturn s d port cls init cnt).settings = s.settings := by
  unfold State.creditReturn
  simp
@[simp] theorem xingBad_settings (s : State) (lane : Nat) : (State.xingBad s lane).settings = s.settings := by
  unfold State.xingBad
  simp
@[simp] theorem laneControl_settings (s : State) (lane : Nat) (code : LaneCode) : (State.laneControl s lane code).settings = s.settings := by
  unfold State.laneControl
  (repeat' split) <;> simp
@[simp] theorem linkStatus_settings (s : State) (lane : Nat) (up mf ec : Bool) : (State.linkStatus s lane up mf ec).settings = s.settings := by
  unfold State.linkStatus
  simp
@[simp] theorem blackCount_settings (s : State) (lane ctr inc : Nat) : (State.blackCount s lane ctr inc).settings = s.settings := by
  unfold State.blackCount
  simp
@[simp] theorem modSys_settings (s : State) (f : Sys → Sys) : (s.modSys f).settings = s.settings := rfl
@[simp] theorem modPair_settings (s : State) (f : Pair → Pair) : (s.modPair f).settings = s.settings := rfl
@[simp] theorem setRo_settings (s : State) (p : Page) (off : Nat) (v : W32) : (State.setRo s p off v).settings = s.settings := rfl
@[simp] theorem modHdr_settings (s : State) (p : Page) (f : Hdr → Hdr) : (State.modHdr s p f).settings = s.settings := rfl
@[simp] theorem collide_settings (s : State) (p : Page) : (State.collide s p).settings = s.settings := by
  unfold State.collide
  simp
@[simp] theorem lockViol_settings (s : State) (p : Page) : (State.lockViol s p).settings = s.settings := by
  unfold State.lockViol
  simp
@[simp] theorem answer_settings (s : State) (err : Bool) : (State.answer s err).settings = s.settings := by
  unfold State.answer
  simp
@[simp] theorem setBusy_settings (s : State) (p : Page) (b : Bool) : (State.setBusy s p b).settings = s.settings := by
  unfold State.setBusy
  simp
@[simp] theorem setUnlocked_settings (s : State) (p : Page) (b : Bool) : (State.setUnlocked s p b).settings = s.settings := by
  unfold State.setUnlocked
  simp
@[simp] theorem useOnce_settings (s : State) (p : Page) (off : Nat) : (State.useOnce s p off).settings = s.settings := by
  unfold State.useOnce
  repeat' first | rfl | split
@[simp] theorem gated_settings (s : State) (p : Page) (off : Nat) (data : W32) (uses : Bool) (act : State → State) (h : ∀ s, (act s).settings = s.settings) : (s.gated p off data uses act).settings = s.settings := by
  unfold State.gated
  dsimp only
  repeat' first | (simp [h]; done) | split
@[simp] theorem through_settings (s : State) (p : Page) (off : Nat) (data : W32) (act : State → State) (h : ∀ s, (act s).settings = s.settings) : (s.through p off data act).settings = s.settings := by
  unfold State.through
  split
  · rw [gated_settings _ _ _ _ _ _ h, answer_settings]
  · rfl
@[simp] theorem dropSeeds_settings (s : State) (k : Nat) : (State.dropSeeds s k).settings = s.settings := by
  unfold State.dropSeeds
  simp
@[simp] theorem sendPair_settings (s : State) (ty : Nat) (body : Bytes) : (State.sendPair s ty body).settings = s.settings := by
  unfold State.sendPair
  (repeat' split) <;> simp
@[simp] theorem drawNonce_settings (s : State) : (State.drawNonce s).settings = s.settings := by
  unfold State.drawNonce
  (repeat' split) <;> simp
@[simp] theorem sendHello_settings (s : State) : (State.sendHello s).settings = s.settings := by
  unfold State.sendHello
  dsimp only; (repeat' split) <;> simp
@[simp] theorem sendStatus_settings (s : State) : (State.sendStatus s).settings = s.settings := by
  unfold State.sendStatus
  (repeat' split) <;> simp
@[simp] theorem syncCheck_settings (s : State) : (State.syncCheck s).settings = s.settings := by
  unfold State.syncCheck
  simp
@[simp] theorem mirrorFlush_settings (s : State) (k : MirKind) : (State.mirrorFlush s k).settings = s.settings := by
  unfold State.mirrorFlush
  simp
@[simp] theorem sendSyncReq_settings (s : State) : (State.sendSyncReq s).settings = s.settings := by
  unfold State.sendSyncReq
  simp
@[simp] theorem pairDone_settings (s : State) (code op : Nat) : (State.pairDone s code op).settings = s.settings := by
  unfold State.pairDone
  simp
@[simp] theorem pairResync_settings (s : State) : (State.pairResync s).settings = s.settings := by
  unfold State.pairResync
  simp
@[simp] theorem detect0_settings (s : State) (det inst : Nat) : (State.detect0 s det inst).settings = s.settings := by
  unfold State.detect0
  simp
@[simp] theorem seedGenFrom_settings (s : State) (l : List W128) (g : Nat) : (State.seedGenFrom s l g).settings = s.settings := by
  unfold State.seedGenFrom
  (repeat' split) <;> simp
@[simp] theorem seedGen_settings (s : State) (g : Nat) : (State.seedGen s g).settings = s.settings := by
  unfold State.seedGen
  simp
@[simp] theorem klTake_settings (s : State) (data : W32) : (State.klTake s data).settings = s.settings := by
  unfold State.klTake
  simp
@[simp] theorem klBeat_settings (s : State) (beat : Nat) (data : W32) : (State.klBeat s beat data).settings = s.settings := by
  unfold State.klBeat
  simp
@[simp] theorem reseed_settings (s : State) (g : Nat) (again : Bool) : (State.reseed s g again).settings = s.settings := by
  unfold State.reseed
  simp
@[simp] theorem clkOne_settings (s : State) (i : Nat) (f : W32) : (State.clkOne s i f).settings = s.settings := by
  unfold State.clkOne
  simp
@[simp] theorem modCh_settings (s : State) (f : Chans → Chans) : (s.modCh f).settings = s.settings := rfl
@[simp] theorem accessErr_settings (s : State) (p : Page) : (State.accessErr s p).settings = s.settings := by
  unfold State.accessErr
  simp
@[simp] theorem poison_settings (s : State) (p : Page) : (State.poison s p).settings = s.settings := by
  unfold State.poison
  simp
@[simp] theorem answerRead_settings (s : State) (err : Bool) (w : W32) : (State.answerRead s err w).settings = s.settings := by
  unfold State.answerRead
  simp
@[simp] theorem eqxLog_settings (s : State) (kind chix : Nat) (b : Bool) (an : BitVec 2) (t : Nat) : (State.eqxLog s kind chix b an t).settings = s.settings := by
  unfold State.eqxLog
  simp
@[simp] theorem capture_settings (s : State) (r : TimeReg) : (State.capture s r).settings = s.settings := by
  unfold State.capture
  simp
@[simp] theorem logPop_settings (s : State) : (State.logPop s).settings = s.settings := by
  unfold State.logPop
  simp
@[simp] theorem poisonRead_settings (s : State) (p : Page) (off : Nat) : (State.poisonRead s p off).settings = s.settings := by
  unfold State.poisonRead
  (repeat' split) <;> simp
@[simp] theorem setLatch_settings (s : State) (a : Nat) (v : W32) : (s.modRegs (·.setLatch a v)).settings = s.settings := rfl
@[simp] theorem readActs_settings (s : State) (p : Page) (off : Nat) : (State.readActs s p off).settings = s.settings := by
  unfold State.readActs
  (repeat' split) <;> simp
@[simp] theorem readAt_settings (s : State) (a : Nat) : (State.readAt s a).2.settings = s.settings := by
  unfold State.readAt
  (repeat' split) <;> simp
@[simp] theorem cpRead_settings (s : State) (a size : Nat) : (State.cpRead s a size).settings = s.settings := by
  unfold State.cpRead
  simp
@[simp] theorem outcome_settings (s : State) (chix : Nat) (incs : List (Nat × Nat)) : (State.outcome s chix incs).settings = s.settings := by
  unfold State.outcome
  simp
@[simp] theorem modEntry_settings (s : State) (e : Nat) (f : Entry → Entry) : (State.modEntry s e f).settings = s.settings := by
  unfold State.modEntry
  simp
@[simp] theorem modSlot_settings (s : State) (v : Nat) (f : Slot → Slot) : (State.modSlot s v f).settings = s.settings := by
  unfold State.modSlot
  simp
@[simp] theorem bwAdd_settings (s : State) (port : Nat) (d : Dir) (k : Nat) : (State.bwAdd s port d k).settings = s.settings := by
  unfold State.bwAdd
  simp
@[simp] theorem solArm_settings (s : State) (e : Nat) (b : Bool) (stamp : Stamp) : (State.solArm s e b stamp).settings = s.settings := by
  unfold State.solArm
  (repeat' split) <;> simp
@[simp] theorem dropStat_settings (s : State) (f : Frame) (incs : List (Nat × Nat)) : (State.dropStat s f incs).settings = s.settings := by
  unfold State.dropStat
  simp
@[simp] theorem finalOne_settings (s : State) (f : Frame) : (State.finalOne s f).settings = s.settings := by
  unfold State.finalOne
  simp
@[simp] theorem finalChecks_settings (s : State) (k : Nat) : (State.finalChecks s k).settings = s.settings := by
  unfold State.finalChecks
  repeat' first | simp | intro _ | (refine (forEach_settings _ _ _ ?_).trans ?_) | (refine (when_settings _ _ _ ?_).trans ?_) | split
@[simp] theorem sofRelease_settings (s : State) (f : Frame) : (State.sofRelease s f).settings = s.settings := by
  unfold State.sofRelease
  simp
@[simp] theorem trySof_settings (s : State) (d : Dir) (port : Nat) (cls : Bool) : (State.trySof s d port cls).settings = s.settings := by
  unfold State.trySof
  dsimp only; (repeat' split) <;> simp
@[simp] theorem countEnd_settings (s : State) (f : Frame) : (State.countEnd s f).settings = s.settings := by
  unfold State.countEnd
  (repeat' split) <;> simp
@[simp] theorem tryEof_settings (s : State) (d : Dir) (port : Nat) (cls : Bool) : (State.tryEof s d port cls).settings = s.settings := by
  unfold State.tryEof
  dsimp only; (repeat' split) <;> simp

end Sys2Proof.Machine
end

section
/-! PROOFS. What the commands of a unit leave alone of the others (O7 to O10): the settings stand apart from the parts that the
laws name, since locks and flags change among the registers. -/
namespace Sys2Proof.Machine

/-- The 17 datapath commands change no setting. -/
theorem datapath_settings (d : Dir) (port lane : Fin 32) (cls ini ok up mf ec : Bool) (n : Nat) (sl : Fin 40)
    (cnt : BitVec 10) (code : LaneCode) (free inc : BitVec 16) (ctr : BitVec 7) (sci : W64) (s : State) :
    ∀ c ∈ [Instr.busFraming d port, .bseSofRelease port cls, .rsiSofRelease port cls, .eofRelease d port cls,
      .bseUnderrun port cls, .rsiUnderrun port cls, .recordTimeout n, .creditReturn d port cls ini cnt,
      .laneControl lane code ok, .linkStatus lane up mf ec ok, .bufferLevel lane cls free ok,
      .blackCounterIncrement lane ctr inc ok, .catchEntryExpiry sci port, .outPar d port cls, .sliceDispatch n,
      .bulkResume sl, .egressIcvWritten n], Nexts (fun t => t.settings = s.settings) (exec c s) := by
  simp only [List.forall_mem_cons, List.not_mem_nil, false_implies, implies_true, and_true]
  refine ⟨?_, ?_, ?_, ?_, ?_, ?_, ?_, ?_, ?_, ?_, ?_, ?_, ?_, ?_, ?_, ?_, ?_⟩
  case refine_7 | refine_15 | refine_17 =>
    all_goals
      dsimp only [exec, execRecordTimeout, execSliceDispatch, execEgressIcvWritten]
      split <;> refine .intro ?_
      all_goals repeat' first | (simp; done) | split
  all_goals refine .intro ?_
  all_goals repeat' first | (simp; done) | split

/-! ### What releases leave of channels and vault -/

@[simp] theorem outcome_p1 (s : State) (x : Nat) (incs : List (Nat × Nat)) : (s.outcome x incs).part1 = s.part1 := rfl
@[simp] theorem bwAdd_p1 (s : State) (port : Nat) (d : Dir) (k : Nat) : (s.bwAdd port d k).part1 = s.part1 := by
  unfold State.bwAdd
  simp
@[simp] theorem sofRelease_p1 (s : State) (f : Frame) : (s.sofRelease f).part1 = s.part1 := by
  unfold State.sofRelease
  simp
@[simp] theorem countEnd_p1 (s : State) (f : Frame) : (s.countEnd f).part1 = s.part1 := by
  unfold State.countEnd
  (repeat' split) <;> simp

/-- With every compared frame checked there is no frame left to check (R98). -/
theorem finalChecks_checked (s : State) (k : Nat) (h : ∀ f ∈ s.dp.frames, f.icvDone = true → f.checked = true) :
    s.finalChecks k = s := by
  unfold State.finalChecks
  dsimp only
  rw [List.filter_eq_nil_iff.mpr]
  · rfl
  · intro f hf
    have hdone : f.icvDone = true := List.mem_takeWhile_imp hf
    have hmem := List.mem_of_mem_filter ((List.takeWhile_sublist _).subset hf)
    simp [h f hmem hdone]

/-- A release that has no frame to check leaves what the datapath commands leave. -/
theorem trySof_p1 (s : State) (d : Dir) (port : Nat) (cls : Bool)
    (h : d = .ingress → ∀ f ∈ s.dp.frames, f.icvDone = true → f.checked = true) : (s.trySof d port cls).part1 = s.part1 := by
  have hs : s.when (decide (d = .ingress)) (·.finalChecks (chanKey d port cls)) = s := by
    cases d
    · rfl
    · exact finalChecks_checked s _ (h rfl)
  unfold State.trySof
  dsimp only
  rw [hs]
  (repeat' split) <;> simp
theorem tryEof_p1 (s : State) (d : Dir) (port : Nat) (cls : Bool)
    (h : d = .ingress → ∀ f ∈ s.dp.frames, f.icvDone = true → f.checked = true) : (s.tryEof d port cls).part1 = s.part1 := by
  have hs : s.when (decide (d = .ingress)) (·.finalChecks (chanKey d port cls)) = s := by
    cases d
    · rfl
    · exact finalChecks_checked s _ (h rfl)
  unfold State.tryEof
  dsimp only
  rw [hs]
  (repeat' split) <;> simp

/-- The release commands leave what the datapath commands leave; they change a replay window only through final checks,
which are made on ingress (R98). -/
theorem release_part6_ch (s : State) (c : Instr) (port : Fin 32) (cls : Bool) (d : Dir)
    (hc : c = .bseSofRelease port cls ∨ c = .rsiSofRelease port cls ∨ c = .eofRelease d port cls) :
    Nexts (fun t => t.part6 = s.part6 ∧ (c ∉ [Instr.rsiSofRelease port cls, .eofRelease .ingress port cls] → t.ch = s.ch) ∧
      ((∀ f ∈ s.dp.frames, f.icvDone = true → f.checked = true) → t.ch = s.ch)) (exec c s) := by
  have hch : ∀ t : State, t.part1 = s.begin.part1 → t.ch = s.ch := fun t ht => congrArg (·.2.1) ht
  obtain rfl | rfl | rfl := hc
  · have h := trySof_p1 s.begin .egress port cls (fun h => nomatch h)
    exact .intro ⟨by rw [trySof_p6]; rfl, fun _ => hch _ h, fun _ => hch _ h⟩
  · exact .intro ⟨by rw [trySof_p6]; rfl, fun h => absurd (by simp) h,
      fun h => hch _ (trySof_p1 s.begin .ingress port cls (fun _ => h))⟩
  · refine .intro ⟨by rw [tryEof_p6]; rfl, fun h => hch _ (tryEof_p1 s.begin d port cls (fun hd => ?_)),
      fun h => hch _ (tryEof_p1 s.begin d port cls (fun _ => h))⟩
    subst hd
    exact absurd (by simp) h

/-- Settles O7: releases by the lemma on final checks, the other datapath commands by what they leave alone. -/
theorem datapathFrame : Obligations.DatapathFrame := by
  unfold Obligations.DatapathFrame
  intro d port lane cls ini ok up mf ec n sl cnt code free inc ctr sci s t c hc ht
  have hset := (datapath_settings d port lane cls ini ok up mf ec n sl cnt code free inc ctr sci s c hc).of_next ht
  simp only [State.settings, Prod.mk.injEq] at hset
  have key : t.part6 = s.part6 ∧ (c ∉ [Instr.rsiSofRelease port cls, .eofRelease .ingress port cls] → t.ch = s.ch) ∧
      ((∀ f ∈ s.dp.frames, f.icvDone = true → f.checked = true) → t.ch = s.ch) := by
    by_cases hr : c = .bseSofRelease port cls ∨ c = .rsiSofRelease port cls ∨ c = .eofRelease d port cls
    · exact (release_part6_ch s c port cls d hr).of_next ht
    · have h1 : t.part1 = s.part1 := by
        simp only [List.mem_cons, List.not_mem_nil, or_false] at hc
        rcases hc with rfl | rfl | rfl | rfl | rfl | rfl | rfl | rfl | rfl | rfl | rfl | rfl | rfl | rfl | rfl | rfl | rfl
        · exact execBusFraming_p1 _ _ _ _ ht
        · simp at hr
        · simp at hr
        · simp at hr
        · exact execBseUnderrun_p1 _ _ _ _ ht
        · exact execRsiUnderrun_p1 _ _ _ _ ht
        · exact execRecordTimeout_p1 _ _ _ ht
        · exact execCreditReturn_p1 _ _ _ _ _ _ _ ht
        · exact execLaneControl_p1 _ _ _ _ _ ht
        · exact execLinkStatus_p1 _ _ _ _ _ _ _ ht
        · exact execBufferLevel_p1 _ _ _ _ _ _ ht
        · exact execBlackCounterIncrement_p1 _ _ _ _ _ _ ht
        · exact execCatchEntryExpiry_p1 _ _ _ _ ht
        · exact execOutPar_p1 _ _ _ _ _ ht
        · exact execSliceDispatch_p1 _ _ _ ht
        · exact execBulkResume_p1 _ _ _ ht
        · exact execEgressIcvWritten_p1 _ _ _ ht
      simp only [State.part1, Prod.mk.injEq] at h1
      obtain ⟨hsys, hch, hlease, hpager, hkeyx, hstore, hpwr, hpair, hpend⟩ := h1
      exact ⟨by simp only [State.part6, hsys, hlease, hpager, hkeyx, hstore, hpwr, hpair, hpend], fun _ => hch, fun _ => hch⟩
  obtain ⟨h6, hch, hchk⟩ := key
  simp only [State.part6, Prod.mk.injEq] at h6
  obtain ⟨hsys, hlease, hpager, hkeyx, hstore, hpwr, hpair, hpend⟩ := h6
  exact ⟨hset.1, hset.2, hsys, hlease, hpager, hkeyx, hstore, hpwr, hpair, hpend, hch, hchk⟩

/-! ### Registers, counters and fault records -/

theorem gated_p2_of (s : State) (p : Page) (off : Nat) (data : W32) (uses : Bool) (act : State → State)
    (h : ∀ u : State, u.part2 = s.part2 → (act u).part2 = u.part2) : (s.gated p off data uses act).part2 = s.part2 := by
  unfold State.gated
  dsimp only
  split
  case h_7 l _ =>
    have hu : ((s.when l (·.setUnlocked p false)).when uses (·.useOnce p off)).part2 = s.part2 := by simp
    rw [when_p2 _ _ _ (fun s => by simp), h _ hu, hu]
  all_goals simp
/-- A write whose action leaves group 2 alone in the states of that group leaves it alone. -/
theorem through_p2_of (s : State) (p : Page) (off : Nat) (data : W32) (act : State → State)
    (h : ∀ u : State, u.part2 = s.part2 → (act u).part2 = u.part2) : (s.through p off data act).part2 = s.part2 := by
  unfold State.through
  split
  · rw [gated_p2_of _ _ _ _ _ _ (fun u hu => h u (by rw [hu, answer_p2])), answer_p2]
  · rfl
theorem domUp_of_part2 (s u : State) (d : Nat) (h : u.part2 = s.part2) : u.domUp d = s.domUp d := by
  simp only [State.part2, Prod.mk.injEq] at h
  obtain ⟨-, -, hslices, -, -, -, -, -, hpwr, -, -⟩ := h
  unfold State.domUp State.season State.sl State.dom
  rw [hslices, hpwr]

/-- CAL_SEL while the calendar's domain serves shows the entry at once (R241). -/
theorem execCalSel_p2 (data : W32) (s t : State) (h : s.domUp 53 = true) (ht : execCalSel data s = .next t) :
    t.part2 = s.part2 := by
  have hb : t.part2 = s.begin.part2 := by
    rw [← Host.Outcome.next.inj ht]
    refine through_p2_of _ _ _ _ _ (fun u hu => ?_)
    have hup : (u.setCfg .pager 0xC0 (BitVec.ofNat 32 (fld data 7 0))).domUp 53 = true := by
      rw [domUp_of_part2 s _ 53 (by rw [setCfg_p2, hu, begin_p2]), h]
    unfold State.calLoad State.calShow
    rw [if_pos hup, putWords_p2, setCfg_p2]
  rw [hb, begin_p2]
/-- KEK_CHK_IDX while PD_SEC serves shows the check value at once (R157). -/
theorem execKekCheck_p2 (data : W32) (s t : State) (h : s.domUp 1 = true) (ht : execKekCheck data s = .next t) :
    t.part2 = s.part2 := by
  have hb : t.part2 = s.begin.part2 := by
    rw [← Host.Outcome.next.inj ht]
    refine through_p2_of _ _ _ _ _ (fun u hu => ?_)
    have hup : (u.setCfg .sec 0x9C (BitVec.ofNat 32 (fld data 5 0))).domUp 1 = true := by
      rw [domUp_of_part2 s _ 1 (by rw [setCfg_p2, hu, begin_p2]), h]
    unfold State.chkWrite State.chkShow
    rw [if_pos hup, setFlag_p2, setRo_p2, setCfg_p2]
  rw [hb, begin_p2]

/-- Settles O8: each command by what it leaves alone. -/
theorem registerFrame : Obligations.RegisterFrame := by
  unfold Obligations.RegisterFrame
  intro page data ctr port d ct test sl s t c hc hcal hchk ht
  have h2 : t.part2 = s.part2 := by
    simp only [List.mem_cons, List.not_mem_nil, or_false] at hc
    rcases hc with rfl | rfl | rfl | rfl | rfl | rfl | rfl | rfl | rfl | rfl | rfl | rfl | rfl | rfl | rfl | rfl | rfl
    · exact execPgUnlock_p2 _ _ _ _ ht
    · exact execUnlockExpiry_p2 _ _ _ ht
    · exact execEvcUpdateSlot_p2 _ _ _ ht
    · exact execBwWindowClose_p2 _ _ ht
    · exact execEvcPreset_p2 _ _ _ _ ht
    · exact execPcntClrSelected_p2 _ _ _ ht
    · exact execPcntClrAll_p2 _ _ _ ht
    · exact execCalSel_p2 _ _ _ (hcal rfl) ht
    · exact execKekCheck_p2 _ _ _ (hchk rfl) ht
    · exact execFltRecSel_p2 _ _ _ ht
    · exact execFltRecClrOne_p2 _ _ ht
    · exact execFltRecClrAll_p2 _ _ ht
    · exact execSramCe_p2 _ _ _ _ _ ht
    · exact execLatentLate_p2 _ _ _ ht
    · exact execTestLate_p2 _ _ _ ht
    · exact execBypSel_p2 _ _ _ ht
    · exact execGlbDigestRecompute_p2 _ _ ht
  simpa only [State.part2, Prod.mk.injEq] using h2

/-! ### The pair's timers -/

/-- The timers of the pair and RESYNC change no setting. -/
theorem pairTimers_settings (k : MirKind) (s : State) :
    ∀ c ∈ [Instr.helloTimer, .beatTimer, .healthTimer, .healthStale, .mirrorFlush k, .statusTimer, .arbLost, .resync],
      Nexts (fun t => t.settings = s.settings) (exec c s) := by
  simp only [List.forall_mem_cons, List.not_mem_nil, false_implies, implies_true, and_true]
  refine ⟨?_, ?_, ?_, ?_, ?_, ?_, ?_, ?_⟩
  all_goals refine .intro ?_
  all_goals repeat' first | (simp; done) | split

/-- Settles O9: each timer by what it leaves alone. -/
theorem pairFrame : Obligations.PairFrame := by
  unfold Obligations.PairFrame
  intro k s t c hc ht
  have hset := (pairTimers_settings k s c hc).of_next ht
  have h3 : t.part3 = s.part3 := by
    simp only [List.mem_cons, List.not_mem_nil, or_false] at hc
    rcases hc with rfl | rfl | rfl | rfl | rfl | rfl | rfl | rfl
    · exact execHelloTimer_p3 _ _ ht
    · exact execBeatTimer_p3 _ _ ht
    · exact execHealthTimer_p3 _ _ ht
    · exact execHealthStale_p3 _ _ ht
    · exact execMirrorFlush_p3 _ _ _ ht
    · exact execStatusTimer_p3 _ _ ht
    · exact execArbLost_p3 _ _ ht
    · exact execResync_p3 _ _ ht
  simp only [State.settings, State.part3, Prod.mk.injEq] at hset h3
  exact ⟨hset.1, hset.2, h3⟩

/-! ### The security rows and the reads -/

/-- The rows of the key ladder, the random source, zeroisation's end and clock measurement change no setting. -/
theorem securityRows_settings (beat : BitVec 3) (data a b c' : W32) (gen : Fin 47) (banks : List (BitVec 8)) (s : State) :
    ∀ c ∈ [Instr.klBeat beat data, .klFail, .rnFault, .maskReseed gen, .maskReseedRetry gen, .zeroiseComplete banks,
      .clkFreqWindow a b c'], Nexts (fun t => t.settings = s.settings) (exec c s) := by
  simp only [List.forall_mem_cons, List.not_mem_nil, false_implies, implies_true, and_true]
  refine ⟨?_, ?_, ?_, ?_, ?_, ?_, ?_⟩
  all_goals refine .intro ?_
  all_goals repeat' first | (simp; done) | split
/-- The reads with side effects change no setting. -/
theorem reads_settings (addr : ReadAt) (r : TimeReg) (s : State) :
    ∀ c ∈ [Instr.loRegisterRead addr, .eqxLogRead, .timeCaptureRead r],
      Nexts (fun t => t.settings = s.settings) (exec c s) := by
  simp only [List.forall_mem_cons, List.not_mem_nil, false_implies, implies_true, and_true]
  refine ⟨?_, ?_, ?_⟩
  all_goals refine .intro ?_
  all_goals split <;> simp

/-- Settles O10: the security rows and the reads, each by what it leaves alone. -/
theorem securityFrame : Obligations.SecurityFrame := by
  unfold Obligations.SecurityFrame
  refine ⟨fun beat data a b c' gen banks s t c hc ht => ?_, fun addr r s t c hc ht => ?_⟩
  · have hset := (securityRows_settings beat data a b c' gen banks s c hc).of_next ht
    have h4 : t.part4 = s.part4 := by
      simp only [List.mem_cons, List.not_mem_nil, or_false] at hc
      rcases hc with rfl | rfl | rfl | rfl | rfl | rfl | rfl
      · exact execKlBeat_p4 _ _ _ _ ht
      · exact execKlFail_p4 _ _ ht
      · exact execRnFault_p4 _ _ ht
      · exact execMaskReseed_p4 _ _ _ ht
      · exact execMaskReseedRetry_p4 _ _ _ ht
      · exact execZeroiseComplete_p4 _ _ _ ht
      · exact execClkFreqWindow_p4 _ _ _ _ _ ht
    simp only [State.settings, State.part4, Prod.mk.injEq] at hset h4
    exact ⟨hset.1, hset.2, h4⟩
  · have hset := (reads_settings addr r s c hc).of_next ht
    have h5 : t.part5 = s.part5 := by
      simp only [List.mem_cons, List.not_mem_nil, or_false] at hc
      rcases hc with rfl | rfl | rfl
      · exact execLoRegisterRead_p5 _ _ _ ht
      · exact execEqxLogRead_p5 _ _ ht
      · exact execTimeCaptureRead_p5 _ _ _ ht
    simp only [State.settings, State.part5, Prod.mk.injEq] at hset h5
    exact ⟨hset.1, hset.2, h5⟩

end Sys2Proof.Machine
end

section
/-! PROOFS. The security core: bring-up, the root key, the KEKs, zeroisation and the seed words (R48 to R51, R58, R118,
R153 to R156, R390). -/
namespace Sys2Proof.Machine

/-! ### Zeroisation (R58, R173) -/

/-- What seed words and a waiting command leave of an erased security core. -/
theorem SeedsOnly.wiped {y z : Sys} (h : SeedsOnly y.wiped z) : z.zero = .running ∧ z.erased := by
  obtain ⟨k, c, rfl⟩ := h
  exact ⟨rfl, wiped_erased y⟩
theorem zeroise_erased (s : State) (n : Nat) (h : s.sys.zero = .no) :
    (s.zeroise n).sys.zero = .running ∧ (s.zeroise n).sys.erased := (zeroise_sys s n h).wiped

/-- Bit 0 of a value written is one that the command bit takes. -/
theorem and_one_ne_zero (data : W32) (h : bit data 0 = true) : data &&& (0 ||| 1) ≠ 0 := by
  intro e
  have := congrArg (fun w => bit w 0) e
  simp [bit] at this h
  exact absurd this (by simp [h])
/-- A write that sets a command bit in bit 0 is not without effect (R345). -/
theorem inert_w1s (r : RegRow) (data : W32) (hs : r.w1s = 1) (h : bit data 0 = true) (hc : r.w1c = 0) :
    r.inert data = false := by
  have hne : decide (data &&& (0 ||| 1) = 0) = false := decide_eq_false (and_one_ne_zero data h)
  unfold RegRow.inert
  rw [hs, hc, hne, Bool.and_false]
/-- A write of a locked register, not written once, of a page that is not posted: it locks the page again (R353). -/
theorem through_locked (s : State) (p : Page) (off : Nat) (data : W32) (act : State → State) (r : RegRow)
    (hr : rowAt p off = some r) (hf : s.free p = true) (hi : r.inert data = false) (hl : r.l ≠ 0)
    (hu : (s.hdr p).unlocked = true) (ho : r.o = 0) (hs : r.s = 0) (ha : p.aoPosted = false) :
    s.through p off data act = act ((s.emit (.cpDone false)).setUnlocked p false) := by
  have honce : ∀ t : State, t.useOnce p off = t := fun t => by
    unfold State.useOnce
    rw [hr]
    simp only [ho, if_true]
  rw [through_ok s p off data act r hr hf hi (.inr hu) (.inl ho) (.inl hs), ha, honce, decide_eq_true hl]
  rfl

/-- A write of ZEROISE that nothing stands against is carried out on the state that has answered it and locked the page. -/
theorem exec_zeroise (data : W32) (s : State) (hf : s.free .sec = true) (hu : (s.hdr .sec).unlocked = true)
    (hb : bit data 0 = true) :
    exec (.zeroise data) s = .next (((s.begin.emit (.cpDone false)).setUnlocked .sec false).zeroise 0) :=
  congrArg Host.Outcome.next
    (through_locked s.begin .sec 0xA4 data (·.zeroise 0) { off := 0xA4, l := 1, w1s := 1 } rfl hf
      (inert_w1s _ data rfl hb rfl) (by decide) hu rfl rfl rfl)

/-- Settles O12: both ways lead to `State.zeroise`, and the faults of the banks that its end reports touch no key. -/
theorem zeroisationErasesKeys : Obligations.ZeroisationErasesKeys := by
  unfold Obligations.ZeroisationErasesKeys
  refine ⟨fun f s hz hf => ?_, fun data s hz hfree hu hb => ?_, fun banks s hz => ?_⟩
  · have hz' : s.begin.sys.zero = .no := hz
    change Nexts (fun t => t.sys.zero = .running ∧ t.sys.erased) (execTamper f s)
    refine .intro ?_
    split
    · exact zeroise_erased _ 1 hz'
    · next h0 =>
      have hon : s.begin.secOn = true := hf.resolve_left h0
      rw [if_pos hon]
      exact zeroise_erased _ 2 hz'
  · exact ⟨_, exec_zeroise data s hfree hu hb, zeroise_erased _ 0 hz⟩
  · refine ⟨_, congrArg Host.Outcome.next (if_pos hz), ?_⟩
    rw [modSys_sys, forEach_sys _ _ _ (fun s b => detect_sys s _ _ _ _)]
    rfl

/-! ### Bring-up (R390) -/

/-- The security core beside seed words, generators and the delivery of the root key. -/
def Sys.keyring (y : Sys) :
    Nat × Zero × Option (BitVec 256) × Tab (BitVec 256) × Option (BitVec 256) × Option (BitVec 256) :=
  (y.phase, y.zero, y.rootKey, y.keks, y.vaultMask, y.kek63)
theorem SeedsOnly.keyring {y z : Sys} (h : SeedsOnly y z) : z.keyring = y.keyring := by
  obtain ⟨k, c, rfl⟩ := h
  rfl

theorem seedGen_keyring (s : State) (g : Nat) : (s.seedGen g).sys.keyring = s.sys.keyring := by
  unfold State.seedGen State.seedGenFrom
  split <;> rfl
theorem seedSec_keyring (s : State) : s.seedSec.sys.keyring = s.sys.keyring :=
  when_keeps (fun s => s.sys.keyring) _ (fun s => seedGen_keyring s 46) _ _
/-- After a tamper the third phase draws nothing secret (R58, R390). -/
theorem bootDraw_keyring (s : State) (hz : s.sys.zero ≠ .no) : s.bootDraw.sys.keyring = s.sys.keyring := by
  unfold State.bootDraw
  rw [if_neg hz, seedSec_keyring]
  rfl
/-- The third phase draws the vault mask and KEK 63 from the oldest four words (R153, R155). -/
theorem bootDraw_secrets (s : State) (hz : s.sys.zero = .no) : s.bootDraw.sys.keyring = (s.sys.phase, s.sys.zero,
    s.sys.rootKey, s.sys.keks, (pairSeeds s.sys.seeds)[0]?, (pairSeeds s.sys.seeds)[1]?) := by
  unfold State.bootDraw
  rw [if_pos hz, seedSec_keyring]
  rfl
theorem pairSeeds_isSome (l : List W128) (h : 4 ≤ l.length) :
    (pairSeeds l)[0]?.isSome = true ∧ (pairSeeds l)[1]?.isSome = true := by
  match l, h with
  | _ :: _ :: _ :: _ :: _, _ => exact ⟨rfl, rfl⟩
theorem portsStart_sys (s : State) : s.portsStart.sys = { s.sys with phase := 5 } :=
  forEach_sys _ _ _ (fun s a => rseInit_sys s a true)

/-- What the end of a phase leaves of the keys: only the third draws any, and only without a tamper. -/
theorem phaseEnd_keyring (s : State) : s.phaseEnd.sys.keyring =
    (if s.sys.phase = 1 ∧ s.sys.seeds.length < 16 then 1 else if 5 ≤ s.sys.phase then s.sys.phase else s.sys.phase + 1,
      s.sys.zero, s.sys.rootKey, s.sys.keks,
      if s.sys.phase = 2 ∧ s.sys.zero = .no then (pairSeeds s.sys.seeds)[0]? else s.sys.vaultMask,
      if s.sys.phase = 2 ∧ s.sys.zero = .no then (pairSeeds s.sys.seeds)[1]? else s.sys.kek63) := by
  unfold State.phaseEnd
  extract_lets up
  have hup : ∀ s, (up s).sys = { s.sys with phase := s.sys.phase + 1 } := fun s => rfl
  clear_value up
  split
  case h_1 hp => simp [hup, hp, Sys.keyring]
  case h_2 hp =>
    split
    · next hs => simp [hp, hs, Sys.keyring]
    · next hs => simp [hup, hp, hs, Sys.keyring]
  case h_3 hp =>
    by_cases hz : s.sys.zero = .no
    · rw [bootDraw_secrets _ (by simp [hup, hz])]
      simp [hup, hp, hz]
    · rw [bootDraw_keyring _ (by simp [hup, hz])]
      simp [hup, hp, hz, Sys.keyring]
  case h_4 hp => simp [hup, hp, Sys.keyring]
  case h_5 hp => simp [portsStart_sys, hp, Sys.keyring]
  case h_6 h0 h1 h2 h3 h4 =>
    have h5 : 5 ≤ s.sys.phase := by
      have : s.sys.phase ≠ 0 ∧ s.sys.phase ≠ 1 ∧ s.sys.phase ≠ 2 ∧ s.sys.phase ≠ 3 ∧ s.sys.phase ≠ 4 := ⟨h0, h1, h2, h3, h4⟩
      omega
    have h1' : s.sys.phase ≠ 1 := h1
    have h2' : s.sys.phase ≠ 2 := h2
    simp [h1', h2', h5, Sys.keyring]

/-- Settles O11: a reset with a tamper runs `State.zeroise` from the reset state, and what a phase leaves to be done takes
no key. -/
theorem bringUp : Obligations.BringUp := by
  unfold Obligations.BringUp
  refine ⟨fun s => ⟨rfl, _, rfl, ?_⟩, fun s => ⟨_, rfl, ?_⟩⟩
  · obtain ⟨k, c, hsys⟩ := coldReset_tamper s
    rw [hsys]
    exact ⟨rfl, rfl, List.drop_nil, rfl, rfl⟩
  · have hkeys := (settle_seeds s.begin.phaseEnd).keyring.trans (phaseEnd_keyring s.begin)
    simp only [Sys.keyring, Prod.mk.injEq] at hkeys
    obtain ⟨hphase, hzero, hroot, hkeks, hmask, h63⟩ := hkeys
    refine ⟨hphase, fun h2 hz hlen => ?_, fun h2 hz => ?_, hroot, hkeks, hzero⟩
    · rw [hmask, h63, if_pos ⟨h2, hz⟩, if_pos ⟨h2, hz⟩]
      exact pairSeeds_isSome _ hlen
    · rw [hmask, h63, if_neg (fun h => hz h.2), if_neg (fun h => hz h.2)]
      exact ⟨rfl, rfl⟩

end Sys2Proof.Machine
end

section
/-! PROOFS. The delivery of the root key, the seed words with the mask generators, and the derivation of KEKs (R49 to R51,
R118, R154, R155). -/
namespace Sys2Proof.Machine

/-! ### The key ladder (R50, R51) -/

theorem counted_detect0 (s : State) (det inst : Nat) : (s.detect0 det inst).counted (det - 1) = s.counted (det - 1) + 1 :=
  counted_detect s false det inst 0 0

/-- A beat that comes in order, while the delivery goes on. -/
theorem klBeat_inOrder (s : State) (beat : Nat) (data : W32) (hp : 4 ≤ s.sys.phase) (ht : s.sys.klTaken < 8)
    (hd : s.sys.klDead = false) (hb : beat = s.sys.klTaken) : s.klBeat beat data = s.klTake data := by
  unfold State.klBeat
  rw [if_neg (by omega), if_neg (by omega), if_neg (by simp [hd]), if_pos hb]
/-- A beat out of order ends the delivery. -/
theorem klBeat_outOfOrder (s : State) (beat : Nat) (data : W32) (hp : 4 ≤ s.sys.phase) (ht : s.sys.klTaken < 8)
    (hd : s.sys.klDead = false) (hb : beat ≠ s.sys.klTaken) :
    s.klBeat beat data = (s.modSys (fun y => { y with klPartial := 0, klTaken := 0, klDead := true })).detect0 0x33 0 := by
  unfold State.klBeat
  rw [if_neg (by omega), if_neg (by omega), if_neg (by simp [hd]), if_neg hb]
theorem klBeat_dead (s : State) (beat : Nat) (data : W32) (hp : 4 ≤ s.sys.phase) (ht : s.sys.klTaken < 8)
    (hd : s.sys.klDead = true) : s.klBeat beat data = s := by
  unfold State.klBeat
  rw [if_neg (by omega), if_neg (by omega), if_pos hd]
theorem klBeat_after (s : State) (beat : Nat) (data : W32) (hp : 4 ≤ s.sys.phase) (ht : s.sys.klTaken = 8) :
    s.klBeat beat data = s.detect0 0x35 0 := by
  unfold State.klBeat
  rw [if_neg (by omega), if_pos ht]

/-! ### Seed words (R49, R118) -/

theorem mem_insNat (l : NatSet) (k : Nat) : k ∈ insNat l k := by
  unfold insNat
  split
  · assumption
  · simp
/-- Two free seed words seed a generator. -/
theorem seedGen_of_words (s : State) (g : Nat) (a b : W128) (rest : List W128) (h : s.seedsFree = a :: b :: rest) :
    s.seedGen g = (s.dropSeeds 2).modSys (fun y => { y with
      maskSeed := Tab.set 0 y.maskSeed g (b ++ a), maskLate := delNat y.maskLate g }) := by
  unfold State.seedGen State.seedGenFrom
  rw [h]
  rfl
/-- With fewer than two the seeding is late. -/
theorem seedGen_of_none (s : State) (g : Nat) (h : s.seedsFree.length < 2) :
    s.seedGen g = s.modSys (fun y => { y with maskLate := insNat y.maskLate g }) := by
  unfold State.seedGen State.seedGenFrom
  split
  · next hl => simp [hl] at h
  · rfl
theorem reseed_of_words (s : State) (g : Nat) (again : Bool) (a b : W128) (rest : List W128)
    (h : s.seedsFree = a :: b :: rest) : s.reseed g again = (s.seedGen g).evt 300 1 := by
  have hin : g ∉ (s.seedGen g).sys.maskLate := by
    rw [seedGen_of_words s g a b rest h]
    exact not_mem_delNat _ _
  unfold State.reseed
  exact if_neg hin
theorem reseed_of_none (s : State) (g : Nat) (h : s.seedsFree.length < 2) :
    s.reseed g false = (s.seedGen g).evt 120 1 := by
  have hin : g ∈ (s.seedGen g).sys.maskLate := by
    rw [seedGen_of_none s g h]
    exact mem_insNat _ _
  unfold State.reseed
  exact if_pos hin
/-- What a reseed from two words does, once it is due. -/
theorem reseed_effect (s t : State) (g : Nat) (a b : W128) (rest : List W128) (hf : s.seedsFree = a :: b :: rest)
    (ht : t = s.reseed g false ∨ t = s.reseed g true) :
    t.sys = { s.sys with
      seeds := s.sys.seeds.drop 2, maskSeed := Tab.set 0 s.sys.maskSeed g (b ++ a)
      maskLate := s.sys.maskLate.filter (· ≠ g) } ∧ t.counted 300 = s.counted 300 + 1 := by
  have he : t = (s.seedGen g).evt 300 1 := by rcases ht with h | h <;> rw [h, reseed_of_words s g _ a b rest hf]
  rw [he, counted_evt, seedGen_of_words s g a b rest hf]
  exact ⟨rfl, rfl⟩

/-- A generator that is seeded takes the oldest words of the buffer, or none. -/
theorem seedSec_suffix (s : State) : s.seedSec.sys.seeds <:+ s.sys.seeds ∧ s.seedSec.sys.rnErr = s.sys.rnErr := by
  have hgen : ∀ g, (s.seedGen g).sys.seeds <:+ s.sys.seeds ∧ (s.seedGen g).sys.rnErr = s.sys.rnErr := fun g => by
    unfold State.seedGen State.seedGenFrom
    split
    · exact ⟨List.drop_suffix 2 _, rfl⟩
    · exact ⟨List.suffix_rfl, rfl⟩
  unfold State.seedSec State.when
  split
  · exact hgen 46
  · exact ⟨List.suffix_rfl, rfl⟩
theorem SeedsOnly.suffix {y z : Sys} (h : SeedsOnly y z) : z.seeds <:+ y.seeds ∧ z.rnErr = y.rnErr := by
  obtain ⟨k, c, rfl⟩ := h
  exact ⟨List.drop_suffix k _, rfl⟩

/-- The state in which a seed word has joined the buffer (R49). -/
def State.seedJoined (s : State) (w : W128) : State :=
  s.begin.modSys (fun y => { y with rnErr := false, seeds := y.seeds ++ [w] })
theorem exec_seedWordTaken (w : W128) (s : State) (hp : 1 ≤ s.sys.phase) (hl : s.sys.seeds.length < 16) :
    exec (.seedWordTaken w) s = .next (s.seedJoined w).seedSec.masterDraw.settle :=
  congrArg Host.Outcome.next (if_pos ⟨hp, hl⟩)
/-- With nothing under way nothing takes the word. -/
theorem seedJoined_rests (w : W128) (s : State) (hi : s.idle = true) (hm : s.store.masterLost = false)
    (hs : s.domUp 1 = false ∨ s.sys.maskSeed.any (fun p => decide (p.1 = 46)) = true) :
    (s.seedJoined w).seedSec.masterDraw.settle = s.seedJoined w := by
  have hsec : (s.seedJoined w).seedSec = s.seedJoined w := by
    have hc : ((s.seedJoined w).domUp 1 && !(s.seedJoined w).sys.maskSeed.any (fun p => decide (p.1 = 46))) = false := by
      change (s.domUp 1 && !s.sys.maskSeed.any (fun p => decide (p.1 = 46))) = false
      rcases hs with h | h <;> simp [h]
    unfold State.seedSec
    rw [hc]
    rfl
  have hlost : ¬ (s.seedJoined w).store.masterLost = true := by
    change ¬ s.store.masterLost = true
    simp [hm]
  have hidle : (s.seedJoined w).idle = true := hi
  rw [hsec, State.masterDraw, if_neg hlost, settle_idle _ hidle]

/-- Settles O13, clause by clause. -/
theorem rootKeyAndSeeds : Obligations.RootKeyAndSeeds := by
  unfold Obligations.RootKeyAndSeeds
  refine ⟨fun beat data s hp ht hd hb => ?_, fun beat data s hp ht hd hb => ?_, fun s ht hd => ?_,
    fun beat data s hp ht hd => ?_, fun s h => ?_, fun beat data s hp ht => ?_, fun s => ?_, fun w s hp hl => ?_,
    fun w s hp hl hi hm hs => ?_, fun w s h => ?_, fun g a b rest s hg hf => ?_, fun g s hg hf => ?_,
    fun g a b rest s hg hf => ?_⟩
  · refine ⟨_, congrArg Host.Outcome.next (klBeat_inOrder s.begin _ data hp ht hd hb), ?_⟩
    have hseven : beat = 7 ↔ s.sys.klTaken = 7 := by rw [← hb]; bv_omega
    by_cases h7 : s.sys.klTaken = 7
    · have h7' : s.begin.sys.klTaken = 7 := h7
      unfold State.klTake
      simp only [hseven, h7, h7', if_true]
      rfl
    · have h7' : ¬ s.begin.sys.klTaken = 7 := h7
      unfold State.klTake
      simp only [hseven, h7, h7', if_false]
      rfl
  · exact ⟨_, congrArg Host.Outcome.next (klBeat_outOfOrder s.begin _ data hp ht hd hb), detect0_sys _ _ _,
      counted_detect0 _ 0x33 0⟩
  · have hk : ¬ (s.sys.klTaken = 8 ∨ s.sys.klDead = true) := by simp [hd]; omega
    exact ⟨_, congrArg Host.Outcome.next (if_neg hk), detect0_sys _ _ _, counted_detect0 _ 0x34 0⟩
  · exact congrArg Host.Outcome.next (klBeat_dead s.begin _ data hp ht hd)
  · exact congrArg Host.Outcome.next (if_pos h)
  · exact ⟨_, congrArg Host.Outcome.next (klBeat_after s.begin _ data hp ht), detect0_sys _ _ _, counted_detect0 _ 0x35 0⟩
  · exact ⟨_, rfl, detect0_sys _ _ _, counted_detect0 _ 0x40 0⟩
  · refine ⟨_, exec_seedWordTaken w s hp hl, ?_⟩
    obtain ⟨hsec, hsecErr⟩ := seedSec_suffix (s.seedJoined w)
    obtain ⟨hdraw, hdrawErr⟩ := (masterDraw_seeds _ _ (.refl (s.seedJoined w).seedSec.sys)).suffix
    obtain ⟨hset, hsetErr⟩ := (settle_seeds (s.seedJoined w).seedSec.masterDraw).suffix
    exact ⟨hsetErr.trans (hdrawErr.trans hsecErr), hset.trans (hdraw.trans hsec)⟩
  · rw [exec_seedWordTaken w s hp hl, seedJoined_rests w s hi hm hs]
    rfl
  · have hk : ¬ (1 ≤ s.sys.phase ∧ s.sys.seeds.length < 16) := by omega
    exact congrArg Host.Outcome.next (if_neg hk)
  · exact ⟨_, congrArg Host.Outcome.next (if_pos hg), reseed_effect s.begin _ g.val a b rest hf (.inl rfl)⟩
  · refine ⟨_, congrArg Host.Outcome.next (if_pos hg), ?_⟩
    have hf' : s.begin.seedsFree.length < 2 := hf
    rw [reseed_of_none _ _ hf', counted_evt, seedGen_of_none _ _ hf']
    exact ⟨rfl, rfl⟩
  · exact ⟨_, congrArg Host.Outcome.next (if_pos hg), reseed_effect s.begin _ g.val a b rest hf (.inr rfl)⟩

/-! ### KEKs (R154, R155) -/

/-- A write of KEK_DERIVE that nothing stands against: one that is refused keeps the register's one write. -/
theorem exec_kekDerive (data : W32) (s : State) (hf : s.free .sec = true) (hu : (s.hdr .sec).unlocked = true)
    (hb : bit data 0 = true) (ho : Page.at .sec 0x90 ∉ s.regs.once) :
    exec (.kekDerive data) s = .next
      (let t := ((s.begin.emit (.cpDone false)).setUnlocked .sec false).when s.canDerive (·.useOnce .sec 0x90)
       if s.canDerive then t.deriveStart else t.setFlag .sec 0x40 3).settle := by
  obtain ⟨hup, hreset, hbusy⟩ := free_parts s .sec hf
  have hgate : (s.begin.answer false).gate .sec 0x90 data = .ok true :=
    gate_ok _ .sec 0x90 data { off := 0x90, l := 1, o := 1, w1s := 1 } rfl hreset hbusy (inert_w1s _ data rfl hb rfl)
      (.inr hu) (.inr ho) (.inl rfl)
  change execKekDerive data s = _
  unfold execKekDerive
  have hup' : s.begin.cpUp = true := hup
  simp only [hup', if_true]
  unfold State.gated
  simp only [hgate]
  rfl

theorem setUnlocked_unlocked (s : State) (p : Page) (b : Bool) : ((s.setUnlocked p b).hdr p).unlocked = b :=
  congrArg Hdr.unlocked (hdr_modHdr s p _)
/-- With KEKs to derive, a derivation does not end where it begins. -/
theorem deriveStart_some (s : State) (h : s.kekEnabled ≠ []) :
    s.deriveStart = s.modSys (fun y => { y with derive := s.kekEnabled, kekReady := false, rederive := false }) := by
  unfold State.deriveStart
  simp only [List.isEmpty_iff, h, if_false]
/-- A KEK that is not the last of its derivation. -/
theorem deriveOne_more (s : State) (root : BitVec 256) (n m : Nat) (rest : NatSet) :
    s.deriveOne root n (m :: rest) = (s.modSys (fun y => { y with
      keks := Tab.ins y.keks n (BitVec.ofNat 256 (ofBe (kdf (beBytes 32 root.toNat) labelKek n s.kekEpoch)))
      derive := m :: rest })).evt 108 1 := rfl
theorem useOnce_once (s : State) (p : Page) (off : Nat) (r : RegRow) (hr : rowAt p off = some r) (ho : r.o ≠ 0) :
    s.useOnce p off = s.modRegs (fun g => { g with once := insNat g.once (p.at off) }) := by
  unfold State.useOnce
  rw [hr]
  exact if_neg ho

/-- Settles O14: what a write of KEK_DERIVE does turns on whether the security core can derive. -/
theorem keksDerive : Obligations.KeksDerive := by
  unfold Obligations.KeksDerive
  refine ⟨fun data s hf hu hb ho hr hz hh hk => ?_, fun data s hf hu hb ho hr => ?_, fun n m rest root s hd hr hup hh => ?_⟩
  · have hcan : s.canDerive = true := by simp [State.canDerive, hr, hz, hh]
    have honce := useOnce_once ((s.begin.emit (.cpDone false)).setUnlocked .sec false) .sec 0x90
      { off := 0x90, l := 1, o := 1, w1s := 1 } rfl (by decide)
    refine ⟨_, exec_kekDerive data s hf hu hb ho, ?_⟩
    simp only [hcan, if_true, State.when, honce]
    rw [deriveStart_some]
    · refine ⟨mem_insNat _ _, ?_, rfl⟩
      exact setUnlocked_unlocked (s.begin.emit (.cpDone false)) .sec false
    · exact hk
  · have hcan : s.canDerive = false := by simp [State.canDerive, hr]
    refine ⟨_, exec_kekDerive data s hf hu hb ho, ?_⟩
    simp only [hcan, State.when]
    exact ⟨rfl, flag_setFlag _ _ _ _ (by decide), rfl⟩
  · have hgo : (s.begin.domUp 1 && !s.begin.held .sec) = true := by
      change (s.domUp 1 && !s.held .sec) = true
      simp [hup, hh]
    have hd' : s.begin.sys.derive = n :: m :: rest := hd
    have hr' : s.begin.sys.rootKey = some root := hr
    refine ⟨s.begin.deriveOne root n (m :: rest), ?_, ?_⟩
    · change execKekDerived s = _
      unfold execKekDerived
      simp only [hd', hr', hgo, if_true]
    · rw [deriveOne_more, counted_evt]
      exact ⟨rfl, rfl⟩

end Sys2Proof.Machine
end

section
/-! PROOFS. The cycle that passes while no command waits: what the datapath and the level counters leave of the other units
(R348, R387). -/
namespace Sys2Proof.Machine

/-! ### What the flow of frames leaves alone -/

/-- The parts of the state that neither the datapath nor a counter belongs to. -/
def State.rest (s : State) :=
  (s.regs.cfg, s.ch, s.lease, s.pager, s.keyx, s.store, s.pwr, s.flt, s.pair, s.pending)
@[simp] theorem modDp_rest (s : State) (f : Dp → Dp) : (s.modDp f).rest = s.rest := rfl
@[simp] theorem modSlices_rest (s : State) (f : Slices → Slices) : (s.modSlices f).rest = s.rest := rfl
@[simp] theorem modCnt_rest (s : State) (f : Counts → Counts) : (s.modCnt f).rest = s.rest := rfl
@[simp] theorem emit_rest (s : State) (e : Emit) : (s.emit e).rest = s.rest := rfl
@[simp] theorem draw_rest (s : State) : s.draw.rest = s.rest := rfl
@[simp] theorem begin_rest (s : State) : s.begin.rest = s.rest := rfl
@[simp] theorem ite_rest (c : Prop) [Decidable c] (a b : State) : (if c then a else b).rest = if c then a.rest else b.rest := by split <;> rfl
@[simp] theorem forEach_rest {α : Type} (f : State → α → State) (l : List α) (s : State) (h : ∀ s a, (f s a).rest = s.rest) : (s.forEach l f).rest = s.rest := forEach_keeps (·.rest) f h l s
@[simp] theorem when_rest (f : State → State) (c : Bool) (s : State) (h : ∀ s, (f s).rest = s.rest) : (s.when c f).rest = s.rest := when_keeps (·.rest) f h c s
@[simp] theorem setFlags_rest (s : State) (p : Page) (off : Nat) (m : W32) : (State.setFlags s p off m).rest = s.rest := rfl
@[simp] theorem setFlag_rest (s : State) (p : Page) (off n : Nat) : (State.setFlag s p off n).rest = s.rest := by
  unfold State.setFlag
  simp
@[simp] theorem evt_rest (s : State) (n k : Nat) : (State.evt s n k).rest = s.rest := by
  unfold State.evt
  simp
@[simp] theorem evtF_rest (s : State) (n : Nat) (who : Option Nat × Nat × Dir) : (State.evtF s n who).rest = s.rest := by
  unfold State.evtF
  simp
@[simp] theorem portAdd_rest (s : State) (port idx k : Nat) : (State.portAdd s port idx k).rest = s.rest := by
  unfold State.portAdd
  simp
@[simp] theorem portCount_rest (s : State) (port idx : Nat) : (State.portCount s port idx).rest = s.rest := by
  unfold State.portCount
  simp
@[simp] theorem portFlag_rest (s : State) (port n : Nat) : (State.portFlag s port n).rest = s.rest := by
  unfold State.portFlag
  simp
@[simp] theorem modSl_rest (s : State) (n : Nat) (f : Slice → Slice) : (State.modSl s n f).rest = s.rest := by
  unfold State.modSl
  simp
@[simp] theorem modFrame_rest (s : State) (id : Nat) (g : Frame → Frame) : (State.modFrame s id g).rest = s.rest := by
  unfold State.modFrame
  simp
@[simp] theorem setTicket_rest (s : State) (id k : Nat) : (State.setTicket s id k).rest = s.rest := by
  unfold State.setTicket
  simp
@[simp] theorem takeTicket_rest (s : State) (f : Frame) : (State.takeTicket s f).rest = s.rest := by
  unfold State.takeTicket
  simp
@[simp] theorem payRse_rest (s : State) (port : Nat) (express : Bool) (n : Nat) : (State.payRse s port express n).rest = s.rest := by
  unfold State.payRse
  simp
@[simp] theorem rseReturn_rest (s : State) (f : Frame) : (State.rseReturn s f).rest = s.rest := by
  unfold State.rseReturn
  simp
@[simp] theorem sendTicket_rest (s : State) (f : Frame) (src : Nat) (v : Bool) : (State.sendTicket s f src v).rest = s.rest := by
  unfold State.sendTicket
  (repeat' split) <;> simp
@[simp] theorem setBuf_rest (s : State) (k n : Nat) : (State.setBuf s k n).rest = s.rest := by
  unfold State.setBuf
  simp
@[simp] theorem passTry_rest (s : State) (f : Frame) : (State.passTry s f).rest = s.rest := by
  unfold State.passTry
  simp
@[simp] theorem passAll_rest (s : State) (p : Frame → Bool) : (State.passAll s p).rest = s.rest := by
  unfold State.passAll
  repeat' first | simp | intro _ | (refine (forEach_rest _ _ _ ?_).trans ?_) | (refine (when_rest _ _ _ ?_).trans ?_) | split
@[simp] theorem nextTicket_rest (s : State) (k : Nat) : (State.nextTicket s k).rest = s.rest := by
  unfold State.nextTicket
  repeat' first | simp | intro _ | (refine (forEach_rest _ _ _ ?_).trans ?_) | (refine (when_rest _ _ _ ?_).trans ?_) | split
@[simp] theorem resume_rest (s : State) (n : Nat) : (State.resume s n).rest = s.rest := by
  unfold State.resume
  simp
@[simp] theorem leaveSlice_rest (s : State) (f : Frame) : (State.leaveSlice s f).rest = s.rest := by
  unfold State.leaveSlice
  (repeat' split) <;> simp
@[simp] theorem removeFrame_rest (s : State) (f : Frame) : (State.removeFrame s f).rest = s.rest := by
  unfold State.removeFrame
  simp
@[simp] theorem voidFrame_rest (s : State) (f : Frame) : (State.voidFrame s f).rest = s.rest := by
  unfold State.voidFrame
  simp
@[simp] theorem sendEof_rest (s : State) (f : Frame) (b : Bytes) (c : Code) : (State.sendEof s f b c).rest = s.rest := by
  unfold State.sendEof
  simp
@[simp] theorem refund_rest (s : State) (f : Frame) (sent : Nat) : (State.refund s f sent).rest = s.rest := by
  unfold State.refund
  simp
@[simp] theorem addFrame_rest (s : State) (f : Frame) : (State.addFrame s f).rest = s.rest := by
  unfold State.addFrame
  simp
@[simp] theorem addReport_rest (s : State) (f : Frame) : (State.addReport s f).rest = s.rest := by
  unfold State.addReport
  dsimp only; (repeat' split) <;> simp
@[simp] theorem addStub_rest (s : State) (f : Frame) : (State.addStub s f).rest = s.rest := by
  unfold State.addStub
  simp
@[simp] theorem endFrame_rest (s : State) (f : Frame) (c : Code) (ctr : Option Nat) : (State.endFrame s f c ctr).rest = s.rest := by
  unfold State.endFrame
  repeat' first | simp | intro _ | (refine (forEach_rest _ _ _ ?_).trans ?_) | (refine (when_rest _ _ _ ?_).trans ?_) | split
@[simp] theorem dropFrame_rest (s : State) (f : Frame) (ctr : Nat) : (State.dropFrame s f ctr).rest = s.rest := by
  unfold State.dropFrame
  simp
@[simp] theorem specDrop_rest (s : State) (f : Frame) : (State.specDrop s f).rest = s.rest := by
  unfold State.specDrop
  (repeat' split) <;> simp
@[simp] theorem bwIn_rest (s : State) (d : Dir) (port k : Nat) : (s.bwIn d port k).rest = s.rest :=
  when_rest _ _ _ (fun s => by unfold State.bwAdd; simp)
@[simp] theorem closeFrame_rest (s : State) (f : Frame) : (State.closeFrame s f).rest = s.rest := by
  unfold State.closeFrame
  (repeat' split) <;> simp
@[simp] theorem vfCheck_rest (s : State) (id : Nat) : (s.vfCheck id).rest = s.rest := by
  unfold State.vfCheck
  (repeat' split) <;> simp
@[simp] theorem voidLong_rest (s : State) (id : Nat) : (s.voidLong id).rest = s.rest := by
  unfold State.voidLong
  (repeat' split) <;> simp
@[simp] theorem eofTaken_rest (s : State) (id : Nat) : (s.eofTaken id).rest = s.rest := by
  unfold State.eofTaken
  dsimp only
  (repeat' split) <;> simp
@[simp] theorem longFound_rest (s : State) (f : Frame) : (s.longFound f).rest = s.rest := by
  unfold State.longFound
  split <;> simp
@[simp] theorem arriveFrame_rest (s : State) (f : Frame) (k : Nat) : (s.arriveFrame f k).rest = s.rest := by
  unfold State.arriveFrame
  dsimp only
  split <;> simp
@[simp] theorem arriveStub_rest (s : State) (t : Stub) (k : Nat) : (s.arriveStub t k).rest = s.rest := by
  unfold State.arriveStub
  dsimp only
  split <;> simp
@[simp] theorem arriveClass_rest (s : State) (d : Dir) (port : Nat) (cls : Bool) (k : Nat) :
    (s.arriveClass d port cls k).rest = s.rest := by
  unfold State.arriveClass
  (repeat' split) <;> simp
@[simp] theorem arrive_rest (s : State) : s.arrive.rest = s.rest := by
  unfold State.arrive State.arrivePort
  simp
@[simp] theorem issueAll_rest (s : State) : s.issueAll.rest = s.rest := by
  have hone : ∀ (s : State) (n : Nat), (s.issueOne n).rest = s.rest := fun s n => by
    unfold State.issueOne
    split <;> simp
  unfold State.issueAll State.issueSlice
  simp [hone]
@[simp] theorem flow_rest (s : State) : s.flow.rest = s.rest := by
  unfold State.flow
  split <;> simp
/-- With no frame about, the datapath and the slices rest too. -/
theorem flow_still (s : State) (hf : s.dp.frames = []) (hs : s.dp.stubs = []) : s.flow = s := by
  unfold State.flow
  rw [hf, hs]
  rfl

/-! ### Posted writes and level counters -/

theorem posted_busy_same (s : State) (p : Page) : ((s.posted p).hdr p).busy = false := by
  unfold State.posted
  split
  · rw [hdr_modHdr]
  · next h => exact Bool.eq_false_iff.mpr h
theorem posted_busy (s : State) (p q : Page) (h : (s.hdr q).busy = false) : ((s.posted p).hdr q).busy = false := by
  by_cases he : q.num = p.num
  · have hq : ∀ t : State, t.hdr q = t.hdr p := fun t => by unfold State.hdr; rw [he]
    rw [hq, posted_busy_same]
  · unfold State.posted
    split
    · unfold State.hdr State.modHdr at *
      rw [modRegs_regs, Tab.get_modify_ne _ _ _ _ _ he]
      exact h
    · exact h
/-- A cycle ends the BUSY of every page whose writes are posted (R348). -/
theorem posted_all (l : List Page) (s : State) (p : Page) (h : p ∈ l ∨ (s.hdr p).busy = false) :
    ((s.forEach l State.posted).hdr p).busy = false := by
  induction l generalizing s with
  | nil => simpa using h
  | cons q l ih =>
    rw [forEach_cons]
    refine ih _ ?_
    rcases h with h | h
    · rcases List.mem_cons.mp h with e | e
      · exact .inr (e ▸ posted_busy_same s p)
      · exact .inl e
    · exact .inr (posted_busy s q p h)

/-- All parts but the counters. -/
def State.uncounted (s : State) :=
  (s.sys, s.regs, s.dp, s.slices, s.ch, s.lease, s.pager, s.keyx, s.store, s.pwr, s.flt, s.pair, s.pending)
theorem evtIf_uncounted (s : State) (c : Bool) (n k : Nat) : (s.evtIf c n k).uncounted = s.uncounted := by
  unfold State.evtIf
  split <;> rfl
theorem gather_uncounted (s : State) : s.gather.uncounted = s.uncounted := by
  unfold State.gather
  simp only [evtIf_uncounted]
theorem posted_rest (s : State) (p : Page) :
    (s.posted p).rest = s.rest ∧ (s.posted p).dp = s.dp ∧ (s.posted p).slices = s.slices ∧ (s.posted p).sys = s.sys := by
  unfold State.posted
  split <;> exact ⟨rfl, rfl, rfl, rfl⟩

/-- Settles O1: a command in front is what a step carries out; without one a cycle passes, of which each unit but the
datapath sees nothing. -/
theorem stepTakesFront : Obligations.StepTakesFront := by
  unfold Obligations.StepTakesFront
  refine ⟨fun c rest s h => by unfold step; rw [h], fun s h => ?_⟩
  let clocked := s.begin.modSys (fun y => { y with aoClk := y.aoClk + 1 })
  let finished := clocked.flow.forEach aoPages State.posted
  have hgather := gather_uncounted finished
  simp only [State.uncounted, Prod.mk.injEq] at hgather
  obtain ⟨gsys, gregs, gdp, gslices, gch, glease, gpager, gkeyx, gstore, gpwr, gflt, gpair, gpending⟩ := hgather
  have hrest : finished.rest = s.rest :=
    (forEach_keeps State.rest _ (fun s p => (posted_rest s p).1) _ _).trans (flow_rest _)
  simp only [State.rest, Prod.mk.injEq] at hrest
  obtain ⟨hcfg, hch, hlease, hpager, hkeyx, hstore, hpwr, hflt, hpair, hpending⟩ := hrest
  have hsys : finished.sys = clocked.sys :=
    (forEach_keeps State.sys _ (fun s p => (posted_rest s p).2.2.2) _ _).trans (flow_sys _)
  have hdp : finished.dp = clocked.flow.dp := forEach_keeps State.dp _ (fun s p => (posted_rest s p).2.1) _ _
  have hslices : finished.slices = clocked.flow.slices :=
    forEach_keeps State.slices _ (fun s p => (posted_rest s p).2.2.1) _ _
  refine ⟨finished.gather, by unfold step; rw [h]; rfl, gsys.trans hsys, fun p hp => ?_, ?_, gch.trans hch, glease.trans hlease,
    gpager.trans hpager, gkeyx.trans hkeyx, gstore.trans hstore, gpwr.trans hpwr, gflt.trans hflt, gpair.trans hpair,
    (gpending.trans hpending).trans h, fun hf hs => ?_⟩
  · unfold State.hdr
    rw [gregs]
    exact posted_all _ _ p (.inl hp)
  · rw [gregs]
    exact hcfg
  · have hstill : clocked.flow = clocked := flow_still clocked hf hs
    rw [hstill] at hdp hslices
    exact ⟨gdp.trans hdp, gslices.trans hslices⟩

/-- Settles O3: the reset state is the one with every part at its default. -/
theorem resetMeetsInvariants : Obligations.ResetMeetsInvariants := by
  unfold Obligations.ResetMeetsInvariants
  refine ⟨⟨by decide, by decide, by decide, fun h => absurd h (by decide), fun h => absurd rfl h⟩, ⟨fun f hf => ?_, List.nodup_nil⟩,
    rfl, fun p off => rfl⟩
  exact absurd hf List.not_mem_nil

end Sys2Proof.Machine
end

section
/-! PROOFS. Time samples, clock measurement and time captures (R46, R47, R61, R371). -/
namespace Sys2Proof.Machine

theorem tm_setTm (s : State) (a : Bool) (t : Stamp) : (s.setTm a t).tm a = t := by cases a <;> rfl
/-- A time set to what it is changes nothing of the security core. -/
theorem setTm_same_sys (s : State) (a : Bool) (t : Stamp) (h : t = s.tm a) : (s.setTm a t).sys = s.sys := by
  subst h
  cases a <;> rfl
theorem setTm_regs (s : State) (a : Bool) (t : Stamp) : (s.setTm a t).regs = s.regs := rfl
theorem setTm_stepTime (s : State) (a : Bool) (t : Stamp) :
    (s.setTm a t).sys.stepTime = s.sys.stepTime ∧ (s.setTm a t).sys.stepCopyA = s.sys.stepCopyA := by cases a <;> exact ⟨rfl, rfl⟩

theorem timeUp_of_phase (s : State) (a : Bool) (h : 5 ≤ s.sys.phase) : s.timeUp a = true := by
  unfold State.timeUp
  cases a <;> simp <;> omega
theorem exec_timeSample (a v : Bool) (sec : BitVec 48) (ns el : W32) (s : State) (h : 5 ≤ s.sys.phase) :
    exec (.timeSample a v sec ns el) s = .next (s.begin.takeSample a v sec.toNat ns.toNat el.toNat) :=
  congrArg Host.Outcome.next (if_pos (timeUp_of_phase s.begin a h))
/-- A sample with too many nanoseconds. -/
theorem takeSample_bad (s : State) (a v : Bool) (sec ns el : Nat) (h : 1000000000 ≤ ns) :
    s.takeSample a v sec ns el =
      ((s.setFlag .time 0x40 3).evt 119 1).setTm a { s.tm a with vld := v && (s.tm a).vld } := by
  unfold State.takeSample
  exact if_pos h
/-- A good sample; one that departs from the last valid one is a step. -/
theorem takeSample_good (s : State) (a v : Bool) (sec ns el : Nat) (h : ns < 1000000000) :
    s.takeSample a v sec ns el =
      (s.when (v && (s.tm a).vld && timeStep (s.tm a).ns (sec * 1000000000 + ns) el)
        (·.stepped a (s.tm a).ns (sec * 1000000000 + ns) el)).setTm a { vld := v, ns := sec * 1000000000 + ns } := by
  unfold State.takeSample
  exact if_neg (by omega)
/-- What a step of time records. -/
theorem stepped_effect (s : State) (a : Bool) (old new el : Nat) :
    (s.stepped a old new el).sys = { s.sys with stepTime := new, stepCopyA := a } ∧
    (s.stepped a old new el).flag .time 0x40 2 = true ∧ (s.stepped a old new el).counted 118 = s.counted 118 + 1 := by
  have hflag := flag_setFlag s .time 0x40 2 (by decide)
  have hcount := counted_evt (s.setFlag .time 0x40 2) 118 1
  cases a <;> exact ⟨rfl, hflag, hcount⟩

/-- One clock measured: its frequency is kept, and it counts when it is off (R61). -/
theorem clkOne_effect (s : State) (i : Nat) (f : W32) :
    (s.clkOne i f).sys.clkMeas = Tab.set 0 s.sys.clkMeas i f ∧
    (s.clkOne i f).counted 0x42 = s.counted 0x42 + b2n (clkOff f.toNat (clkNominal.getD i 0)) := by
  unfold State.clkOne
  cases clkOff f.toNat (clkNominal.getD i 0)
  · exact ⟨rfl, rfl⟩
  · exact ⟨congrArg Sys.clkMeas (detect0_sys _ _ _), counted_detect0 _ 0x43 i⟩

/-- A read of a SEC_LO register of TIME captures its time, after side effects that leave the security core alone. -/
theorem readActs_time (s : State) (r : TimeReg) :
    ∃ t : State, t.sys = s.sys ∧ s.readActs .time (secLoOff r) = t.capture r := by
  unfold State.readActs
  cases r
  case tmL => exact ⟨_, poisonRead_sys _ .time 0x80, rfl⟩
  case tmA => exact ⟨_, poisonRead_sys _ .time 0x8C, rfl⟩
  case step => exact ⟨_, poisonRead_sys _ .time 0x98, rfl⟩
theorem capture_sys_effect (s : State) (r : TimeReg) :
    Tab.get 0 (s.capture r).sys.capHi (capIdx r) =
      (BitVec.ofNat 32 (nsSec (s.capTime r).1 / 2 ^ 32 % 65536) ||| atBit (s.capTime r).2 31) ∧
    Tab.get 0 (s.capture r).sys.capNs (capIdx r) = BitVec.ofNat 32 (nsNs (s.capTime r).1) :=
  ⟨Tab.get_set 0 s.sys.capHi _ _, Tab.get_set 0 s.sys.capNs _ _⟩
theorem capTime_of_sys (s t : State) (r : TimeReg) (h : t.sys = s.sys) : t.capTime r = s.capTime r := by
  unfold State.capTime
  rw [h]
theorem exec_timeCaptureRead (r : TimeReg) (s : State) (h : s.cpUp = true) :
    exec (.timeCaptureRead r) s = .next ((s.begin.readActs .time (secLoOff r)).answerRead false
      (s.begin.readReg .time (secLoOff r))) := by
  have hup : s.begin.cpUp = true := h
  cases r <;> exact congrArg Host.Outcome.next (if_pos hup)

/-- Settles O16, clause by clause. -/
theorem timeSampled : Obligations.TimeSampled := by
  unfold Obligations.TimeSampled
  refine ⟨fun a sec ns el s hp hn hv => ?_, fun a v sec ns el s hp hn => ?_, fun a sec ns el s hp hn hv hstep => ?_,
    fun line ctl sec s => ⟨_, rfl, ?_⟩, fun r s hup => ?_⟩
  · have hv' : (s.begin.tm a).vld = false := hv
    rw [exec_timeSample a true sec ns el s hp, takeSample_good _ _ _ _ _ _ hn, hv']
    rfl
  · refine ⟨_, exec_timeSample a v sec ns el s hp, ?_⟩
    rw [takeSample_bad _ _ _ _ _ _ hn, tm_setTm]
    refine ⟨fun hv => ?_, rfl, flag_setFlag _ _ _ _ (by decide), counted_evt _ 119 1⟩
    refine setTm_same_sys _ a _ ?_
    rw [hv]
    rfl
  · refine ⟨_, exec_timeSample a true sec ns el s hp, ?_⟩
    have hv' : (s.begin.tm a).vld = true := hv
    have hstep' : timeStep (s.begin.tm a).ns (sec.toNat * 1000000000 + ns.toNat) el.toNat = true := hstep
    rw [takeSample_good _ _ _ _ _ _ hn, tm_setTm, hv', hstep']
    obtain ⟨hsys, hflag, hcount⟩ := stepped_effect s.begin a (s.begin.tm a).ns (sec.toNat * 1000000000 + ns.toNat) el.toNat
    obtain ⟨htime, hcopy⟩ := setTm_stepTime (s.begin.stepped a (s.begin.tm a).ns (sec.toNat * 1000000000 + ns.toNat) el.toNat) a
      { vld := true, ns := sec.toNat * 1000000000 + ns.toNat }
    exact ⟨rfl, htime.trans (congrArg Sys.stepTime hsys), hcopy.trans (congrArg Sys.stepCopyA hsys), hflag, hcount⟩
  · obtain ⟨m0, c0⟩ := clkOne_effect s.begin 0 line
    obtain ⟨m1, c1⟩ := clkOne_effect (s.begin.clkOne 0 line) 1 ctl
    obtain ⟨m2, c2⟩ := clkOne_effect ((s.begin.clkOne 0 line).clkOne 1 ctl) 2 sec
    rw [m2, m1, m0, c2, c1, c0]
    refine ⟨?_, ?_, ?_, rfl⟩
    · rw [Tab.get_set_ne _ _ _ _ _ _ (by decide), Tab.get_set_ne _ _ _ _ _ _ (by decide), Tab.get_set]
    · rw [Tab.get_set_ne _ _ _ _ _ _ (by decide), Tab.get_set]
    · rw [Tab.get_set]
  · refine ⟨_, exec_timeCaptureRead r s hup, ?_⟩
    obtain ⟨t, hsys, ht⟩ := readActs_time s.begin r
    have heff := capture_sys_effect t r
    rw [capTime_of_sys s.begin t r hsys] at heff
    rw [answerRead_sys, ht]
    exact heff

end Sys2Proof.Machine
end

section
/-! PROOFS. Page-ins: how one starts and how one times out (R229, R230). -/
namespace Sys2Proof.Machine

/-! ### The tables that a page-in writes -/

@[simp] theorem entry_setEntry (s : State) (e : Nat) (v : Option Entry) : (s.setEntry e v).entry e = v :=
  Tab.get_set none s.ch.entries e v
theorem entry_of_ch (s t : State) (e : Nat) (h : t.ch = s.ch) : t.entry e = s.entry e := by unfold State.entry; rw [h]
theorem pageIn_of_ins (s t : State) (x : Nat) (h : t.pager.ins = s.pager.ins) : t.pageIn x = s.pageIn x := by
  unfold State.pageIn; rw [h]
/-- A change of a page-in that keeps its channel. -/
theorem pageIn_modIn (s : State) (x : Nat) (f : PageIn → PageIn) (hf : ∀ p, (f p).chix = p.chix) :
    (s.modIn x f).pageIn x = (s.pageIn x).map f := by
  unfold State.pageIn State.modIn
  rw [modPager_pager]
  dsimp only
  induction s.pager.ins with
  | nil => rfl
  | cons p l ih =>
    rw [List.map_cons]
    by_cases hp : p.chix = x
    · simp [hp, hf]
    · simp [hp, ih]

/-! ### Reads of the record -/

/-- The requests that wait in the store engine, by what they ask for. -/
def State.asked (s : State) : List (Bool × Nat × Nat × Req) := s.store.wait.map (fun r => (r.wr, r.line, r.kix, r.who))
theorem storeRead_asked (s : State) (line kix : Nat) (who : Req) :
    (s.storeRead line kix who).asked = s.asked ++ [(false, line, kix, who)] := by
  unfold State.asked State.storeRead State.storeReq
  rw [modStore_store, List.map_append]
  rfl
/-- What the reads of a page-in leave as they were: everything but the store engine. -/
def State.besideStore (s : State) := (s.sys, s.regs, s.ch, s.pager, s.keyx, s.cnt, s.flt)
theorem pageReads_besideStore (s : State) (x : Nat) : (s.pageReads x).besideStore = s.besideStore := by
  unfold State.pageReads
  refine forEach_keeps State.besideStore _ (fun s l => ?_) _ _
  rfl
/-- The reads of the lines of a record join the requests in their order (R229 step 2). -/
theorem pageReads_asked (s : State) (x : Nat) :
    (s.pageReads x).asked = s.asked ++ lineOrder.map (fun l => (false, s.recLine x l, s.pageKix, Req.pagerIn x l)) := by
  unfold State.pageReads
  induction lineOrder generalizing s with
  | nil => exact (List.append_nil _).symm
  | cons l ls ih =>
    have hline : ∀ k, (s.storeRead (s.recLine x l) s.pageKix (.pagerIn x l)).recLine x k = s.recLine x k := fun _ => rfl
    have hkix : (s.storeRead (s.recLine x l) s.pageKix (.pagerIn x l)).pageKix = s.pageKix := rfl
    rw [forEach_cons, ih, storeRead_asked, hkix, List.append_assoc]
    simp only [hline]
    rfl

/-! ### The start of a page-in (R229) -/

/-- A page-in that finds a free entry takes it and reads its record. -/
theorem pageStart_taken (s : State) (p : PageIn) (e : Nat) (hd : s.domsLost pageDoms = false) (he : s.lowestFree = some e)
    (hlow : p.cls = .prewarm → p.demand = false → s.freeLowAt + 1 ≤ s.freeEntries) :
    s.pageStart p = (((s.evt (match p.cls with | .demand => 152 | .command => 153 | .prewarm => 154) 1).setEntry e
      (some { chix := p.chix, live := false })).modIn p.chix (fun q => { q with
        started := true, entry := e, at_ := if q.demand then q.at_ else s.sys.aoClk })).pageReads p.chix := by
  unfold State.pageStart
  extract_lets t
  have hlost : t.domsLost pageDoms = false := hd
  have hfree : t.lowestFree = some e := he
  have hroom : ¬ (p.cls = .prewarm ∧ p.demand = false ∧ t.freeEntries < t.freeLowAt + 1) := by
    rintro ⟨hc, hdem, hlt⟩
    have hle : t.freeLowAt + 1 ≤ t.freeEntries := hlow hc hdem
    omega
  simp only [hlost, Bool.false_eq_true, if_false, hfree, hroom]
  rfl
/-- A page-in that may start is started (R228). -/
theorem pageNext_start (s : State) (p : PageIn) (hn : s.nextIn = some p) (hf : s.pagerFree = true)
    (hd : s.domsUp (1 :: tableDoms) = true) (ho : s.outBefore p.rank p.ser = false) : s.pageNext = s.pageStart p := by
  unfold State.pageNext
  rw [hn]
  simp only [hf, hd, ho, Bool.or_true, Bool.not_false, Bool.and_self, if_true]

/-! ### A page-in that fails (R229) -/

/-- The page-ins under way, and the reason of the last that failed. -/
def State.pageQueue (s : State) := (s.pager.ins, s.pager.failInfo)
theorem pageQueue_of_part1 (s t : State) (h : t.part1 = s.part1) : t.pageQueue = s.pageQueue :=
  congrArg (fun p => (p.2.2.2.1.ins, p.2.2.2.1.failInfo)) h
theorem missFail_pageQueue (s : State) (p : Frame → Bool) : (s.missFail p).pageQueue = s.pageQueue := by
  refine forEach_keeps State.pageQueue _ (fun s id => ?_) _ _
  split
  · exact pageQueue_of_part1 _ _ (by simp)
  · rfl
theorem mirrorFail_pageQueue (s : State) (x : Nat) : (s.mirrorFail x).pageQueue = s.pageQueue := by
  refine forEach_keeps State.pageQueue _ (fun s q => ?_) _ _
  unfold State.mirrorLose State.skew
  split <;> rfl
theorem sawDone_pageQueue (s : State) (code detail : Nat) : (s.sawDone code detail).pageQueue = s.pageQueue := by
  have hcount : ∀ c, ((s.evt 110 1).when c (·.evt 111 1)).pageQueue = s.pageQueue := fun c => by cases c <;> rfl
  exact hcount _
theorem zeroBlob_pageQueue (s : State) : s.zeroBlob.pageQueue = s.pageQueue := by
  unfold State.zeroBlob
  refine forEach_keeps State.pageQueue _ (fun s i => ?_) _ _
  rfl
theorem keywDone_pageQueue (s : State) (code gen : Nat) : (s.keywDone code gen).pageQueue = s.pageQueue := by
  unfold State.keywDone
  extract_lets op t u
  have ht : t.pageQueue = s.pageQueue := by
    simp only [t]
    split
    · exact zeroBlob_pageQueue s
    · rfl
  have hu : u.pageQueue = t.pageQueue := by
    refine when_keeps State.pageQueue _ (fun s => ?_) _ _
    rfl
  exact hu.trans ht
theorem pageCmdsFail_pageQueue (s : State) (x code : Nat) : (s.pageCmdsFail x code).pageQueue = s.pageQueue := by
  have hsaw : (s.when (s.sawOn [0x01, 0x04, 0x10, 0x11] x) (·.sawDone code 0)).pageQueue = s.pageQueue :=
    when_keeps State.pageQueue _ (fun s => sawDone_pageQueue s code 0) _ _
  unfold State.pageCmdsFail
  dsimp only
  split
  · split
    · rw [keywDone_pageQueue, hsaw]
    · exact hsaw
  · exact hsaw
theorem jobCheck_pageQueue (s : State) : s.jobCheck.pageQueue = s.pageQueue := by
  unfold State.jobCheck
  split <;> rfl
theorem wholeEnd_pager (s : State) (r : SReq) (f : FinRes) : (s.wholeEnd r f).pager = s.pager := by
  unfold State.wholeEnd
  (repeat' split) <;> rfl
theorem forgetReqs_pager (s : State) (p : Req → Bool) : (s.forgetReqs p).pager = s.pager := by
  unfold State.forgetReqs
  refine (forEach_keeps State.pager _ (fun s r => ?_) _ _).trans rfl
  exact when_keeps State.pager _ (fun s => wholeEnd_pager s r .bus) _ _
theorem pageIn_dropIn (s : State) (x : Nat) : (s.dropIn x).pageIn x = none := by
  have hins : (s.dropIn x).pager.ins = s.pager.ins.filter (fun q => decide (q.chix ≠ x)) := by
    unfold State.dropIn
    rw [modKeyx_pager, modPager_pager, forgetReqs_pager]
  unfold State.pageIn
  rw [hins, List.find?_eq_none]
  intro q hq
  simpa using (List.mem_filter.mp hq).2
theorem dropOut_ins (s : State) (x : Nat) : (s.dropOut x).pager.ins = s.pager.ins := by
  unfold State.dropOut
  rw [modKeyx_pager, modPager_pager, forgetReqs_pager]

/-- A page-in that fails is gone, and its reason stays with its channel (R229). -/
theorem pageFail_effect (s : State) (x reason : Nat) (fresh : Bool) :
    (s.pageFail x reason fresh).pageIn x = none ∧
    (s.pageFail x reason fresh).pager.failInfo = (atPos reason 28 ||| atPos (x % 2 ^ 20) 8) := by
  unfold State.pageFail
  extract_lets t u v w
  have ht : t.pageIn x = none := by
    simp only [t]
    split
    · unfold State.when
      split
      · exact (pageIn_of_ins _ _ x (dropOut_ins _ x)).trans (pageIn_dropIn _ x)
      · exact pageIn_dropIn _ x
    · assumption
  have hu : u.pageQueue = (t.pager.ins, atPos reason 28 ||| atPos (x % 2 ^ 20) 8) := rfl
  have hw : w.pageQueue = u.pageQueue := by
    simp only [w, v, State.when]
    split
    · exact pageQueue_of_part1 _ _ (by simp)
    · rfl
  have hend : ((((w.missFail (fun f => decide (f.chix = x))).mirrorFail x).pageCmdsFail x
      (if reason = 3 then 0x04 else if (((w.missFail (fun f => decide (f.chix = x))).mirrorFail x).domsLost pageDoms) then 0x3F
        else 0x09)).jobCheck).pageQueue = (t.pager.ins, atPos reason 28 ||| atPos (x % 2 ^ 20) 8) := by
    rw [jobCheck_pageQueue, pageCmdsFail_pageQueue, mirrorFail_pageQueue, missFail_pageQueue, hw, hu]
  exact ⟨(pageIn_of_ins _ _ x (congrArg Prod.fst hend)).trans ht, congrArg Prod.snd hend⟩

/-- Settles O24: what a start and a time limit do of themselves, before what they make possible is carried on. -/
theorem pageInsRun : Obligations.PageInsRun := by
  unfold Obligations.PageInsRun
  refine ⟨fun p e s hn hp hf hd hu he ho hlow => ?_, fun x p s hp hs => ?_⟩
  · have hstart := (pageNext_start s.begin p hn hf hu ho).trans (pageStart_taken s.begin p e hd he hlow)
    refine ⟨s.begin.pageNext, rfl, ?_⟩
    rw [hstart]
    have hkeep := pageReads_besideStore (((s.begin.evt (match p.cls with | .demand => 152 | .command => 153 | .prewarm => 154)
      1).setEntry e (some { chix := p.chix, live := false })).modIn p.chix (fun q => { q with
        started := true, entry := e, at_ := if q.demand then q.at_ else s.begin.sys.aoClk })) p.chix
    simp only [State.besideStore, Prod.mk.injEq] at hkeep
    obtain ⟨-, -, hch, hpager, -, hcnt, -⟩ := hkeep
    refine ⟨?_, ⟨{ p with started := true, entry := e, at_ := if p.demand then p.at_ else s.sys.aoClk }, ?_, rfl, rfl⟩,
      ?_, ?_⟩
    · exact (entry_of_ch _ _ e hch).trans (entry_setEntry (s.begin.evt _ 1) e _)
    · rw [pageIn_of_ins _ _ p.chix (congrArg Pager.ins hpager), pageIn_modIn]
      · exact congrArg (Option.map _) hp
      · exact fun _ => rfl
    · exact pageReads_asked _ _
    · exact (counted_acc _ _ _ (congrArg Counts.acc hcnt)).trans (counted_evt s.begin _ 1)
  · refine ⟨s.begin.pageFail x.toNat 5 true, ?_, (pageFail_effect s.begin x.toNat 5 true).1, ?_⟩
    · have hp' : s.begin.pageIn x.toNat = some p := hp
      change execPageInTimeout x s = _
      unfold execPageInTimeout
      simp only [hp', hs, if_true]
    · rw [(pageFail_effect s.begin x.toNat 5 true).2, Nat.mod_eq_of_lt x.isLt]

end Sys2Proof.Machine
end

section
/-! PROOFS. The lease unit: the answers of the journal memory and the end of the scan (R44, R178, R190, R192). -/
namespace Sys2Proof.Machine

/-! ### Tables -/

@[simp] theorem slot_modSlot (s : State) (v : Nat) (f : Slot → Slot) : (s.modSlot v f).slot v = f (s.slot v) :=
  Tab.get_modify _ _ _ _
theorem slot_of_ch (s t : State) (v : Nat) (h : t.ch = s.ch) : t.slot v = s.slot v := by unfold State.slot; rw [h]
@[simp] theorem live_putLive (s : State) (x : Nat) (w : Live) : (s.putLive x w).lease.live x = some w := by
  change Tab.get none (Tab.set none s.lease.dir x (some w)) x = some w
  exact Tab.get_set _ _ _ _
@[simp] theorem sector_modSector (l : Lease) (n : Nat) (f : Sector → Sector) :
    (l.modSector n f).sector n = f (l.sector n) := Tab.get_modify _ _ _ _

/-! ### The commit of a request (R178) -/

theorem afterCommit_ceil (sl : Slot) (c : Nat) : (sl.afterCommit c).ceil = c := by
  unfold Slot.afterCommit
  split
  · rfl
  · rfl
  · rfl
  all_goals split <;> rfl
/-- The causes of a lease are counted on events of their own. -/
theorem lcause_evt_range (c : LCause) : 132 ≤ c.evt ∧ c.evt ≤ 136 := by cases c <;> decide

/-- What a commit leaves of the journal, and what it counts. -/
theorem commitOne_effect (s : State) (v : Nat) (w : LWait) :
    (s.commitOne v w false).lease = { s.lease with waits := s.lease.waits.erase w } ∧
    ((s.commitOne v w false).slot v).ceil = w.ceil ∧ (s.commitOne v w false).counted 128 = s.counted 128 + 1 ∧
    (s.commitOne v w false).counted 129 = s.counted 129 := by
  unfold State.commitOne
  extract_lets o t u
  have ht : t.lease = { s.lease with waits := s.lease.waits.erase w } ∧ (t.slot v).ceil = w.ceil ∧
      t.counted 128 = s.counted 128 ∧ t.counted 129 = s.counted 129 := by
    refine ⟨rfl, ?_, rfl, rfl⟩
    simp only [t, slot_modSlot]
    exact afterCommit_ceil _ _
  have hu : u.lease = t.lease ∧ u.slot v = t.slot v ∧ u.counted 128 = t.counted 128 ∧ u.counted 129 = t.counted 129 := by
    obtain ⟨hlo, hhi⟩ := lcause_evt_range o.cause
    simp only [u, State.when]
    split
    · exact ⟨rfl, rfl, counted_evt_ne _ _ _ _ (by omega), counted_evt_ne _ _ _ _ (by omega)⟩
    · exact ⟨rfl, rfl, rfl, rfl⟩
  clear_value t u
  obtain ⟨tl, tc, t8, t9⟩ := ht
  obtain ⟨ul, us, u8, u9⟩ := hu
  refine ⟨ul.trans tl, (congrArg Slot.ceil us).trans tc, ?_, ?_⟩
  · have h8 := counted_evt u 128 1
    rw [u8, t8] at h8
    exact h8
  · exact (counted_evt_ne u 128 1 129 (by decide)).trans (u9.trans t9)

/-- The one request in flight, written with no peer, is committed, and no more is then to be committed (R178). -/
theorem tryCommit_only (s : State) (v c k : Nat) (hp : s.noPeer = true) (hh : s.held .lease = false)
    (hw : s.lease.waits = [{ vslot := v, ceil := c, written := true, acked := false }]) :
    State.tryCommit (k + 2) s v = s.commitOne v { vslot := v, ceil := c, written := true, acked := false } false := by
  obtain ⟨hlease, -, -, -⟩ := commitOne_effect s v { vslot := v, ceil := c, written := true, acked := false }
  have hnone : (s.commitOne v { vslot := v, ceil := c, written := true, acked := false } false).lease.waits.find?
      (fun w => decide (w.vslot = v)) = none := by
    rw [hlease, hw]
    simp
  have hfind : s.lease.waits.find? (fun w => decide (w.vslot = v)) =
      some { vslot := v, ceil := c, written := true, acked := false } := by
    rw [hw]
    simp
  rw [State.tryCommit]
  simp only [hfind, hh, hp, Bool.not_true, Bool.or_false, Bool.false_eq_true, if_false, if_true]
  rw [State.tryCommit]
  simp only [hnone]

/-- The oldest journal write, answered without error, of a request of one slot: its entry is the channel's, and the request
commits. -/
theorem nvOk_request (s : State) (u : Nat) (je : JEnt) (it : JItem) (b : Bool) (v c : Nat) (tag : W32) (w : Live)
    (hy : it.why = .request [(b, v, tag, c)]) (hj : (je.av || je.bv) = true) (hl : s.lease.live je.chix = some w)
    (hp : s.noPeer = true) (hh : s.held .lease = false)
    (hw : s.lease.waits = [{ vslot := v, ceil := c, written := false, acked := false }]) :
    ∃ t : State, s.nvOk (.entry u je it) = t.commitOne v { vslot := v, ceil := c, written := true, acked := false } false ∧
      t.lease.waits = [{ vslot := v, ceil := c, written := true, acked := false }] ∧
      t.lease.nvw = (s.lease.noteDone je.chix it.top).nvw ∧
      t.lease.live je.chix = some { w with ent := je, unit := u, restart := false } ∧ t.counted 128 = s.counted 128 ∧
      t.counted 129 = s.counted 129 + 1 := by
  have hlive : (s.modLease (fun l => l.noteDone je.chix it.top)).lease.live je.chix = some w := hl
  have hset : (s.modLease (fun l => l.noteDone je.chix it.top)).setLive u je true =
      (s.modLease (fun l => l.noteDone je.chix it.top)).putLive je.chix { w with ent := je, unit := u, restart := false } := by
    unfold State.setLive
    simp only [hj, if_true, hlive, Bool.not_true, Bool.and_false]
  have hwaits : ((((s.modLease (fun l => l.noteDone je.chix it.top)).putLive je.chix
      { w with ent := je, unit := u, restart := false }).evt 129 1).modLease (fun ls => { ls with
        waits := ls.waits.map (fun w => if w.vslot = v ∧ w.ceil = c then { w with written := true } else w) })).lease.waits =
      [{ vslot := v, ceil := c, written := true, acked := false }] := by
    change s.lease.waits.map _ = _
    rw [hw]
    simp
  refine ⟨_, ?_, hwaits, rfl, ?_, ?_, ?_⟩
  · unfold State.nvOk
    simp only [hy, hset]
    unfold State.countEntry State.afterWrite
    simp only [forEach_cons, forEach_nil]
    exact tryCommit_only _ v c 2 hp hh hwaits
  · exact live_putLive (s.modLease (fun l => l.noteDone je.chix it.top)) je.chix _
  · exact counted_evt_ne s 129 1 128 (by decide)
  · exact counted_evt s 129 1

/-! ### A write that fails (R190) -/

/-- The sector of a failed write is retired and is no head any more. -/
theorem sectorFails_effect (s : State) (n : Nat) :
    ((s.sectorFails n).lease.sector n).retired = true ∧ (s.sectorFails n).lease.head ≠ some n ∧
    (s.sectorFails n).lease.nvw = s.lease.nvw ∧ (s.sectorFails n).lease.todo = s.lease.todo := by
  have hmark : ∀ c, (s.when c (fun s => (s.setFlag .lease 0x40 7).evt 137 1)).lease = s.lease := fun c => by cases c <;> rfl
  unfold State.sectorFails
  extract_lets t
  have ht : t.lease = s.lease := hmark _
  have hnvw : t.lease.nvw = s.lease.nvw := congrArg Lease.nvw ht
  have htodo : t.lease.todo = s.lease.todo := congrArg Lease.todo ht
  refine ⟨?_, ?_, hnvw, htodo⟩
  · exact congrArg Sector.retired (sector_modSector t.lease n (fun c => { c with retired := true }))
  · rw [modLease_lease]
    dsimp only
    split
    · exact fun h => nomatch h
    · assumption
/-- The entry of a failed write is written again (R190). -/
theorem nvErr_entry (s : State) (u : Nat) (je : JEnt) (it : JItem) (hc : it.why ≠ .copy) :
    (s.nvErr (.entry u je it) false).lease.nvw = s.lease.nvw ∧
    ((s.nvErr (.entry u je it) false).lease.sector (u / 128)).retired = true ∧
    (s.nvErr (.entry u je it) false).lease.head ≠ some (u / 128) ∧
    (s.nvErr (.entry u je it) false).lease.todo = redoInto { it with redo := true } s.lease.todo := by
  unfold State.nvErr
  extract_lets t
  have ht : t.lease = s.lease := by
    simp only [t]
    unfold State.detect State.detectAs
    dsimp only
    split <;> rfl
  obtain ⟨hret, hhead, hnvw, htodo⟩ := sectorFails_effect t (u / 128)
  have hgo : (!false && !decide (it.why = .copy)) = true := by simp [hc]
  simp only [hgo, State.when, if_true]
  refine ⟨hnvw.trans (congrArg Lease.nvw ht), hret, hhead, ?_⟩
  rw [modLease_lease, htodo, ht]

/-! ### The scan (R192) -/

/-- What the scan has read. -/
def State.scanned (s : State) := (s.lease.got, s.lease.sectors)
theorem scanAsk1_scanned (s : State) : s.scanAsk1.scanned = s.scanned := by
  unfold State.scanAsk1
  dsimp only
  (repeat' split) <;> rfl
/-- Issuing reads leaves what has been read as it is. -/
theorem scanAsk_scanned (s : State) : s.scanAsk.scanned = s.scanned := by
  unfold State.scanAsk
  induction List.range 4 generalizing s with
  | nil => rfl
  | cons i l ih =>
    rw [List.foldl_cons]
    exact (ih s.scanAsk1).trans (scanAsk1_scanned s)
theorem sector_of_scanned (s t : State) (n : Nat) (h : t.scanned = s.scanned) : t.lease.sector n = s.lease.sector n := by
  have hs : t.lease.sectors = s.lease.sectors := congrArg Prod.snd h
  unfold Lease.sector
  rw [hs]
/-- A header that the scan reads is taken in, and the next read follows. -/
theorem scanAnswer_header (s : State) (data : Bytes) (ret : Bool) (seq wc : Nat) (hg : s.lease.got < 1024)
    (hr : readHeader s.lease.got data = some (ret, seq, wc)) :
    (s.scanAnswer false data).lease.got = s.lease.got + 1 ∧
    (s.scanAnswer false data).lease.sector s.lease.got =
      { valid := true, retired := ret || decide (s.lease.got ∈ s.lease.retiring), openSeq := seq, wcount := wc } := by
  have hunit : s.lease.scanUnit s.lease.got = some (s.lease.got * 128) := by
    unfold Lease.scanUnit
    rw [if_pos hg]
  unfold State.scanAnswer
  simp only [hunit, hg, if_true, Bool.false_eq_true, if_false, hr]
  refine ⟨congrArg Prod.fst (scanAsk_scanned _), (sector_of_scanned _ _ _ (scanAsk_scanned _)).trans ?_⟩
  exact sector_modSector s.lease s.lease.got (fun _ =>
    { valid := true, retired := ret || decide (s.lease.got ∈ s.lease.retiring), openSeq := seq, wcount := wc })

/-- Whether the scan runs, and whether it is done. -/
def State.scanState (s : State) : Bool × Bool := (s.lease.scanning, s.lease.scanDone)
theorem cannot_scanState (s : State) (v : Nat) (c : LCause) : (s.cannot v c).scanState = s.scanState := by
  unfold State.cannot
  dsimp only
  split <;> rfl
theorem makeRequest_scanState (s : State) (x v c : Nat) : (s.makeRequest x v c).scanState = s.scanState := by
  unfold State.makeRequest State.mirrorLease State.when
  dsimp only
  split <;> rfl
theorem startLease_scanState (s : State) (v : Nat) : (s.startLease v).scanState = s.scanState := by
  unfold State.startLease
  split
  · rfl
  · split
    · rfl
    · dsimp only
      split
      · exact cannot_scanState _ _ _
      · split
        · exact makeRequest_scanState _ _ _ _
        · split
          · exact (cannot_scanState _ _ _).trans (makeRequest_scanState s _ _ _)
          · exact (makeRequest_scanState _ _ _ _).trans (makeRequest_scanState s _ _ _)
theorem restartLease_scanState (s : State) (v : Nat) : (s.restartLease v).scanState = s.scanState := by
  unfold State.restartLease
  split
  · rfl
  · dsimp only
    split
    · rfl
    · exact startLease_scanState _ _
theorem promoSlot_scanState (s : State) (v : Nat) : (s.promoSlot v).scanState = s.scanState := by
  unfold State.promoSlot
  split
  · rfl
  · dsimp only
    split
    · exact startLease_scanState _ _
    · split
      · exact startLease_scanState _ _
      · simp only [State.scanState, State.evt, State.leaseAt, State.resumeAt, State.dropWaits, State.modSlot, modCnt_lease,
          modCh_lease, modLease_lease]
theorem promoLeases_scanState (s : State) : s.promoLeases.scanState = s.scanState := by
  unfold State.promoLeases
  split
  · exact forEach_keeps State.scanState _ promoSlot_scanState _ _
  · rfl
theorem openHead_scanState (s : State) (n : Nat) : (s.openHead n).scanState = s.scanState := by
  unfold State.openHead
  dsimp only
  rfl
theorem scanHead_scanState (s : State) (best : Option Nat) (top : Nat) : (s.scanHead best top).scanState = s.scanState := by
  unfold State.scanHead State.scanOpen
  (repeat' split) <;> rfl
/-- The end of the scan. -/
theorem scanEnd_scanState (s : State) : s.scanEnd.scanState = (false, true) := by
  unfold State.scanEnd
  exact scanHead_scanState s.scanFill _ _

/-- Settles O30, clause by clause. -/
theorem leasesCommit : Obligations.LeasesCommit := by
  unfold Obligations.LeasesCommit
  refine ⟨fun u je it rest v c b tag w s hs hn hy hj hl hp hh hw => ?_, fun u je it rest s hs hn hc => ?_,
    fun data ret seq wc s hr hscan ha hg hread => ?_, fun s hr => ?_⟩
  · let t := s.begin.modLease (fun l => { l with nvw := rest })
    have hwritten : s.begin.nvWritten false = t.nvOk (.entry u je it) := by
      have hs' : s.begin.lease.staleW = [] := hs
      have hn' : s.begin.lease.nvw = .entry u je it :: rest := hn
      unfold State.nvWritten
      simp only [hs', hn', Bool.false_eq_true, if_false]
      rfl
    obtain ⟨y, hok, ywaits, ynvw, ylive, y8, y9⟩ := nvOk_request t u je it b v c tag w hy hj hl hp hh hw
    obtain ⟨clease, cceil, c8, c9⟩ := commitOne_effect y v { vslot := v, ceil := c, written := true, acked := false }
    refine ⟨s.begin.nvWritten false, rfl, ?_⟩
    rw [hwritten, hok, clease]
    refine ⟨ynvw, ?_, ylive, cceil, ?_, ?_⟩
    · rw [ywaits]
      simp
    · rw [c8, y8]
      rfl
    · rw [c9, y9]
      rfl
  · let t := s.begin.modLease (fun l => { l with nvw := rest })
    have hwritten : s.begin.nvWritten true = t.nvErr (.entry u je it) false := by
      have hs' : s.begin.lease.staleW = [] := hs
      have hn' : s.begin.lease.nvw = .entry u je it :: rest := hn
      unfold State.nvWritten
      simp only [hs', hn', if_true]
      rfl
    refine ⟨s.begin.nvWritten true, rfl, ?_⟩
    rw [hwritten]
    exact nvErr_entry t u je it hc
  · have hread' : s.begin.nvRead false data = s.begin.scanAnswer false data := by
      have h0 : ¬ 0 < s.begin.lease.staleR := by
        change ¬ 0 < s.lease.staleR
        omega
      have h1 : s.begin.lease.scanning = true ∧ s.begin.lease.got < s.begin.lease.asked := ⟨hscan, ha⟩
      unfold State.nvRead
      rw [if_neg h0, if_pos h1]
    refine ⟨s.begin.nvRead false data, rfl, ?_⟩
    rw [hread']
    exact scanAnswer_header s.begin data ret seq wc hg hread
  · let t := s.begin.scanEnd
    let u := if t.pair.promoWait then t.promoLeases else t.forEach t.txLive (fun s v => s.restartLease v)
    have hu : u.scanState = (false, true) := by
      rw [← scanEnd_scanState s.begin]
      simp only [u]
      split
      · exact promoLeases_scanState t
      · exact forEach_keeps State.scanState _ restartLease_scanState _ _
    exact ⟨u, congrArg Host.Outcome.next (if_pos hr), congrArg Prod.snd hu, congrArg Prod.fst hu⟩

end Sys2Proof.Machine
end

section
/-! PROOFS. Partition resets: what the end of a unit's work leaves of the page headers, of the resets under way and of the
holds, one lemma for each operation (R307, R308). -/
namespace Sys2Proof.Machine

/-- The page headers but for BUSY, and the resets under way or waiting. -/
def State.pageView (s : State) :=
  (s.regs.resetting, s.regs.resetWait, fun n : Nat => ({ Tab.get {} s.regs.hdr n with busy := false } : Hdr))
/-- The same, and the partitions that are held. -/
def State.regView (s : State) := (s.pageView, s.flt.held)
@[simp] theorem modSys_rv (s : State) (f : Sys → Sys) : (s.modSys f).regView = s.regView := rfl
@[simp] theorem modDp_rv (s : State) (f : Dp → Dp) : (s.modDp f).regView = s.regView := rfl
@[simp] theorem modSlices_rv (s : State) (f : Slices → Slices) : (s.modSlices f).regView = s.regView := rfl
@[simp] theorem modCh_rv (s : State) (f : Chans → Chans) : (s.modCh f).regView = s.regView := rfl
@[simp] theorem modLease_rv (s : State) (f : Lease → Lease) : (s.modLease f).regView = s.regView := rfl
@[simp] theorem modPager_rv (s : State) (f : Pager → Pager) : (s.modPager f).regView = s.regView := rfl
@[simp] theorem modKeyx_rv (s : State) (f : Keyx → Keyx) : (s.modKeyx f).regView = s.regView := rfl
@[simp] theorem modStore_rv (s : State) (f : Store → Store) : (s.modStore f).regView = s.regView := rfl
@[simp] theorem modCnt_rv (s : State) (f : Counts → Counts) : (s.modCnt f).regView = s.regView := rfl
@[simp] theorem modPwr_rv (s : State) (f : Pwr → Pwr) : (s.modPwr f).regView = s.regView := rfl
@[simp] theorem modPair_rv (s : State) (f : Pair → Pair) : (s.modPair f).regView = s.regView := rfl
@[simp] theorem emit_rv (s : State) (e : Emit) : (s.emit e).regView = s.regView := rfl
@[simp] theorem draw_rv (s : State) : s.draw.regView = s.regView := rfl
@[simp] theorem setCfg_rv (s : State) (p : Page) (off : Nat) (v : W32) : (s.setCfg p off v).regView = s.regView := rfl
@[simp] theorem setRo_rv (s : State) (p : Page) (off : Nat) (v : W32) : (s.setRo p off v).regView = s.regView := rfl
@[simp] theorem setFlags_rv (s : State) (p : Page) (off : Nat) (m : W32) : (s.setFlags p off m).regView = s.regView := rfl
/-- A change of BUSY alone. -/
theorem modHdr_rv (s : State) (p : Page) (f : Hdr → Hdr)
    (h : ∀ x, ({ f x with busy := false } : Hdr) = { x with busy := false }) : (s.modHdr p f).regView = s.regView := by
  have hdrs : (fun n : Nat => ({ Tab.get {} (s.modHdr p f).regs.hdr n with busy := false } : Hdr)) =
      fun n => { Tab.get {} s.regs.hdr n with busy := false } := by
    funext n
    change ({ Tab.get {} (Tab.modify {} s.regs.hdr p.num f) n with busy := false } : Hdr) = _
    by_cases hn : n = p.num
    · rw [hn, Tab.get_modify, h]
    · rw [Tab.get_modify_ne _ _ _ _ _ hn]
  unfold State.regView State.pageView
  rw [hdrs]
  rfl
@[simp] theorem detectAs_rv (s : State) (inj : Bool) (det inst : Nat) (infoA infoB : W32) :
    (s.detectAs inj det inst infoA infoB).regView = s.regView := by
  unfold State.detectAs
  dsimp only
  split <;> rfl
@[simp] theorem cmdDone_rv (s : State) (p : Page) (off flag code op detail : Nat) :
    (s.cmdDone p off flag code op detail).regView = s.regView := by
  unfold State.cmdDone
  exact modHdr_rv (s.setRo p off (atPos (code % 256) 24 ||| atPos (op % 256) 16 ||| atPos (detail % 65536) 0)) p
    (fun h => { h with busy := false }) (fun _ => rfl)
@[simp] theorem ite_rv (c : Prop) [Decidable c] (a b : State) : (if c then a else b).regView = if c then a.regView else b.regView := by split <;> rfl
@[simp] theorem forEach_rv {α : Type} (f : State → α → State) (l : List α) (s : State) (h : ∀ s a, (f s a).regView = s.regView) : (s.forEach l f).regView = s.regView := forEach_keeps (·.regView) f h l s
@[simp] theorem when_rv (f : State → State) (c : Bool) (s : State) (h : ∀ s, (f s).regView = s.regView) : (s.when c f).regView = s.regView := when_keeps (·.regView) f h c s
@[simp] theorem setFlag_rv (s : State) (p : Page) (off n : Nat) : (State.setFlag s p off n).regView = s.regView := by
  unfold State.setFlag
  simp
@[simp] theorem evt_rv (s : State) (n k : Nat) : (State.evt s n k).regView = s.regView := by
  unfold State.evt
  simp
@[simp] theorem portAdd_rv (s : State) (port idx k : Nat) : (State.portAdd s port idx k).regView = s.regView := by
  unfold State.portAdd
  simp
@[simp] theorem portCount_rv (s : State) (port idx : Nat) : (State.portCount s port idx).regView = s.regView := by
  unfold State.portCount
  simp
@[simp] theorem portFlag_rv (s : State) (port n : Nat) : (State.portFlag s port n).regView = s.regView := by
  unfold State.portFlag
  simp
@[simp] theorem detect_rv (s : State) (det inst : Nat) (infoA infoB : W32) : (State.detect s det inst infoA infoB).regView = s.regView := by
  unfold State.detect
  simp
@[simp] theorem mirrorLease_rv (s : State) (chix : Nat) (slotB valid : Bool) (tag : W32) (ceil : Nat) : (State.mirrorLease s chix slotB valid tag ceil).regView = s.regView := by
  unfold State.mirrorLease
  repeat' first | simp | intro _ | (refine (forEach_rv _ _ _ ?_).trans ?_) | (refine (when_rv _ _ _ ?_).trans ?_) | split
@[simp] theorem mirrorSlot_rv (s : State) (it : MItem) : (State.mirrorSlot s it).regView = s.regView := by
  unfold State.mirrorSlot
  repeat' first | simp | intro _ | (refine (forEach_rv _ _ _ ?_).trans ?_) | (refine (when_rv _ _ _ ?_).trans ?_) | split
@[simp] theorem skew_rv (s : State) (k : Nat) : (State.skew s k).regView = s.regView := by
  unfold State.skew
  simp
@[simp] theorem mirrorLose_rv (s : State) (it : Bytes) : (State.mirrorLose s it).regView = s.regView := by
  unfold State.mirrorLose
  simp
@[simp] theorem mirrorFail_rv (s : State) (x : Nat) : (State.mirrorFail s x).regView = s.regView := by
  unfold State.mirrorFail
  simp
@[simp] theorem setEntry_rv (s : State) (e : Nat) (v : Option Entry) : (State.setEntry s e v).regView = s.regView := by
  unfold State.setEntry
  simp
@[simp] theorem modEntry_rv (s : State) (e : Nat) (f : Entry → Entry) : (State.modEntry s e f).regView = s.regView := by
  unfold State.modEntry
  simp
@[simp] theorem modSlot_rv (s : State) (v : Nat) (f : Slot → Slot) : (State.modSlot s v f).regView = s.regView := by
  unfold State.modSlot
  simp
@[simp] theorem unexpose_rv (s : State) (x : Nat) (b : Bool) : (State.unexpose s x b).regView = s.regView := by
  unfold State.unexpose
  repeat' first | simp | intro _ | (refine (forEach_rv _ _ _ ?_).trans ?_) | (refine (when_rv _ _ _ ?_).trans ?_) | split
@[simp] theorem slotChanged_rv (s : State) (e : Nat) (b : Bool) : (State.slotChanged s e b).regView = s.regView := by
  unfold State.slotChanged
  (repeat' split) <;> simp
@[simp] theorem modDom_rv (s : State) (d : Nat) (f : Dom → Dom) : (State.modDom s d f).regView = s.regView := by
  unfold State.modDom
  simp
@[simp] theorem modSl_rv (s : State) (n : Nat) (f : Slice → Slice) : (State.modSl s n f).regView = s.regView := by
  unfold State.modSl
  simp
@[simp] theorem pmIssue_rv (s : State) (d : Nat) (op : PmOp) : (State.pmIssue s d op).regView = s.regView := by
  unfold State.pmIssue
  simp
@[simp] theorem pmTry_rv (s : State) (d : Nat) (op : PmOp) : (State.pmTry s d op).regView = s.regView := by
  unfold State.pmTry
  simp
@[simp] theorem setRsv_rv (s : State) (ing : Bool) (l : NatSet) : (State.setRsv s ing l).regView = s.regView := by
  unfold State.setRsv
  simp
@[simp] theorem rsvReturn_rv (s : State) (n : Nat) : (State.rsvReturn s n).regView = s.regView := by
  unfold State.rsvReturn
  dsimp only; (repeat' split) <;> simp
@[simp] theorem wakeSlice_rv (s : State) (n : Nat) : (State.wakeSlice s n).regView = s.regView := by
  unfold State.wakeSlice
  (repeat' split) <;> simp
@[simp] theorem rsvLeave_rv (s : State) (n : Nat) : (State.rsvLeave s n).regView = s.regView := by
  unfold State.rsvLeave
  dsimp only; (repeat' split) <;> simp
@[simp] theorem slEnter_rv (s : State) (n : Nat) (st : SlState) : (State.slEnter s n st).regView = s.regView := by
  unfold State.slEnter
  (repeat' split) <;> simp
@[simp] theorem storeDone_rv (s : State) (code detail : Nat) : (State.storeDone s code detail).regView = s.regView := by
  unfold State.storeDone
  simp
@[simp] theorem putBytes_rv (s : State) (p : Page) (off : Nat) (b : Bytes) : (State.putBytes s p off b).regView = s.regView := by
  unfold State.putBytes
  exact forEach_rv _ _ _ (fun s i => setCfg_rv s _ _ _)
@[simp] theorem setKey_rv (s : State) (n : Nat) (k : KeySel) : (State.setKey s n k).regView = s.regView := by
  unfold State.setKey
  simp
@[simp] theorem storeReq_rv (s : State) (wr : Bool) (line kix : Nat) (who : Req) (data : Bytes) (mask : W64) : (State.storeReq s wr line kix who data mask).regView = s.regView := by
  unfold State.storeReq
  simp
@[simp] theorem storeRead_rv (s : State) (line kix : Nat) (who : Req) : (State.storeRead s line kix who).regView = s.regView := by
  unfold State.storeRead
  simp
@[simp] theorem issueWrite_rv (s : State) (r : SReq) (sel : Nat) (d : Bytes) : (State.issueWrite s r sel d).regView = s.regView := by
  unfold State.issueWrite
  (repeat' split) <;> simp
@[simp] theorem modWcb_rv (s : State) (line : Nat) (f : Wcb → Wcb) : (State.modWcb s line f).regView = s.regView := by
  unfold State.modWcb
  simp
@[simp] theorem freeWcb_rv (s : State) (line : Nat) : (State.freeWcb s line).regView = s.regView := by
  unfold State.freeWcb
  simp
@[simp] theorem touchWcb_rv (s : State) (line : Nat) : (State.touchWcb s line).regView = s.regView := by
  unfold State.touchWcb
  (repeat' split) <;> simp
@[simp] theorem mergeWrite_rv (s : State) (r : SReq) : (State.mergeWrite s r).regView = s.regView := by
  unfold State.mergeWrite
  simp
@[simp] theorem writeBack_rv (s : State) (w : Wcb) : (State.writeBack s w).regView = s.regView := by
  unfold State.writeBack
  simp
@[simp] theorem wcbLost_rv (s : State) (w : Wcb) : (State.wcbLost s w).regView = s.regView := by
  unfold State.wcbLost
  simp
@[simp] theorem hostEnd_rv (s : State) (r : SReq) (f : FinRes) : (State.hostEnd s r f).regView = s.regView := by
  unfold State.hostEnd
  (repeat' split) <;> simp
@[simp] theorem endReq_rv (s : State) (r : SReq) (f : FinRes) : (State.endReq s r f).regView = s.regView := by
  unfold State.endReq
  (repeat' split) <;> simp
@[simp] theorem fillEnd_rv (s : State) (r : SReq) (f : FinRes) : (State.fillEnd s r f).regView = s.regView := by
  unfold State.fillEnd
  (repeat' split) <;> simp
@[simp] theorem backEnd_rv (s : State) (r : SReq) (f : FinRes) : (State.backEnd s r f).regView = s.regView := by
  unfold State.backEnd
  (repeat' split) <;> simp
@[simp] theorem wholeEnd_rv (s : State) (r : SReq) (f : FinRes) : (State.wholeEnd s r f).regView = s.regView := by
  unfold State.wholeEnd
  (repeat' split) <;> simp
@[simp] theorem modMarch_rv (s : State) (f : March → March) : (State.modMarch s f).regView = s.regView := by
  unfold State.modMarch
  simp
@[simp] theorem marchSettle_rv (s : State) : (State.marchSettle s).regView = s.regView := by
  unfold State.marchSettle
  simp
@[simp] theorem marchDone_rv (s : State) : (State.marchDone s).regView = s.regView := by
  unfold State.marchDone
  simp
@[simp] theorem marchRekeyed_rv (s : State) (line : Nat) : (State.marchRekeyed s line).regView = s.regView := by
  unfold State.marchRekeyed
  simp
@[simp] theorem marchFail_rv (s : State) (line reason : Nat) : (State.marchFail s line reason).regView = s.regView := by
  unfold State.marchFail
  simp
@[simp] theorem marchEnd_rv (s : State) (r : SReq) (f : FinRes) : (State.marchEnd s r f).regView = s.regView := by
  unfold State.marchEnd
  (repeat' split) <;> simp
@[simp] theorem finish_rv (s : State) (r : SReq) (f : FinRes) : (State.finish s r f).regView = s.regView := by
  unfold State.finish
  (repeat' split) <;> simp
@[simp] theorem endOut_rv (s : State) (r : SReq) : (State.endOut s r).regView = s.regView := by
  unfold State.endOut
  simp
@[simp] theorem forgetReqs_rv (s : State) (p : Req → Bool) : (State.forgetReqs s p).regView = s.regView := by
  unfold State.forgetReqs
  simp
@[simp] theorem marchAbandon_rv (s : State) : (State.marchAbandon s).regView = s.regView := by
  unfold State.marchAbandon
  simp
@[simp] theorem marchHold_rv (s : State) : (State.marchHold s).regView = s.regView := by
  unfold State.marchHold
  simp
@[simp] theorem marchDrop_rv (s : State) : (State.marchDrop s).regView = s.regView := by
  unfold State.marchDrop
  simp
@[simp] theorem cannot_rv (s : State) (v : Nat) (c : LCause) : (State.cannot s v c).regView = s.regView := by
  unfold State.cannot
  dsimp only; (repeat' split) <;> simp
@[simp] theorem makeRequest_rv (s : State) (x v ceil : Nat) : (State.makeRequest s x v ceil).regView = s.regView := by
  unfold State.makeRequest
  simp
@[simp] theorem startLease_rv (s : State) (v : Nat) : (State.startLease s v).regView = s.regView := by
  unfold State.startLease
  dsimp only; (repeat' split) <;> simp
@[simp] theorem resumeAt_rv (s : State) (v p : Nat) : (State.resumeAt s v p).regView = s.regView := by
  unfold State.resumeAt
  simp
@[simp] theorem dropWaits_rv (s : State) (v : Nat) : (State.dropWaits s v).regView = s.regView := by
  unfold State.dropWaits
  simp
@[simp] theorem restartLease_rv (s : State) (v : Nat) : (State.restartLease s v).regView = s.regView := by
  unfold State.restartLease
  (repeat' split) <;> simp
@[simp] theorem commitOne_rv (s : State) (v : Nat) (w : LWait) (blind : Bool) : (State.commitOne s v w blind).regView = s.regView := by
  unfold State.commitOne
  simp
@[simp] theorem tryCommit_rv (k : Nat) (s : State) (v : Nat) : (State.tryCommit k s v).regView = s.regView := by
  induction k generalizing s with
  | zero => rfl
  | succ k ih => unfold State.tryCommit; repeat' first | (simp [ih]; done) | split
@[simp] theorem blindHold_rv (s : State) (v : Nat) : (State.blindHold s v).regView = s.regView := by
  unfold State.blindHold
  simp
@[simp] theorem scanAsk1_rv (s : State) : (State.scanAsk1 s).regView = s.regView := by
  unfold State.scanAsk1
  dsimp only; (repeat' split) <;> simp
@[simp] theorem scanAsk_rv (s : State) : (State.scanAsk s).regView = s.regView := by
  unfold State.scanAsk
  repeat' first | simp | intro _ | (refine (forEach_rv _ _ _ ?_).trans ?_) | (refine (when_rv _ _ _ ?_).trans ?_) | split
@[simp] theorem startScan_rv (s : State) : (State.startScan s).regView = s.regView := by
  unfold State.startScan
  simp
@[simp] theorem zeroBlob_rv (s : State) : s.zeroBlob.regView = s.regView := by
  unfold State.zeroBlob
  exact forEach_rv _ _ _ (fun s i => setCfg_rv s _ _ _)
@[simp] theorem keywDone_rv (s : State) (code gen : Nat) : (State.keywDone s code gen).regView = s.regView := by
  unfold State.keywDone
  simp
@[simp] theorem unparkSlot_rv (s : State) (e : Nat) (b : Bool) : (State.unparkSlot s e b).regView = s.regView := by
  unfold State.unparkSlot
  (repeat' split) <;> simp
@[simp] theorem modFrame_rv (s : State) (id : Nat) (g : Frame → Frame) : (State.modFrame s id g).regView = s.regView := by
  unfold State.modFrame
  simp
@[simp] theorem setTicket_rv (s : State) (id k : Nat) : (State.setTicket s id k).regView = s.regView := by
  unfold State.setTicket
  simp
@[simp] theorem payRse_rv (s : State) (port : Nat) (express : Bool) (n : Nat) : (State.payRse s port express n).regView = s.regView := by
  unfold State.payRse
  simp
@[simp] theorem rseReturn_rv (s : State) (f : Frame) : (State.rseReturn s f).regView = s.regView := by
  unfold State.rseReturn
  simp
@[simp] theorem sendTicket_rv (s : State) (f : Frame) (src : Nat) (v : Bool) : (State.sendTicket s f src v).regView = s.regView := by
  unfold State.sendTicket
  (repeat' split) <;> simp
@[simp] theorem passTry_rv (s : State) (f : Frame) : (State.passTry s f).regView = s.regView := by
  unfold State.passTry
  simp
@[simp] theorem passAll_rv (s : State) (p : Frame → Bool) : (State.passAll s p).regView = s.regView := by
  unfold State.passAll
  repeat' first | simp | intro _ | (refine (forEach_rv _ _ _ ?_).trans ?_) | (refine (when_rv _ _ _ ?_).trans ?_) | split
@[simp] theorem nextTicket_rv (s : State) (k : Nat) : (State.nextTicket s k).regView = s.regView := by
  unfold State.nextTicket
  repeat' first | simp | intro _ | (refine (forEach_rv _ _ _ ?_).trans ?_) | (refine (when_rv _ _ _ ?_).trans ?_) | split
@[simp] theorem resume_rv (s : State) (n : Nat) : (State.resume s n).regView = s.regView := by
  unfold State.resume
  simp
@[simp] theorem leaveSlice_rv (s : State) (f : Frame) : (State.leaveSlice s f).regView = s.regView := by
  unfold State.leaveSlice
  (repeat' split) <;> simp
@[simp] theorem removeFrame_rv (s : State) (f : Frame) : (State.removeFrame s f).regView = s.regView := by
  unfold State.removeFrame
  simp
@[simp] theorem voidFrame_rv (s : State) (f : Frame) : (State.voidFrame s f).regView = s.regView := by
  unfold State.voidFrame
  simp
@[simp] theorem sendEof_rv (s : State) (f : Frame) (b : Bytes) (c : Code) : (State.sendEof s f b c).regView = s.regView := by
  unfold State.sendEof
  simp
@[simp] theorem refund_rv (s : State) (f : Frame) (sent : Nat) : (State.refund s f sent).regView = s.regView := by
  unfold State.refund
  simp
@[simp] theorem addStub_rv (s : State) (f : Frame) : (State.addStub s f).regView = s.regView := by
  unfold State.addStub
  simp
@[simp] theorem endFrame_rv (s : State) (f : Frame) (c : Code) (ctr : Option Nat) : (State.endFrame s f c ctr).regView = s.regView := by
  unfold State.endFrame
  (repeat' split) <;> simp
@[simp] theorem dropFrame_rv (s : State) (f : Frame) (ctr : Nat) : (State.dropFrame s f ctr).regView = s.regView := by
  unfold State.dropFrame
  simp
@[simp] theorem endFrames_rv (s : State) (p : Frame → Bool) (c : Code) (ctr : Frame → Option Nat) : (State.endFrames s p c ctr).regView = s.regView := by
  unfold State.endFrames
  repeat' first | simp | intro _ | (refine (forEach_rv _ _ _ ?_).trans ?_) | (refine (when_rv _ _ _ ?_).trans ?_) | split
@[simp] theorem stomp_rv (s : State) (p : Frame → Bool) : (State.stomp s p).regView = s.regView := by
  unfold State.stomp
  simp
@[simp] theorem missFail_rv (s : State) (p : Frame → Bool) : (State.missFail s p).regView = s.regView := by
  unfold State.missFail
  repeat' first | simp | intro _ | (refine (forEach_rv _ _ _ ?_).trans ?_) | (refine (when_rv _ _ _ ?_).trans ?_) | split
@[simp] theorem sawDone_rv (s : State) (code detail : Nat) : (State.sawDone s code detail).regView = s.regView := by
  unfold State.sawDone
  simp
@[simp] theorem pageCmdsFail_rv (s : State) (x code : Nat) : (State.pageCmdsFail s x code).regView = s.regView := by
  unfold State.pageCmdsFail
  dsimp only; (repeat' split) <;> simp
@[simp] theorem modIn_rv (s : State) (x : Nat) (f : PageIn → PageIn) : (State.modIn s x f).regView = s.regView := by
  unfold State.modIn
  simp
@[simp] theorem dropIn_rv (s : State) (x : Nat) : (State.dropIn s x).regView = s.regView := by
  unfold State.dropIn
  simp
@[simp] theorem dropOut_rv (s : State) (x : Nat) : (State.dropOut s x).regView = s.regView := by
  unfold State.dropOut
  simp
@[simp] theorem jobCheck_rv (s : State) : (State.jobCheck s).regView = s.regView := by
  unfold State.jobCheck
  simp
@[simp] theorem freeEntry_rv (s : State) (e : Nat) : (State.freeEntry s e).regView = s.regView := by
  unfold State.freeEntry
  simp
@[simp] theorem pageReads_rv (s : State) (x : Nat) : (State.pageReads s x).regView = s.regView := by
  unfold State.pageReads
  simp
@[simp] theorem outFail_rv (s : State) (x : Nat) : (State.outFail s x).regView = s.regView := by
  unfold State.outFail
  dsimp only; (repeat' split) <;> simp
@[simp] theorem commitWaits_rv (s : State) : (State.commitWaits s).regView = s.regView := by unfold State.commitWaits; simp [tryCommit_rv]
@[simp] theorem pagerEnd_rv (s : State) : (State.pagerEnd s).regView = s.regView := by
  unfold State.pagerEnd
  simp
@[simp] theorem leaseHeld_rv (s : State) : (State.leaseHeld s).regView = s.regView := by
  unfold State.leaseHeld
  simp
@[simp] theorem storeEnd_rv (s : State) : (State.storeEnd s).regView = s.regView := by
  unfold State.storeEnd
  simp
@[simp] theorem pairKeys_rv (s : State) : (State.pairKeys s).regView = s.regView := by
  unfold State.pairKeys
  simp
@[simp] theorem sliceDown_rv (s : State) (n : Nat) : (State.sliceDown s n).regView = s.regView := by
  unfold State.sliceDown
  simp
@[simp] theorem maskDrain_rv (s : State) (n : Nat) : (State.maskDrain s n).regView = s.regView := by
  unfold State.maskDrain
  (repeat' split) <;> simp
@[simp] theorem pcntClearAll_rv (s : State) (port : Nat) : (State.pcntClearAll s port).regView = s.regView := by
  unfold State.pcntClearAll
  simp
@[simp] theorem hostDrop_rv (s : State) : (State.hostDrop s).regView = s.regView := by
  unfold State.hostDrop
  simp
@[simp] theorem storeReturn_rv (s : State) : (State.storeReturn s).regView = s.regView := by
  unfold State.storeReturn
  simp

end Sys2Proof.Machine
end

section
/-! PROOFS. Partition resets: how one begins and how it ends (R308, R311, R350). -/
namespace Sys2Proof.Machine

/-! ### What is left of the page headers by units without a row of their own -/

theorem seedGen_rv (s : State) (g : Nat) : (s.seedGen g).regView = s.regView := by
  unfold State.seedGen State.seedGenFrom
  split <;> rfl
theorem seedTest_rv (s : State) (n : Nat) : (s.seedTest n).regView = s.regView := by
  unfold State.seedTest
  exact (when_rv _ _ _ (fun s => evt_rv s _ _)).trans (seedGen_rv s n)
theorem enterTest_rv (s : State) (n : Nat) (b : Bool) : (s.enterTest n b).regView = s.regView := by
  unfold State.enterTest
  rw [seedTest_rv, slEnter_rv, modSl_rv]
theorem slDrained_rv (s : State) (n : Nat) : (s.slDrained n).regView = s.regView := by
  unfold State.slDrained
  dsimp only
  (repeat' split) <;> simp [seedTest_rv]
theorem sendStatus_rv (s : State) : s.sendStatus.regView = s.regView := by
  unfold State.sendStatus
  (repeat' split) <;> rfl
theorem pairSince_rv (t s : State) : (t.pairSince s).regView = t.regView := by
  unfold State.pairSince
  extract_lets u v
  have hu : u.regView = t.regView := by
    simp only [u]
    split <;> rfl
  have hv : v.regView = u.regView := by
    simp only [v]
    split <;> simp
  split
  · exact hv.trans hu
  · exact (sendStatus_rv v).trans (hv.trans hu)
theorem deriveEnd_rv (s : State) : s.deriveEnd.regView = s.regView := by
  unfold State.deriveEnd
  split
  · rfl
  · exact (pairSince_rv _ _).trans (pairKeys_rv _)
theorem backInService_rv (s : State) (q : Part) : (s.backInService q).regView = s.regView := by
  unfold State.backInService
  split
  · exact storeReturn_rv s
  · exact when_rv _ _ _ deriveEnd_rv
  · exact forEach_rv _ _ _ slDrained_rv
  · rfl

/-! ### The end of a reset (R308) -/

/-- A hold of a partition changes no page header. -/
theorem holdUnit_pageView (s : State) (q : Part) : (s.holdUnit q).pageView = s.pageView := by
  have hfst : ∀ (t u : State), t.regView = u.regView → t.pageView = u.pageView := fun t u h => congrArg Prod.fst h
  unfold State.holdUnit
  split
  · rfl
  · split
    · rfl
    · extract_lets t
      have ht : t.pageView = s.pageView := rfl
      rw [← ht]
      split
      · exact hfst _ _ (stomp_rv t _)
      · exact hfst _ _ (pagerEnd_rv t)
      · exact hfst _ _ (storeEnd_rv t)
      · exact hfst _ _ (marchHold_rv t)
      · exact hfst _ _ (leaseHeld_rv t)
      · rfl
theorem autoDone_pageView (s : State) (q : Part) : (s.autoDone q).pageView = s.pageView := by
  unfold State.autoDone
  split <;> rfl
theorem lateFault_pageView (s : State) (q : Part) : (s.lateFault q).pageView = s.pageView := by
  have hfst : ∀ (t u : State), t.regView = u.regView → t.pageView = u.pageView := fun t u h => congrArg Prod.fst h
  unfold State.lateFault
  extract_lets t
  have ht : t.pageView = s.pageView := by
    simp only [t]
    split <;> rfl
  rw [← ht]
  clear_value t
  split
  · split
    · exact hfst _ _ (sliceDown_rv (t.modFlt _) _)
    · exact holdUnit_pageView (t.modFlt _) q
  · split
    · split
      · exact hfst _ _ (maskDrain_rv (t.modFlt _) _)
      · rfl
    · rfl

theorem hdr_modHdr_ne (s : State) (p q : Page) (f : Hdr → Hdr) (h : q.num ≠ p.num) : (s.modHdr p f).hdr q = s.hdr q := by
  change Tab.get {} (Tab.modify {} s.regs.hdr p.num f) q.num = Tab.get {} s.regs.hdr q.num
  exact Tab.get_modify_ne _ _ _ _ _ h
theorem hdr_bumpEpoch_same (s : State) (p : Page) : ((s.bumpEpoch p).hdr p).epoch = (s.hdr p).epoch + 1 :=
  congrArg Hdr.epoch (hdr_modHdr s p (fun h => { h with epoch := h.epoch + 1 }))
theorem hdr_bumpEpoch_ne (s : State) (p q : Page) (h : q.num ≠ p.num) : (s.bumpEpoch p).hdr q = s.hdr q :=
  hdr_modHdr_ne s p q (fun h => { h with epoch := h.epoch + 1 }) h
theorem hdr_of_num (s : State) (p q : Page) (h : p.num = q.num) : s.hdr p = s.hdr q := by
  unfold State.hdr
  rw [h]
/-- Over pages with numbers of their own, each counts one change. -/
theorem bumpEpochs_epoch (l : List Page) (hl : (l.map Page.num).Nodup) (s : State) (p : Page) :
    ((s.forEach l State.bumpEpoch).hdr p).epoch = (s.hdr p).epoch + (if p.num ∈ l.map Page.num then 1 else 0) := by
  induction l generalizing s with
  | nil => simp
  | cons q l ih =>
    rw [List.map_cons, List.nodup_cons] at hl
    obtain ⟨hq, hl⟩ := hl
    rw [forEach_cons, ih hl]
    by_cases hp : p.num = q.num
    · have hnot : p.num ∉ l.map Page.num := hp ▸ hq
      rw [if_neg hnot, if_pos (by simp [hp]), hdr_of_num _ _ _ hp, hdr_of_num s _ _ hp, hdr_bumpEpoch_same]
      simp
    · rw [hdr_bumpEpoch_ne _ _ _ hp]
      simp only [List.map_cons, List.mem_cons, hp, false_or]
theorem allPages_nodup : (allPages.map Page.num).Nodup := by decide
theorem partPages_nodup (q : Part) : ((partPages q).map Page.num).Nodup :=
  List.Nodup.sublist (List.filter_sublist.map _) allPages_nodup

/-- At the return of a partition its reset is over and its pages have counted a change (R308, R350). -/
theorem resetReturn_effect (s : State) (q : Part) (hw : s.regs.resetWait = []) :
    (s.resetReturn q).resetOn q = false ∧ ∀ p ∈ partPages q, ((s.resetReturn q).hdr p).epoch = (s.hdr p).epoch + 1 := by
  unfold State.resetReturn
  extract_lets t u v
  have htw : t.regs.resetWait = [] := by
    rw [← hw]
    refine forEach_keeps (fun s => s.regs.resetWait) _ (fun s p => ?_) _ _
    rfl
  have hv : v.pageView = u.pageView :=
    (lateFault_pageView _ q).trans ((autoDone_pageView _ q).trans (congrArg Prod.fst (backInService_rv u q)))
  have hvw : v.regs.resetWait = [] := (congrArg (·.2.1) hv).trans htw
  rw [if_pos (.inl (by rw [hvw]; rfl))]
  refine ⟨?_, fun p hp => ?_⟩
  · have hr : v.regs.resetting = t.regs.resetting.filter (· ≠ q) := congrArg (·.1) hv
    unfold State.resetOn
    rw [hr]
    simp
  · have he : (v.hdr p).epoch = (t.hdr p).epoch := congrArg (fun x => (x.2.2 p.num).epoch) hv
    rw [he, bumpEpochs_epoch _ (partPages_nodup q), if_pos (List.mem_map_of_mem hp)]

/-! ### The start of a reset (R308) -/

/-- A reset is in progress, the page has no commit pending, and the partition is not held. -/
def State.inReset (s : State) (q : Part) (p : Page) : Prop :=
  s.resetOn q = true ∧ (s.hdr p).pending = false ∧ s.held q = false
theorem inReset_of_rv (s t : State) (q : Part) (p : Page) (h : t.regView = s.regView) (hs : s.inReset q p) :
    t.inReset q p := by
  obtain ⟨hon, hp, hh⟩ := hs
  have hr : t.regs.resetting = s.regs.resetting := congrArg (·.1.1) h
  have hheld : t.flt.held = s.flt.held := congrArg (·.2) h
  refine ⟨?_, ?_, ?_⟩
  · unfold State.resetOn
    rw [hr]
    exact hon
  · exact (congrArg (fun x => (x.1.2.2 p.num).pending) h).trans hp
  · unfold State.held
    rw [hheld]
    exact hh
/-- A page whose header is cleared has no commit pending. -/
theorem clearHdrs_pending (l : List Page) (s : State) (p : Page) (h : p ∈ l ∨ (s.hdr p).pending = false) :
    ((s.forEach l (fun s p => s.modHdr p (fun h => { epoch := h.epoch }))).hdr p).pending = false := by
  induction l generalizing s with
  | nil => simpa using h
  | cons q l ih =>
    rw [forEach_cons]
    refine ih _ ?_
    by_cases hq : p.num = q.num
    · refine .inr ?_
      rw [hdr_of_num _ _ _ hq, hdr_modHdr]
    · have hne : (s.modHdr q (fun h => { epoch := h.epoch })).hdr p = s.hdr p := hdr_modHdr_ne s q p _ hq
      rw [hne]
      rcases h with h | h
      · rcases List.mem_cons.mp h with e | e
        · exact absurd (congrArg Page.num e) hq
        · exact .inl e
      · exact .inr h
/-- The Clear phase of a partition's pages (R308). -/
theorem clearPages_inReset (s : State) (q : Part) (p : Page) (hp : p ∈ partPages q) (hon : s.resetOn q = true)
    (hh : s.held q = false) : (s.clearPages q).inReset q p := by
  unfold State.clearPages
  extract_lets split stays t u
  have hkeep : ∀ (l : List Page) (s : State), (s.forEach l (fun s p => s.modHdr p (fun h => { epoch := h.epoch }))).regs.resetting =
      s.regs.resetting ∧ (s.forEach l (fun s p => s.modHdr p (fun h => { epoch := h.epoch }))).flt = s.flt := fun l s => by
    refine ⟨forEach_keeps (fun s => s.regs.resetting) _ (fun s p => ?_) _ _, forEach_keeps State.flt _ (fun s p => ?_) _ _⟩ <;> rfl
  obtain ⟨hr, hf⟩ := hkeep (partPages q) u
  refine ⟨?_, clearHdrs_pending _ _ _ (.inl hp), ?_⟩
  · unfold State.resetOn
    rw [hr]
    exact hon
  · unfold State.held
    rw [hf]
    exact hh
theorem resetOn_of_rv (s t : State) (q : Part) (h : t.regView = s.regView) (hon : s.resetOn q = true) : t.resetOn q = true := by
  have hr : t.regs.resetting = s.regs.resetting := congrArg (·.1.1) h
  unfold State.resetOn
  rw [hr]
  exact hon
theorem held_of_rv (s t : State) (q : Part) (h : t.regView = s.regView) (hh : s.held q = false) : t.held q = false := by
  have hheld : t.flt.held = s.flt.held := congrArg (·.2) h
  unfold State.held
  rw [hheld]
  exact hh
/-- What comes before the Clear phase of a reset, and what comes after, changes no header, reset or hold. -/
theorem inReset_around (s t u : State) (q : Part) (p : Page) (hp : p ∈ partPages q) (hon : s.resetOn q = true)
    (hh : s.held q = false) (ht : t.regView = s.regView) (hu : u.regView = (t.clearPages q).regView) : u.inReset q p :=
  inReset_of_rv _ _ _ _ hu (clearPages_inReset t q p hp (resetOn_of_rv s t q ht hon) (held_of_rv s t q ht hh))

theorem resetPort_inReset (s : State) (n : Fin 32) (p : Page) (hp : p ∈ partPages (.port n)) (hon : s.resetOn (.port n) = true)
    (hh : s.held (.port n) = false) : (s.resetPort n.val).inReset (.port n) p := by
  refine inReset_around s s _ _ p hp hon hh rfl ?_
  unfold State.resetPort
  dsimp only
  rw [forEach_rv _ _ _ (fun s l => emit_rv s _), pcntClearAll_rv, modDp_rv, endFrames_rv]
  rw [Fin.ofNat_val_eq_self]
theorem resetSlice_inReset (s : State) (n : Fin 40) (p : Page) (hp : p ∈ partPages (.slice n))
    (hon : s.resetOn (.slice n) = true) (hh : s.held (.slice n) = false) : (s.resetSlice n.val).inReset (.slice n) p := by
  refine inReset_around s _ _ _ p hp hon hh (stomp_rv s (fun f => f.inSl n.val)) ?_
  unfold State.resetSlice
  dsimp only
  rw [Fin.ofNat_val_eq_self]
  split
  · exact modSl_rv _ _ _
  · exact (enterTest_rv _ _ _).trans (modSl_rv _ _ _)
theorem resetPager_inReset (s : State) (p : Page) (hp : p ∈ partPages .pager) (hon : s.resetOn .pager = true)
    (hh : s.held .pager = false) : s.resetPager.inReset .pager p :=
  inReset_around s s.pagerEnd _ _ p hp hon hh (pagerEnd_rv s) rfl
theorem resetStore_inReset (s : State) (p : Page) (hp : p ∈ partPages .store) (hon : s.resetOn .store = true)
    (hh : s.held .store = false) : s.resetStore.inReset .store p := by
  unfold State.resetStore
  extract_lets t dirty u
  have ht : t.regView = s.regView := hostDrop_rv s
  have hu : (t.forEach dirty (fun s w => s.writeBack w)).regView = s.regView :=
    (forEach_rv _ _ _ (fun s w => writeBack_rv s w)).trans ht
  exact inReset_around s _ _ _ p hp hon hh hu rfl
theorem resetMarch_inReset (s : State) (p : Page) (hp : p ∈ partPages .march) (hon : s.resetOn .march = true)
    (hh : s.held .march = false) : s.resetMarch.inReset .march p := by
  unfold State.resetMarch
  exact inReset_around s s.marchDrop _ _ p hp hon hh (marchDrop_rv s) (when_rv _ _ _ (fun s => modMarch_rv s _))
theorem resetLease_inReset (s : State) (p : Page) (hp : p ∈ partPages .lease) (hon : s.resetOn .lease = true)
    (hh : s.held .lease = false) : s.resetLease.inReset .lease p := by
  unfold State.resetLease
  exact inReset_around s s _ _ p hp hon hh rfl (startScan_rv _)
theorem resetSec_inReset (s : State) (p : Page) (hp : p ∈ partPages .sec) (hon : s.resetOn .sec = true)
    (hh : s.held .sec = false) : s.resetSec.inReset .sec p := by
  unfold State.resetSec
  extract_lets t u again l
  have ht : t.regView = s.regView := rfl
  have hu : (t.forEach t.parked (fun s v => s.unparkSlot (v / 2) (decide (v % 2 = 1)))).regView = s.regView :=
    (forEach_rv _ _ _ (fun s v => unparkSlot_rv s _ _)).trans ht
  exact inReset_around s _ _ _ p hp hon hh hu rfl

/-- The reset of a partition whose pages are not posted begins, but for the global one. -/
theorem resetBegin_inReset (s : State) (p : Page) (hp : p ∈ partPages p.part) (hg : p.part ≠ .glob) (ha : p.aoPosted = false) :
    (s.resetBegin p.part).inReset p.part p := by
  unfold State.resetBegin
  extract_lets t
  have hon : ∀ q, q = p.part → t.resetOn q = true := fun q hq => by
    subst hq
    exact decide_eq_true (List.mem_append_right _ (List.mem_singleton_self _))
  have hh : ∀ q, q = p.part → t.held q = false := fun q hq => by
    subst hq
    exact decide_eq_false (fun h => by simpa using (List.mem_filter.mp h).2)
  clear_value t
  split
  case h_1 n hq => exact hq ▸ resetPort_inReset t n p (hq ▸ hp) (hon _ hq.symm) (hh _ hq.symm)
  case h_2 n hq => exact hq ▸ resetSlice_inReset t n p (hq ▸ hp) (hon _ hq.symm) (hh _ hq.symm)
  case h_3 hq => exact hq ▸ resetPager_inReset t p (hq ▸ hp) (hon _ hq.symm) (hh _ hq.symm)
  case h_4 hq => exact hq ▸ resetStore_inReset t p (hq ▸ hp) (hon _ hq.symm) (hh _ hq.symm)
  case h_5 hq => exact hq ▸ resetMarch_inReset t p (hq ▸ hp) (hon _ hq.symm) (hh _ hq.symm)
  case h_6 hq => exact hq ▸ resetLease_inReset t p (hq ▸ hp) (hon _ hq.symm) (hh _ hq.symm)
  case h_8 hq => exact hq ▸ resetSec_inReset t p (hq ▸ hp) (hon _ hq.symm) (hh _ hq.symm)
  case h_7 hq => cases p <;> simp_all [Page.part, Page.aoPosted]
  case h_9 hq => cases p <;> simp_all [Page.part, Page.aoPosted]
  case h_10 hq => exact absurd hq hg

theorem pageOf_lt (n : Nat) (p : Page) (h : pageOf n = some p) : n < 0x68 := by
  unfold pageOf at h
  split_ifs at h <;> omega
theorem mem_partPages (n : Nat) (p : Page) (h : pageOf n = some p) : p ∈ partPages p.part := by
  unfold partPages allPages
  rw [List.mem_filter, List.mem_filterMap]
  exact ⟨⟨n, List.mem_range.mpr (pageOf_lt n p h), h⟩, decide_eq_true rfl⟩

/-- Settles O41: the end of a reset is `State.resetReturn`, its start `State.resetBegin`. -/
theorem resetsEnd : Obligations.ResetsEnd := by
  unfold Obligations.ResetsEnd
  refine ⟨fun q s hon hr hw => ?_, fun page p s hp hf hu hg hr hw ha => ?_⟩
  · have hgo : (s.begin.resetOn q && s.begin.restored q) = true := by
      change (s.resetOn q && s.restored q) = true
      rw [hon, hr]
      rfl
    exact ⟨_, congrArg Host.Outcome.next (if_pos hgo), resetReturn_effect s.begin q hw⟩
  · let t := (s.begin.emit (.cpDone false)).setUnlocked p false
    have hask : t.askReset p.part = t.resetBegin p.part := by
      obtain ⟨-, hreset, -⟩ := free_parts s p hf
      have h1 : ¬ (t.resetOn p.part = true ∨ .glob ∈ t.regs.resetting ∨ .glob ∈ t.regs.resetWait) := by
        change ¬ (s.resetOn p.part = true ∨ .glob ∈ s.regs.resetting ∨ .glob ∈ s.regs.resetWait)
        simp [hreset, hr, hw]
      have h2 : ¬ (p.part = .glob ∧ t.regs.resetting.isEmpty = false) := fun h => hg h.1
      unfold State.askReset
      rw [if_neg h1, if_neg h2]
    have hthrough := through_locked s.begin p 0x1C 1 (fun s => (s.askReset p.part).settle) { off := 0x1C, l := 1, w1s := 1 } rfl
      hf (by decide) (by decide) hu rfl rfl ha
    refine ⟨t.resetBegin p.part, ?_, resetBegin_inReset t p (mem_partPages _ p hp) hg ha⟩
    change execPgReset page s = _
    unfold execPgReset
    simp only [hp, hthrough]
    exact congrArg (fun u : State => Host.Outcome.next u.settle) hask

end Sys2Proof.Machine
end

section
/-! PROOFS. The pair engine: what follows a change of the link, the role or READY leaves of it (R178, R179, R320), and the end of
a session. -/
namespace Sys2Proof.Machine

/-! ### What follows a change -/

/-- The record of the pair, but for what a fall of the link freezes and for the nonces of STATUS. -/
def Pair.core (p : Pair) : Pair := { p with frzL := 0, frzN := 0, nonces := [] }
/-- The same, but for the queue of LEASE items and for what a takeover or a yield notes. -/
def Pair.steady (p : Pair) : Pair :=
  { p.core with qLease := [], yieldFlag := false, promoWait := false, exposed := [], unseen := [] }
/-- The counts of events that no commit of a lease counts on. -/
def State.tally (s : State) : Nat → Nat := fun n => if 140 ≤ n ∧ n ≠ 235 then s.counted n else 0
theorem tally_evt (s : State) (n k : Nat) (h : n < 140 ∨ n = 235) : (s.evt n k).tally = s.tally := by
  funext m
  unfold State.tally
  split
  · exact counted_evt_ne s n k m (by omega)
  · rfl
/-- An event counted beside the commits of leases is one whose count they leave. -/
theorem counted_of_tally (s t : State) (n : Nat) (hn : 140 ≤ n ∧ n ≠ 235) (h : t.tally = s.tally) : t.counted n = s.counted n := by
  have := congrFun h n
  simpa only [State.tally, hn, and_self, if_true, ne_eq, not_false_eq_true] using this

/-- The registers, the record of the pair and the counts, as far as the commits of leases leave them. -/
def State.face (s : State) := (s.regs, s.pair.core, s.tally)
/-- The same, as far as requests of leases leave it too. -/
def State.look (s : State) := (s.regs, s.pair.steady, s.tally)
theorem look_of_face (s t : State) (h : t.face = s.face) : t.look = s.look :=
  congrArg (fun x => (x.1, Pair.steady x.2.1, x.2.2)) h

theorem evt_face (s : State) (n k : Nat) (h : n < 140 ∨ n = 235) : (s.evt n k).face = s.face :=
  congrArg (fun f => (s.regs, s.pair.core, f)) (tally_evt s n k h)
theorem modCh_face (s : State) (f : Chans → Chans) : (s.modCh f).face = s.face := rfl
theorem modLease_face (s : State) (f : Lease → Lease) : (s.modLease f).face = s.face := rfl
theorem modSlot_face (s : State) (v : Nat) (f : Slot → Slot) : (s.modSlot v f).face = s.face := rfl
theorem lcause_face (s : State) (c : LCause) : (s.evt c.evt 1).face = s.face :=
  evt_face s _ 1 (.inl (lt_of_le_of_lt (lcause_evt_range c).2 (by decide)))
theorem cannot_face (s : State) (v : Nat) (c : LCause) : (s.cannot v c).face = s.face := by
  unfold State.cannot
  dsimp only
  split
  · exact (lcause_face _ c).trans (modSlot_face s v _)
  · exact (lcause_face _ c).trans (modSlot_face s v _)
  · exact modSlot_face s v _
theorem commitOne_face (s : State) (v : Nat) (w : LWait) (b : Bool) : (s.commitOne v w b).face = s.face := by
  unfold State.commitOne
  extract_lets o t u
  have ht : t.face = s.face := rfl
  have hu : u.face = t.face := by
    refine when_keeps State.face _ (fun s => ?_) _ _
    exact lcause_face s _
  have hend : ((u.evt 128 1).when b (·.evt 138 1)).face = (u.evt 128 1).face := by
    refine when_keeps State.face _ (fun s => ?_) _ _
    exact evt_face s _ _ (by decide)
  exact hend.trans ((evt_face u 128 1 (by decide)).trans (hu.trans ht))
theorem tryCommit_face (k : Nat) (s : State) (v : Nat) : (State.tryCommit k s v).face = s.face := by
  induction k generalizing s with
  | zero => rfl
  | succ k ih =>
    rw [State.tryCommit]
    split
    · rfl
    · split
      · rfl
      · split
        · exact (ih _).trans (commitOne_face s v _ _)
        · split
          · split
            · exact (ih _).trans (commitOne_face s v _ _)
            · exact (cannot_face _ v _).trans (modLease_face s _)
          · rfl
theorem blindHold_face (s : State) (v : Nat) : (s.blindHold v).face = s.face := by
  unfold State.blindHold
  dsimp only
  split
  · exact (evt_face _ _ _ (by decide)).trans (modSlot_face s v _)
  · rfl
theorem sendStatus_face (s : State) : s.sendStatus.face = s.face := by
  unfold State.sendStatus
  (repeat' split) <;> rfl
/-- Freezing, commits, holds and STATUS leave the registers, the record of the pair and the counts (R179, R320). -/
theorem pairSince_face (t s : State) : (t.pairSince s).face = t.face := by
  unfold State.pairSince
  extract_lets u v
  have hu : u.face = t.face := by
    simp only [u]
    split <;> rfl
  have hv : v.face = u.face := by
    simp only [v]
    split
    · rfl
    · exact (forEach_keeps State.face _ blindHold_face _ _).trans
        (forEach_keeps State.face _ (fun s v => tryCommit_face 4 s v) _ _)
  split
  · exact hv.trans hu
  · exact (sendStatus_face v).trans (hv.trans hu)
theorem pairDo_face (s : State) (f : State → State) : (s.pairDo f).face = (f s).face := pairSince_face _ _

/-- A flag of a register as the registers alone show it. -/
theorem flag_of_regs (s t : State) (p : Page) (off n : Nat) (h : t.regs = s.regs) : t.flag p off n = s.flag p off n := by
  unfold State.flag State.stickyW
  rw [h]

/-! ### Requests of leases -/

theorem mirrorLease_look (s : State) (x : Nat) (b v : Bool) (tag : W32) (c : Nat) : (s.mirrorLease x b v tag c).look = s.look := by
  unfold State.mirrorLease
  refine when_keeps State.look _ (fun s => ?_) _ _
  rfl
theorem makeRequest_look (s : State) (x v c : Nat) : (s.makeRequest x v c).look = s.look := mirrorLease_look _ _ _ _ _ _
theorem cannot_look (s : State) (v : Nat) (c : LCause) : (s.cannot v c).look = s.look := look_of_face _ _ (cannot_face s v c)
theorem requestNext_look (s : State) (v : Nat) : (s.requestNext v).look = s.look := by
  unfold State.requestNext
  split
  · rfl
  · split
    · rfl
    · dsimp only
      split
      · exact cannot_look s v _
      · exact makeRequest_look s _ v _
theorem startLease_look (s : State) (v : Nat) : (s.startLease v).look = s.look := by
  unfold State.startLease
  split
  · rfl
  · split
    · rfl
    · dsimp only
      split
      · exact cannot_look s v _
      · split
        · exact makeRequest_look s _ v _
        · split
          · exact (cannot_look _ v _).trans (makeRequest_look s _ v _)
          · exact (makeRequest_look _ _ v _).trans (makeRequest_look s _ v _)
theorem clearCause_look (s : State) (c : LCause) (v : Nat) : (s.clearCause c v).look = s.look := by
  unfold State.clearCause
  dsimp only
  split
  · split
    · split
      · rfl
      · exact (requestNext_look _ v).trans rfl
    · split
      · rfl
      · exact (requestNext_look _ v).trans rfl
    · rfl
  · rfl
theorem ackCeil_look (s : State) (v c : Nat) : (s.ackCeil v c).look = s.look := by
  unfold State.ackCeil
  exact (clearCause_look _ _ _).trans ((look_of_face _ _ (tryCommit_face 4 _ v)).trans rfl)
theorem yieldCheck_look (s : State) : s.yieldCheck.look = s.look := by
  unfold State.yieldCheck
  dsimp only
  split <;> rfl
/-- An acknowledgement drops the messages that it covers. -/
theorem ackGot_look (s : State) (a : Nat) (hr : s.pair.role = .active) :
    (s.ackGot a).look = (s.modPair (fun p => { p with
      sentLease := p.sentLease.filter (fun q => decide (a < q.1)), sentSeqs := p.sentSeqs.filter (fun q => decide (a < q)) })).look := by
  unfold State.ackGot
  rw [if_neg (not_not_intro hr)]
  refine (yieldCheck_look _).trans (forEach_keeps State.look _ (fun s q => ?_) _ _)
  split
  · dsimp only
    split
    · exact ackCeil_look s _ _
    · rfl
  · rfl

/-! ### The end of a session (R318) -/

theorem refloor_face (s : State) : s.refloor.face = s.face := by
  refine forEach_keeps State.face _ (fun s m => ?_) _ _
  split <;> rfl
/-- What ends with a session. -/
theorem sessionEnd_effect (s : State) :
    s.sessionEnd.pair.session = none ∧ s.sessionEnd.pair.peerLost = s.pair.peerLost ∧ s.sessionEnd.regs = s.regs ∧
    (∀ n, n ≠ 227 → 140 ≤ n ∧ n ≠ 235 → s.sessionEnd.counted n = s.counted n) ∧
    s.sessionEnd.counted 227 = s.counted 227 + b2n s.pair.session.isSome := by
  unfold State.sessionEnd
  split
  · next h => exact ⟨h, rfl, rfl, fun _ _ _ => rfl, by rw [h]; rfl⟩
  · next q h =>
    extract_lets t u v
    have ht : t.face = s.face := refloor_face s
    have hend := yieldCheck_look (v.evt 227 1)
    have hpair : (v.evt 227 1).yieldCheck.pair.steady = v.pair.steady := congrArg (·.2.1) hend
    have hregs : t.regs = s.regs := congrArg (·.1) ht
    have htally : t.tally = s.tally := congrArg (·.2.2) ht
    have hcore : t.pair.core = s.pair.core := congrArg (·.2.1) ht
    have hlost : t.pair.peerLost = s.pair.peerLost := (congrArg Pair.peerLost hcore :)
    have hlost' : (v.evt 227 1).yieldCheck.pair.peerLost = v.pair.peerLost := (congrArg Pair.peerLost hpair :)
    refine ⟨(congrArg Pair.session hpair :), hlost'.trans hlost,
      (congrArg (·.1) hend).trans hregs, fun n h7 hn => ?_, ?_⟩
    · rw [counted_of_tally _ _ n hn (congrArg (·.2.2) hend), counted_evt_ne _ _ _ _ h7]
      exact counted_of_tally _ _ n hn htally
    · rw [counted_of_tally _ _ 227 (by decide) (congrArg (·.2.2) hend), counted_evt, h]
      exact congrArg (· + 1) (counted_of_tally _ _ 227 (by decide) htally)

end Sys2Proof.Machine
end

section
/-! PROOFS. The session with the peer (R54, R316 to R318, R325). -/
namespace Sys2Proof.Machine

/-- The loss of the peer ends the session, and is flagged and counted once (R325). -/
theorem peerLose_effect (s : State) (h : s.pair.peerLost = false) :
    s.peerLose.pair.peerLost = true ∧ s.peerLose.pair.session = none ∧ s.peerLose.flag .pair 0x40 2 = true ∧
    s.peerLose.counted 228 = s.counted 228 + 1 := by
  unfold State.peerLose
  simp only [h, Bool.false_eq_true, if_false]
  obtain ⟨hs, hl, hr, hc, -⟩ :=
    sessionEnd_effect (((s.modPair (fun p => { p with peerLost := true })).setFlag .pair 0x40 2).evt 228 1)
  refine ⟨hl, hs, ?_, (hc 228 (by decide) (by decide)).trans (counted_evt _ 228 1)⟩
  rw [flag_of_regs _ _ _ _ _ hr]
  exact flag_setFlag (s.modPair _) .pair 0x40 2 (by decide)
/-- What a commit of leases leaves after it. -/
theorem pairDo_effect (s : State) (f : State → State) :
    (s.pairDo f).regs = (f s).regs ∧ (s.pairDo f).pair.core = (f s).pair.core ∧
    ∀ n, 140 ≤ n ∧ n ≠ 235 → (s.pairDo f).counted n = (f s).counted n := by
  have h := pairDo_face s f
  exact ⟨congrArg (·.1) h, congrArg (·.2.1) h, fun n hn => counted_of_tally _ _ n hn (congrArg (·.2.2) h)⟩
theorem pairDo_peerLose (s : State) (h : s.pair.peerLost = false) :
    (s.pairDo (·.peerLose)).pair.peerLost = true ∧ (s.pairDo (·.peerLose)).pair.session = none ∧
    (s.pairDo (·.peerLose)).flag .pair 0x40 2 = true ∧ (s.pairDo (·.peerLose)).counted 228 = s.counted 228 + 1 := by
  obtain ⟨hr, hp, hc⟩ := pairDo_effect s (·.peerLose)
  obtain ⟨hl, hs, hf, hn⟩ := peerLose_effect s h
  exact ⟨(congrArg Pair.peerLost hp :).trans hl, (congrArg Pair.session hp :).trans hs, (flag_of_regs _ _ _ _ _ hr).trans hf,
    (hc 228 (by decide)).trans hn⟩

/-! ### A session comes up (R316, R318) -/

/-- What names a session: its identifier and its keys. -/
def Session.name (q : Session) := (q.sid, q.keyTx, q.keyRx)
theorem sendPair_session (s : State) (ty : Nat) (body : Bytes) :
    (s.sendPair ty body).pair.session.map Session.name = s.pair.session.map Session.name ∧
    (s.sendPair ty body).pair.peerLost = s.pair.peerLost ∧ (s.sendPair ty body).cnt = s.cnt := by
  unfold State.sendPair
  split
  · exact ⟨rfl, rfl, rfl⟩
  · next q h =>
    split
    · exact ⟨by rw [h]; rfl, rfl, rfl⟩
    · exact ⟨rfl, rfl, rfl⟩
theorem syncStart_session (s : State) :
    s.syncStart.pair.session.map Session.name = s.pair.session.map Session.name ∧
    s.syncStart.pair.peerLost = s.pair.peerLost ∧ s.syncStart.cnt = s.cnt := by
  unfold State.syncStart State.syncCheck
  split
  · dsimp only
    split
    · exact sendPair_session _ _ _
    · exact ⟨rfl, rfl, rfl⟩
  · exact ⟨rfl, rfl, rfl⟩
/-- The session that two nonces make. -/
def State.newSession (s : State) (k : Bytes) (d : W128) : Session :=
  { sid := BitVec.ofNat 32 (ofBe ((ofBlock d).take 4)), keyTx := sessionKey k d s.pairUnit,
    keyRx := sessionKey k d (1 - s.pairUnit), txSeq := 0, rxSeq := 0 }
theorem sessionUp_effect (s : State) (own peer : W128) (k : Bytes) (hk : s.pair.pk = some k) :
    (s.sessionUp own peer).pair.session.map Session.name = some (s.newSession k (own ^^^ peer)).name ∧
    (s.sessionUp own peer).pair.peerLost = false ∧ (s.sessionUp own peer).counted 226 = s.counted 226 + 1 := by
  unfold State.sessionUp
  rw [hk]
  dsimp only
  obtain ⟨hs, hl, hc⟩ := syncStart_session ((s.modPair (fun p => { p with
    session := some (s.newSession k (own ^^^ peer)), peerLost := false })).evt 226 1)
  exact ⟨hs, hl, (counted_acc _ _ _ (congrArg Counts.acc hc)).trans (counted_evt _ 226 1)⟩
theorem sessionEnd_none (s : State) (h : s.pair.session = none) : s.sessionEnd = s := by
  unfold State.sessionEnd
  rw [h]
/-- A HELLO that echoes the unit's nonce, with no session up. -/
theorem helloGot_echo (s : State) (m : Bytes) (hs : s.pair.session = none)
    (hn : s.pair.nonce = some (blockOf (slice m 40 16))) :
    s.helloGot m = (s.modPair (fun p => { p with echo := blockOf (slice m 24 16) })).sessionUp (blockOf (slice m 40 16))
      (blockOf (slice m 24 16)) := by
  have hn' : (s.modPair (fun p => { p with echo := blockOf (slice m 24 16) })).pair.nonce = some (blockOf (slice m 40 16)) := hn
  unfold State.helloGot
  simp only [sessionEnd_none s hs, hn', if_true]
/-- A message that passes its checks is acted on. -/
theorem pairRx_ok (s : State) (ty : Nat) (m : Bytes) (act : State → State) (hl : s.pairListens = true)
    (hc : s.rxCheck ty m = .ok) : s.pairRx ty m act = (s.pairDo (fun s => act (s.noteHeader ty m))).settle := by
  unfold State.pairRx
  simp only [hl, hc, if_true]
theorem exec_hello (m k : Bytes) (s : State) (hl : s.pairListens = true) (hc : s.rxCheck 0x01 m = .ok)
    (hs : s.pair.session = none) (hn : s.pair.nonce = some (blockOf (slice m 40 16))) (hk : s.pair.pk = some k) :
    ∃ (u : State) (q : Session), exec (.hello m) s = .next u.settle ∧ u.pair.session = some q ∧
      q.name = (s.newSession k (blockOf (slice m 40 16) ^^^ blockOf (slice m 24 16))).name ∧
      u.pair.peerLost = false ∧ u.counted 226 = s.counted 226 + 1 := by
  have hhello := helloGot_echo (s.begin.noteHeader 0x01 m) m hs hn
  obtain ⟨hup, hlost, hcount⟩ := sessionUp_effect
    ((s.begin.noteHeader 0x01 m).modPair (fun p => { p with echo := blockOf (slice m 24 16) })) (blockOf (slice m 40 16))
    (blockOf (slice m 24 16)) k hk
  rw [← hhello] at hup hlost hcount
  obtain ⟨-, hp, hc'⟩ := pairDo_effect s.begin (fun s => (s.noteHeader 0x01 m).helloGot m)
  have hsess : (s.begin.pairDo (fun s => (s.noteHeader 0x01 m).helloGot m)).pair.session =
      ((s.begin.noteHeader 0x01 m).helloGot m).pair.session := (congrArg Pair.session hp :)
  obtain ⟨q, hq, hname⟩ := Option.map_eq_some_iff.mp hup
  exact ⟨_, q, congrArg Host.Outcome.next (pairRx_ok s.begin 0x01 m (·.helloGot m) hl hc), hsess.trans hq, hname,
    (congrArg Pair.peerLost hp :).trans hlost, (hc' 226 (by decide)).trans hcount⟩

/-! ### HELLO and bad messages -/

/-- A HELLO under a nonce that has been drawn. -/
theorem sendHello_of_nonce (s : State) (k : Bytes) (n : W128) (ho : s.pairOn = true) (hk : s.pair.pk = some k)
    (hn : s.pair.nonce = some n) :
    s.sendHello = s.emit (.pp (
      let m := s.pairHeader 1 72 0 0 ++ ofBlock n ++ ofBlock s.pair.echo
      m ++ gmac k ((ofBlock n).take 12) m)) := by
  have hd : s.drawNonce = s := by
    unfold State.drawNonce
    simp only [hn]
  unfold State.sendHello
  simp only [ho, if_true, hd, hk, hn]
/-- HELLO touches no session and no count. -/
theorem sendHello_session (s : State) : s.sendHello.pair.session = s.pair.session ∧ s.sendHello.cnt = s.cnt := by
  have hd : s.drawNonce.pair.session = s.pair.session ∧ s.drawNonce.cnt = s.cnt := by
    unfold State.drawNonce
    split <;> exact ⟨rfl, rfl⟩
  unfold State.sendHello
  split
  · dsimp only
    split <;> exact hd
  · exact ⟨rfl, rfl⟩
/-- A message that is wrong in SEQ alone ends the session (R317). -/
theorem rxBad_seq (s : State) (h : s.pair.session.isSome = true) :
    (s.rxBad true).pair.session = none ∧ (s.rxBad true).counted 224 = s.counted 224 + 1 ∧
    (s.rxBad true).counted 227 = s.counted 227 + 1 := by
  obtain ⟨hs, -, -, hc, h7⟩ := sessionEnd_effect (s.evt 224 1)
  obtain ⟨hsess, hcnt⟩ := sendHello_session (s.evt 224 1).sessionEnd
  have hcount : ∀ n, (s.rxBad true).counted n = (s.evt 224 1).sessionEnd.counted n := fun n =>
    counted_acc _ _ n (congrArg Counts.acc hcnt)
  have hsome : b2n (s.evt 224 1).pair.session.isSome = 1 := congrArg b2n h
  refine ⟨hsess.trans hs, ?_, ?_⟩
  · rw [hcount, hc 224 (by decide) (by decide), counted_evt]
  · rw [hcount, h7, hsome, counted_evt_ne _ _ _ _ (by decide)]

/-- Settles O42, clause by clause. -/
theorem peerHeardAndLost : Obligations.PeerHeardAndLost := by
  unfold Obligations.PeerHeardAndLost
  refine ⟨fun s hl c hc => ?_, fun m k s hl hc hs hn hk => ?_, fun k n s ho hr hs hk hn => ?_, fun b s hl => ?_, fun s hl => ?_,
    fun s hl hs => ?_⟩
  · obtain rfl | rfl : c = .ppLinkDown ∨ c = .peerLost := by simpa using hc
    all_goals exact ⟨_, rfl, pairDo_peerLose s.begin hl⟩
  · obtain ⟨u, q, he, hq, hname, hlost, hcount⟩ := exec_hello m k s hl hc hs hn hk
    simp only [Session.name, Prod.mk.injEq] at hname
    obtain ⟨hsid, htx, hrx⟩ := hname
    exact ⟨u, q, he, hq, hsid, htx, hrx, hlost, hcount⟩
  · have hgo : (s.begin.pair.session.isNone && !s.begin.resetOn .pair) = true := by
      change (s.pair.session.isNone && !s.resetOn .pair) = true
      rw [hs, hr]
      rfl
    exact congrArg Host.Outcome.next ((if_pos hgo).trans (sendHello_of_nonce s.begin k n ho hk hn))
  · have hl' : ¬ (!s.begin.pairListens) = true := by
      change ¬ (!s.pairListens) = true
      simp [hl]
    exact ⟨_, congrArg Host.Outcome.next ((if_neg hl').trans (if_pos rfl)), rfl, counted_evt _ 225 1⟩
  · have hl' : ¬ (!s.begin.pairListens) = true := by
      change ¬ (!s.pairListens) = true
      simp [hl]
    exact ⟨_, congrArg Host.Outcome.next ((if_neg hl').trans rfl), rfl, counted_evt _ 224 1⟩
  · have hl' : ¬ (!s.begin.pairListens) = true := by
      change ¬ (!s.pairListens) = true
      simp [hl]
    have hs' : (true && s.begin.pair.session.isSome) = true := by
      change (true && s.pair.session.isSome) = true
      rw [hs]
      rfl
    obtain ⟨-, hp, hc⟩ := pairDo_effect s.begin (·.rxBad true)
    obtain ⟨hnone, h4, h7⟩ := rxBad_seq s.begin hs
    have hsess : (s.begin.pairDo (·.rxBad true)).pair.session = (s.begin.rxBad true).pair.session := (congrArg Pair.session hp :)
    refine ⟨s.begin.pairDo (·.rxBad true), ?_, hsess.trans hnone, (hc 224 (by decide)).trans h4, (hc 227 (by decide)).trans h7⟩
    change execPairRxBad false true s = _
    unfold execPairRxBad
    dsimp only
    rw [if_neg hl', if_neg (by decide), if_pos hs']

end Sys2Proof.Machine
end

section
/-! PROOFS. The roles and the arbiter (R320, R323, R324, R334). -/
namespace Sys2Proof.Machine

/-! ### Promotion (R334) -/

theorem promoSlot_look (s : State) (v : Nat) : (s.promoSlot v).look = s.look := by
  unfold State.promoSlot
  split
  · rfl
  · dsimp only
    split
    · exact (startLease_look _ v).trans rfl
    · split
      · exact (startLease_look _ v).trans rfl
      · refine (look_of_face _ _ (evt_face _ 235 1 (by decide))).trans ((look_of_face _ _ (evt_face _ 134 1 (by decide))).trans ?_)
        exact look_of_face _ _ ((modSlot_face _ v _).trans ((modSlot_face _ v _).trans (modSlot_face _ v _)))
theorem promoLeases_look (s : State) : s.promoLeases.look = s.look := by
  unfold State.promoLeases
  split
  · exact (forEach_keeps State.look _ promoSlot_look _ _).trans rfl
  · rfl
theorem loseNow_look (s : State) : s.loseNow.look = s.look := by
  refine forEach_keeps State.look _ (fun s p => ?_) _ _
  split
  · refine when_keeps State.look _ (fun s => ?_) _ _
    rfl
  · rfl
/-- The record of the pair as a promotion leaves it, and what it flags and counts (R323, R334). -/
theorem promote_effect (s : State) (prev : BitVec 2) :
    (s.promote prev).pair.role = .active ∧ (s.promote prev).pair.granted = true ∧
    (s.promote prev).pair.epoch = s.pair.epoch ∧ (s.promote prev).flag .pair 0x40 4 = true ∧
    (s.promote prev).counted 229 = s.counted 229 + 1 := by
  unfold State.promote
  extract_lets add t u
  have hu : u.look = t.look := by
    have he : u.look = t.promoLeases.loseNow.look := rfl
    exact he.trans ((loseNow_look _).trans (promoLeases_look t))
  have hp : u.pair.steady = t.pair.steady := congrArg (·.2.1) hu
  have hcount : u.counted 229 = t.counted 229 := counted_of_tally _ _ 229 (by decide) (congrArg (·.2.2) hu)
  clear_value u
  refine ⟨(congrArg Pair.role hp :), (congrArg Pair.granted hp :), (congrArg Pair.epoch hp :), flag_setFlag u .pair 0x40 4 (by decide), ?_⟩
  rw [counted_evt]
  exact congrArg (· + 1) hcount

/-! ### Grants (R320, R324) -/

/-- The record of an accepted GRANT, before what it does to the role. -/
def State.granting (s : State) (m : Bytes) : State :=
  s.modPair (fun p => { p with
    epoch := BitVec.ofNat 32 (ofBe (slice m 4 4)), holder := BitVec.ofNat 2 ((byteAt m 2).toNat % 4), heard := true,
    arbLost := false, holderNone := false, linkAck := decide ((byteAt m 3).toNat % 2 = 1) })
theorem grantTake_none (s : State) (m : Bytes) (h : (byteAt m 2).toNat % 4 = 3) :
    s.grantTake m = (s.granting m).grantNone := by
  unfold State.grantTake
  exact if_pos h
theorem pairUnit_lt (s : State) : s.pairUnit < 2 := Nat.mod_lt _ (by decide)
theorem grantTake_self (s : State) (m : Bytes) (h : (byteAt m 2).toNat % 4 = s.pairUnit) :
    s.grantTake m = (s.granting m).grantSelf (BitVec.ofNat 2 ((byteAt m 3).toNat / 2 % 4)) := by
  have h3 : ¬ (byteAt m 2).toNat % 4 = 3 := by have := pairUnit_lt s; omega
  unfold State.grantTake
  exact (if_neg h3).trans (if_pos h)
theorem grantTake_peer (s : State) (m : Bytes) (h : (byteAt m 2).toNat % 4 = 1 - s.pairUnit) :
    s.grantTake m = (s.granting m).grantPeer (decide (s.pair.epoch.toNat < ofBe (slice m 4 4))) := by
  have h3 : ¬ (byteAt m 2).toNat % 4 = 3 := by omega
  have hs : ¬ (byteAt m 2).toNat % 4 = s.pairUnit := by omega
  unfold State.grantTake
  exact (if_neg h3).trans (if_neg hs)
/-- A grant that names a unit which may take the role promotes it. -/
theorem grantSelf_promote (s : State) (prev : BitVec 2)
    (h : (s.pair.role = .standby ∧ s.pair.ready = true) ∨ (s.pair.role = .seek ∧ (s.pairPrimary || s.pair.ready) = true)) :
    s.grantSelf prev = s.promote prev := by
  unfold State.grantSelf
  rcases h with ⟨hr, hq⟩ | ⟨hr, hq⟩
  · rw [hr]
    exact if_pos hq
  · rw [hr]
    exact if_pos hq
theorem sendPair_role (s : State) (ty : Nat) (body : Bytes) :
    (s.sendPair ty body).pair.role = s.pair.role ∧ (s.sendPair ty body).pair.granted = s.pair.granted ∧
    (s.sendPair ty body).pair.ready = s.pair.ready ∧ (s.sendPair ty body).regs = s.regs ∧ (s.sendPair ty body).cnt = s.cnt := by
  unfold State.sendPair
  split
  · exact ⟨rfl, rfl, rfl, rfl, rfl⟩
  · split <;> exact ⟨rfl, rfl, rfl, rfl, rfl⟩
/-- A unit whose peer is named is STANDBY without a grant, from SEEK or, at a higher EPOCH, from ACTIVE (R323). -/
theorem grantPeer_effect (s : State) (higher : Bool) (h : s.pair.role = .seek ∨ (s.pair.role = .active ∧ higher = true)) :
    (s.grantPeer higher).pair.role = .standby ∧ (s.grantPeer higher).pair.granted = false := by
  unfold State.grantPeer
  extract_lets t
  have ht : t.pair.role = s.pair.role := rfl
  have hg : t.pair.granted = false := rfl
  clear_value t
  rcases h with hr | ⟨hr, hh⟩
  · rw [ht, hr]
    dsimp only
    obtain ⟨hrole, hgr, -⟩ := sendPair_role ((t.modPair (fun p => { p with role := .standby })).modPair (fun p => { p with
      gotHalves := [], gotChans := [], syncEnd := none })) 0x06 []
    exact ⟨hrole, hgr.trans hg⟩
  · rw [ht, hr, hh]
    dsimp only
    obtain ⟨hrole, hgr, -⟩ := sendPair_role ((((t.leaveActive .standby).setFlag .pair 0x40 5).evt 230 1).modPair (fun p => { p with
      gotHalves := [], gotChans := [], syncEnd := none })) 0x06 []
    exact ⟨hrole, hgr⟩
theorem exec_grant (m : Bytes) (s : State) (ho : s.pairOn = true) (hg : s.grantOk m = true) :
    exec (.grant m) s = .next (s.begin.pairDo (·.grantTake m)).settle :=
  congrArg Host.Outcome.next ((if_pos ho).trans (if_pos hg))

/-- Settles O45, clause by clause. -/
theorem grantsObeyed : Obligations.GrantsObeyed := by
  unfold Obligations.GrantsObeyed
  refine ⟨fun m s ho hg hh => ?_, fun m s ho hg hh hr => ?_, fun m s ho hg hh hr => ?_, fun m s ho hg => ?_, fun s ho => ?_,
    fun s => ?_⟩
  · obtain ⟨-, hp, -⟩ := pairDo_effect s.begin (·.grantTake m)
    rw [grantTake_none s.begin m hh] at hp
    exact ⟨_, exec_grant m s ho hg, (congrArg Pair.role hp :), (congrArg Pair.granted hp :), (congrArg Pair.epoch hp :),
      (congrArg Pair.heard hp :), (congrArg Pair.arbLost hp :)⟩
  · obtain ⟨hregs, hp, hc⟩ := pairDo_effect s.begin (·.grantTake m)
    have hself := (grantTake_self s.begin m hh).trans (grantSelf_promote (s.begin.granting m) _ hr)
    obtain ⟨prole, pgr, pep, pflag, pcount⟩ := promote_effect (s.begin.granting m) (BitVec.ofNat 2 ((byteAt m 3).toNat / 2 % 4))
    rw [hself] at hp hregs
    refine ⟨_, exec_grant m s ho hg, (congrArg Pair.role hp :).trans prole, (congrArg Pair.granted hp :).trans pgr,
      (congrArg Pair.epoch hp :).trans pep, (flag_of_regs _ _ _ _ _ hregs).trans pflag, ?_⟩
    rw [hc 229 (by decide), hself]
    exact pcount
  · obtain ⟨-, hp, -⟩ := pairDo_effect s.begin (·.grantTake m)
    rw [grantTake_peer s.begin m hh] at hp
    have hr' : (s.begin.granting m).pair.role = .seek ∨ ((s.begin.granting m).pair.role = .active ∧
        decide (s.begin.pair.epoch.toNat < ofBe (slice m 4 4)) = true) := hr.imp id (fun h => ⟨h.1, decide_eq_true h.2⟩)
    obtain ⟨hrole, hgr⟩ := grantPeer_effect (s.begin.granting m) _ hr'
    exact ⟨_, exec_grant m s ho hg, (congrArg Pair.role hp :).trans hrole, (congrArg Pair.granted hp :).trans hgr⟩
  · have hg' : ¬ s.begin.grantOk m = true := by
      change ¬ s.grantOk m = true
      simp [hg]
    exact ⟨_, congrArg Host.Outcome.next ((if_pos ho).trans (if_neg hg')), rfl, counted_evt _ 225 1⟩
  · exact congrArg Host.Outcome.next (if_pos ho)
  · obtain ⟨-, hp, -⟩ := pairDo_effect s.begin (·.modPair (fun p => { p with reqHold := false }))
    exact ⟨_, rfl, (congrArg Pair.reqHold hp :), (congrArg Pair.role hp :)⟩

end Sys2Proof.Machine
end

section
/-! PROOFS. The messages that the pair engine sends and takes, and PAIR_CMD (R316 to R331, R336). -/
namespace Sys2Proof.Machine

/-! ### Messages that go out -/

theorem leBytes_length (n v : Nat) : (leBytes n v).length = n := by
  induction n generalizing v with
  | zero => rfl
  | succ n ih => exact congrArg (· + 1) (ih (v / 256))
theorem beBytes_length (n v : Nat) : (beBytes n v).length = n := by
  unfold beBytes
  rw [List.length_reverse, leBytes_length]

/-- The bytes of a message of the session. -/
def State.pairMsg (s : State) (ty : Nat) (q : Session) (body : Bytes) : Bytes :=
  let m := s.pairHeader ty (40 + body.length) q.sid (q.txSeq + 1) ++ body
  m ++ gmac q.keyTx (sessionIv q.sid (q.txSeq + 1)) m
/-- With a session up a message goes out with the next SEQ. -/
theorem sendPair_up (s : State) (ty : Nat) (body : Bytes) (q : Session) (hq : s.pair.session = some q) (ho : s.pairOn = true) :
    s.sendPair ty body = (s.modPair (fun p => { p with session := some { q with txSeq := q.txSeq + 1 } })).emit
      (.pp (s.pairMsg ty q body)) := by
  unfold State.sendPair
  rw [hq]
  exact if_pos ho
theorem exec_beatTimer (s : State) (q : Session) (ho : s.pairOn = true) (hr : s.resetOn .pair = false)
    (hq : s.pair.session = some q) :
    exec .beatTimer s = .next { s with
      out := [.pp (
        let m := s.pairHeader 0x02 48 q.sid (q.txSeq + 1) ++ beBytes 8 s.ackNow
        m ++ gmac q.keyTx (sessionIv q.sid (q.txSeq + 1)) m)]
      pair := { s.pair with session := some { q with txSeq := q.txSeq + 1 } } } := by
  have hr' : ¬ s.begin.resetOn .pair = true := Bool.eq_false_iff.mp hr
  have hsend := sendPair_up s.begin 0x02 (beBytes 8 s.begin.ackNow) q hq ho
  unfold State.pairMsg at hsend
  rw [beBytes_length] at hsend
  exact congrArg Host.Outcome.next ((if_neg hr').trans hsend)
theorem exec_healthTimer (s : State) (q : Session) (ho : s.pairOn = true) (hr : s.resetOn .pair = false)
    (hq : s.pair.session = some q) (hs : s.pair.role = .standby) :
    exec .healthTimer s = .next { s with
      out := [.pp (
        let m := s.pairHeader 0x03 (40 + s.healthBody.length) q.sid (q.txSeq + 1) ++ s.healthBody
        m ++ gmac q.keyTx (sessionIv q.sid (q.txSeq + 1)) m)]
      pair := { s.pair with session := some { q with txSeq := q.txSeq + 1 } } } := by
  have hgo : (decide (s.begin.pair.role = .standby) && !s.begin.resetOn .pair) = true := by
    change (decide (s.pair.role = .standby) && !s.resetOn .pair) = true
    rw [hr, hs]
    rfl
  exact congrArg Host.Outcome.next ((if_pos hgo).trans (sendPair_up s.begin 0x03 s.begin.healthBody q hq ho))

/-- What the end of a sync leaves of the mirror's record. -/
theorem syncCheck_keeps (s : State) :
    (∀ k, s.syncCheck.pair.queue k = s.pair.queue k) ∧ s.syncCheck.pair.sentSeqs = s.pair.sentSeqs ∧
    s.syncCheck.cnt = s.cnt ∧ ∀ e ∈ s.out, e ∈ s.syncCheck.out := by
  unfold State.syncCheck State.sendPair
  dsimp only
  split
  · split
    · exact ⟨fun k => by cases k <;> rfl, rfl, rfl, fun e h => h⟩
    · split
      · exact ⟨fun k => by cases k <;> rfl, rfl, rfl, fun e h => List.mem_append_left _ h⟩
      · exact ⟨fun k => by cases k <;> rfl, rfl, rfl, fun e h => h⟩
  · exact ⟨fun k => rfl, rfl, rfl, fun e h => h⟩
theorem queue_setQueue (p : Pair) (k : MirKind) (l : List MItem) : (p.setQueue k l).queue k = l := by cases k <;> rfl
theorem setQueue_keeps (p : Pair) (k : MirKind) (l : List MItem) :
    (p.setQueue k l).session = p.session ∧ (p.setQueue k l).sentSeqs = p.sentSeqs ∧ (p.setQueue k l).role = p.role ∧
    (p.setQueue k l).cfgSet = p.cfgSet := by cases k <;> exact ⟨rfl, rfl, rfl, rfl⟩
theorem mirrors_of_session (s : State) (q : Session) (hq : s.pair.session = some q) (hr : s.pair.role = .active) :
    s.mirrors = true := by
  unfold State.mirrors
  rw [hq, hr]
  rfl
/-- A mirror message takes the front of its queue (R326). -/
theorem mirrorFlush_effect (s : State) (k : MirKind) (q : Session) (ho : s.pairOn = true) (hq : s.pair.session = some q)
    (hr : s.pair.role = .active) (hk : s.pair.queue k ≠ [])
    (hy : s.pair.syncing = false ∨ k = .lease ∨ s.pair.qLease = []) :
    (∃ m, Emit.pp m ∈ (s.mirrorFlush k).out ∧ byteAt m 0 = BitVec.ofNat 8 (mirType k)) ∧
    (s.mirrorFlush k).pair.queue k = (s.pair.queue k).drop (mirMax k) ∧
    (s.mirrorFlush k).pair.sentSeqs = s.pair.sentSeqs ++ [q.txSeq + 1] ∧
    (s.mirrorFlush k).counted 237 = s.counted 237 + 1 := by
  have hgo : (!s.mirrors || (s.pair.queue k).isEmpty || (s.pair.syncing && decide (k ≠ .lease) && !s.pair.qLease.isEmpty)) =
      false := by
    rw [mirrors_of_session s q hq hr, List.isEmpty_eq_false_iff.mpr hk]
    rcases hy with h | h | h <;> simp [h]
  unfold State.mirrorFlush
  simp only [hgo, Bool.false_eq_true, if_false]
  let t := s.modPair (fun p => p.setQueue k ((s.pair.queue k).drop (mirMax k)))
  obtain ⟨tsess, tseqs, trole, tset⟩ := setQueue_keeps s.pair k ((s.pair.queue k).drop (mirMax k))
  have hton : t.pairOn = true := by
    have : t.pairOn = s.pairOn := by
      unfold State.pairOn
      rw [show t.pair.role = s.pair.role from trole, show t.pair.cfgSet = s.pair.cfgSet from tset]
      rfl
    rw [this, ho]
  have hsend := sendPair_up t (mirType k) (((s.pair.queue k).take (mirMax k)).map (·.bytes)).flatten q (tsess.trans hq) hton
  rw [hsend]
  obtain ⟨cq, cs, cc, co⟩ := syncCheck_keeps ((((t.modPair (fun p => { p with
    session := some { q with txSeq := q.txSeq + 1 } })).emit (.pp (t.pairMsg (mirType k) q
      (((s.pair.queue k).take (mirMax k)).map (·.bytes)).flatten))).modPair (fun p => { p with
      sentSeqs := p.sentSeqs ++ [q.txSeq + 1],
      sentLease := if k = .lease then p.sentLease ++ ((s.pair.queue k).take (mirMax k)).map (fun m => (q.txSeq + 1, m))
        else p.sentLease,
      synHalves := if k = .lease ∧ p.syncing = true then
        (((s.pair.queue k).take (mirMax k)).filter (fun m => decide (m.ceil ≠ 0))).foldl (fun l m => insNat l m.key) p.synHalves
        else p.synHalves,
      synChans := if k = .slot ∧ p.syncing = true then
        ((s.pair.queue k).take (mirMax k)).foldl (fun l m => insNat l m.chix) p.synChans else p.synChans })).evt 237 1)
  refine ⟨⟨_, co _ (List.mem_append_right _ (List.mem_singleton_self _)), rfl⟩, ?_, ?_, ?_⟩
  · refine (cq _).trans ?_
    have hqueue : ∀ (p : Pair) (a b c d), ({ p with sentSeqs := a, sentLease := b, synHalves := c, synChans := d } : Pair).queue k =
        p.queue k := fun p a b c d => by cases k <;> rfl
    have hqueue' : ∀ (p : Pair) (a), ({ p with session := a } : Pair).queue k = p.queue k := fun p a => by cases k <;> rfl
    exact (hqueue _ _ _ _ _).trans ((hqueue' _ _).trans (queue_setQueue _ _ _))
  · exact cs.trans (congrArg (· ++ [q.txSeq + 1]) tseqs)
  · exact (counted_acc _ _ _ (congrArg Counts.acc cc)).trans (counted_evt _ 237 1)
/-- The judgement of floors leaves queues and slots. -/
theorem floorJudge_keeps (s : State) : s.floorJudge.pair.qFloor = s.pair.qFloor ∧ s.floorJudge.ch = s.ch := by
  unfold State.floorJudge State.when
  dsimp only
  split <;> exact ⟨rfl, rfl⟩
/-- The one change of a floor that is due is queued (R331). -/
theorem floorTick_one (s : State) (v a : Nat) (en : Entry) (hd : s.floorsDue = [(v, a)]) (he : s.entry (v / 2) = some en) :
    s.floorTick = (s.modPair (fun p => { p with
      qFloor := p.qFloor ++ [{ (floorItem en.chix (decide (v % 2 = 1)) (s.slot v)) with at_ := some a }] })).modSlot v
        (fun o => { o with floorAt := none }) := by
  unfold State.floorTick
  rw [hd]
  change State.forEach s [(v, a)] _ = _
  rw [forEach_cons, forEach_nil]
  simp only [he]
theorem sendStatus_up (s : State) (k : Bytes) (w : W128) (rest : List W128) (ho : s.pairOn = true) (hk : s.pair.ak = some k)
    (hw : s.seedsFree = w :: rest) :
    s.sendStatus = (
      let n := ((ofBlock w).take 12).set 0 (byteAt (ofBlock w) 0 &&& 0x7F)
      let m := s.statusHead ++ n ++ zeros 12
      ((s.dropSeeds 1).modPair (fun p => { p with nonces := (n :: p.nonces).take 4 })).emit (.ab (m ++ gmac k n m))) := by
  unfold State.sendStatus
  rw [hk, hw]
  exact if_pos ho

/-- Settles O43, clause by clause. -/
theorem pairMessagesSent : Obligations.PairMessagesSent := by
  unfold Obligations.PairMessagesSent
  refine ⟨fun q s ho hr hq => exec_beatTimer s q ho hr hq, fun q s ho hr hq hs => exec_healthTimer s q ho hr hq hs,
    fun k q s ho hr hq ha hk hy => ?_, fun v a en s hm hr hd he => ?_, fun k w rest s ho hk hw => ?_⟩
  · have hr' : ¬ s.begin.resetOn .pair = true := Bool.eq_false_iff.mp hr
    obtain ⟨⟨m, hm, hty⟩, hrest⟩ := mirrorFlush_effect s.begin k q ho hq ha hk hy
    exact ⟨_, m, congrArg Host.Outcome.next (if_neg hr'), hm, hty, hrest⟩
  · have hrole : s.pair.role = .active := by
      unfold State.mirrors at hm
      simp only [Bool.and_eq_true, decide_eq_true_eq] at hm
      exact hm.1
    have hgo : (decide (s.begin.pair.role = .active) && !s.begin.resetOn .pair) = true := by
      change (decide (s.pair.role = .active) && !s.resetOn .pair) = true
      rw [hr, hrole]
      rfl
    have hm' : s.begin.mirrors = true := hm
    obtain ⟨hq, hch⟩ := floorJudge_keeps (s.begin.when s.begin.mirrors (·.floorTick))
    refine ⟨_, congrArg Host.Outcome.next (if_pos hgo), ?_, hq.trans ?_⟩
    · rw [slot_of_ch _ _ v hch, hm']
      simp only [State.when, if_true]
      rw [floorTick_one s.begin v a en hd he, slot_modSlot]
    · rw [hm']
      simp only [State.when, if_true]
      rw [floorTick_one s.begin v a en hd he]
      rfl
  · exact congrArg Host.Outcome.next (sendStatus_up s.begin k w rest ho hk hw)

/-! ### Messages that come in -/

/-- What an accepted BEAT of an ACTIVE peer at a higher EPOCH does (R323). -/
theorem peerActive_higher (s : State) (ep : Nat) (hr : s.pair.role = .active) (he : s.pair.epoch.toNat < ep) :
    (s.peerActive ep).pair.role = .standby ∧ (s.peerActive ep).pair.ready = false ∧ (s.peerActive ep).flag .pair 0x40 5 = true ∧
    (s.peerActive ep).counted 230 = s.counted 230 + 1 := by
  unfold State.peerActive
  rw [if_neg (not_not_intro hr), if_pos he]
  obtain ⟨hrole, -, hready, hregs, hcnt⟩ := sendPair_role ((((s.leaveActive .standby).setFlag .pair 0x40 5).evt 230 1).modPair
    (fun p => { p with gotHalves := [], gotChans := [], syncEnd := none })) 0x06 []
  refine ⟨hrole, hready, (flag_of_regs _ _ _ _ _ hregs).trans (flag_setFlag (s.leaveActive .standby) .pair 0x40 5 (by decide)), ?_⟩
  exact (counted_acc _ _ _ (congrArg Counts.acc hcnt)).trans (counted_evt _ 230 1)
theorem beat_effect (s : State) (m : Bytes) (hr : s.pair.role = .active) (hm : msgRole m = 3)
    (he : s.pair.epoch.toNat < msgEpoch m) :
    let t := (fun s : State =>
      let s := s.ackGot (ofBe ((msgBody m).take 8))
      if msgRole m = 3 then s.peerActive (msgEpoch m) else s) (s.noteHeader 0x02 m)
    t.pair.role = .standby ∧ t.pair.ready = false ∧ t.flag .pair 0x40 5 = true ∧ t.counted 230 = s.counted 230 + 1 := by
  have hlook := ackGot_look (s.noteHeader 0x02 m) (ofBe ((msgBody m).take 8)) hr
  have hp := congrArg (·.2.1) hlook
  have hrole : ((s.noteHeader 0x02 m).ackGot (ofBe ((msgBody m).take 8))).pair.role = .active :=
    (congrArg Pair.role hp :).trans hr
  have hep : ((s.noteHeader 0x02 m).ackGot (ofBe ((msgBody m).take 8))).pair.epoch = s.pair.epoch :=
    (congrArg Pair.epoch hp :)
  have hc : ((s.noteHeader 0x02 m).ackGot (ofBe ((msgBody m).take 8))).counted 230 = s.counted 230 :=
    counted_of_tally _ _ 230 (by decide) (congrArg (·.2.2) hlook)
  dsimp only
  rw [if_pos hm]
  obtain ⟨h1, h2, h3, h4⟩ := peerActive_higher _ (msgEpoch m) hrole (hep ▸ he)
  exact ⟨h1, h2, h3, h4.trans (congrArg (· + 1) hc)⟩
/-- The start of a sync queues every item (R328). -/
theorem syncStart_queues (s : State) (h : s.mirrors = true) :
    s.syncStart.pair.qLease = s.pair.qLease ++ s.syncLease ∧ s.syncStart.pair.qSlot = s.pair.qSlot ++ s.syncSlot ∧
    s.syncStart.pair.qSched = s.pair.qSched ++ s.syncSched ∧ s.syncStart.pair.qFloor = s.pair.qFloor ++ s.syncFloor := by
  unfold State.syncStart
  rw [if_pos h]
  obtain ⟨hq, -⟩ := syncCheck_keeps (s.modPair (fun p => { p with
      qLease := p.qLease ++ s.syncLease, qSlot := p.qSlot ++ s.syncSlot, qSched := p.qSched ++ s.syncSched,
      qFloor := p.qFloor ++ s.syncFloor, syncing := true, synHalves := [], synChans := [] }))
  exact ⟨hq .lease, hq .slot, hq .sched, hq .floor⟩
/-- What a standby makes of a message of items other than LEASE (R327). -/
theorem mirrorGot_items (s : State) (k : MirKind) (m : Bytes) (hr : s.pair.role = .standby) (hk : k ≠ .lease) :
    (s.mirrorGot k m).pair.inbox = s.pair.inbox ++ (msgItems k m).map (fun it => (msgSeq m, k, it)) ∧
    (s.mirrorGot k m).pair.ackOwed = s.pair.ackOwed ++ [msgSeq m] := by
  unfold State.mirrorGot
  dsimp only
  rw [if_neg (not_not_intro hr)]
  cases k with
  | lease => exact absurd rfl hk
  | slot => exact ⟨rfl, rfl⟩
  | sched => exact ⟨rfl, rfl⟩
  | floor => exact ⟨rfl, rfl⟩
theorem mirrorGot_lease (s : State) (m : Bytes) (hr : s.pair.role = .standby) :
    (s.mirrorGot .lease m).pair.jnlWait = s.pair.jnlWait ++ (msgItems .lease m).map (leaseJItem (msgSeq m)) ∧
    (s.mirrorGot .lease m).pair.ackOwed = s.pair.ackOwed ++ [msgSeq m] := by
  unfold State.mirrorGot
  dsimp only
  rw [if_neg (not_not_intro hr)]
  exact ⟨rfl, rfl⟩

/-- Settles O44, clause by clause. -/
theorem pairMessagesTaken : Obligations.PairMessagesTaken := by
  unfold Obligations.PairMessagesTaken
  refine ⟨fun m s hl hc hr hm he => ?_, fun m s hl hc hr => ?_, fun s hr => ?_, fun m s hl hc hr => ?_,
    fun m q s hl hc hr hq _ => ?_, fun m s hl hc hr => ?_, fun m s hl hr p hp hc => ?_, fun m s hl hc hr => ?_⟩
  · refine ⟨_, congrArg Host.Outcome.next (pairRx_ok s.begin 0x02 m _ hl hc), ?_⟩
    obtain ⟨hrole, hready, hflag, hcount⟩ := beat_effect s.begin m hr hm he
    obtain ⟨hregs, hp, hn⟩ := pairDo_effect s.begin (fun s => (fun s : State =>
      let s := s.ackGot (ofBe ((msgBody m).take 8))
      if msgRole m = 3 then s.peerActive (msgEpoch m) else s) (s.noteHeader 0x02 m))
    exact ⟨(congrArg Pair.role hp :).trans hrole, (congrArg Pair.ready hp :).trans hready,
      (flag_of_regs _ _ _ _ _ hregs).trans hflag, (hn 230 (by decide)).trans hcount⟩
  · refine ⟨_, congrArg Host.Outcome.next (pairRx_ok s.begin 0x03 m _ hl hc), ?_⟩
    obtain ⟨-, hp, -⟩ := pairDo_effect s.begin (fun s => (fun s : State => if s.pair.role = .active then
      s.modPair (fun p => { p with peerHealth := healthWord (msgBody m), healthStale := false }) else s) (s.noteHeader 0x03 m))
    have hr' : (s.begin.noteHeader 0x03 m).pair.role = .active := hr
    simp only [hr', if_true] at hp
    exact ⟨(congrArg Pair.peerHealth hp :), (congrArg Pair.healthStale hp :)⟩
  · exact congrArg Host.Outcome.next (if_pos hr)
  · refine ⟨_, congrArg Host.Outcome.next (pairRx_ok s.begin 0x04 m _ hl hc), ?_⟩
    obtain ⟨-, hp, -⟩ := pairDo_effect s.begin (fun s => (s.noteHeader 0x04 m).ackGot (ofBe ((msgBody m).take 8)))
    have hlook := congrArg (·.2.1) (ackGot_look (s.begin.noteHeader 0x04 m) (ofBe ((msgBody m).take 8)) hr)
    exact (congrArg Pair.sentSeqs hp :).trans (congrArg Pair.sentSeqs hlook :)
  · refine ⟨_, congrArg Host.Outcome.next (pairRx_ok s.begin 0x06 m _ hl hc), ?_⟩
    have hm : (s.begin.noteHeader 0x06 m).mirrors = true := by
      have hq' : (s.begin.noteHeader 0x06 m).pair.session = some { q with rxSeq := msgSeq m } :=
        (congrArg (Option.map _) hq :)
      exact mirrors_of_session _ _ hq' hr
    obtain ⟨h1, h2, h3, h4⟩ := syncStart_queues _ hm
    obtain ⟨-, hp, -⟩ := pairDo_effect s.begin (fun s => (s.noteHeader 0x06 m).syncStart)
    exact ⟨(congrArg Pair.qLease hp :).trans h1, (congrArg Pair.qSlot hp :).trans h2, (congrArg Pair.qSched hp :).trans h3,
      (congrArg Pair.qFloor hp :).trans h4⟩
  · refine ⟨_, congrArg Host.Outcome.next (pairRx_ok s.begin 0x10 m _ hl hc), ?_⟩
    obtain ⟨-, hp, -⟩ := pairDo_effect s.begin (fun s => (s.noteHeader 0x10 m).mirrorGot .lease m)
    obtain ⟨h1, h2⟩ := mirrorGot_lease (s.begin.noteHeader 0x10 m) m hr
    exact ⟨(congrArg Pair.jnlWait hp :).trans h1, (congrArg Pair.ackOwed hp :).trans h2⟩
  · have hgot : ∀ (ty : Nat) (k : MirKind), k ≠ .lease →
        (s.begin.pairDo (fun s => (s.noteHeader ty m).mirrorGot k m)).pair.inbox =
          s.pair.inbox ++ (msgItems k m).map (fun it => (msgSeq m, k, it)) ∧
        (s.begin.pairDo (fun s => (s.noteHeader ty m).mirrorGot k m)).pair.ackOwed = s.pair.ackOwed ++ [msgSeq m] :=
      fun ty k hk => by
        obtain ⟨-, hp, -⟩ := pairDo_effect s.begin (fun s => (s.noteHeader ty m).mirrorGot k m)
        obtain ⟨h1, h2⟩ := mirrorGot_items (s.begin.noteHeader ty m) k m hr hk
        exact ⟨(congrArg Pair.inbox hp :).trans h1, (congrArg Pair.ackOwed hp :).trans h2⟩
    obtain rfl | rfl | rfl : p = (Instr.slot m, 0x11, MirKind.slot) ∨ p = (.sched m, 0x12, .sched) ∨ p = (.floor m, 0x13, .floor) := by
      simpa using hp
    · exact ⟨_, congrArg Host.Outcome.next (pairRx_ok s.begin 0x11 m _ hl hc), hgot 0x11 .slot (by decide)⟩
    · exact ⟨_, congrArg Host.Outcome.next (pairRx_ok s.begin 0x12 m _ hl hc), hgot 0x12 .sched (by decide)⟩
    · exact ⟨_, congrArg Host.Outcome.next (pairRx_ok s.begin 0x13 m _ hl hc), hgot 0x13 .floor (by decide)⟩
  · refine ⟨_, congrArg Host.Outcome.next (pairRx_ok s.begin 0x14 m _ hl hc), ?_⟩
    obtain ⟨-, hp, -⟩ := pairDo_effect s.begin (fun s => (fun s : State => if s.pair.role = .standby then
        let b := msgBody m
        s.modPair (fun p => { p with syncEnd := some (msgSeq m, ofBe (b.take 4), ofBe (slice b 4 4)) })
      else s) (s.noteHeader 0x14 m))
    have hr' : (s.begin.noteHeader 0x14 m).pair.role = .standby := hr
    simp only [hr', if_true] at hp
    exact (congrArg Pair.syncEnd hp :)

/-! ### PAIR_CMD (R336) -/

/-- A write of PAIR_CMD that nothing stands against is carried out, and its page is BUSY until the next CK_AO cycle (R348). -/
theorem through_pairCmd (s : State) (data : W32) (act : State → State) (hf : s.free .pair = true) :
    s.through .pair 0x88 data act = (act (s.emit (.cpDone false))).setBusy .pair true :=
  through_ok s .pair 0x88 data act { off := 0x88, wo := 0xFF } rfl hf rfl (.inl rfl) (.inl rfl) (.inl rfl)
theorem pairDone_effect (s : State) (code op : Nat) :
    (((s.pairDone code op).setBusy .pair true).hdr .pair).busy = true ∧
    ((s.pairDone code op).setBusy .pair true).roW .pair 0x8C = (atPos code 24 ||| atPos op 16) ∧
    ((s.pairDone code op).setBusy .pair true).flag .pair 0x40 12 = true :=
  ⟨congrArg Hdr.busy (hdr_modHdr (s.pairDone code op) .pair _), roW_setRo s .pair 0x8C _,
    flag_setFlag (s.setRo .pair 0x8C _) .pair 0x40 12 (by decide)⟩
/-- What SYNC_REQ leaves of the standby's record of what it has got (R328). -/
theorem sendSyncReq_effect (s : State) :
    s.sendSyncReq.pair.gotHalves = [] ∧ s.sendSyncReq.pair.gotChans = [] ∧ s.sendSyncReq.pair.syncEnd = none := by
  unfold State.sendSyncReq State.sendPair
  split
  · exact ⟨rfl, rfl, rfl⟩
  · split <;> exact ⟨rfl, rfl, rfl⟩
theorem pairYield_active (s : State) (h : s.pair.role = .active) : ∃ u : State, s.pairYield = u.pairDone 0 1 ∧
    u.pair.yielding = true ∧ u.pair.role = .active := by
  refine ⟨_, if_pos h, ?_⟩
  obtain ⟨-, hp, -⟩ := pairDo_effect s (fun s => (s.modPair (fun p => { p with yielding := true })).yieldCheck)
  have hl := congrArg (·.2.1) (yieldCheck_look (s.modPair (fun p => { p with yielding := true })))
  exact ⟨(congrArg Pair.yielding hp :).trans (congrArg Pair.yielding hl :),
    ((congrArg Pair.role hp :).trans (congrArg Pair.role hl :)).trans h⟩
theorem pairRequest_standby (s : State) (h : s.pair.role = .standby) : ∃ u : State, s.pairRequest = u.pairDone 0 2 ∧
    u.pair.reqHold = true := by
  refine ⟨_, if_pos h, ?_⟩
  obtain ⟨-, hp, -⟩ := pairDo_effect s (·.modPair (fun p => { p with reqHold := true }))
  exact (congrArg Pair.reqHold hp :)

/-- Settles O46: each write of PAIR_CMD runs its command in its role, and answers 0x27 in another. -/
theorem pairCommands : Obligations.PairCommands := by
  unfold Obligations.PairCommands
  refine ⟨fun s hf hr => ?_, fun s hf hr => ?_, fun s hf hr => ?_, fun s hf p hp hr => ?_⟩
  · obtain ⟨u, hu, hy, hrole⟩ := pairYield_active (s.begin.emit (.cpDone false)) hr
    refine ⟨(u.pairDone 0 1).setBusy .pair true, congrArg Host.Outcome.next ((through_pairCmd s.begin 1 _ hf).trans (congrArg (·.setBusy .pair true) hu)), hy, hrole, ?_⟩
    exact pairDone_effect u 0 1
  · obtain ⟨u, hu, hq⟩ := pairRequest_standby (s.begin.emit (.cpDone false)) hr
    refine ⟨(u.pairDone 0 2).setBusy .pair true, congrArg Host.Outcome.next ((through_pairCmd s.begin 2 _ hf).trans (congrArg (·.setBusy .pair true) hu)), hq, ?_⟩
    exact pairDone_effect u 0 2
  · have hu : (s.begin.emit (.cpDone false)).pairResync = (s.begin.emit (.cpDone false)).sendSyncReq.pairDone 0 3 := if_pos hr
    obtain ⟨hh, hc, he⟩ := sendSyncReq_effect (s.begin.emit (.cpDone false))
    refine ⟨(State.pairDone _ 0 3).setBusy .pair true, congrArg Host.Outcome.next ((through_pairCmd s.begin 3 _ hf).trans (congrArg (·.setBusy .pair true) hu)), hh, hc, he, ?_⟩
    exact pairDone_effect _ 0 3
  · have refused : ∀ (c : Instr) (op : Nat) (data : W32) (act : State → State),
        exec c s = .next (s.begin.through .pair 0x88 data act) →
        act (s.begin.emit (.cpDone false)) = (s.begin.emit (.cpDone false)).pairDone 0x27 op →
        ∃ t : State, exec c s = .next t ∧ t.pair = s.pair ∧ t.roW .pair 0x8C = (atPos 0x27 24 ||| atPos op 16) ∧
          t.flag .pair 0x40 12 = true := fun c op data act hc ha => by
      obtain ⟨-, hro, hflag⟩ := pairDone_effect (s.begin.emit (.cpDone false)) 0x27 op
      exact ⟨((s.begin.emit (.cpDone false)).pairDone 0x27 op).setBusy .pair true, hc.trans (congrArg Host.Outcome.next
        ((through_pairCmd s.begin data act hf).trans (congrArg (·.setBusy .pair true) ha))), rfl, hro, hflag⟩
    obtain rfl | rfl | rfl : p = (Instr.yield, 1) ∨ p = (.request, 2) ∨ p = (.resync, 3) := by simpa using hp
    · exact refused .yield 1 1 _ rfl (if_neg hr)
    · exact refused .request 2 2 _ rfl (if_neg hr)
    · exact refused .resync 3 3 _ rfl (if_neg hr)

end Sys2Proof.Machine
end

section
/-! PROOFS. How a SAW command runs with nothing else under way: what its taking leaves, what it may change so that nothing
follows, and how it is answered (R165, R281). -/
namespace Sys2Proof.Machine

/-! ### Tables and registers -/

theorem Tab.mem_ins {α : Type} (m : Tab α) (k : Nat) (x : α) (p : Nat × α) (h : p ∈ Tab.ins m k x) : p = (k, x) ∨ p ∈ m := by
  induction m with
  | nil => exact .inl (by simpa [Tab.ins] using h)
  | cons q m ih =>
    obtain ⟨a, v⟩ := q
    unfold Tab.ins at h
    split at h
    · exact List.mem_cons.mp h
    · split at h
      · exact (List.mem_cons.mp h).imp (fun e => by simp_all) (List.mem_cons_of_mem _)
      · rcases List.mem_cons.mp h with e | e
        · exact .inr (e ▸ List.mem_cons_self)
        · exact (ih e).imp_right (List.mem_cons_of_mem _)
theorem Tab.mem_del {α : Type} (m : Tab α) (k : Nat) (p : Nat × α) (h : p ∈ Tab.del m k) : p ∈ m := by
  induction m with
  | nil => exact h
  | cons q m ih =>
    obtain ⟨a, v⟩ := q
    unfold Tab.del at h
    split at h
    · exact List.mem_cons_of_mem _ (ih h)
    · rcases List.mem_cons.mp h with e | e
      · exact e ▸ List.mem_cons_self
      · exact List.mem_cons_of_mem _ (ih e)
theorem Tab.mem_set {α : Type} [DecidableEq α] (d : α) (m : Tab α) (k : Nat) (x : α) (p : Nat × α) (h : p ∈ Tab.set d m k x) :
    p = (k, x) ∨ p ∈ m := by
  unfold Tab.set at h
  split at h
  · exact .inr (Tab.mem_del m k p h)
  · exact Tab.mem_ins m k x p h
theorem Tab.mem_of_get {α : Type} (d : α) (m : Tab α) (k : Nat) (x : α) (h : Tab.get d m k = x) (hx : x ≠ d) : (k, x) ∈ m := by
  induction m with
  | nil => exact absurd h.symm hx
  | cons q m ih =>
    obtain ⟨a, v⟩ := q
    unfold Tab.get at h
    split at h
    · next e => exact e ▸ h ▸ List.mem_cons_self
    · exact List.mem_cons_of_mem _ (ih h)

theorem mem_delNat (l : NatSet) (k a : Nat) : a ∈ delNat l k ↔ a ∈ l ∧ a ≠ k := by simp [delNat]
/-- A write of a register leaves every other one. -/
theorem cfg_setCfg_ne (s : State) (p q : Page) (off off' : Nat) (v : W32) (h : q.at off' ≠ p.at off) :
    (s.setCfg p off v).cfg q off' = s.cfg q off' := by
  have hget : Tab.get (regReset (q.at off')) (s.setCfg p off v).regs.cfg (q.at off') =
      Tab.get (regReset (q.at off')) s.regs.cfg (q.at off') := Tab.get_set_ne _ _ _ _ _ _ h
  have hbad : q.at off' ∈ (s.setCfg p off v).regs.parBad ↔ q.at off' ∈ s.regs.parBad := by
    refine (mem_delNat _ _ _).trans ⟨fun hm => hm.1, fun hm => ⟨hm, h⟩⟩
  unfold State.cfg
  simp only [hbad, hget]
@[simp] theorem sawArg_setSawArg (s : State) (n : Nat) (w : W32) : (s.setSawArg n w).sawArg n = w := cfg_setCfg s _ _ w
theorem sawArg_setSawArg_ne (s : State) (n m : Nat) (w : W32) (h : m ≠ n) : (s.setSawArg n w).sawArg m = s.sawArg m := by
  refine cfg_setCfg_ne s .saw .saw _ _ w ?_
  unfold Page.at
  omega

/-- A field depends on its bits alone. -/
theorem fld_congr (a b : W32) (hi lo : Nat) (h : ∀ i, i ≤ hi → lo ≤ i → a.getLsbD i = b.getLsbD i) : fld a hi lo = fld b hi lo := by
  unfold fld
  refine Nat.eq_of_testBit_eq (fun j => ?_)
  rw [Nat.testBit_mod_two_pow, Nat.testBit_mod_two_pow, Nat.testBit_shiftRight, Nat.testBit_shiftRight]
  by_cases hj : j < hi + 1 - lo
  · rw [← BitVec.getLsbD, ← BitVec.getLsbD, h (lo + j) (by omega) (by omega)]
  · simp [hj]
theorem getLsbD_mergeBits (m x y : W32) (i : Nat) (hi : i < 32) :
    (mergeBits m x y).getLsbD i = if m.getLsbD i then x.getLsbD i else y.getLsbD i := by
  unfold mergeBits
  rw [BitVec.getLsbD_or, BitVec.getLsbD_and, BitVec.getLsbD_and, BitVec.getLsbD_not]
  cases m.getLsbD i <;> simp [hi]
/-- A field outside the mask of a merge. -/
theorem fld_mergeBits (m x y : W32) (hi lo : Nat) (hhi : hi < 32) (hm : ∀ i < hi + 1, lo ≤ i → m.getLsbD i = false) :
    fld (mergeBits m x y) hi lo = fld y hi lo := by
  refine fld_congr _ _ _ _ (fun i h1 h2 => ?_)
  rw [getLsbD_mergeBits m x y i (by omega), hm i (by omega) h2]
  rfl
/-- A field inside the mask of a merge. -/
theorem fld_mergeBits_in (m x y : W32) (hi lo : Nat) (hhi : hi < 32) (hm : ∀ i < hi + 1, lo ≤ i → m.getLsbD i = true) :
    fld (mergeBits m x y) hi lo = fld x hi lo := by
  refine fld_congr _ _ _ _ (fun i h1 h2 => ?_)
  rw [getLsbD_mergeBits m x y i (by omega), hm i (by omega) h2]
  rfl
theorem cmdChix_withOp (c : W32) (op : Nat) : cmdChix (withOp c op) = cmdChix c := fld_mergeBits _ _ _ _ _ (by decide) (by decide)
theorem cmdB28_withOp (c : W32) (op : Nat) : cmdB28 (withOp c op) = cmdB28 c := by
  unfold cmdB28 bit withOp
  rw [getLsbD_mergeBits _ _ _ _ (by decide)]
  rfl
theorem cmdOp_withOp (c : W32) (op : Nat) (h : op < 256) : cmdOp (withOp c op) = op := by
  refine (fld_mergeBits_in _ _ _ _ _ (by decide) (by decide)).trans ?_
  unfold fld
  rw [BitVec.toNat_ofNat, Nat.shiftRight_zero, Nat.mod_eq_of_lt (a := op) (by omega)]
  exact Nat.mod_eq_of_lt h
theorem cmdChix_sawCmd (c : W32) (op : Nat) : cmdChix (sawCmd c op) = cmdChix c :=
  (fld_mergeBits _ _ _ _ _ (by decide) (by decide)).trans (cmdChix_withOp c op)
theorem cmdB28_sawCmd (c : W32) (op : Nat) : cmdB28 (sawCmd c op) = false := by
  unfold cmdB28 bit sawCmd
  rw [getLsbD_mergeBits _ _ _ _ (by decide)]
  rfl

/-! ### Channels and their entries -/

@[simp] theorem entry_modEntry (s : State) (e : Nat) (f : Entry → Entry) : (s.modEntry e f).entry e = (s.entry e).map f :=
  Tab.get_modify _ _ _ _
theorem entry_modEntry_ne (s : State) (e j : Nat) (f : Entry → Entry) (h : j ≠ e) : (s.modEntry e f).entry j = s.entry j :=
  Tab.get_modify_ne _ _ _ _ _ h
/-- The channel of a resident entry that is not being evicted. -/
theorem whereIs_here (s : State) (x e : Nat) (en : Entry) (h : s.whereIs x = .here e en) :
    s.known x = true ∧ s.resident x = some e ∧ s.entry e = some en ∧ en.live = true ∧ en.chix = x ∧ en.evicting = false := by
  unfold State.whereIs at h
  split at h
  · cases h
  · next hk =>
    split at h
    · cases h
    · next e' hr =>
      split at h
      · cases h
      · next en' he =>
        split at h
        · cases h
        · next hv =>
          cases h
          have hlive : en.live = true ∧ en.chix = x := by
            unfold State.resident at hr
            dsimp only at hr
            split at hr
            · split at hr
              · next en' he' =>
                split at hr
                · next hl =>
                  cases hr
                  rw [he'] at he
                  cases he
                  exact hl
                · cases hr
              · cases hr
            · cases hr
          exact ⟨by simpa using hk, hr, he, hlive.1, hlive.2, by simpa using hv⟩
theorem whereIs_unknown (s : State) (x : Nat) (h : s.known x = false) : s.whereIs x = .unknown := by
  unfold State.whereIs
  simp [h]
theorem known_of_unknown (s : State) (x : Nat) (h : s.whereIs x = .unknown) : s.known x = false := by
  by_contra hk
  have hk : s.known x = true := by simpa using hk
  unfold State.whereIs at h
  simp only [hk, Bool.not_true, Bool.false_eq_true, if_false] at h
  split at h
  · cases h
  · split at h
    · cases h
    · split at h <;> cases h

/-! ### What decides that something is still to be done -/

/-- What decides what is still to be done, the entries of channels and the SAW command apart. -/
def State.duties (s : State) :=
  (s.store, s.lease, s.pwr, s.slices, s.sys, (s.pair.inbox, s.pair.syncEnd, s.pair.ackOwed, s.pair.jnlWait, s.pair.jnlFail),
    s.retireAt, s.pager.keyw, s.pager.calRead, s.pager.calPut)
/-- A block with nothing under way beside the SAW command has nothing under way once that has ended. -/
theorem idle_of_duties (s t : State) (h : t.duties = s.duties) (hs : s.idle = true) (he : t.entriesIdle = true)
    (hsaw : t.pager.saw = none) : t.idle = true := by
  simp only [State.duties, Prod.mk.injEq] at h
  obtain ⟨hstore, hlease, hpwr, hsl, hsys, ⟨hin, hend, hack, hjw, hjf⟩, hret, hkeyw, hread, hput⟩ := h
  obtain ⟨ist, iwin, ijnl, imir, -, idom⟩ := idle_parts s hs
  have a : t.storeIdle = true := by unfold State.storeIdle at ist ⊢; rw [hstore]; exact ist
  have b : t.windowsIdle = true := by
    unfold State.windowsIdle at iwin ⊢
    rw [hkeyw, hlease, hstore, hsys, hread, hput, hsaw]
    simp only [Bool.and_eq_true] at iwin ⊢
    obtain ⟨⟨⟨⟨⟨⟨-, h1⟩, h2⟩, h3⟩, h4⟩, h5⟩, h6⟩ := iwin
    exact ⟨⟨⟨⟨⟨⟨rfl, h1⟩, h2⟩, h3⟩, h4⟩, h5⟩, h6⟩
  have c : t.journalIdle = true := by
    unfold State.journalIdle State.wornSectors State.followerBad at ijnl ⊢
    rw [hlease, hret, hjw, hjf]
    exact ijnl
  have d : t.mirrorIdle = true := by unfold State.mirrorIdle at imir ⊢; rw [hin, hend, hack]; exact imir
  have f : t.domainsIdle = true := by
    unfold State.domainsIdle State.pmOrder State.dom at idom ⊢
    rw [hsys, hpwr, hsl]
    exact idom
  unfold State.idle
  simp only [a, b, c, d, he, f, Bool.and_self]
theorem duties_of_agrees (s t : State) (h : s.AgreesBesideSaw t) : t.duties = s.duties := by
  unfold State.duties State.retireAt
  rw [h.store, h.lease, h.pwr, h.slices, h.sys, h.pair, h.cfg, h.keyw, h.calRead, h.calPut]

/-- Entries of which none waits to be freed stay so when the change of one makes none wait. -/
theorem entriesIdle_modEntry (s : State) (e : Nat) (f : Entry → Entry)
    (hf : ∀ en, (en.live || !en.evicting) = true → ((f en).live || !(f en).evicting) = true) (h : s.entriesIdle = true) :
    (s.modEntry e f).entriesIdle = true := by
  unfold State.entriesIdle at h ⊢
  refine List.all_eq_true.mpr (fun p hp => ?_)
  rcases Tab.mem_set _ _ _ _ _ hp with rfl | hm
  · cases hg : Tab.get none s.ch.entries e with
    | none => rfl
    | some en => exact hf en (List.all_eq_true.mp h (e, some en) (Tab.mem_of_get none _ e _ hg (by simp)))
  · exact List.all_eq_true.mp h p hm
theorem entriesIdle_of_entries (s t : State) (h : t.ch.entries = s.ch.entries) : t.entriesIdle = s.entriesIdle := by
  unfold State.entriesIdle
  rw [h]

/-! What the pieces of a command leave. -/

theorem storeIdle_wait (s : State) (h : s.storeIdle = true) : s.store.wait = [] := by
  unfold State.storeIdle at h
  simp only [Bool.and_eq_true, List.isEmpty_iff] at h
  exact h.1
theorem setSaw_duties (s : State) (off : Nat) (w : W32) : (s.setCfg .saw off w).duties = s.duties := by
  have hne : Page.lease.at 0x88 ≠ Page.saw.at off := by
    change (7 * 0x1000 + 0x88 : Nat) ≠ 8 * 0x1000 + off
    omega
  unfold State.duties State.retireAt
  rw [cfg_setCfg_ne s .saw .lease off 0x88 w hne]
  rfl
theorem modCh_duties (s : State) (f : Chans → Chans) : (s.modCh f).duties = s.duties := rfl
theorem mirrorSched_duties (s : State) (it : MItem) : (s.mirrorSched it).duties = s.duties :=
  when_keeps State.duties _ (fun s => by rfl) _ s
theorem mirrorSched_ch (s : State) (it : MItem) : (s.mirrorSched it).ch = s.ch :=
  when_keeps State.ch _ (fun s => by rfl) _ s
theorem mirrorSched_pager (s : State) (it : MItem) : (s.mirrorSched it).pager = s.pager :=
  when_keeps State.pager _ (fun s => by rfl) _ s
/-- What a change of a slot that is only told to the peer leaves. -/
def State.untold (s : State) := (s.duties, s.ch, s.pager)
theorem slotChanged_untold (s : State) (e : Nat) (b : Bool) : (s.slotChanged e b).untold = s.untold := by
  have hexp : ∀ (s : State) x, (s.unexpose x b).untold = s.untold := fun s x => when_keeps State.untold _ (fun s => by rfl) _ s
  have hmir : ∀ (s : State) it, (s.mirrorSlot it).untold = s.untold := fun s it => when_keeps State.untold _ (fun s => by rfl) _ s
  unfold State.slotChanged
  split
  · dsimp only
    split
    · exact (hmir _ _).trans (when_keeps State.untold _ (fun s => hexp s _) _ s)
    · exact when_keeps State.untold _ (fun s => hexp s _) _ s
  · rfl
theorem eqxLog_keeps (s : State) (k x : Nat) (b : Bool) (an : BitVec 2) (t : Nat) :
    (s.eqxLog k x b an t).duties = s.duties ∧ (s.eqxLog k x b an t).ch.entries = s.ch.entries ∧
    (s.eqxLog k x b an t).ch.slots = s.ch.slots ∧ (s.eqxLog k x b an t).pager = s.pager := by
  unfold State.eqxLog
  split <;> exact ⟨rfl, rfl, rfl, rfl⟩

/-! ### The window -/

/-- The window's command of an opcode of R166, once the tables serve. -/
def State.sawBody (s : State) (op x : Nat) (d : Bool) : State :=
  match op with
  | 0x01 => s.runWrite x
  | 0x02 => s.runRead x
  | 0x03 => s.runEvict x d
  | 0x04 => s.runPin x
  | 0x05 => s.runUnpin x
  | 0x10 => s.runSched x false
  | 0x11 => s.runSched x true
  | 0x20 => s.runStat x
  | 0x21 => s.runClear x
  | 0x30 => s.runBucket x
  | _ => s.sawDone 0x01 0
theorem sawOps_lt (op : Nat) (h : op ∈ sawOps) : op < 256 := by
  simp only [sawOps, List.mem_cons, List.not_mem_nil, or_false] at h
  omega
theorem tablesUp_parts (s : State) (h : s.tablesUp = true) : s.domsUp tableDoms = true ∧ s.domsLost tableDoms = false := by
  unfold State.tablesUp at h
  simpa only [Bool.and_eq_true, Bool.not_eq_true'] using h
/-- With its domains there, the command that has been taken runs. -/
theorem sawRun_sawTaken (s : State) (c : W32) (h : s.canRun .saw = true) (hop : cmdOp c ∈ sawOps)
    (hn : s.domsLost (s.sawNeeds (cmdOp c) (cmdChix c) (cmdB28 c)) = false) :
    (s.sawTaken c).sawRun = (s.sawTaken c).sawBody (cmdOp c) (cmdChix c) (cmdB28 c) := by
  obtain ⟨-, -, htab⟩ := canRun_parts s .saw h
  obtain ⟨hup, -⟩ := tablesUp_parts s htab
  have hn' : (s.sawTaken c).domsLost ((s.sawTaken c).sawNeeds (cmdOp c) (cmdChix c) (cmdB28 c)) = false := hn
  have hup' : (s.sawTaken c).domsUp tableDoms = true := hup
  unfold State.sawRun
  rw [sawTaken_saw]
  simp only [hop, not_true, if_false, hn', hup', Bool.false_eq_true, Bool.not_true]
  rfl
/-- A command that needs the tables alone is not lost while they serve. -/
theorem needs_tables (s : State) (p : Page) (h : s.canRun p = true) (op x : Nat) (d : Bool) (hn : s.sawNeeds op x d = tableDoms) :
    s.domsLost (s.sawNeeds op x d) = false := by
  obtain ⟨-, -, htab⟩ := canRun_parts s p h
  rw [hn]
  exact (tablesUp_parts s htab).2

/-- What follows a SAW command that has run, once no other window command is in progress. -/
theorem sawStart_carryOn (s u : State) (c : W32) (h : s.canRun .saw = true) (hrun : (s.sawTaken c).sawRun = u)
    (hk : u.pager.keyw = none) (hl : u.lease.cmd = none) (hs : u.store.cmd = none) : s.begin.sawStart c = u.carryOn := by
  obtain ⟨hidle, hfree, -⟩ := canRun_parts s .saw h
  obtain ⟨hstore, hwin, -, -, hent, hdom⟩ := idle_parts s hidle
  obtain ⟨-, -, -, hcmd⟩ := idle_cmds s hwin
  have htake : s.begin.sawStart c = (s.sawTaken c).settle :=
    through_plain s.begin .saw 0x80 c (·.sawTake c) { off := 0x80, wo := 0x1FFFFFFF } rfl hfree rfl rfl rfl rfl rfl
  have ha := sawTaken_agrees s c
  have hw : (s.sawTaken c).winRetry = u := by
    have b : u.keywRun = u := by unfold State.keywRun; rw [hk]
    have b' : u.leaseRun = u := by unfold State.leaseRun; rw [hl]
    have b'' : u.storeRun = u := by unfold State.storeRun; rw [hs]
    unfold State.winRetry
    rw [ha.regRetry hwin, hrun, b, b', b'']
  rw [htake]
  unfold State.settle State.carryOn
  dsimp only
  rw [wakeNeeded_idle _ (ha.domainsIdle.trans hdom), reap_idle _ (ha.entriesIdle.trans hent),
    storeSettle_idle 8 _ (ha.storeIdle.trans hstore) ((congrArg Store.cmd ha.store).trans hcmd), hw]
/-- With nothing under way, nothing is carried on. -/
theorem carryOn_idle (t : State) (h : t.idle = true) : t.carryOn = t := by
  obtain ⟨hs, hw, hj, hm, -, hd⟩ := idle_parts t h
  unfold State.carryOn
  dsimp only
  rw [storeSettle_idle 8 t hs (idle_cmds t hw).2.2.2, pumpLease_idle t hj, pairPump_idle t hm, wakeNeeded_idle t hd, pmPump_idle t hd]
/-- A SAW command that ends and leaves nothing to do is answered within the step of its write. -/
theorem sawStart_answered (s u : State) (c : W32) (code detail : Nat) (h : s.canRun .saw = true)
    (hrun : (s.sawTaken c).sawRun = u.sawDone code detail) (hd : u.duties = s.duties) (he : u.entriesIdle = true) :
    s.begin.sawStart c = u.sawDone code detail := by
  have hidle := (canRun_parts s .saw h).1
  obtain ⟨-, hk, hl, hs⟩ := idle_cmds s (idle_parts s hidle).2.1
  have ha := sawDone_agrees u code detail
  have hdone := (duties_of_agrees _ _ ha).trans hd
  have hend := idle_of_duties s _ hdone hidle ((entriesIdle_of_entries u _ (congrArg Chans.entries ha.ch)).trans he) (sawDone_saw _ _ _)
  obtain ⟨-, hk', hl', hs'⟩ := idle_cmds _ (idle_parts _ hend).2.1
  rw [sawStart_carryOn s _ c h hrun hk' hl' hs', carryOn_idle _ hend]

/-- The opcode, channel and DISCARD of a command word. -/
def isCmd (c : W32) (op x : Nat) (d : Bool) : Prop := op ∈ sawOps ∧ cmdOp c = op ∧ cmdChix c = x ∧ cmdB28 c = d
theorem isCmd_sawCmd (cmd : W32) (op : Nat) (hop : op ∈ sawOps) : isCmd (sawCmd cmd op) op (cmdChix cmd) false :=
  ⟨hop, cmdOp_sawCmd cmd op (sawOps_lt op hop), cmdChix_sawCmd cmd op, cmdB28_sawCmd cmd op⟩
theorem sawRun_isCmd (s : State) (c : W32) (op x : Nat) (d : Bool) (h : s.canRun .saw = true) (hc : isCmd c op x d)
    (hn : s.domsLost (s.sawNeeds op x d) = false) : (s.sawTaken c).sawRun = (s.sawTaken c).sawBody op x d := by
  obtain ⟨hop, rfl, rfl, rfl⟩ := hc
  exact sawRun_sawTaken s c h hop hn
/-- A SAW command: what follows once it has run. -/
theorem saw_carried (s u : State) (c : W32) (op x : Nat) (d : Bool) (h : s.canRun .saw = true) (hc : isCmd c op x d)
    (hn : s.domsLost (s.sawNeeds op x d) = false) (hrun : (s.sawTaken c).sawBody op x d = u)
    (hk : u.pager.keyw = none) (hl : u.lease.cmd = none) (hs : u.store.cmd = none) : s.begin.sawStart c = u.carryOn :=
  sawStart_carryOn s u c h ((sawRun_isCmd s c op x d h hc hn).trans hrun) hk hl hs
/-- The answer of a SAW command that ends. -/
theorem saw_ended (u : State) (c : W32) (op x : Nat) (d : Bool) (code detail : Nat) (hc : isCmd c op x d)
    (hu : u.pager.saw = some c) : (u.sawDone code detail).ended .saw 0x84 0 code op detail := by
  obtain ⟨-, rfl, -, -⟩ := hc
  exact sawDone_ended u c code detail hu
/-- A SAW command that ends and leaves nothing to do: its answer, and what has been done before it. -/
theorem saw_answered (s u : State) (c : W32) (op x : Nat) (d : Bool) (code detail : Nat) (h : s.canRun .saw = true)
    (hc : isCmd c op x d) (hn : s.domsLost (s.sawNeeds op x d) = false)
    (hrun : (s.sawTaken c).sawBody op x d = u.sawDone code detail)
    (hd : u.duties = s.duties) (he : u.entriesIdle = true) (hu : u.pager.saw = some c) :
    s.begin.sawStart c = u.sawDone code detail ∧ (u.sawDone code detail).ended .saw 0x84 0 code op detail :=
  ⟨sawStart_answered s u c code detail h ((sawRun_isCmd s c op x d h hc hn).trans hrun) hd he,
    saw_ended u c op x d code detail hc hu⟩

end Sys2Proof.Machine
end

section
/-! PROOFS. CH_WRITE (R141 to R147). -/
namespace Sys2Proof.Machine

/-- A channel that is new, in its entry and with its image (R141). -/
def State.newChan (s : State) (x e : Nat) : State :=
  ((((s.setEntry e (some { chix := x, live := true, lastUsed := s.useMs })).setResi x { s.resi x with v := true, idx := BitVec.ofNat 16 e
    }).writeImage x e (s.sawArg 0)).when s.pair.resync (·.sendSyncReq))
theorem runWrite_unknown (s : State) (x e : Nat) (hi : s.imageOk = true) (hx : s.known x = false) (ht : s.trunksServed x = true)
    (hp : cExpress (s.sawArg 0) = false ∨ s.pinnedCnt < 61440) (hf : s.lowestFree = some e) :
    s.runWrite x = ((s.newChan x e).zeroCell x).sawDone 0 e := by
  have hfull : (cExpress (s.sawArg 0) && decide (61440 ≤ s.pinnedCnt)) = false := by
    rcases hp with h | h
    · rw [h]
      rfl
    · rw [decide_eq_false (by omega), Bool.and_false]
  unfold State.runWrite
  simp only [hi, whereIs_unknown s x hx, ht, hfull, hf, Bool.not_true, Bool.false_eq_true, if_false]
  rfl
theorem runWrite_here (s : State) (x e : Nat) (en : Entry) (hi : s.imageOk = true) (hw : s.whereIs x = .here e en)
    (hk : s.pager.keyw = none) (hid : identityDiffers (s.sawArg 0) en.cfg0 = false ∨
      ((s.slot (vslotOf e false)).keyed = false ∧ (s.slot (vslotOf e true)).keyed = false))
    (hp : cExpress (s.sawArg 0) = false ∨ en.pinned = true ∨ s.pinnedCnt < 61440) :
    s.runWrite x = (s.writeImage x e (withActive (s.sawArg 0) en.act)).sawDone 0 e := by
  have hkeep : (identityDiffers (s.sawArg 0) en.cfg0 &&
      ((s.slot (vslotOf e false)).keyed || (s.slot (vslotOf e true)).keyed || s.keywFor x)) = false := by
    rcases hid with h | ⟨ha, hb⟩
    · rw [h]
      rfl
    · simp [ha, hb, State.keywFor, hk]
  have hfull : (cExpress (s.sawArg 0) && !en.pinned && decide (61440 ≤ s.pinnedCnt)) = false := by
    rcases hp with h | h | h
    · rw [h]
      rfl
    · simp [h]
    · rw [decide_eq_false (by omega), Bool.and_false]
  unfold State.runWrite
  simp only [hi, hw, hkeep, hfull, Bool.not_true, Bool.false_eq_true, if_false]
theorem runWrite_identity (s : State) (x e : Nat) (en : Entry) (hi : s.imageOk = true) (hw : s.whereIs x = .here e en)
    (hid : identityDiffers (s.sawArg 0) en.cfg0 = true)
    (hk : (s.slot (vslotOf e false)).keyed = true ∨ (s.slot (vslotOf e true)).keyed = true) :
    s.runWrite x = s.sawDone 0x05 0 := by
  have hkept : (identityDiffers (s.sawArg 0) en.cfg0 &&
      ((s.slot (vslotOf e false)).keyed || (s.slot (vslotOf e true)).keyed || s.keywFor x)) = true := by
    rw [hid]
    rcases hk with h | h <;> simp [h]
  unfold State.runWrite
  simp only [hi, hw, hkept, Bool.not_true, Bool.false_eq_true, if_false, if_true]

/-! ### A new channel -/

theorem sendSyncReq_keeps (s : State) (c : Bool) : (s.when c (·.sendSyncReq)).ch = s.ch ∧
    (s.when c (·.sendSyncReq)).store = s.store ∧ (s.when c (·.sendSyncReq)).lease = s.lease ∧
    (s.when c (·.sendSyncReq)).pager = s.pager ∧ (s.when c (·.sendSyncReq)).regs = s.regs := by
  unfold State.when State.sendSyncReq State.sendPair
  split
  · dsimp only
    split
    · exact ⟨rfl, rfl, rfl, rfl, rfl⟩
    · split <;> exact ⟨rfl, rfl, rfl, rfl, rfl⟩
  · exact ⟨rfl, rfl, rfl, rfl, rfl⟩
theorem writeImage_entry (s : State) (x e : Nat) (w : W32) : (s.writeImage x e w).entry e = (s.entry e).map (fun en =>
    { en with cfg0 := w, window := (s.sawArg 1).toNat, sci := s.imageSci, pinned := en.pinned || cExpress w }) :=
  entry_modEntry s e _
theorem writeImage_group (s : State) (x e : Nat) (w : W32) :
    (s.writeImage x e w).groupOf x = BitVec.ofNat 12 (fld (s.sawArg 4) 11 0) := Tab.get_set _ _ _ _
theorem lowestFree_lt (s : State) (e : Nat) (h : s.lowestFree = some e) : e < 65536 := by
  unfold State.lowestFree at h
  dsimp only at h
  split at h
  · next hk => exact Option.some.inj h ▸ hk
  · cases h
theorem resi_setResi (s : State) (x : Nat) (r : Resi) : (s.setResi x r).resi x = r := Tab.get_set _ _ _ _
theorem resident_intro (s : State) (x e : Nat) (en : Entry) (hr : (s.resi x).v = true) (hi : (s.resi x).idx = BitVec.ofNat 16 e)
    (he : e < 65536) (hen : s.entry e = some en) (hl : en.live = true) (hx : en.chix = x) : s.resident x = some e := by
  have hto : (BitVec.ofNat 16 e).toNat = e := by
    rw [BitVec.toNat_ofNat]
    exact Nat.mod_eq_of_lt he
  unfold State.resident
  simp only [hr, hi, hto, hen, hl, hx, and_self, if_true]
theorem resident_of_ch (s t : State) (x : Nat) (h : t.ch = s.ch) : t.resident x = s.resident x := by
  unfold State.resident State.resi State.entry
  rw [h]
theorem groupOf_of_ch (s t : State) (x : Nat) (h : t.ch = s.ch) : t.groupOf x = s.groupOf x := by
  unfold State.groupOf
  rw [h]
theorem newChan_effect (s : State) (x e : Nat) (he : e < 65536) :
    (s.newChan x e).resident x = some e ∧ (s.newChan x e).groupOf x = BitVec.ofNat 12 (fld (s.sawArg 4) 11 0) ∧
    (s.newChan x e).entry e = some {
      chix := x, live := true, lastUsed := s.useMs, cfg0 := s.sawArg 0, window := (s.sawArg 1).toNat, sci := s.imageSci
      pinned := cExpress (s.sawArg 0) } := by
  let r : State := (s.setEntry e (some { chix := x, live := true, lastUsed := s.useMs })).setResi x
    { s.resi x with v := true, idx := BitVec.ofNat 16 e }
  let t : State := r.writeImage x e (s.sawArg 0)
  obtain ⟨hch, -⟩ := sendSyncReq_keeps t s.pair.resync
  have hold : r.entry e = some { chix := x, live := true, lastUsed := s.useMs } :=
    entry_setEntry s e (some { chix := x, live := true, lastUsed := s.useMs })
  have hent : t.entry e = some {
      chix := x, live := true, lastUsed := s.useMs, cfg0 := s.sawArg 0, window := (s.sawArg 1).toNat, sci := s.imageSci
      pinned := cExpress (s.sawArg 0) } := by
    refine (writeImage_entry r x e _).trans ?_
    rw [hold]
    rfl
  have hres : r.resi x = { s.resi x with v := true, idx := BitVec.ofNat 16 e } := resi_setResi _ x _
  have ht : t.resident x = some e := resident_intro t x e _ (congrArg Resi.v hres) (congrArg Resi.idx hres) he hent rfl rfl
  refine ⟨?_, ?_, (entry_of_ch _ _ e hch).trans hent⟩
  · refine Eq.trans ?_ ht
    change (State.when t s.pair.resync (·.sendSyncReq)).resident x = t.resident x
    exact resident_of_ch t _ x hch
  · refine Eq.trans ?_ (writeImage_group r x e (s.sawArg 0))
    change (State.when t s.pair.resync (·.sendSyncReq)).groupOf x = t.groupOf x
    exact groupOf_of_ch t _ x hch
theorem newChan_keeps (s : State) (x e : Nat) : (s.newChan x e).store = s.store ∧ (s.newChan x e).lease = s.lease ∧
    (s.newChan x e).pager = s.pager ∧ (s.newChan x e).trunkLine = s.trunkLine := by
  obtain ⟨-, hst, hls, hpg, hregs⟩ := sendSyncReq_keeps (((s.setEntry e (some { chix := x, live := true, lastUsed := s.useMs })).setResi x
    { s.resi x with v := true, idx := BitVec.ofNat 16 e }).writeImage x e (s.sawArg 0)) s.pair.resync
  refine ⟨hst, hls, hpg, ?_⟩
  funext y l
  unfold State.trunkLine State.pageBase State.cfg
  rw [show (s.newChan x e).regs = s.regs from hregs]
/-- The cell of the trunks is written with zeros (R141). -/
theorem zeroCell_wait (s : State) (x : Nat) :
    (s.zeroCell x).store.wait.map (fun r => (r.wr, r.line, r.mask, r.who)) =
      s.store.wait.map (fun r => (r.wr, r.line, r.mask, r.who)) ++
        (List.range 4).map (fun l => (true, s.trunkLine x l, fullMask, Req.zeroWr x l)) := by
  unfold State.zeroCell
  simp only [List.range, List.range.loop, forEach_cons, forEach_nil, List.map_cons, List.map_nil]
  simp only [State.storeWrite, State.storeReq, State.setZero, State.modStore, List.map_append, List.append_assoc]
  rfl
theorem zeroCell_keeps (s : State) (x : Nat) : (s.zeroCell x).ch = s.ch ∧ (s.zeroCell x).pager = s.pager ∧
    (s.zeroCell x).lease = s.lease ∧ (s.zeroCell x).store.cmd = s.store.cmd := by
  have h : (fun s : State => (s.ch, s.pager, s.lease, s.store.cmd)) (s.zeroCell x) = (s.ch, s.pager, s.lease, s.store.cmd) :=
    forEach_keeps (fun s : State => (s.ch, s.pager, s.lease, s.store.cmd)) _ (fun s a => by rfl) _ s
  simpa only [Prod.mk.injEq] using h

/-- Settles O48: a new channel, the image of a resident one, and an identity field that must not change. -/
theorem channelsWritten : Obligations.ChannelsWritten := by
  unfold Obligations.ChannelsWritten
  have hneeds : ∀ (s : State) x, s.canRun .saw = true → s.domsLost (s.sawNeeds 0x01 x false) = false :=
    fun s x h => needs_tables s .saw h _ _ _ (sawNeeds_write s x false)
  refine ⟨fun cmd e s h hi hk ht hp hf => ?_, fun cmd e en s h hi hw hid hp => ?_, fun cmd e en s h hi hw hid hk => ?_⟩
  · let a := s.sawTaken (sawCmd cmd 0x01)
    have hrun : a.sawBody 0x01 (cmdChix cmd) false = ((a.newChan (cmdChix cmd) e).zeroCell (cmdChix cmd)).sawDone 0 e :=
      runWrite_unknown a (cmdChix cmd) e ((sawTaken_agrees s _).imageOk.trans hi) hk ht hp hf
    obtain ⟨hidle, -⟩ := canRun_parts s .saw h
    obtain ⟨hstore, hwin, -⟩ := idle_parts s hidle
    obtain ⟨-, hkeyw, hlcmd, hscmd⟩ := idle_cmds s hwin
    obtain ⟨hres, hgrp, hent⟩ := newChan_effect a (cmdChix cmd) e (lowestFree_lt s e hf)
    obtain ⟨hst, hls, hpg, hlines⟩ := newChan_keeps a (cmdChix cmd) e
    obtain ⟨zch, zpg, zls, zcmd⟩ := zeroCell_keeps (a.newChan (cmdChix cmd) e) (cmdChix cmd)
    let z := (a.newChan (cmdChix cmd) e).zeroCell (cmdChix cmd)
    have hd := sawDone_agrees z 0 e
    have hch := hd.ch.trans zch
    refine ⟨_, congrArg Host.Outcome.next (saw_carried s _ _ 0x01 _ false h (isCmd_sawCmd cmd 0x01 (by decide)) (hneeds s _ h) hrun ?_ ?_ ?_),
      saw_ended z _ 0x01 _ false 0 e (isCmd_sawCmd cmd 0x01 (by decide)) (congrArg Pager.saw (zpg.trans hpg)), ?_, ?_, (entry_of_ch _ _ e hch).trans hent, ?_⟩
    · exact hd.keyw.trans ((congrArg Pager.keyw (zpg.trans hpg)).trans hkeyw)
    · exact (congrArg Lease.cmd (hd.lease.trans (zls.trans hls))).trans hlcmd
    · exact (congrArg Store.cmd hd.store).trans ((zcmd.trans (congrArg Store.cmd hst)).trans hscmd)
    · exact (resident_of_ch _ _ _ hch).trans hres
    · exact (groupOf_of_ch _ _ _ hch).trans hgrp
    · rw [hd.store, zeroCell_wait, hst]
      simp only [hlines]
      exact congrArg (fun l : List SReq => l.map (fun r => (r.wr, r.line, r.mask, r.who)) ++ _) (storeIdle_wait s hstore)
  · let a := s.sawTaken (sawCmd cmd 0x01)
    have ha := sawTaken_agrees s (sawCmd cmd 0x01)
    obtain ⟨hidle, -⟩ := canRun_parts s .saw h
    obtain ⟨-, hwin, -, -, hent, -⟩ := idle_parts s hidle
    have hen : a.entry e = some en := (whereIs_here s _ e en hw).2.2.1
    obtain ⟨hstart, hend⟩ := saw_answered s (a.writeImage (cmdChix cmd) e (withActive (s.sawArg 0) en.act)) _ 0x01 _ false 0 e h
      (isCmd_sawCmd cmd 0x01 (by decide)) (hneeds s _ h)
      (runWrite_here a _ e en (ha.imageOk.trans hi) hw (idle_cmds s hwin).2.1 hid hp) (duties_of_agrees s a ha)
      (entriesIdle_modEntry a e _ (fun _ h => h) hent) rfl
    have hch := (sawDone_agrees (a.writeImage (cmdChix cmd) e (withActive (s.sawArg 0) en.act)) 0 e).ch
    refine ⟨_, congrArg Host.Outcome.next hstart, hend, (congrArg Chans.slots hch :), ?_, (entry_of_ch _ _ e hch).trans ?_⟩
    · exact (groupOf_of_ch _ _ _ hch).trans (writeImage_group a _ e _)
    · rw [writeImage_entry, hen]
      rfl
  · let a := s.sawTaken (sawCmd cmd 0x01)
    have ha := sawTaken_agrees s (sawCmd cmd 0x01)
    have hent := (idle_parts s (canRun_parts s .saw h).1).2.2.2.2.1
    obtain ⟨hstart, hend⟩ := saw_answered s a _ 0x01 _ false 0x05 0 h (isCmd_sawCmd cmd 0x01 (by decide)) (hneeds s _ h)
      (runWrite_identity a _ e en (ha.imageOk.trans hi) hw hid hk) (duties_of_agrees _ _ ha) (ha.entriesIdle.trans hent) rfl
    exact ⟨_, congrArg Host.Outcome.next hstart, hend, (sawDone_agrees a _ _).ch⟩

end Sys2Proof.Machine
end

section
/-! PROOFS. The schedules: EQX_SCHEDULE and SOL_SCHEDULE (R202 to R214). -/
namespace Sys2Proof.Machine

/-! ### The row of a schedule command -/

/-- The state in which a schedule command with its mode has been taken. -/
def State.schedTaken (s : State) (cmd : W32) (op m : Nat) : State := (s.withMode m).sawTaken (sawCmd cmd op)
theorem sched_begin (s : State) (cmd : W32) (op m : Nat) (h : s.canRun .saw = true) :
    s.begin.sched cmd op m = (s.withMode m).begin.sawStart (sawCmd cmd op) := by
  obtain ⟨-, hfree, -⟩ := canRun_parts s .saw h
  obtain ⟨hup, hreset, hbusy⟩ := free_parts s .saw hfree
  exact if_pos ⟨hup, hbusy, hreset⟩
theorem canRun_withMode (s : State) (m : Nat) (h : s.canRun .saw = true) : (s.withMode m).canRun .saw = true := by
  obtain ⟨hidle, hfree, htab⟩ := canRun_parts s .saw h
  obtain ⟨-, hwin, -, -, hent, -⟩ := idle_parts s hidle
  have hidle' : (s.withMode m).idle = true := idle_of_duties s _ (setSaw_duties s _ _) hidle hent (idle_cmds s hwin).1
  unfold State.canRun
  rw [hidle', show (s.withMode m).free .saw = s.free .saw from rfl, hfree, show (s.withMode m).tablesUp = s.tablesUp from rfl, htab]
  rfl
theorem schedTaken_arg0 (s : State) (cmd : W32) (op m : Nat) :
    (s.schedTaken cmd op m).cfg .saw 0xC0 = mergeBits 0xE0000000 (atPos m 29) (s.sawArg 0) := sawArg_setSawArg s 0 _
theorem schedTaken_mode (s : State) (cmd : W32) (op m : Nat) (hm : m < 5) : (s.schedTaken cmd op m).schedMode = m := by
  have hpos : ∀ m < 5, fld (atPos m 29) 31 29 = m := by decide
  unfold State.schedMode
  rw [schedTaken_arg0, fld_mergeBits_in _ _ _ _ _ (by decide) (by decide)]
  exact hpos m hm
theorem schedTaken_low (s : State) (cmd : W32) (op m hi : Nat) (hhi : hi < 29) :
    fld ((s.schedTaken cmd op m).cfg .saw 0xC0) hi 0 = fld (s.sawArg 0) hi 0 := by
  have hmask : ∀ i < 29, (0xE0000000#32).getLsbD i = false := by decide
  rw [schedTaken_arg0]
  exact fld_mergeBits _ _ _ _ _ (by omega) (fun i hi' _ => hmask i (by omega))
theorem schedTaken_bit (s : State) (cmd : W32) (op m n : Nat) (hn : n < 29) :
    bit ((s.schedTaken cmd op m).cfg .saw 0xC0) n = bit (s.sawArg 0) n := by
  have hmask : ∀ i < 29, (0xE0000000#32).getLsbD i = false := by decide
  rw [schedTaken_arg0]
  unfold bit
  rw [getLsbD_mergeBits _ _ _ _ (by omega), show (0xE0000000 : W32).getLsbD n = false from hmask n hn]
  rfl
theorem schedTaken_args (s : State) (cmd : W32) (op m off : Nat) (h : off ≠ 0xC0) :
    (s.schedTaken cmd op m).cfg .saw off = s.cfg .saw off := by
  refine cfg_setCfg_ne s .saw .saw _ _ _ ?_
  unfold Page.at
  omega
theorem schedTaken_time (s : State) (cmd : W32) (op m : Nat) : (s.schedTaken cmd op m).schedTime = s.schedTime ∧
    (s.schedTaken cmd op m).schedTimeOk = s.schedTimeOk ∧ (s.schedTaken cmd op m).schedPn = s.schedPn := by
  unfold State.schedTime State.schedTimeOk State.schedPn
  rw [schedTaken_args s cmd op m 0xC4 (by decide), schedTaken_args s cmd op m 0xC8 (by decide),
    schedTaken_args s cmd op m 0xCC (by decide)]
  exact ⟨rfl, rfl, rfl⟩
theorem schedTaken_forced (s : State) (cmd : W32) (op m : Nat) (en : Entry) :
    (s.schedTaken cmd op m).forcedAt en = s.forcedAt en := by
  have hlog : (s.schedTaken cmd op m).cfg .glb 0x200 = s.cfg .glb 0x200 :=
    cfg_setCfg_ne s .saw .glb _ 0x200 _ (by decide)
  unfold State.forcedAt State.forceLog
  rw [hlog]
theorem schedTaken_duties (s : State) (cmd : W32) (op m : Nat) : (s.schedTaken cmd op m).duties = s.duties :=
  setSaw_duties s (0xC0 + 4 * 0) _
/-- What a schedule command may change so that nothing follows it. -/
def State.onlyPlans (s t : State) : Prop :=
  t.duties = s.duties ∧ (s.entriesIdle = true → t.entriesIdle = true) ∧ t.pager = s.pager
theorem onlyPlans_trans {a b c : State} (h : a.onlyPlans b) (k : b.onlyPlans c) : a.onlyPlans c :=
  ⟨k.1.trans h.1, fun he => k.2.1 (h.2.1 he), k.2.2.trans h.2.2⟩
theorem onlyPlans_modEntry (s : State) (e : Nat) (f : Entry → Entry)
    (hf : ∀ en, (f en).live = en.live ∧ (f en).evicting = en.evicting) : s.onlyPlans (s.modEntry e f) :=
  ⟨rfl, entriesIdle_modEntry s e f (fun en h => by rw [(hf en).1, (hf en).2]; exact h), rfl⟩
theorem onlyPlans_mirrorSched (s : State) (it : MItem) : s.onlyPlans (s.mirrorSched it) :=
  ⟨mirrorSched_duties s it, fun he => (entriesIdle_of_entries s _ (congrArg Chans.entries (mirrorSched_ch s it))).trans he,
    mirrorSched_pager s it⟩
theorem onlyPlans_eqxLog (s : State) (k x : Nat) (b : Bool) (an : BitVec 2) (t : Nat) : s.onlyPlans (s.eqxLog k x b an t) := by
  obtain ⟨hd, he, -, hp⟩ := eqxLog_keeps s k x b an t
  exact ⟨hd, fun h => (entriesIdle_of_entries s _ he).trans h, hp⟩
theorem onlyPlans_slotChanged (s : State) (e : Nat) (b : Bool) : s.onlyPlans (s.slotChanged e b) := by
  have h := slotChanged_untold s e b
  simp only [State.untold, Prod.mk.injEq] at h
  obtain ⟨hd, hch, hp⟩ := h
  exact ⟨hd, fun he => (entriesIdle_of_entries s _ (congrArg Chans.entries hch)).trans he, hp⟩
theorem onlyPlans_putSched (s : State) (w0 w1 w2 w3 : W32) : s.onlyPlans (s.putSched w0 w1 w2 w3) :=
  ⟨(setSaw_duties _ _ _).trans ((setSaw_duties _ _ _).trans ((setSaw_duties _ _ _).trans (setSaw_duties s _ _))),
    fun he => he, rfl⟩

theorem sched_answered (s u : State) (cmd : W32) (op m code : Nat) (sol : Bool) (h : s.canRun .saw = true)
    (hop : (op, sol) = (0x10, false) ∨ (op, sol) = (0x11, true))
    (hrun : (s.schedTaken cmd op m).runSched (cmdChix cmd) sol = u.sawDone code 0)
    (hu : (s.schedTaken cmd op m).onlyPlans u) :
    s.begin.sched cmd op m = u.sawDone code 0 ∧ (u.sawDone code 0).ended .saw 0x84 0 code op 0 := by
  obtain ⟨hd, he, hp⟩ := hu
  have hrun' := canRun_withMode s m h
  have hneeds : (s.withMode m).sawNeeds op (cmdChix cmd) false = tableDoms := by
    rcases hop with hop | hop <;> cases hop <;> simp [State.sawNeeds]
  have hbody : (s.schedTaken cmd op m).sawBody op (cmdChix cmd) false = u.sawDone code 0 := by
    rcases hop with hop | hop <;> cases hop <;> exact hrun
  rw [sched_begin s cmd _ m h]
  have hmem : op ∈ sawOps := by rcases hop with hop | hop <;> cases hop <;> decide
  exact saw_answered (s.withMode m) u _ op _ false code 0 hrun' (isCmd_sawCmd cmd op hmem)
    (needs_tables _ .saw hrun' _ _ _ hneeds) hbody hd (he (idle_parts _ (canRun_parts _ .saw hrun').1).2.2.2.2.1)
    (congrArg Pager.saw hp)

/-- A schedule command on a resident channel, in a role that schedules or asking alone (R203, R210, R329). -/
theorem runSched_here (s : State) (x e : Nat) (en : Entry) (sol : Bool) (hw : s.whereIs x = .here e en)
    (hok : (if sol then s.solFieldsOk else s.eqxFieldsOk) = true)
    (hrole : (s.pair.role ≠ .standby ∧ s.pair.role ≠ .seek) ∨ s.schedMode = 4) :
    s.runSched x sol = (if sol then s.solRun e en else s.eqxRun e en).1.sawDone (if sol then s.solRun e en else s.eqxRun e en).2 0 := by
  have hgo : ((decide (s.pair.role = .standby) || decide (s.pair.role = .seek)) && decide (s.schedMode ≠ 4)) = false := by
    rcases hrole with ⟨h1, h2⟩ | h
    · simp [h1, h2]
    · simp [h]
  unfold State.runSched
  simp only [hok, hgo, hw, Bool.not_true, Bool.false_eq_true, if_false]
theorem runSched_eqx (s : State) (x e : Nat) (en : Entry) (hw : s.whereIs x = .here e en) (hok : s.eqxFieldsOk = true)
    (hrole : (s.pair.role ≠ .standby ∧ s.pair.role ≠ .seek) ∨ s.schedMode = 4) :
    s.runSched x false = (s.eqxRun e en).1.sawDone (s.eqxRun e en).2 0 := by
  have := runSched_here s x e en false hw (by rwa [if_neg Bool.false_ne_true]) hrole
  rwa [if_neg Bool.false_ne_true] at this
theorem runSched_sol (s : State) (x e : Nat) (en : Entry) (hw : s.whereIs x = .here e en) (hok : s.solFieldsOk = true)
    (hrole : (s.pair.role ≠ .standby ∧ s.pair.role ≠ .seek) ∨ s.schedMode = 4) :
    s.runSched x true = (s.solRun e en).1.sawDone (s.solRun e en).2 0 := by
  have := runSched_here s x e en true hw (by rwa [if_pos rfl]) hrole
  rwa [if_pos rfl] at this
theorem runSched_standby (s : State) (x : Nat) (sol : Bool) (hok : (if sol then s.solFieldsOk else s.eqxFieldsOk) = true)
    (hrole : s.pair.role = .standby ∨ s.pair.role = .seek) (hm : s.schedMode ≠ 4) : s.runSched x sol = s.sawDone 0x26 0 := by
  have hgo : ((decide (s.pair.role = .standby) || decide (s.pair.role = .seek)) && decide (s.schedMode ≠ 4)) = true := by
    rcases hrole with h | h <;> simp [h, hm]
  unfold State.runSched
  simp only [hok, hgo, Bool.not_true, Bool.false_eq_true, if_false, if_true]
theorem sawDone_sawArg (s : State) (code detail n : Nat) : (s.sawDone code detail).sawArg n = s.sawArg n :=
  congrFun (congrFun (sawDone_agrees s code detail).cfg .saw) (0xC0 + 4 * n)
theorem putSched_ch (s : State) (w0 w1 w2 w3 : W32) : (s.putSched w0 w1 w2 w3).ch = s.ch := rfl
theorem putSched_arg0 (s : State) (w0 w1 w2 w3 : W32) : (s.putSched w0 w1 w2 w3).sawArg 0 = w0 := by
  unfold State.putSched
  refine (cfg_setCfg_ne _ .saw .saw _ _ _ (by decide)).trans ?_
  refine (cfg_setCfg_ne _ .saw .saw _ _ _ (by decide)).trans ?_
  refine (cfg_setCfg_ne _ .saw .saw _ _ _ (by decide)).trans ?_
  exact cfg_setCfg s .saw 0xC0 w0

/-! ### EQX_SCHEDULE -/

theorem eqxFields_taken (s : State) (cmd : W32) (m : Nat) (hm : m < 5) (hf : fld (s.sawArg 0) 26 0 = 0)
    (ht : m = 1 → s.schedTimeOk = true) : (s.schedTaken cmd 0x10 m).eqxFieldsOk = true := by
  unfold State.eqxFieldsOk
  rw [schedTaken_mode s cmd 0x10 m hm, schedTaken_low s cmd 0x10 m 26 (by decide), (schedTaken_time s cmd 0x10 m).2.1, hf,
    decide_eq_true (by omega : m ≤ 4)]
  by_cases h1 : m = 1
  · simp [h1, ht h1]
  · simp [h1]
theorem eqxSet_effect (s : State) (e : Nat) (en : Entry) (q : Eqx) (he : s.entry e = some en) :
    (s.eqxSet e en q).entry e = some { en with eqx := some q } ∧ s.onlyPlans (s.eqxSet e en q) := by
  refine ⟨?_, onlyPlans_trans (onlyPlans_modEntry s e (fun x => { x with eqx := some q }) (fun _ => ⟨rfl, rfl⟩))
    (onlyPlans_mirrorSched _ _)⟩
  refine (entry_of_ch _ _ e (mirrorSched_ch _ _)).trans ?_
  rw [entry_modEntry, he]
  rfl
theorem eqxCancel_effect (s : State) (e : Nat) (en : Entry) (he : s.entry e = some en) :
    (s.eqxCancel e en).entry e = some { en with eqx := none } ∧ (s.eqxCancel e en).ch.slots = s.ch.slots ∧
    s.onlyPlans (s.eqxCancel e en) := by
  unfold State.eqxCancel
  dsimp only
  split
  · next hq =>
    have hsame : en = { en with eqx := none } := by rw [← hq]
    exact ⟨((entry_of_ch _ _ e (mirrorSched_ch _ _)).trans he).trans (congrArg some hsame),
      congrArg Chans.slots (mirrorSched_ch _ _), onlyPlans_mirrorSched _ _⟩
  · next q hq =>
    let t := s.modEntry e (fun x => { x with eqx := none })
    obtain ⟨-, hent, hsl, -⟩ := eqxLog_keeps t 6 en.chix (!q.fromB) (t.slot (vslotOf e (!q.fromB))).an t.sys.tmL.ns
    refine ⟨(entry_of_ch _ _ e (mirrorSched_ch _ _)).trans ?_, (congrArg Chans.slots (mirrorSched_ch _ _)).trans hsl,
      onlyPlans_trans (onlyPlans_trans (onlyPlans_modEntry s e (fun x => { x with eqx := none }) (fun _ => ⟨rfl, rfl⟩))
        (onlyPlans_eqxLog t _ _ _ _ _)) (onlyPlans_mirrorSched _ _)⟩
    refine (congrArg (fun l => Tab.get none l e) hent).trans ((entry_modEntry s e _).trans ?_)
    rw [he]
    rfl
theorem eqxQuery_effect (s : State) (e : Nat) (en : Entry) : (s.eqxQuery e en).ch = s.ch ∧ s.onlyPlans (s.eqxQuery e en) ∧
    ∀ q : Eqx, en.eqx = some q → (s.eqxQuery e en).sawArg 0 =
      (atPos q.mode.code 29 ||| atBit q.fromB 28 ||| atBit q.defer 27 ||| atBit q.deferred 26 |||
        atBit (decide (s.forcedAt en ≤ (s.slot (vslotOf e en.act)).next) && !(s.slot (vslotOf e en.act)).forced &&
          decide ((s.slot (vslotOf e en.act)).st = .live)) 25) := by
  unfold State.eqxQuery State.putTime
  dsimp only
  split
  · next hq => exact ⟨putSched_ch _ _ _ _ _, onlyPlans_putSched _ _ _ _ _, fun q h => by rw [hq] at h; cases h⟩
  · next q hq =>
    split
    all_goals
      refine ⟨putSched_ch _ _ _ _ _, onlyPlans_putSched _ _ _ _ _, fun q' h => ?_⟩
      rw [hq] at h
      cases h
      exact putSched_arg0 _ _ _ _ _
/-- What a mode of EQX_SCHEDULE does on a transmit channel (R203 orders 3 to 6). -/
theorem eqxRun_set (s : State) (e : Nat) (en : Entry) (hrx : cRx en.cfg0 = false) (hm : 1 ≤ s.schedMode ∧ s.schedMode ≤ 3)
    (hf : bit (s.cfg .saw 0xC0) 28 = en.act) (hk : (s.slot (vslotOf e (!en.act))).keyed = true)
    (hp : s.schedMode = 2 → 1 ≤ s.schedPn ∧ s.schedPn ≤ pnCap en.cfg0) :
    s.eqxRun e en =
      if s.schedMode = 1 then (s.eqxSet e en { mode := .time, fromB := en.act, defer := bit (s.cfg .saw 0xC0) 27, val := s.schedTime },
        if s.schedTime ≤ s.sys.tmL.ns then 0x23 else 0)
      else if s.schedMode = 2 then
        (s.eqxSet e en { mode := .pn, fromB := en.act, defer := bit (s.cfg .saw 0xC0) 27, val := s.schedPn }, 0)
      else (s.eqxSet e en { mode := .now, fromB := en.act, defer := bit (s.cfg .saw 0xC0) 27, val := 0 }, 0) := by
  obtain ⟨h1, h3⟩ := hm
  have hcases : s.schedMode = 1 ∨ s.schedMode = 2 ∨ s.schedMode = 3 := by omega
  unfold State.eqxRun
  rcases hcases with h | h | h
  · simp [hrx, hf, hk, h]
  · obtain ⟨hp1, hp2⟩ := hp h
    simp [hrx, hf, hk, h, hp1, hp2]
  · simp [hrx, hf, hk, h]
theorem eqxRun_cancel (s : State) (e : Nat) (en : Entry) (hrx : cRx en.cfg0 = false) (hm : s.schedMode = 0) :
    s.eqxRun e en = (s.eqxCancel e en, 0) := by
  unfold State.eqxRun
  simp [hrx, hm]
theorem eqxRun_query (s : State) (e : Nat) (en : Entry) (hrx : cRx en.cfg0 = false) (hm : s.schedMode = 4) :
    s.eqxRun e en = (s.eqxQuery e en, 0) := by
  unfold State.eqxRun
  simp [hrx, hm]
/-- EQX_SCHEDULE in a mode, once its effect in the window is known. -/
theorem exec_eqx (s u : State) (cmd : W32) (m code e : Nat) (en : Entry) (h : s.canRun .saw = true)
    (hw : s.whereIs (cmdChix cmd) = .here e en) (hm : m < 5) (hf : fld (s.sawArg 0) 26 0 = 0) (ht : m = 1 → s.schedTimeOk = true)
    (hrole : (s.pair.role ≠ .standby ∧ s.pair.role ≠ .seek) ∨ m = 4)
    (hrun : (s.schedTaken cmd 0x10 m).eqxRun e en = (u, code)) (hu : (s.schedTaken cmd 0x10 m).onlyPlans u) :
    s.begin.sched cmd 0x10 m = u.sawDone code 0 ∧ (u.sawDone code 0).ended .saw 0x84 0 code 0x10 0 := by
  have hmode := schedTaken_mode s cmd 0x10 m hm
  refine sched_answered s u cmd 0x10 m code false h (.inl rfl) ?_ hu
  rw [runSched_eqx (s.schedTaken cmd 0x10 m) _ e en hw (eqxFields_taken s cmd m hm hf ht) (hrole.imp_right hmode.trans), hrun]

/-- Settles O51: each mode of EQX_SCHEDULE on a transmit channel. -/
theorem equinoxScheduled : Obligations.EquinoxScheduled := by
  unfold Obligations.EquinoxScheduled
  intro cmd e en s h hw hrx hf
  have hen : s.entry e = some en := (whereIs_here s _ e en hw).2.2.1
  have hbit27 := fun m => schedTaken_bit s cmd 0x10 m 27 (by decide)
  have htime := schedTaken_time s cmd 0x10
  refine ⟨fun hsb hsk hfrom hkey => ?_, fun hsb hsk => ?_, ?_, fun hrole p hp => ?_⟩
  · have hset : ∀ m, 1 ≤ m → m ≤ 3 → (m = 2 → 1 ≤ s.schedPn ∧ s.schedPn ≤ pnCap en.cfg0) →
        (s.schedTaken cmd 0x10 m).eqxRun e en = _ := fun m h1 h3 hp =>
      eqxRun_set (s.schedTaken cmd 0x10 m) e en hrx (by rw [schedTaken_mode s cmd _ m (by omega)]; exact ⟨h1, h3⟩)
        ((schedTaken_bit s cmd 0x10 m 28 (by decide)).trans hfrom) hkey
        (fun h => by rw [(htime m).2.2]; exact hp ((schedTaken_mode s cmd 0x10 m (by omega)).symm.trans h))
    refine ⟨fun hok => ?_, fun h1 h2 => ?_, ?_⟩
    · obtain ⟨hent, hu⟩ := eqxSet_effect (s.schedTaken cmd 0x10 1) e en
        { mode := .time, fromB := en.act, defer := bit (s.sawArg 0) 27, val := s.schedTime } hen
      have hr := hset 1 (by decide) (by decide) (fun h => absurd h (by decide))
      rw [if_pos (schedTaken_mode s cmd 0x10 1 (by decide)), hbit27, (htime 1).1] at hr
      obtain ⟨hx, hend⟩ := exec_eqx s _ cmd 1 _ e en h hw (by decide) hf (fun _ => hok) (.inl ⟨hsb, hsk⟩) hr hu
      exact ⟨_, congrArg Host.Outcome.next hx, hend, (entry_of_ch _ _ e (sawDone_agrees _ _ 0).ch).trans hent⟩
    · obtain ⟨hent, hu⟩ := eqxSet_effect (s.schedTaken cmd 0x10 2) e en
        { mode := .pn, fromB := en.act, defer := bit (s.sawArg 0) 27, val := s.schedPn } hen
      have hr := hset 2 (by decide) (by decide) (fun _ => ⟨h1, h2⟩)
      rw [schedTaken_mode s cmd 0x10 2 (by decide), hbit27, (htime 2).2.2] at hr
      obtain ⟨hx, hend⟩ := exec_eqx s _ cmd 2 _ e en h hw (by decide) hf (fun h => absurd h (by decide)) (.inl ⟨hsb, hsk⟩) hr hu
      exact ⟨_, congrArg Host.Outcome.next hx, hend, (entry_of_ch _ _ e (sawDone_agrees _ _ 0).ch).trans hent⟩
    · obtain ⟨hent, hu⟩ := eqxSet_effect (s.schedTaken cmd 0x10 3) e en
        { mode := .now, fromB := en.act, defer := bit (s.sawArg 0) 27, val := 0 } hen
      have hr := hset 3 (by decide) (by decide) (fun h => absurd h (by decide))
      rw [schedTaken_mode s cmd 0x10 3 (by decide), hbit27] at hr
      obtain ⟨hx, hend⟩ := exec_eqx s _ cmd 3 _ e en h hw (by decide) hf (fun h => absurd h (by decide)) (.inl ⟨hsb, hsk⟩) hr hu
      exact ⟨_, congrArg Host.Outcome.next hx, hend, (entry_of_ch _ _ e (sawDone_agrees _ _ 0).ch).trans hent⟩
  · obtain ⟨hent, hsl, hu⟩ := eqxCancel_effect (s.schedTaken cmd 0x10 0) e en hen
    obtain ⟨hx, hend⟩ := exec_eqx s _ cmd 0 0 e en h hw (by decide) hf (fun h => absurd h (by decide)) (.inl ⟨hsb, hsk⟩)
      (eqxRun_cancel _ e en hrx (schedTaken_mode s cmd 0x10 0 (by decide))) hu
    have hch := (sawDone_agrees ((s.schedTaken cmd 0x10 0).eqxCancel e en) 0 0).ch
    exact ⟨_, congrArg Host.Outcome.next hx, hend, (entry_of_ch _ _ e hch).trans hent, (congrArg Chans.slots hch :).trans hsl⟩
  · obtain ⟨hch, hu, hq⟩ := eqxQuery_effect (s.schedTaken cmd 0x10 4) e en
    obtain ⟨hx, hend⟩ := exec_eqx s _ cmd 4 0 e en h hw (by decide) hf (fun h => absurd h (by decide)) (.inr rfl)
      (eqxRun_query _ e en hrx (schedTaken_mode s cmd 0x10 4 (by decide))) hu
    refine ⟨_, congrArg Host.Outcome.next hx, hend, (sawDone_agrees _ _ _).ch.trans hch, fun q hqe => ?_⟩
    rw [sawDone_sawArg, hq q hqe, schedTaken_forced]
    rfl
  · have refused : ∀ m, m < 4 → m ≠ 1 → s.begin.sched cmd 0x10 m = (s.schedTaken cmd 0x10 m).sawDone 0x26 0 ∧
        ((s.schedTaken cmd 0x10 m).sawDone 0x26 0).ended .saw 0x84 0 0x26 0x10 0 := fun m hm h1 =>
      sched_answered s (s.schedTaken cmd 0x10 m) cmd 0x10 m 0x26 false h (.inl rfl)
        (runSched_standby (s.schedTaken cmd 0x10 m) _ false
          (by rw [if_neg Bool.false_ne_true]; exact eqxFields_taken s cmd m (by omega) hf (fun h => absurd h h1)) hrole
          (by rw [schedTaken_mode s cmd _ m (by omega)]; omega)) ⟨rfl, id, rfl⟩
    have hp' : p = .eqxSchedulePn cmd ∨ p = .eqxScheduleNow cmd ∨ p = .eqxScheduleCancel cmd := by simpa using hp
    rcases hp' with rfl | rfl | rfl
    · obtain ⟨hx, hend⟩ := refused 2 (by decide) (by decide)
      exact ⟨_, congrArg Host.Outcome.next hx, hend, (sawDone_agrees (s.schedTaken cmd 0x10 2) _ _).ch⟩
    · obtain ⟨hx, hend⟩ := refused 3 (by decide) (by decide)
      exact ⟨_, congrArg Host.Outcome.next hx, hend, (sawDone_agrees (s.schedTaken cmd 0x10 3) _ _).ch⟩
    · obtain ⟨hx, hend⟩ := refused 0 (by decide) (by decide)
      exact ⟨_, congrArg Host.Outcome.next hx, hend, (sawDone_agrees (s.schedTaken cmd 0x10 0) _ _).ch⟩

end Sys2Proof.Machine
end

section
/-! PROOFS. SOL_SCHEDULE (R210 to R214). -/
namespace Sys2Proof.Machine

theorem solFields_taken (s : State) (cmd : W32) (m : Nat) (hm : m < 5) (hf : fld (s.sawArg 0) 27 0 = 0)
    (ht : m = 1 → s.schedTimeOk = true) (hg : m = 2 → (s.sawArg 1).toNat ≤ 10000000) :
    (s.schedTaken cmd 0x11 m).solFieldsOk = true := by
  have hgrace : (s.schedTaken cmd 0x11 m).cfg .saw 0xC4 = s.sawArg 1 := schedTaken_args s cmd 0x11 m 0xC4 (by decide)
  unfold State.solFieldsOk
  rw [schedTaken_mode s cmd 0x11 m hm, schedTaken_low s cmd 0x11 m 27 (by decide), (schedTaken_time s cmd 0x11 m).2.1, hf,
    hgrace, decide_eq_true (by omega : m ≤ 4)]
  by_cases h1 : m = 1
  · simp [h1, ht h1]
  · by_cases h2 : m = 2
    · simp [h2, hg h2]
    · simp [h1, h2]
theorem slotChanged_ch (s : State) (e : Nat) (b : Bool) : (s.slotChanged e b).ch = s.ch :=
  congrArg (·.2.1) (slotChanged_untold s e b)
/-- The retirement of a slot (R211). -/
theorem retire_effect (s : State) (e : Nat) (en : Entry) (q : Sol) (he : s.entry e = some en) :
    (s.retire e q).entry e = some { en with sol := none } ∧ ((s.retire e q).slot (vslotOf e q.slotB)).retired = true ∧
    ((s.retire e q).slot (vslotOf e q.slotB)).retAt = q.val ∧ s.onlyPlans (s.retire e q) := by
  let v := vslotOf e q.slotB
  let a := s.modSlot v (fun x => { x with retired := true, retAt := q.val })
  let b := (a.modEntry e (fun x => { x with sol := none })).evt 150 1
  let c := b.eqxLog 5 en.chix q.slotB (b.slot v).an q.val
  let d := c.mirrorSched (schedItem en.chix q.slotB 4 q.mode.code 0 false (c.slot v)
      (beBytes 6 (nsSec q.val) ++ beBytes 4 (nsNs q.val)))
  have hr : s.retire e q = d.slotChanged e q.slotB := by
    unfold State.retire
    rw [he]
  have ha : a.slot v = { s.slot v with retired := true, retAt := q.val } := slot_modSlot s v _
  have hae : a.entry e = some en := he
  have hb : b.entry e = some { en with sol := none } := by
    refine (entry_modEntry a e _).trans ?_
    rw [hae]
    rfl
  have hsb : s.onlyPlans b :=
    onlyPlans_trans (b := a) ⟨rfl, id, rfl⟩ (onlyPlans_trans (onlyPlans_modEntry a e (fun x => { x with sol := none })
      (fun _ => ⟨rfl, rfl⟩)) ⟨rfl, id, rfl⟩)
  obtain ⟨-, hce, hcs, -⟩ := eqxLog_keeps b 5 en.chix q.slotB (b.slot v).an q.val
  have hch : (d.slotChanged e q.slotB).ch = c.ch := (slotChanged_ch d e q.slotB).trans (mirrorSched_ch c _)
  have hslot : (d.slotChanged e q.slotB).slot v = { s.slot v with retired := true, retAt := q.val } := by
    rw [slot_of_ch _ _ v hch, show c.slot v = b.slot v from congrArg (fun l => Tab.get ({} : Slot) l v) hcs]
    exact ha
  rw [hr]
  refine ⟨?_, congrArg Slot.retired hslot, congrArg Slot.retAt hslot, onlyPlans_trans hsb
    (onlyPlans_trans (onlyPlans_eqxLog b _ _ _ _ _) (onlyPlans_trans (onlyPlans_mirrorSched c _) (onlyPlans_slotChanged d e _)))⟩
  rw [entry_of_ch _ _ e hch, show c.entry e = b.entry e from congrArg (fun l => Tab.get none l e) hce, hb]
theorem solDue_eq (s : State) (q : Sol) (hw : q.watch = false) (hv : s.sys.tmL.vld = true) :
    s.solDue q = decide (q.val ≤ s.sys.tmL.ns) := by
  unfold State.solDue
  rw [hw, hv]
  rfl
/-- An accepted Solstice: pending, or at once when its time is past (R211). -/
theorem solSet_effect (s : State) (e : Nat) (en : Entry) (q : Sol) (he : s.entry e = some en) :
    (s.solDue q = false → (s.solSet e en q).entry e = some { en with sol := some q }) ∧
    (s.solDue q = true → (s.solSet e en q).entry e = some { en with sol := none } ∧
      ((s.solSet e en q).slot (vslotOf e q.slotB)).retired = true ∧
      ((s.solSet e en q).slot (vslotOf e q.slotB)).retAt = q.val) ∧
    s.onlyPlans (s.solSet e en q) := by
  unfold State.solSet
  extract_lets a b
  have ha : a.entry e = some { en with sol := some q } := by
    refine (entry_modEntry s e _).trans ?_
    rw [he]
    rfl
  have hb : b.entry e = some { en with sol := some q } := (entry_of_ch _ _ e (mirrorSched_ch a _)).trans ha
  have hsb : s.onlyPlans b := onlyPlans_trans (onlyPlans_modEntry s e (fun x => { x with sol := some q }) (fun _ => ⟨rfl, rfl⟩))
    (onlyPlans_mirrorSched a _)
  have hdue : b.solDue q = s.solDue q := by
    have hsys : b.sys = s.sys := congrArg (fun x => x.2.2.2.2.1) hsb.1
    unfold State.solDue
    rw [hsys]
  obtain ⟨re, rr, ra, ru⟩ := retire_effect b e _ q hb
  rw [hdue]
  split
  · next h => exact ⟨fun h' => by simp [h] at h', fun _ => ⟨re, rr, ra⟩, onlyPlans_trans hsb ru⟩
  · next h => exact ⟨fun _ => hb, fun h' => absurd h' h, hsb⟩
theorem solCancel_effect (s : State) (e : Nat) (en : Entry) (he : s.entry e = some en) :
    (s.solCancel e en).entry e = some { en with sol := none } ∧ (s.solCancel e en).ch.slots = s.ch.slots ∧
    s.onlyPlans (s.solCancel e en) := by
  unfold State.solCancel
  dsimp only
  split
  · next hq =>
    have hsame : en = { en with sol := none } := by rw [← hq]
    exact ⟨((entry_of_ch _ _ e (mirrorSched_ch _ _)).trans he).trans (congrArg some hsame),
      congrArg Chans.slots (mirrorSched_ch _ _), onlyPlans_mirrorSched _ _⟩
  · next q hq =>
    let t := s.modEntry e (fun x => { x with sol := none })
    obtain ⟨-, hent, hsl, -⟩ := eqxLog_keeps t 6 en.chix q.slotB (t.slot (vslotOf e q.slotB)).an t.sys.tmL.ns
    refine ⟨(entry_of_ch _ _ e (mirrorSched_ch _ _)).trans ?_, (congrArg Chans.slots (mirrorSched_ch _ _)).trans hsl,
      onlyPlans_trans (onlyPlans_trans (onlyPlans_modEntry s e (fun x => { x with sol := none }) (fun _ => ⟨rfl, rfl⟩))
        (onlyPlans_eqxLog t _ _ _ _ _)) (onlyPlans_mirrorSched _ _)⟩
    refine (congrArg (fun l => Tab.get none l e) hent).trans ((entry_modEntry s e _).trans ?_)
    rw [he]
    rfl
theorem solQuery_effect (s : State) (en : Entry) : (s.solQuery en).ch = s.ch ∧ s.onlyPlans (s.solQuery en) ∧
    ∀ q : Sol, en.sol = some q →
      (s.solQuery en).sawArg 0 = (atPos q.mode.code 29 ||| atBit q.slotB 28 ||| atBit q.watch 27) := by
  unfold State.solQuery State.putTime
  dsimp only
  split
  · next hq => exact ⟨putSched_ch _ _ _ _ _, onlyPlans_putSched _ _ _ _ _, fun q h => by rw [hq] at h; cases h⟩
  · next q hq =>
    split
    all_goals
      refine ⟨putSched_ch _ _ _ _ _, onlyPlans_putSched _ _ _ _ _, fun q' h => ?_⟩
      rw [hq] at h
      cases h
      exact putSched_arg0 _ _ _ _ _

/-- What a mode of SOL_SCHEDULE does on a receive channel (R210 orders 3 to 5). -/
theorem solRun_set (s : State) (e : Nat) (en : Entry) (b : Bool) (hrx : cRx en.cfg0 = true) (hm : 1 ≤ s.schedMode ∧ s.schedMode ≤ 3)
    (hb : bit (s.cfg .saw 0xC0) 28 = b) (hl : (s.slot (vslotOf e b)).st = .live) (hr : (s.slot (vslotOf e b)).retired = false)
    (hk : s.schedMode = 2 → (s.slot (vslotOf e (!b))).keyed = true) :
    s.solRun e en =
      if s.schedMode = 1 then (s.solSet e en { mode := .time, slotB := b, watch := false, val := s.schedTime },
        if s.schedTime ≤ s.sys.tmL.ns then 0x23 else 0)
      else if s.schedMode = 2 then
        (s.solSet e en { mode := .firstValid, slotB := b, watch := true, val := (s.cfg .saw 0xC4).toNat }, 0)
      else (s.solSet e en { mode := .now, slotB := b, watch := false, val := s.sys.tmL.ns }, 0) := by
  obtain ⟨h1, h3⟩ := hm
  have hcases : s.schedMode = 1 ∨ s.schedMode = 2 ∨ s.schedMode = 3 := by omega
  unfold State.solRun
  rcases hcases with h | h | h
  · simp [hrx, hb, hl, hr, h]
  · simp [hrx, hb, hl, hr, h, hk h]
  · simp [hrx, hb, hl, hr, h]
theorem solRun_cancel (s : State) (e : Nat) (en : Entry) (hrx : cRx en.cfg0 = true) (hm : s.schedMode = 0) :
    s.solRun e en = (s.solCancel e en, 0) := by
  unfold State.solRun
  simp [hrx, hm]
theorem solRun_query (s : State) (e : Nat) (en : Entry) (hrx : cRx en.cfg0 = true) (hm : s.schedMode = 4) :
    s.solRun e en = (s.solQuery en, 0) := by
  unfold State.solRun
  simp [hrx, hm]
/-- SOL_SCHEDULE in a mode, once its effect in the window is known. -/
theorem exec_sol (s u : State) (cmd : W32) (m code e : Nat) (en : Entry) (h : s.canRun .saw = true)
    (hw : s.whereIs (cmdChix cmd) = .here e en) (hm : m < 5) (hf : (s.schedTaken cmd 0x11 m).solFieldsOk = true)
    (hrole : (s.pair.role ≠ .standby ∧ s.pair.role ≠ .seek) ∨ m = 4)
    (hrun : (s.schedTaken cmd 0x11 m).solRun e en = (u, code)) (hu : (s.schedTaken cmd 0x11 m).onlyPlans u) :
    s.begin.sched cmd 0x11 m = u.sawDone code 0 ∧ (u.sawDone code 0).ended .saw 0x84 0 code 0x11 0 := by
  have hmode := schedTaken_mode s cmd 0x11 m hm
  refine sched_answered s u cmd 0x11 m code true h (.inr rfl) ?_ hu
  rw [runSched_sol (s.schedTaken cmd 0x11 m) _ e en hw hf (hrole.imp_right hmode.trans), hrun]

/-- Settles O52: each mode of SOL_SCHEDULE on a receive channel. -/
theorem solsticeScheduled : Obligations.SolsticeScheduled := by
  unfold Obligations.SolsticeScheduled
  intro cmd e en b s h hw hrx hf hb
  have hen : s.entry e = some en := (whereIs_here s _ e en hw).2.2.1
  have htime := schedTaken_time s cmd 0x11
  have vac : ∀ {a c : Nat} {P : Prop}, a ≠ c → (a = c → P) := fun hne he => absurd he hne
  have done : ∀ (u : State) code, (u.sawDone code 0).ch = u.ch := fun u code => (sawDone_agrees u code 0).ch
  refine ⟨fun hsb hsk hl hr => ?_, fun hsb hsk => ?_, ?_⟩
  · have hset : ∀ m, 1 ≤ m → m ≤ 3 → (m = 2 → (s.slot (vslotOf e (!b))).keyed = true) →
        (s.schedTaken cmd 0x11 m).solRun e en = _ := fun m h1 h3 hk =>
      solRun_set (s.schedTaken cmd 0x11 m) e en b hrx (by rw [schedTaken_mode s cmd _ m (by omega)]; exact ⟨h1, h3⟩)
        ((schedTaken_bit s cmd 0x11 m 28 (by decide)).trans hb) hl hr
        (fun h => hk ((schedTaken_mode s cmd 0x11 m (by omega)).symm.trans h))
    refine ⟨fun hok hvld => ?_, fun hk hg => ?_, fun hvld => ?_⟩
    · let q : Sol := { mode := .time, slotB := b, watch := false, val := s.schedTime }
      have hdue := solDue_eq (s.schedTaken cmd 0x11 1) q rfl hvld
      obtain ⟨hpend, hpast, hu⟩ := solSet_effect (s.schedTaken cmd 0x11 1) e en q hen
      have hr' := hset 1 (by decide) (by decide) (vac (by decide))
      rw [if_pos (schedTaken_mode s cmd 0x11 1 (by decide)), (htime 1).1] at hr'
      obtain ⟨hx, hend⟩ := exec_sol s _ cmd 1 _ e en h hw (by decide)
        (solFields_taken s cmd 1 (by decide) hf (fun _ => hok) (vac (by decide))) (.inl ⟨hsb, hsk⟩) hr' hu
      refine ⟨_, congrArg Host.Outcome.next hx, hend, fun hlt => ?_, fun hle => ?_⟩
      · exact (entry_of_ch _ _ e (done _ _)).trans (hpend (hdue.trans (decide_eq_false (Nat.not_le_of_lt hlt))))
      · obtain ⟨pe, pr, pa⟩ := hpast (hdue.trans (decide_eq_true hle))
        rw [entry_of_ch _ _ e (done _ _), slot_of_ch _ _ _ (done _ _)]
        exact ⟨pe, pr, pa⟩
    · let q : Sol := { mode := .firstValid, slotB := b, watch := true, val := (s.sawArg 1).toNat }
      obtain ⟨hpend, -, hu⟩ := solSet_effect (s.schedTaken cmd 0x11 2) e en q hen
      have hr' := hset 2 (by decide) (by decide) (fun _ => hk)
      rw [schedTaken_mode s cmd 0x11 2 (by decide),
        show (s.schedTaken cmd 0x11 2).cfg .saw 0xC4 = s.sawArg 1 from schedTaken_args s cmd 0x11 2 0xC4 (by decide)] at hr'
      obtain ⟨hx, hend⟩ := exec_sol s _ cmd 2 _ e en h hw (by decide)
        (solFields_taken s cmd 2 (by decide) hf (vac (by decide)) (fun _ => hg)) (.inl ⟨hsb, hsk⟩) hr' hu
      exact ⟨_, congrArg Host.Outcome.next hx, hend, (entry_of_ch _ _ e (done _ _)).trans (hpend rfl)⟩
    · let q : Sol := { mode := .now, slotB := b, watch := false, val := s.sys.tmL.ns }
      have hdue := (solDue_eq (s.schedTaken cmd 0x11 3) q rfl hvld).trans (decide_eq_true (le_refl _))
      obtain ⟨-, hpast, hu⟩ := solSet_effect (s.schedTaken cmd 0x11 3) e en q hen
      have hr' := hset 3 (by decide) (by decide) (vac (by decide))
      rw [schedTaken_mode s cmd 0x11 3 (by decide)] at hr'
      obtain ⟨hx, hend⟩ := exec_sol s _ cmd 3 _ e en h hw (by decide)
        (solFields_taken s cmd 3 (by decide) hf (vac (by decide)) (vac (by decide))) (.inl ⟨hsb, hsk⟩) hr' hu
      obtain ⟨pe, pr, pa⟩ := hpast hdue
      refine ⟨_, congrArg Host.Outcome.next hx, hend, ?_⟩
      rw [entry_of_ch _ _ e (done _ _), slot_of_ch _ _ _ (done _ _)]
      exact ⟨pe, pr, pa⟩
  · obtain ⟨hent, hsl, hu⟩ := solCancel_effect (s.schedTaken cmd 0x11 0) e en hen
    obtain ⟨hx, hend⟩ := exec_sol s _ cmd 0 0 e en h hw (by decide)
      (solFields_taken s cmd 0 (by decide) hf (vac (by decide)) (vac (by decide))) (.inl ⟨hsb, hsk⟩)
      (solRun_cancel _ e en hrx (schedTaken_mode s cmd 0x11 0 (by decide))) hu
    exact ⟨_, congrArg Host.Outcome.next hx, hend, (entry_of_ch _ _ e (done _ _)).trans hent,
      (congrArg Chans.slots (done _ _) :).trans hsl⟩
  · obtain ⟨hch, hu, hq⟩ := solQuery_effect (s.schedTaken cmd 0x11 4) en
    obtain ⟨hx, hend⟩ := exec_sol s _ cmd 4 0 e en h hw (by decide)
      (solFields_taken s cmd 4 (by decide) hf (vac (by decide)) (vac (by decide))) (.inr rfl)
      (solRun_query _ e en hrx (schedTaken_mode s cmd 0x11 4 (by decide))) hu
    refine ⟨_, congrArg Host.Outcome.next hx, hend, (done _ _).trans hch, fun q hqe => ?_⟩
    rw [sawDone_sawArg, hq q hqe]

end Sys2Proof.Machine
end

section
/-! PROOFS. CH_READ, CH_PIN and CH_UNPIN (R143, R166, R234). -/
namespace Sys2Proof.Machine

/-- Operand words written in turn. -/
theorem sawArg_forEach (s : State) (g : Nat → W32) (k n : Nat) :
    (s.forEach (List.range k) (fun s i => s.setSawArg i (g i))).sawArg n = if n < k then g n else s.sawArg n := by
  induction k with
  | zero => simp [forEach_nil]
  | succ k ih =>
    have hstep : s.forEach (List.range (k + 1)) (fun s i => s.setSawArg i (g i)) =
        (s.forEach (List.range k) (fun s i => s.setSawArg i (g i))).setSawArg k (g k) := by
      unfold State.forEach
      rw [List.range_succ, List.foldl_append]
      rfl
    rw [hstep]
    by_cases hn : n = k
    · rw [hn, sawArg_setSawArg, if_pos (Nat.lt_succ_self k)]
    · rw [sawArg_setSawArg_ne _ _ _ _ hn, ih]
      by_cases h : n < k
      · rw [if_pos h, if_pos (Nat.lt_succ_of_lt h)]
      · rw [if_neg h, if_neg (by omega)]
theorem forEach_setSawArg_keeps (s : State) (l : List Nat) (g : Nat → W32) :
    (s.forEach l (fun s i => s.setSawArg i (g i))).duties = s.duties ∧ (s.forEach l (fun s i => s.setSawArg i (g i))).ch = s.ch ∧
    (s.forEach l (fun s i => s.setSawArg i (g i))).pager = s.pager :=
  ⟨forEach_keeps State.duties _ (fun s i => setSaw_duties s _ _) l s,
    forEach_keeps State.ch _ (fun s i => by rfl) l s, forEach_keeps State.pager _ (fun s i => by rfl) l s⟩
/-- A command that changes no channel leaves their entries as they were. -/
theorem entriesIdle_of_ch (s t : State) (h : t.ch = s.ch) (hs : s.idle = true) : t.entriesIdle = true :=
  (entriesIdle_of_entries s t (congrArg Chans.entries h)).trans (idle_parts s hs).2.2.2.2.1

/-! ### CH_READ -/

theorem sawClear_parts (s : State) (h : s.sawClear = true) :
    s.pager.sawLeft = [] ∧ s.pager.sawLines = [] ∧ s.pager.sawFail = false := by
  unfold State.sawClear at h
  simp only [Bool.and_eq_true, List.isEmpty_iff, Bool.not_eq_true'] at h
  obtain ⟨⟨h1, h2⟩, h3⟩ := h
  exact ⟨h1, h2, h3⟩
theorem runRead_here (s : State) (x e : Nat) (en : Entry) (hc : s.sawClear = true) (hw : s.whereIs x = .here e en) :
    s.runRead x = (s.putImage en (atBit true 31 ||| atBit (s.resi x).rec_ 30 ||| atBit en.pinned 29 ||| atBit en.evicting 28 |||
      atPos e 0) (s.slot (vslotOf e false)) (s.slot (vslotOf e true))).sawDone 0 e := by
  obtain ⟨h1, h2, h3⟩ := sawClear_parts s hc
  unfold State.runRead State.linesIn
  simp [h1, h2, h3, hw]
theorem runRead_unknown (s : State) (x : Nat) (hc : s.sawClear = true) (hw : s.whereIs x = .unknown) :
    s.runRead x = s.sawDone 0x03 0 := by
  obtain ⟨h1, h2, h3⟩ := sawClear_parts s hc
  unfold State.runRead State.linesIn
  simp [h1, h2, h3, hw]
theorem sawNeeds_read (s : State) (x : Nat) (h : s.whereIs x ≠ .stored) : s.sawNeeds 0x02 x false = tableDoms := by
  simp [State.sawNeeds, h]
theorem sawNeeds_other (s : State) (op x : Nat) (d : Bool) (h : op ∈ [0x01, 0x04, 0x05, 0x10, 0x11]) :
    s.sawNeeds op x d = tableDoms := by
  simp only [List.mem_cons, List.not_mem_nil, or_false] at h
  rcases h with rfl | rfl | rfl | rfl | rfl <;> simp [State.sawNeeds]
/-- The image of a channel in the operand words. -/
theorem putImage_effect (s : State) (en : Entry) (w6 : W32) (a b : Slot) :
    (s.putImage en w6 a b).duties = s.duties ∧ (s.putImage en w6 a b).ch = s.ch ∧ (s.putImage en w6 a b).pager = s.pager ∧
    (s.putImage en w6 a b).sawArg 0 = en.cfg0 ∧ (s.putImage en w6 a b).sawArg 1 = BitVec.ofNat 32 en.window ∧
    (s.putImage en w6 a b).sawArg 5 = en.lastUsed ∧ (s.putImage en w6 a b).sawArg 7 = a.statusWord ∧
    (s.putImage en w6 a b).sawArg 8 = b.statusWord ∧ (s.putImage en w6 a b).sawArg 12 = lo32 (slotPn (cRx en.cfg0) a) ∧
    (s.putImage en w6 a b).sawArg 14 = lo32 (slotPn (cRx en.cfg0) b) := by
  unfold State.putImage
  extract_lets sci rx pa pb ws
  obtain ⟨hd, hch, hp⟩ := forEach_setSawArg_keeps s (List.range 16) (fun i => ws.getD i 0)
  refine ⟨hd, hch, hp, ?_, ?_, ?_, ?_, ?_, ?_, ?_⟩ <;>
    exact (sawArg_forEach s _ 16 _).trans rfl

/-! ### CH_PIN and CH_UNPIN -/

theorem runPin_here (s : State) (x e : Nat) (en : Entry) (hw : s.whereIs x = .here e en) (hp : en.pinned = false)
    (hn : s.pinnedCnt < 61440) : s.runPin x = (s.modEntry e (fun en => { en with pinned := true })).sawDone 0 e := by
  unfold State.runPin
  simp only [hw, hp, Bool.false_eq_true, if_false, if_neg (Nat.not_le_of_lt hn)]
theorem runPin_refused (s : State) (x e : Nat) (en : Entry) (hw : s.whereIs x = .here e en)
    (h : en.pinned = true ∨ 61440 ≤ s.pinnedCnt) :
    s.runPin x = s.sawDone (if en.pinned then 0 else 0x08) (if en.pinned then e else 0) := by
  unfold State.runPin
  cases hp : en.pinned with
  | true => simp only [hw, hp, if_true]
  | false =>
    have hn : 61440 ≤ s.pinnedCnt := h.resolve_left (by rw [hp]; exact Bool.false_ne_true)
    simp only [hw, hp, hn, Bool.false_eq_true, if_false, if_true]
theorem runUnpin_here (s : State) (x e : Nat) (en : Entry) (hw : s.whereIs x = .here e en) :
    s.runUnpin x = if cExpress en.cfg0 then s.sawDone 0x07 0
      else (s.modEntry e (fun en => { en with pinned := false })).sawDone 0 0 := by
  unfold State.runUnpin
  simp only [hw]

/-- Settles O49, clause by clause. -/
theorem channelsReadAndPinned : Obligations.ChannelsReadAndPinned := by
  unfold Obligations.ChannelsReadAndPinned
  have hidle : ∀ s : State, s.canRun .saw = true → s.idle = true := fun s h => (canRun_parts s .saw h).1
  have hother : ∀ (s : State) op x, s.canRun .saw = true → op ∈ [0x01, 0x04, 0x05, 0x10, 0x11] →
      s.domsLost (s.sawNeeds op x false) = false := fun s op x h hop =>
    needs_tables s .saw h _ _ _ (sawNeeds_other s op x false hop)
  have refused : ∀ (s : State) c op x code detail, s.canRun .saw = true → isCmd c op x false →
      s.domsLost (s.sawNeeds op x false) = false → (s.sawTaken c).sawBody op x false = (s.sawTaken c).sawDone code detail →
      ((s.begin.sawStart c) = (s.sawTaken c).sawDone code detail ∧ ((s.sawTaken c).sawDone code detail).ended .saw 0x84 0 code op detail) ∧
      ((s.sawTaken c).sawDone code detail).ch = s.ch := fun s c op x code detail h hc hn hrun =>
    ⟨saw_answered s _ c op x false code detail h hc hn hrun (duties_of_agrees _ _ (sawTaken_agrees s c))
      (entriesIdle_of_ch s _ rfl (hidle s h)) rfl, (sawDone_agrees _ _ _).ch⟩
  have changed : ∀ (s : State) cmd op e (en : Entry) (f : Entry → Entry) code detail, s.canRun .saw = true → op ∈ sawOps →
      s.domsLost (s.sawNeeds op (cmdChix cmd) false) = false → s.entry e = some en →
      (∀ en, (f en).live = en.live ∧ (f en).evicting = en.evicting) →
      (s.sawTaken (sawCmd cmd op)).sawBody op (cmdChix cmd) false = ((s.sawTaken (sawCmd cmd op)).modEntry e f).sawDone code detail →
      ∃ t : State, s.begin.sawStart (sawCmd cmd op) = t ∧ t.ended .saw 0x84 0 code op detail ∧ t.entry e = some (f en) ∧
        t.ch.slots = s.ch.slots ∧ t.ch.resi = s.ch.resi := fun s cmd op e en f code detail h hop hn he hf hrun => by
    obtain ⟨hstart, hend⟩ := saw_answered s ((s.sawTaken (sawCmd cmd op)).modEntry e f) _ op _ false code detail h
      (isCmd_sawCmd cmd op hop) hn hrun (duties_of_agrees s (s.sawTaken _) (sawTaken_agrees s _))
      (entriesIdle_modEntry (s.sawTaken _) e f (fun en h => by rw [(hf en).1, (hf en).2]; exact h) (idle_parts s (hidle s h)).2.2.2.2.1) rfl
    have hch := (sawDone_agrees ((s.sawTaken (sawCmd cmd op)).modEntry e f) code detail).ch
    refine ⟨_, hstart, hend, ?_, (congrArg Chans.slots hch :), (congrArg Chans.resi hch :)⟩
    rw [entry_of_ch _ _ e hch, entry_modEntry, show (s.sawTaken (sawCmd cmd op)).entry e = some en from he]
    rfl
  refine ⟨fun cmd e en s h hc hw => ?_, fun cmd s h hc hw => ?_, fun cmd e en s h hw hp hn => ?_, fun cmd e en s h hw hp => ?_,
    fun cmd e en s h hw hx => ?_, fun cmd e en s h hw hx => ?_⟩
  · let a := s.sawTaken (sawCmd cmd 0x02)
    have hn := needs_tables s .saw h _ _ _ (sawNeeds_read s (cmdChix cmd) (by rw [hw]; exact fun h => by cases h))
    let w6 := atBit true 31 ||| atBit (s.resi (cmdChix cmd)).rec_ 30 ||| atBit en.pinned 29 ||| atBit en.evicting 28 ||| atPos e 0
    obtain ⟨hd, hch, hp, h0, h1, h5, h7, h8, h12, h14⟩ :=
      putImage_effect a en w6 (a.slot (vslotOf e false)) (a.slot (vslotOf e true))
    obtain ⟨hstart, hend⟩ := saw_answered s _ _ 0x02 _ false 0 e h (isCmd_sawCmd cmd 0x02 (by decide)) hn
      (runRead_here a _ e en hc hw) hd (entriesIdle_of_ch s _ hch (hidle s h)) (congrArg Pager.saw hp)
    refine ⟨_, congrArg Host.Outcome.next hstart, hend, (sawDone_agrees _ _ _).ch.trans hch, ?_⟩
    simp only [sawDone_sawArg]
    exact ⟨h0, h1, h5, h7, h8, h12, h14⟩
  · have hn := needs_tables s .saw h _ _ _ (sawNeeds_read s (cmdChix cmd) (by rw [hw]; exact fun h => by cases h))
    obtain ⟨⟨hstart, hend⟩, hch⟩ := refused s _ 0x02 _ 0x03 0 h (isCmd_sawCmd cmd 0x02 (by decide)) hn
      (runRead_unknown (s.sawTaken _) _ hc hw)
    exact ⟨_, congrArg Host.Outcome.next hstart, hend, hch⟩
  · obtain ⟨t, hstart, hrest⟩ := changed s cmd 0x04 e en (fun en => { en with pinned := true }) 0 e h (by decide)
      (hother s _ _ h (by decide)) (whereIs_here s _ e en hw).2.2.1 (fun _ => ⟨rfl, rfl⟩) (runPin_here (s.sawTaken _) _ e en hw hp hn)
    exact ⟨t, congrArg Host.Outcome.next hstart, hrest⟩
  · obtain ⟨⟨hstart, hend⟩, hch⟩ := refused s _ 0x04 _ _ _ h (isCmd_sawCmd cmd 0x04 (by decide)) (hother s _ _ h (by decide))
      (runPin_refused (s.sawTaken _) _ e en hw hp)
    exact ⟨_, congrArg Host.Outcome.next hstart, hch, hend⟩
  · obtain ⟨t, hstart, hrest⟩ := changed s cmd 0x05 e en (fun en => { en with pinned := false }) 0 0 h (by decide)
      (hother s _ _ h (by decide)) (whereIs_here s _ e en hw).2.2.1 (fun _ => ⟨rfl, rfl⟩)
      ((runUnpin_here (s.sawTaken _) _ e en hw).trans (if_neg (by rw [hx]; exact Bool.false_ne_true)))
    exact ⟨t, congrArg Host.Outcome.next hstart, hrest⟩
  · obtain ⟨⟨hstart, hend⟩, hch⟩ := refused s _ 0x05 _ 0x07 0 h (isCmd_sawCmd cmd 0x05 (by decide)) (hother s _ _ h (by decide))
      ((runUnpin_here (s.sawTaken _) _ e en hw).trans (if_pos hx))
    exact ⟨_, congrArg Host.Outcome.next hstart, hend, hch⟩

end Sys2Proof.Machine
end

section
/-! PROOFS. CH_EVICT (R231 to R234). -/
namespace Sys2Proof.Machine

theorem vslotOf_ne (e : Nat) : vslotOf e true ≠ vslotOf e false := by
  unfold vslotOf b2n
  simp
theorem slot_modSlot_ne (s : State) (v w : Nat) (f : Slot → Slot) (h : w ≠ v) : (s.modSlot v f).slot w = s.slot w :=
  Tab.get_modify_ne _ _ _ _ _ h

theorem slot_of_slots (s t : State) (v : Nat) (h : t.ch.slots = s.ch.slots) : t.slot v = s.slot v := by
  unfold State.slot
  rw [h]
theorem entry_of_entries (s t : State) (e : Nat) (h : t.ch.entries = s.ch.entries) : t.entry e = s.entry e := by
  unfold State.entry
  rw [h]
theorem resi_of_resi (s t : State) (x : Nat) (h : t.ch.resi = s.ch.resi) : t.resi x = s.resi x := by
  unfold State.resi
  rw [h]

/-! ### Where a channel is resident -/

/-- The channel of an entry, and whether it is live. -/
def State.tenant (s : State) (e : Nat) : Option (Nat × Bool) := (s.entry e).map (fun en => (en.chix, en.live))
theorem tenant_modEntry (s : State) (e : Nat) (f : Entry → Entry) (hf : ∀ en, (f en).chix = en.chix ∧ (f en).live = en.live) :
    (s.modEntry e f).tenant = s.tenant := by
  funext j
  unfold State.tenant
  by_cases hj : j = e
  · rw [hj, entry_modEntry, Option.map_map]
    exact congrArg (fun g => Option.map g (s.entry e)) (funext fun en => by simp only [Function.comp_apply, (hf en).1, (hf en).2])
  · rw [entry_modEntry_ne s e j f hj]
theorem tenant_of_entries (s t : State) (h : t.ch.entries = s.ch.entries) : t.tenant = s.tenant := by
  unfold State.tenant State.entry
  rw [h]
/-- Where a channel is resident follows from the residency map and the tenants of the entries. -/
theorem resident_eq (s : State) (x : Nat) : s.resident x =
    if (s.resi x).v = true ∧ s.tenant (s.resi x).idx.toNat = some (x, true) then some (s.resi x).idx.toNat else none := by
  unfold State.resident State.tenant
  dsimp only
  cases (s.resi x).v with
  | false => simp
  | true =>
    cases s.entry (s.resi x).idx.toNat with
    | none => simp
    | some en => simp [and_comm]
theorem resident_of_tenant (s t : State) (hr : t.ch.resi = s.ch.resi) (ht : t.tenant = s.tenant) : t.resident = s.resident := by
  funext x
  rw [resident_eq, resident_eq, resi_of_resi s t x hr, ht]

/-! ### The schedules of a slot that is lost -/

/-- What the end of a schedule leaves. -/
def State.plain (s : State) := (s.pager, s.dp, s.store, s.lease, s.ch.resi, s.ch.slots, s.tenant)
theorem eqxLog_plain (s : State) (k x : Nat) (b : Bool) (an : BitVec 2) (t : Nat) : (s.eqxLog k x b an t).plain = s.plain := by
  unfold State.eqxLog
  split <;> rfl
theorem modEntry_plain (s : State) (e : Nat) (f : Entry → Entry) (hf : ∀ en, (f en).chix = en.chix ∧ (f en).live = en.live) :
    (s.modEntry e f).plain = s.plain :=
  congrArg (fun t => (s.pager, s.dp, s.store, s.lease, s.ch.resi, s.ch.slots, t)) (tenant_modEntry s e f hf)
theorem schedCancelled_plain (s : State) (x e : Nat) (b : Bool) : (s.schedCancelled x e b).plain = s.plain :=
  (eqxLog_plain _ _ _ _ _ _).trans rfl
theorem schedOnSlot_plain (s : State) (e : Nat) (b : Bool) (c : SlotChange) : (s.schedOnSlot e b c).plain = s.plain := by
  have heqx : ∀ s : State, (s.eqxOnSlot e b c).plain = s.plain := fun s => by
    unfold State.eqxOnSlot
    split
    · split
      · split
        · exact (modEntry_plain _ e (fun x => { x with eqx := none }) (fun _ => ⟨rfl, rfl⟩)).trans (schedCancelled_plain _ _ _ _)
        · rfl
      · rfl
    · rfl
  have hsol : ∀ s : State, (s.solOnSlot e b).plain = s.plain := fun s => by
    unfold State.solOnSlot
    split
    · split
      · split
        · exact (modEntry_plain _ e (fun x => { x with sol := none }) (fun _ => ⟨rfl, rfl⟩)).trans (schedCancelled_plain _ _ _ _)
        · rfl
      · rfl
    · rfl
  exact (hsol _).trans (heqx s)


/-! ### A page-out that discards -/

/-- What settling the slots of a channel that is discarded leaves. -/
def State.stay (s : State) :=
  (s.pager, s.dp, s.store.cmd, s.lease.cmd, s.ch.resi, s.tenant, fun v => (s.slot v).gen)
theorem modSlot_gen (s : State) (v : Nat) (f : Slot → Slot) (hf : ∀ o, (f o).gen = o.gen) :
    (fun w => ((s.modSlot v f).slot w).gen) = fun w => (s.slot w).gen := by
  funext w
  by_cases h : w = v
  · rw [h, slot_modSlot, hf]
  · rw [slot_modSlot_ne s v w f h]
theorem modSlot_stay (s : State) (v : Nat) (f : Slot → Slot) (hf : ∀ o, (f o).gen = o.gen) : (s.modSlot v f).stay = s.stay :=
  congrArg (fun g => (s.pager, s.dp, s.store.cmd, s.lease.cmd, s.ch.resi, s.tenant, g)) (modSlot_gen s v f hf)
theorem stay_of_plain (s t : State) (h : t.plain = s.plain) : t.stay = s.stay := by
  simp only [State.plain, Prod.mk.injEq] at h
  obtain ⟨hp, hd, hst, hl, hr, hsl, ht⟩ := h
  unfold State.stay State.slot
  rw [hp, hd, hst, hl, hr, hsl, ht]
theorem slotChanged_stay (s : State) (e : Nat) (b : Bool) : (s.slotChanged e b).stay = s.stay := by
  have hexp : ∀ (s : State) x, (s.unexpose x b).stay = s.stay := fun s x => when_keeps State.stay _ (fun s => by rfl) _ s
  have hmir : ∀ (s : State) it, (s.mirrorSlot it).stay = s.stay := fun s it => when_keeps State.stay _ (fun s => by rfl) _ s
  unfold State.slotChanged
  split
  · dsimp only
    split
    · exact (hmir _ _).trans (when_keeps State.stay _ (fun s => hexp s _) _ s)
    · exact when_keeps State.stay _ (fun s => hexp s _) _ s
  · rfl
theorem endLease_stay (s : State) (v : Nat) : (s.endLease v).stay = s.stay :=
  (modSlot_stay _ v (fun o => { o with lst := .none, cause := .none }) (fun _ => rfl)).trans rfl
theorem discardSlot_stay (s : State) (e : Nat) (b : Bool) : (s.discardSlot e b).stay = s.stay := by
  unfold State.discardSlot
  dsimp only
  split
  · refine (slotChanged_stay _ e b).trans ((modSlot_stay _ _
      (fun o => { o with st := .erased, clearing := true, retired := false }) (fun _ => rfl)).trans ?_)
    exact (endLease_stay _ _).trans (stay_of_plain _ _ (schedOnSlot_plain s e b .lost))
  · rfl
theorem mirrorLease_stay (s : State) (x : Nat) (b v : Bool) (tag : W32) (c : Nat) : (s.mirrorLease x b v tag c).stay = s.stay :=
  when_keeps State.stay _ (fun s => by rfl) _ s
theorem forgetJournal_stay (s : State) (x : Nat) (d : Bool) : (s.forgetJournal x d).stay = s.stay := by
  unfold State.forgetJournal
  dsimp only
  split
  · rfl
  · refine (when_keeps State.stay _ (fun s => mirrorLease_stay s _ _ _ _ _) _ _).trans ?_
    exact (when_keeps State.stay _ (fun s => mirrorLease_stay s _ _ _ _ _) _ _).trans rfl
theorem forgetJournal_ch (s : State) (x : Nat) (d : Bool) : (s.forgetJournal x d).ch = s.ch := by
  have hmir : ∀ (s : State) b, (s.mirrorLease x b false 0 0).ch = s.ch := fun s b => when_keeps State.ch _ (fun s => by rfl) _ s
  unfold State.forgetJournal
  dsimp only
  split
  · rfl
  · refine (when_keeps State.ch _ (fun s => hmir s true) _ _).trans ?_
    exact (when_keeps State.ch _ (fun s => hmir s false) _ _).trans rfl

/-- What the requests of the store that are given up leave. -/
def State.kept (s : State) := (s.pager, s.ch, s.lease, s.store.cmd, s.dp)
theorem forgetReqs_kept (s : State) (p : Req → Bool) : (s.forgetReqs p).kept = s.kept := by
  have hwhole : ∀ (s : State) r f, (s.wholeEnd r f).kept = s.kept := fun s r f => by
    unfold State.wholeEnd
    split
    · rfl
    · split
      · split <;> rfl
      · rfl
  unfold State.forgetReqs
  refine (forEach_keeps State.kept _ (fun s r => ?_) _ _).trans rfl
  exact (when_keeps State.kept _ (fun s => hwhole s r .bus) _ _).trans rfl
/-- What the commands in progress in the windows other than SAW are. -/
def State.others (s : State) := (s.pager.keyw, s.lease.cmd, s.store.cmd)
theorem others_of_kept (s t : State) (h : t.kept = s.kept) : t.ch = s.ch ∧ t.others = s.others ∧ t.pager.saw = s.pager.saw := by
  simp only [State.kept, Prod.mk.injEq] at h
  obtain ⟨hp, hch, hl, hst, -⟩ := h
  unfold State.others
  rw [hp, hl, hst]
  exact ⟨hch, rfl, rfl⟩
theorem dropOut_keeps (s : State) (x : Nat) :
    (s.dropOut x).ch = s.ch ∧ (s.dropOut x).others = s.others ∧ (s.dropOut x).pager.saw = s.pager.saw := by
  obtain ⟨hch, ho, hs⟩ := others_of_kept _ _ (forgetReqs_kept s (fun q => match q with | .pageOut y _ => decide (y = x) | _ => false))
  exact ⟨hch, ho, hs⟩
theorem dropIn_keeps (s : State) (x : Nat) :
    (s.dropIn x).ch = s.ch ∧ (s.dropIn x).others = s.others ∧ (s.dropIn x).pager.saw = s.pager.saw := by
  obtain ⟨hch, ho, hs⟩ := others_of_kept _ _ (forgetReqs_kept s (fun q => match q with | .pagerIn y _ => decide (y = x) | _ => false))
  exact ⟨hch, ho, hs⟩
theorem freeEntry_effect (s : State) (e : Nat) : (s.freeEntry e).entry e = none ∧ (s.freeEntry e).slot (vslotOf e false) = {} ∧
    (s.freeEntry e).slot (vslotOf e true) = {} := by
  unfold State.freeEntry
  refine ⟨entry_setEntry s e none, ?_, slot_modSlot _ _ _⟩
  rw [slot_modSlot_ne _ _ _ _ (vslotOf_ne e).symm]
  exact slot_modSlot _ _ _
theorem jobCheck_keeps (s : State) : s.jobCheck.ch = s.ch ∧ s.jobCheck.others = s.others ∧ s.jobCheck.regs = s.regs := by
  unfold State.jobCheck
  split <;> exact ⟨rfl, rfl, rfl⟩
/-- The end of a page-out that discards its channel at the word of CH_EVICT: channel, entry and slots are gone (R234). -/
theorem outDone_discard (s : State) (o : PageOut) (e : Nat) (c : W32) (ho : o.discard = true) (hc : s.pager.saw = some c)
    (hop : cmdOp c = 0x03) (hx : cmdChix c = o.chix) :
    (s.outDone o e).ended .saw 0x84 0 0 0x03 0 ∧ (s.outDone o e).known o.chix = false ∧ (s.outDone o e).entry e = none ∧
    (s.outDone o e).slot (vslotOf e false) = {} ∧ (s.outDone o e).slot (vslotOf e true) = {} ∧
    (s.outDone o e).others = s.others := by
  obtain ⟨d, hd⟩ : ∃ d, d = s.outDone o e := ⟨_, rfl⟩
  rw [← hd]
  unfold State.outDone at hd
  extract_lets x away t1 r t2 t3 at hd
  obtain ⟨fe, fa, fb⟩ := freeEntry_effect s e
  obtain ⟨och, oth, osaw⟩ := dropOut_keeps (s.freeEntry e) x
  have h2 : t2 = (t1.dropIn x).setResi x {} := if_pos ho
  obtain ⟨ich, ith, isaw⟩ := dropIn_keeps t1 x
  have h3 : t3 = t2 := by
    change t2.when (t2.missWaits x && !o.discard) _ = t2
    rw [ho, Bool.not_true, Bool.and_false]
    rfl
  have hsaw : t2.pager.saw = some c := by
    rw [h2]
    exact (isaw.trans osaw).trans hc
  have hon : t2.sawOn [0x03] x = true := by
    unfold State.sawOn
    rw [hsaw]
    simp [hop, hx, x]
  have hd' : d = (t2.sawDone 0 0).jobCheck := by
    rw [hd, h3, hon]
    rfl
  obtain ⟨jch, jth, jregs⟩ := jobCheck_keeps (t2.sawDone 0 0)
  have hch : d.ch = t2.ch := by rw [hd', jch, (sawDone_agrees t2 0 0).ch]
  have hent : t2.entry e = none := by
    rw [h2]
    exact (entry_of_ch _ _ e ich).trans ((entry_of_ch (s.freeEntry e) _ e och).trans fe)
  have hslots : t2.ch.slots = (s.freeEntry e).ch.slots := by
    rw [h2]
    exact (congrArg Chans.slots ich).trans (congrArg Chans.slots och :)
  have hend := sawDone_ended t2 c 0 0 hsaw
  rw [hop] at hend
  refine ⟨?_, ?_, (entry_of_ch _ _ e hch).trans hent, ?_, ?_, ?_⟩
  · rw [hd']
    unfold State.ended State.hdr State.roW State.flag State.stickyW at hend ⊢
    rw [jregs]
    exact hend
  · have hr : t2.resi x = {} := by rw [h2]; exact resi_setResi _ x _
    exact congrArg Resi.v ((resi_of_resi _ _ x (congrArg Chans.resi hch)).trans hr)
  · exact (slot_of_ch _ _ _ hch).trans ((slot_of_slots _ _ _ hslots).trans fa)
  · exact (slot_of_ch _ _ _ hch).trans ((slot_of_slots _ _ _ hslots).trans fb)
  · have ha := sawDone_agrees t2 0 0
    have : d.others = t2.others := by
      rw [hd', jth]
      unfold State.others
      rw [ha.keyw, ha.lease, ha.store]
    rw [this, h2]
    exact ith.trans oth


/-! ### The command -/

theorem sawNeeds_evict (s : State) (x : Nat) (d : Bool) (h : s.pageOut x = none) : s.sawNeeds 0x03 x d = tableDoms := by
  simp [State.sawNeeds, h]
theorem isCmd_evict (cmd : W32) : isCmd (sawCmd cmd 0x03) 0x03 (cmdChix cmd) false := isCmd_sawCmd cmd 0x03 (by decide)
theorem isCmd_discard (cmd : W32) : isCmd (sawCmd cmd 0x03 ||| 0x10000000) 0x03 (cmdChix cmd) true := by
  have hlow : ∀ hi lo, hi < 28 → fld (sawCmd cmd 0x03 ||| 0x10000000) hi lo = fld (sawCmd cmd 0x03) hi lo := fun hi lo hhi => by
    have hbit : ∀ i < 28, (0x10000000#32).getLsbD i = false := by decide
    refine fld_congr _ _ _ _ (fun i h1 _ => ?_)
    rw [BitVec.getLsbD_or, show (0x10000000 : W32).getLsbD i = false from hbit i (by omega), Bool.or_false]
  refine ⟨by decide, (hlow _ _ (by decide)).trans (cmdOp_sawCmd cmd 0x03 (by decide)),
    (hlow _ _ (by decide)).trans (cmdChix_sawCmd cmd 0x03), ?_⟩
  unfold cmdB28 bit
  rw [BitVec.getLsbD_or]
  exact Bool.or_true _
theorem evict_new (s : State) (x e : Nat) (c d : Bool) (h : s.pageOut x = none) :
    s.evict x e c d = (s.modEntry e (fun en => { en with evicting := true })).pushOut { chix := x, byCmd := c, discard := d } := by
  have h' : ¬ ((s.modEntry e (fun en => { en with evicting := true })).pageOut x).isSome = true := by
    rw [show (s.modEntry e (fun en => { en with evicting := true })).pageOut x = s.pageOut x from rfl, h]
    exact Bool.false_ne_true
  exact if_neg h'
theorem pageOut_pushOut (s : State) (o : PageOut) (h : s.pageOut o.chix = none) :
    (s.pushOut o).pageOut o.chix = some { o with ser := s.pager.nextSer } := by
  unfold State.pageOut at h ⊢
  change (s.pager.outs ++ [{ o with ser := s.pager.nextSer }]).find? _ = _
  rw [List.find?_append, h]
  simp
theorem pageOut_modOut (s : State) (x : Nat) (f : PageOut → PageOut) (o : PageOut) (hf : ∀ o, (f o).chix = o.chix)
    (h : s.pageOut x = some o) : (s.modOut x f).pageOut x = some (f o) := by
  unfold State.pageOut at h ⊢
  change (s.pager.outs.map (fun q => if q.chix = x then f q else q)).find? _ = _
  rw [List.find?_map]
  have hp : ((fun p : PageOut => decide (p.chix = x)) ∘ fun q => if q.chix = x then f q else q) =
      fun p => decide (p.chix = x) := by
    funext p
    simp only [Function.comp_apply]
    split
    · next hc => simp [hf, hc]
    · rfl
  have hx : o.chix = x := by simpa using List.find?_some h
  rw [hp, h]
  simp [hx]
theorem pageOut_of_pager (s t : State) (x : Nat) (h : t.pager = s.pager) : t.pageOut x = s.pageOut x := by
  unfold State.pageOut
  rw [h]
theorem holders_of_dp (s t : State) (h : t.dp = s.dp) (v : Nat) (g : BitVec 8) : t.holders v g = s.holders v g := by
  unfold State.holders
  rw [h]
theorem resi_setResi_ne (s : State) (x y : Nat) (r : Resi) (h : y ≠ x) : (s.setResi x r).resi y = s.resi y :=
  Tab.get_set_ne _ _ _ _ _ _ h
/-- A channel that is discarded with its slots settled and held by no frame goes at once (R234). -/
theorem discardTry_effect (s : State) (x e : Nat) (o : PageOut) (c : W32) (ho : s.pageOut x = some o) (hr : s.resident x = some e)
    (hd : o.discard = true) (hdr : o.draining = false) (hua : (s.slot (vslotOf e false)).unsettled = false)
    (hub : (s.slot (vslotOf e true)).unsettled = false)
    (hha : s.holders (vslotOf e false) (s.slot (vslotOf e false)).gen = false)
    (hhb : s.holders (vslotOf e true) (s.slot (vslotOf e true)).gen = false)
    (hc : s.pager.saw = some c) (hop : cmdOp c = 0x03) (hx : cmdChix c = x) :
    (s.discardTry x).ended .saw 0x84 0 0 0x03 0 ∧ (s.discardTry x).known x = false ∧ (s.discardTry x).entry e = none ∧
    (s.discardTry x).slot (vslotOf e false) = {} ∧ (s.discardTry x).slot (vslotOf e true) = {} ∧
    (s.discardTry x).others = s.others := by
  obtain ⟨t, ht⟩ : ∃ t, t = ((s.discardSlot e false).discardSlot e true).forgetJournal x false := ⟨_, rfl⟩
  have hstay : t.stay = s.stay := ht ▸
    (forgetJournal_stay _ x false).trans ((discardSlot_stay _ e true).trans (discardSlot_stay s e false))
  simp only [State.stay, Prod.mk.injEq] at hstay
  obtain ⟨hp, hdp, hst, hl, hresi, hten, hgen⟩ := hstay
  let u := t.modOut x (fun o => { o with draining := true })
  have hout : u.pageOut x = some { o with draining := true } :=
    pageOut_modOut t x _ o (fun _ => rfl) ((pageOut_of_pager s t x hp).trans ho)
  have hres : u.resident x = some e := (congrFun (resident_of_tenant s t hresi hten) x).trans hr
  have hold : ∀ v g, u.holders v g = s.holders v g := holders_of_dp s u hdp
  have hgen' : ∀ v, (u.slot v).gen = (s.slot v).gen := congrFun hgen
  have hgo : (!o.discard || o.draining || (s.slot (vslotOf e false)).unsettled || (s.slot (vslotOf e true)).unsettled) = false := by
    rw [hd, hdr, hua, hub]
    rfl
  have htry : s.discardTry x = u.outDone { o with draining := true } e := by
    unfold State.discardTry
    simp only [ho, hr, hgo, Bool.false_eq_true, if_false]
    rw [← ht]
    change u.outTry x = _
    unfold State.outTry
    simp only [hout, hres]
    refine if_pos ⟨trivial, ?_, ?_⟩
    · rw [hgen', hold]
      exact hha
    · rw [hgen', hold]
      exact hhb
  have hox : o.chix = x := by
    have := List.find?_some ho
    simpa using this
  obtain ⟨a1, a2, a3, a4, a5, a6⟩ := outDone_discard u { o with draining := true } e c hd ((congrArg Pager.saw hp).trans hc) hop
    (hx.trans hox.symm)
  rw [htry]
  refine ⟨a1, hox ▸ a2, a3, a4, a5, a6.trans ?_⟩
  unfold State.others
  change (t.pager.keyw, t.lease.cmd, t.store.cmd) = _
  rw [hp, hl, hst]
theorem others_none (s : State) (h : s.canRun .saw = true) : s.others = (none, none, none) := by
  obtain ⟨-, hk, hl, hs⟩ := idle_cmds s (idle_parts s (canRun_parts s .saw h).1).2.1
  unfold State.others
  rw [hk, hl, hs]
/-- A SAW command that has run with the other windows as they were. -/
theorem saw_runs (s u : State) (c : W32) (op x : Nat) (d : Bool) (h : s.canRun .saw = true) (hc : isCmd c op x d)
    (hn : s.domsLost (s.sawNeeds op x d) = false) (hrun : (s.sawTaken c).sawBody op x d = u) (hu : u.others = s.others) :
    s.begin.sawStart c = u.carryOn := by
  have h3 := hu.trans (others_none s h)
  simp only [State.others, Prod.mk.injEq] at h3
  obtain ⟨hk, hl, hs⟩ := h3
  exact saw_carried s u c op x d h hc hn hrun hk hl hs

theorem runEvict_here (s : State) (x e : Nat) (en : Entry) (d : Bool) (hw : s.whereIs x = .here e en) (hp : en.pinned = false) :
    s.runEvict x d = if d then (s.evict x e true true).discardTry x else s.evict x e true false := by
  unfold State.runEvict
  simp only [hw, hp, Bool.false_eq_true, if_false]
theorem runEvict_pinned (s : State) (x e : Nat) (en : Entry) (d : Bool) (hw : s.whereIs x = .here e en) (hp : en.pinned = true) :
    s.runEvict x d = s.sawDone 0x06 0 := by
  unfold State.runEvict
  simp only [hw, hp, if_true]
theorem runEvict_stored (s : State) (x : Nat) (d : Bool) (hw : s.whereIs x = .stored) (hi : s.pageIn x = none) :
    s.runEvict x d = if d then ((s.forgetJournal x false).setResi x {}).sawDone 0 0 else s.sawDone 0 0 := by
  unfold State.runEvict
  simp only [hw, hi, Option.isSome_none, Bool.false_eq_true, if_false]

/-- Settles O50, clause by clause. -/
theorem channelsEvicted : Obligations.ChannelsEvicted := by
  unfold Obligations.ChannelsEvicted
  have hneeds : ∀ (s : State) x d, s.canRun .saw = true → s.pageOut x = none → s.domsLost (s.sawNeeds 0x03 x d) = false :=
    fun s x d h ho => needs_tables s .saw h _ _ _ (sawNeeds_evict s x d ho)
  have ends : ∀ (s : State) c x d code, s.canRun .saw = true → isCmd c 0x03 x d → s.pageOut x = none →
      (s.sawTaken c).sawBody 0x03 x d = (s.sawTaken c).sawDone code 0 →
      ∃ t : State, Host.Outcome.next (s.begin.sawStart c) = (Host.Outcome.next t : Host.Outcome State Fault Refusal) ∧
        t.ended .saw 0x84 0 code 0x03 0 ∧ t.ch = s.ch := fun s c x d code h hc ho hrun => by
    obtain ⟨hstart, hend⟩ := saw_answered s (s.sawTaken c) c 0x03 x d code 0 h hc (hneeds s x d h ho) hrun
      (duties_of_agrees _ _ (sawTaken_agrees s c)) (entriesIdle_of_ch s (s.sawTaken c) rfl (canRun_parts s .saw h).1) rfl
    exact ⟨_, congrArg Host.Outcome.next hstart, hend, (sawDone_agrees (s.sawTaken c) _ _).ch⟩
  refine ⟨fun cmd e en s h hw hp _ _ ho => ?_, fun cmd e en s h hw hp ho p hm => ?_, fun cmd s h hw hi ho => ⟨?_, ?_⟩,
    fun cmd e en s h hw hp hua hub ho hi hha hhb => ?_⟩
  · let a := s.sawTaken (sawCmd cmd 0x03)
    have hrun : a.sawBody 0x03 (cmdChix cmd) false = (a.modEntry e (fun en => { en with evicting := true })).pushOut
        { chix := cmdChix cmd, byCmd := true, discard := false } :=
      (runEvict_here a _ e en false hw hp).trans (evict_new a _ e true false ho)
    refine ⟨_, congrArg Host.Outcome.next (saw_runs s _ _ 0x03 _ false h (isCmd_evict cmd) (hneeds s _ _ h ho) hrun rfl), ?_, ?_, rfl⟩
    · exact congrArg Hdr.busy (hdr_modHdr (s.begin.emit (.cpDone false)) .saw (fun h => { h with busy := true }))
    · refine (entry_modEntry a e _).trans ?_
      rw [show a.entry e = some en from (whereIs_here s _ e en hw).2.2.1]
      rfl
  · have hp' : p = .chEvict cmd ∨ p = .chEvictDiscard cmd := by simpa using hm
    rcases hp' with rfl | rfl
    · exact ends s _ _ false 0x06 h (isCmd_evict cmd) ho (runEvict_pinned (s.sawTaken _) _ e en false hw hp)
    · exact ends s _ _ true 0x06 h (isCmd_discard cmd) ho (runEvict_pinned (s.sawTaken _) _ e en true hw hp)
  · exact ends s _ _ false 0 h (isCmd_evict cmd) ho (runEvict_stored (s.sawTaken _) _ false hw hi)
  · let c := sawCmd cmd 0x03 ||| 0x10000000
    let a := s.sawTaken c
    let u := (a.forgetJournal (cmdChix cmd) false).setResi (cmdChix cmd) {}
    have hstay := forgetJournal_stay a (cmdChix cmd) false
    simp only [State.stay, Prod.mk.injEq] at hstay
    obtain ⟨hp, -, hst, hl, hresi, -, -⟩ := hstay
    have hoth : (u.sawDone 0 0).others = s.others := by
      have ha := sawDone_agrees u 0 0
      unfold State.others
      rw [ha.keyw, ha.lease, ha.store]
      change ((a.forgetJournal (cmdChix cmd) false).pager.keyw, (a.forgetJournal (cmdChix cmd) false).lease.cmd,
        (a.forgetJournal (cmdChix cmd) false).store.cmd) = _
      rw [hp, hl, hst]
      rfl
    have hch := (sawDone_agrees u 0 0).ch
    refine ⟨u.sawDone 0 0, congrArg Host.Outcome.next (saw_runs s _ _ 0x03 _ true h (isCmd_discard cmd) (hneeds s _ _ h ho)
      (runEvict_stored a _ true hw hi) hoth), saw_ended u c 0x03 _ true 0 0 (isCmd_discard cmd) (congrArg Pager.saw hp), ?_, fun y hy => ?_⟩
    · exact congrArg Resi.v ((resi_of_resi _ _ _ (congrArg Chans.resi hch)).trans (resi_setResi _ _ {}))
    · refine (resi_of_resi _ _ y (congrArg Chans.resi hch)).trans ?_
      exact (resi_setResi_ne _ _ y _ hy).trans (resi_of_resi a _ y hresi)
  · let c := sawCmd cmd 0x03 ||| 0x10000000
    let a := s.sawTaken c
    let v := (a.modEntry e (fun en => { en with evicting := true })).pushOut { chix := cmdChix cmd, byCmd := true, discard := true }
    have hrun : a.sawBody 0x03 (cmdChix cmd) true = v.discardTry (cmdChix cmd) :=
      (runEvict_here a _ e en true hw hp).trans (congrArg (fun t : State => t.discardTry (cmdChix cmd)) (evict_new a _ e true true ho))
    have hout : v.pageOut (cmdChix cmd) = some { chix := cmdChix cmd, byCmd := true, discard := true, ser := s.pager.nextSer } :=
      pageOut_pushOut (a.modEntry e (fun en => { en with evicting := true }))
        { chix := cmdChix cmd, byCmd := true, discard := true } ho
    have hres : v.resident (cmdChix cmd) = some e :=
      (congrFun (resident_of_tenant a v rfl (tenant_modEntry a e (fun en => { en with evicting := true }) (fun _ => ⟨rfl, rfl⟩))) _).trans
        (whereIs_here s _ e en hw).2.1
    obtain ⟨-, hcop, hcx, -⟩ := isCmd_discard cmd
    obtain ⟨hend, hkn, hent, hsa, hsb, hoth⟩ := discardTry_effect v (cmdChix cmd) e _ c hout hres rfl rfl hua hub hha hhb rfl hcop hcx
    exact ⟨_, congrArg Host.Outcome.next (saw_runs s _ _ 0x03 _ true h (isCmd_discard cmd) (hneeds s _ _ h ho) hrun (hoth.trans rfl)),
      hend, hkn, hent, hsa, hsb⟩

end Sys2Proof.Machine
end

section
/-! PROOFS. STAT_READ, STAT_CLEAR and BUCKET_DIGEST (R239, R380, R381). -/
namespace Sys2Proof.Machine

/-! ### Bytes -/

theorem ofLe_leBytes (n v : Nat) : ofLe (leBytes n v) = v % 256 ^ n := by
  induction n generalizing v with
  | zero => exact (Nat.mod_one v).symm
  | succ n ih =>
    change (BitVec.ofNat 8 v).toNat + 256 * ofLe (leBytes n (v / 256)) = _
    rw [ih, BitVec.toNat_ofNat, pow_succ' 256 n, Nat.mod_mul]
theorem ofBe_reverse (b : Bytes) : ofBe b.reverse = ofLe b := by
  unfold ofBe
  rw [List.foldl_reverse]
  induction b with
  | nil => rfl
  | cons x b ih =>
    rw [List.foldr_cons, ih]
    change ofLe b * 256 + x.toNat = x.toNat + 256 * ofLe b
    omega
theorem ofBe_beBytes (n v : Nat) : ofBe (beBytes n v) = v % 256 ^ n := (ofBe_reverse _).trans (ofLe_leBytes n v)
/-- A part of strings of one length, put one after the other. -/
theorem slice_flatten (k : Nat) (l : List Bytes) (i : Nat) (hi : i < l.length) (h : ∀ b ∈ l, b.length = k) (r : Bytes) :
    slice (l.flatten ++ r) (k * i) k = l[i] := by
  unfold slice
  induction l generalizing i with
  | nil => exact absurd hi (Nat.not_lt_zero _)
  | cons b l ih =>
    have hb : b.length = k := h b List.mem_cons_self
    cases i with
    | zero =>
      rw [Nat.mul_zero, List.drop_zero, List.flatten_cons, List.append_assoc, List.take_left' hb]
      rfl
    | succ i =>
      rw [List.flatten_cons, List.append_assoc, Nat.mul_succ, Nat.add_comm, ← List.drop_drop, List.drop_left' hb]
      exact ih i (Nat.lt_of_succ_lt_succ hi) (fun c hc => h c (List.mem_cons_of_mem _ hc))
/-- A field of an entry, read from its bytes. -/
theorem ofBe_fieldBytes (en : Entry) (i : Nat) (hi : i < 32) (r : Bytes) :
    ofBe (slice (en.fieldBytes ++ r) (4 * i) 4) = (en.field i).toNat := by
  have hlen : i < ((List.range 32).map (fun i => beBytes 4 (en.field i).toNat)).length := by simpa using hi
  have hall : ∀ b ∈ (List.range 32).map (fun i => beBytes 4 (en.field i).toNat), b.length = 4 := fun b hb => by
    obtain ⟨j, -, rfl⟩ := List.mem_map.mp hb
    exact beBytes_length 4 _
  unfold Entry.fieldBytes
  rw [slice_flatten 4 _ i hlen hall r, List.getElem_map, List.getElem_range, ofBe_beBytes]
  exact Nat.mod_eq_of_lt (en.field i).isLt

/-! ### STAT_READ -/

/-- The end of a SAW command counts itself and its failure. -/
theorem sawDone_counted (s : State) (code detail n : Nat) (hn : n ≠ 110 ∧ n ≠ 111) :
    (s.sawDone code detail).counted n = s.counted n := by
  have hfail : ∀ (s : State) c, (s.when c (·.evt 111 1)).counted n = s.counted n := fun s c => by
    cases c with
    | false => rfl
    | true => exact counted_evt_ne s 111 1 n hn.2
  exact (hfail (s.evt 110 1) _).trans (counted_evt_ne s 110 1 n hn.1)

/-- Pairs of operand words written in turn. -/
theorem sawArg_pairs (s : State) (g h : Nat → W32) (k j : Nat) (hj : j < k) :
    (s.forEach (List.range k) (fun s i => (s.setSawArg (2 * i) (g i)).setSawArg (2 * i + 1) (h i))).sawArg (2 * j) = g j ∧
    (s.forEach (List.range k) (fun s i => (s.setSawArg (2 * i) (g i)).setSawArg (2 * i + 1) (h i))).sawArg (2 * j + 1) = h j := by
  induction k with
  | zero => exact absurd hj (Nat.not_lt_zero j)
  | succ k ih =>
    let t := s.forEach (List.range k) (fun s i => (s.setSawArg (2 * i) (g i)).setSawArg (2 * i + 1) (h i))
    have hstep : s.forEach (List.range (k + 1)) (fun s i => (s.setSawArg (2 * i) (g i)).setSawArg (2 * i + 1) (h i)) =
        (t.setSawArg (2 * k) (g k)).setSawArg (2 * k + 1) (h k) := by
      unfold t State.forEach
      rw [List.range_succ, List.foldl_append]
      rfl
    rw [hstep]
    by_cases hk : j = k
    · rw [hk]
      exact ⟨(sawArg_setSawArg_ne _ _ _ _ (by omega)).trans (sawArg_setSawArg _ _ _), sawArg_setSawArg _ _ _⟩
    · obtain ⟨h1, h2⟩ := ih (by omega)
      exact ⟨(sawArg_setSawArg_ne _ _ _ _ (by omega)).trans ((sawArg_setSawArg_ne _ _ _ _ (by omega)).trans h1),
        (sawArg_setSawArg_ne _ _ _ _ (by omega)).trans ((sawArg_setSawArg_ne _ _ _ _ (by omega)).trans h2)⟩
/-- What an answer in the operand words leaves. -/
def State.beside (s : State) := (s.duties, s.ch, s.pager, s.cnt)
theorem setSawArg_beside (s : State) (n : Nat) (w : W32) : (s.setSawArg n w).beside = s.beside :=
  congrArg (fun d => (d, s.ch, s.pager, s.cnt)) (setSaw_duties s (0xC0 + 4 * n) w)
theorem poison_if (p : Prop) [Decidable p] (s : State) : (if p then s.poison .saw else s).beside = s.beside ∧
    ∀ n, (if p then s.poison .saw else s).sawArg n = s.sawArg n := by
  split <;> exact ⟨rfl, fun n => rfl⟩
/-- STAT_READ of a channel whose trunks are 0 shows the leaves (R380). -/
theorem statAnswer_leaves (s : State) (x first : Nat) (en : Entry) (r : Bytes) (rx : Bool)
    (hz : ∀ l, l < 4 → s.zeroSt x l = some true) : ∃ u : State,
    s.statAnswer x first (en.fieldBytes ++ r) true rx = (u.evt 245 1).sawDone 0 0 ∧ u.beside = s.beside ∧
    u.sawArg 14 = en.field 30 ∧
    ∀ j, j < 7 → first + j < 30 → u.sawArg (2 * j) = en.field (first + j) ∧ u.sawArg (2 * j + 1) = 0 := by
  unfold State.statAnswer
  extract_lets lf trunk val a poison b c
  have hlf : ∀ i, i < 32 → lf i = (en.field i).toNat := fun i hi => ofBe_fieldBytes en i hi r
  have hval : ∀ i, i < 30 → val i = (en.field i).toNat := fun i hi => by
    have ht : trunk i = 0 := if_pos (hz (i / 8) (by omega))
    have hv : val i = lf i + trunk i := if_pos hi
    rw [hv, ht, Nat.add_zero, hlf i (by omega)]
  have hpair := fun j hj => sawArg_pairs s (fun j => lo32 (val (first + j))) (fun j => hi32 (val (first + j))) 7 j hj
  have hab : a.beside = s.beside := forEach_keeps State.beside _
    (fun s j => (setSawArg_beside _ _ _).trans (setSawArg_beside s _ _)) _ s
  have hbb : b.beside = s.beside := (setSawArg_beside _ _ _).trans ((setSawArg_beside _ _ _).trans hab)
  obtain ⟨hcb', hc⟩ : c.beside = b.beside ∧ ∀ n, c.sawArg n = b.sawArg n := poison_if _ b
  have hcb := hcb'.trans hbb
  refine ⟨c, rfl, hcb, ?_, fun j hj hf => ?_⟩
  · rw [hc]
    refine (sawArg_setSawArg_ne _ 15 14 _ (by decide)).trans ((sawArg_setSawArg _ 14 _).trans ?_)
    change BitVec.ofNat 32 (lf 30) = _
    rw [hlf 30 (by decide), BitVec.ofNat_toNat, BitVec.setWidth_eq]
  · obtain ⟨h1, h2⟩ := hpair j hj
    have hlow : ∀ n, n < 14 → c.sawArg n = a.sawArg n := fun n hn =>
      (hc n).trans ((sawArg_setSawArg_ne _ 15 n _ (by omega)).trans (sawArg_setSawArg_ne _ 14 n _ (by omega)))
    rw [hlow _ (by omega), hlow _ (by omega)]
    refine ⟨h1.trans ?_, h2.trans ?_⟩
    · change BitVec.ofNat 32 (val (first + j)) = _
      rw [hval _ hf, BitVec.ofNat_toNat, BitVec.setWidth_eq]
    · change BitVec.ofNat 32 (val (first + j) / 2 ^ 32) = 0
      rw [hval _ hf, Nat.div_eq_of_lt (en.field _).isLt]
      rfl
theorem applyAll_none (s : State) (x : Nat) (h : s.outcomesOf x = []) :
    s.applyAll x = s.modCnt (fun c => { c with queue := c.queue.filter (fun o => decide (o.chix ≠ x)) }) := by
  unfold State.applyAll
  rw [h, forEach_nil]
theorem linesOf_lt (fs : List Nat) (l : Nat) (h : l ∈ linesOf fs) : l < 4 := by
  unfold linesOf at h
  exact List.mem_range.mp (List.mem_of_mem_filter h)
theorem askLines_nil (s : State) : (s.askLines []).duties = s.duties ∧ (s.askLines []).ch = s.ch ∧
    (s.askLines []).pager.saw = s.pager.saw ∧ (s.askLines []).cnt = s.cnt ∧ (s.askLines []).store = s.store := by
  unfold State.askLines
  split <;> exact ⟨rfl, rfl, rfl, rfl, rfl⟩
theorem zeroSt_of_store (s t : State) (h : t.store = s.store) : t.zeroSt = s.zeroSt := by
  unfold State.zeroSt
  rw [h]
/-- STAT_READ of a resident channel whose trunks are 0 is answered at once. -/
theorem runStat_here (s : State) (x e : Nat) (en : Entry) (hc : s.sawClear = true) (hw : s.whereIs x = .here e en)
    (hsp : s.spilling x = false) (ho : s.outcomesOf x = []) (hz : ∀ l, l < 4 → s.zeroSt x l = some true) : ∃ a : State,
    s.runStat x = a.statAnswer x (fld (s.sawArg 0) 4 0) (en.fieldBytes ++ [1, if cRx en.cfg0 then 1 else 0]) true (cRx en.cfg0) ∧
    a.duties = s.duties ∧ a.ch = s.ch ∧ a.pager.saw = s.pager.saw ∧ a.counted 245 = s.counted 245 ∧ a.zeroSt = s.zeroSt := by
  obtain ⟨h1, h2, h3⟩ := sawClear_parts s hc
  have htr : (linesOf (statFields (fld (s.sawArg 0) 4 0))).filter (fun l => s.zeroSt x l ≠ some true) = [] := by
    refine List.filter_eq_nil_iff.mpr (fun l hl => ?_)
    rw [hz l (linesOf_lt _ l hl)]
    simp
  have hfl : s.zeroFlying x = false := by
    unfold State.zeroFlying
    refine List.any_eq_false.mpr (fun l hl => ?_)
    rw [hz l (List.mem_range.mp hl)]
    decide
  unfold State.runStat
  simp only [h1, h2, h3, hw, hsp, hfl, htr, applyAll_none s x ho, List.isEmpty_nil, Bool.not_true, Bool.false_eq_true, if_false,
    if_true, List.find?_nil, Bool.or_self, List.map_nil]
  let b := s.modCnt (fun c => { c with queue := c.queue.filter (fun o => decide (o.chix ≠ x)) })
  obtain ⟨hd, hch, hsaw, hcnt, hst⟩ := askLines_nil b
  exact ⟨_, rfl, hd, hch, hsaw, (congrArg (fun c : Counts => Tab.get 0 c.acc 245) hcnt :), zeroSt_of_store b _ hst⟩


/-! ### STAT_CLEAR -/

/-- Requests queued one after the other. -/
theorem forEach_storeReq_wait (s : State) (ls : List Nat) (line : State → Nat → Nat) (kix : State → Nat) (who : Nat → Req) (data : Bytes)
    (mask : Nat → W64) (hl : ∀ (t : State), t.regs = s.regs → line t = line s) :
    (s.forEach ls (fun s l => s.storeReq true (line s l) (kix s) (who l) data (mask l))).store.wait.map
        (fun r => (r.wr, r.line, r.data, r.mask)) =
      s.store.wait.map (fun r => (r.wr, r.line, r.data, r.mask)) ++ ls.map (fun l => (true, line s l, data, mask l)) := by
  induction ls generalizing s with
  | nil => simp [forEach_nil]
  | cons l ls ih =>
    rw [forEach_cons, ih (s.storeReq true (line s l) (kix s) (who l) data (mask l)) (fun t ht => (hl t ht).trans
      (hl (s.storeReq true (line s l) (kix s) (who l) data (mask l)) rfl).symm)]
    rw [hl (s.storeReq true (line s l) (kix s) (who l) data (mask l)) rfl]
    change (s.store.wait ++ [_]).map _ ++ _ = _
    rw [List.map_append, List.append_assoc]
    rfl
theorem trunkLine_of_regs (s t : State) (h : t.regs = s.regs) (x : Nat) : t.trunkLine x = s.trunkLine x := by
  funext l
  unfold State.trunkLine State.pageBase State.cfg
  rw [h]
/-- The window as STAT_CLEAR leaves it while the trunks are written. -/
def State.clearAsked (s : State) (x : Nat) : State :=
  let t := (s.modCnt (fun c => { c with queue := c.queue.filter (fun o => decide (o.chix ≠ x)) })).modPager
    (fun p => { p with sawLeft := (linesOf s.clearSet).map (fun l => x * 16 + 12 + l) })
  t.forEach (linesOf s.clearSet) (fun s' l => s'.storeReq true (s'.trunkLine x l) s'.pageKix (.clearWr x (12 + l)) (zeros 64)
    (trunkMask l s.clearSet))
theorem runClear_here (s : State) (x e : Nat) (en : Entry) (hc : s.sawClear = true) (hw : s.whereIs x = .here e en)
    (hsp : s.spilling x = false) (ho : s.outcomesOf x = []) : s.runClear x = s.clearAsked x := by
  obtain ⟨h1, h2, h3⟩ := sawClear_parts s hc
  unfold State.runClear
  simp only [h1, h2, h3, hw, hsp, applyAll_none s x ho, List.isEmpty_nil, Bool.not_true, Bool.false_eq_true, if_false]
  rfl
theorem runClear_stored (s : State) (x : Nat) (hc : s.sawClear = true) (hw : s.whereIs x = .stored) (hi : s.pageIn x = none) :
    s.runClear x = s.sawDone 0x28 0 := by
  obtain ⟨h1, h2, h3⟩ := sawClear_parts s hc
  unfold State.runClear
  simp only [h1, h3, hw, hi, List.isEmpty_nil, Bool.not_true, Bool.false_eq_true, if_false, Option.isSome_none]
theorem clearAsked_effect (s : State) (x : Nat) : (s.clearAsked x).others = s.others ∧ (s.clearAsked x).ch = s.ch ∧
    (s.clearAsked x).hdr = s.hdr ∧
    (s.clearAsked x).store.wait.map (fun r => (r.wr, r.line, r.data, r.mask)) =
      s.store.wait.map (fun r => (r.wr, r.line, r.data, r.mask)) ++
        (linesOf s.clearSet).map (fun l => (true, s.trunkLine x l, zeros 64, trunkMask l s.clearSet)) := by
  unfold State.clearAsked
  extract_lets t
  refine ⟨forEach_keeps State.others _ (fun s l => by rfl) _ t, forEach_keeps State.ch _ (fun s l => by rfl) _ t,
    forEach_keeps State.hdr _ (fun s l => by rfl) _ t, ?_⟩
  exact forEach_storeReq_wait t (linesOf s.clearSet) (fun s' l => s'.trunkLine x l) (fun s' => s'.pageKix)
    (fun l => .clearWr x (12 + l)) (zeros 64) (fun l => trunkMask l s.clearSet) (fun u hu => trunkLine_of_regs t u hu x)

/-! ### BUCKET_DIGEST -/

/-- The words that BUCKET_DIGEST answers for a bucket of resident channels. -/
def State.digestShown (s : State) (d n : Nat) : State :=
  (((s.setSawArg 0 (lo32 d)).setSawArg 1 (hi32 d)).setSawArg 2 (BitVec.ofNat 32 n)).setSawArg 3 0
theorem digestShown_effect (s : State) (d n : Nat) : (s.digestShown d n).beside = s.beside ∧
    (s.digestShown d n).sawArg 0 = lo32 d ∧ (s.digestShown d n).sawArg 1 = hi32 d ∧
    (s.digestShown d n).sawArg 2 = BitVec.ofNat 32 n ∧ (s.digestShown d n).sawArg 3 = 0 := by
  unfold State.digestShown
  refine ⟨(setSawArg_beside _ _ _).trans ((setSawArg_beside _ _ _).trans ((setSawArg_beside _ _ _).trans (setSawArg_beside s _ _))),
    ?_, ?_, ?_, sawArg_setSawArg _ _ _⟩
  · refine (sawArg_setSawArg_ne _ 3 0 _ (by decide)).trans ((sawArg_setSawArg_ne _ 2 0 _ (by decide)).trans ?_)
    exact (sawArg_setSawArg_ne _ 1 0 _ (by decide)).trans (sawArg_setSawArg _ _ _)
  · exact (sawArg_setSawArg_ne _ 3 1 _ (by decide)).trans ((sawArg_setSawArg_ne _ 2 1 _ (by decide)).trans (sawArg_setSawArg _ _ _))
  · exact (sawArg_setSawArg_ne _ 3 2 _ (by decide)).trans (sawArg_setSawArg _ _ _)
theorem runBucket_resident (s : State) (x : Nat) (f : Nat → Bytes) (hc : s.sawClear = true)
    (hr : ∀ y ∈ s.bucketChans (x / 1024), ∃ (e : Nat) (en : Entry), s.resident y = some e ∧ s.entry e = some en ∧
      f y = bucketString y en.cfg0 en.pinned en.window en.sci (s.groupOf y)) :
    s.runBucket x = (s.digestShown (if (s.bucketChans (x / 1024)).isEmpty then 0
      else (crc64 ((s.bucketChans (x / 1024)).map f).flatten).toNat) (s.bucketChans (x / 1024)).length).sawDone 0 0 := by
  obtain ⟨h1, h2, h3⟩ := sawClear_parts s hc
  have hst : (s.bucketChans (x / 1024)).filter (fun y => (s.resident y).isNone) = [] := by
    refine List.filter_eq_nil_iff.mpr (fun y hy => ?_)
    obtain ⟨e, en, he, -⟩ := hr y hy
    rw [he]
    exact Bool.false_ne_true
  unfold State.runBucket
  extract_lets l stored lack str d
  have hstored : stored = [] := hst
  have hlack : lack = [] := by
    simp only [lack, hstored, List.filter_nil]
  have hstr : l.map str = l.map f := List.map_congr_left (fun y hy => by
    obtain ⟨e, en, he, hen, hf⟩ := hr y hy
    simp only [str, he, hen, hf])
  have hd : d = if l.isEmpty then 0 else (crc64 (l.map f).flatten).toNat := by
    simp only [d, hstr]
  clear_value d str lack stored
  simp only [h1, h3, hlack, hstored, hd, List.isEmpty_nil, Bool.not_true, Bool.false_eq_true, if_false, List.length_nil]
  rfl
theorem sawNeeds_store (s : State) (op x : Nat) (h : op = 0x20 ∨ op = 0x21) (hw : s.whereIs x ≠ .unknown) :
    s.sawNeeds op x false = 45 :: tableDoms := by
  rcases h with rfl | rfl <;> simp [State.sawNeeds, hw]
theorem sawNeeds_bucket (s : State) (x : Nat) (h : ∀ y ∈ s.bucketChans (x / 1024), (s.resident y).isSome = true) :
    s.sawNeeds 0x30 x false = tableDoms := by
  have hany : (s.bucketChans (x / 1024)).any (fun y => (s.resident y).isNone) = false := by
    refine List.any_eq_false.mpr (fun y hy => ?_)
    rw [Option.isNone_iff_eq_none, ← Option.not_isSome_iff_eq_none, not_not]
    exact h y hy
  simp [State.sawNeeds, hany]

/-- Settles O53, clause by clause. -/
theorem statisticsCommands : Obligations.StatisticsCommands := by
  unfold Obligations.StatisticsCommands
  have hneeds : ∀ (s : State) op x, s.canRun .saw = true → s.domsLost [45] = false → op = 0x20 ∨ op = 0x21 →
      s.whereIs x ≠ .unknown → s.domsLost (s.sawNeeds op x false) = false := fun s op x h hd hop hw => by
    have ht := (tablesUp_parts s (canRun_parts s .saw h).2.2).2
    rw [sawNeeds_store s op x hop hw]
    unfold State.domsLost at hd ht ⊢
    simp only [List.any_cons, List.any_nil, Bool.or_false] at hd
    rw [List.any_cons, hd, ht]
    rfl
  have hhere : ∀ {s : State} {x e en}, s.whereIs x = .here e en → s.whereIs x ≠ .unknown := fun hw => by
    rw [hw]
    exact fun h => by cases h
  refine ⟨fun cmd e en s h hc hw hsp ho hd hz => ?_, fun cmd e en s h hc hw hsp ho hd => ?_, fun cmd s h hc hw hi hd => ?_,
    fun cmd f s h hc hr => ?_⟩
  · let t := s.sawTaken (sawCmd cmd 0x20)
    obtain ⟨a, hrun, ad, ach, asaw, acnt, azero⟩ := runStat_here t (cmdChix cmd) e en hc hw hsp ho hz
    obtain ⟨u, hans, hb, h14, hj⟩ := statAnswer_leaves a (cmdChix cmd) (fld (s.sawArg 0) 4 0) en
      [1, if cRx en.cfg0 then 1 else 0] (cRx en.cfg0) (fun l hl => (congrFun (congrFun azero _) l).trans (hz l hl))
    simp only [State.beside, Prod.mk.injEq] at hb
    obtain ⟨bd, bch, bpg, bcnt⟩ := hb
    obtain ⟨hstart, hend⟩ := saw_answered s (u.evt 245 1) _ 0x20 _ false 0 0 h (isCmd_sawCmd cmd 0x20 (by decide))
      (hneeds s _ _ h hd (.inl rfl) (hhere hw)) (hrun.trans hans) (bd.trans ad)
      (entriesIdle_of_ch s (u.evt 245 1) (bch.trans ach) (canRun_parts s .saw h).1) ((congrArg Pager.saw bpg).trans asaw)
    refine ⟨_, congrArg Host.Outcome.next hstart, hend, (sawDone_agrees _ _ _).ch.trans (bch.trans ach), ?_, ?_, fun j h7 h30 => ?_⟩
    · refine (sawDone_counted _ 0 0 245 (by decide)).trans ((counted_evt u 245 1).trans (congrArg (· + 1) ?_))
      exact (counted_acc _ _ _ (congrArg Counts.acc bcnt)).trans acnt
    · rw [sawDone_sawArg]
      exact h14
    · rw [sawDone_sawArg, sawDone_sawArg]
      exact hj j h7 h30
  · let t := s.sawTaken (sawCmd cmd 0x21)
    obtain ⟨hoth, hch, hhdr, hwait⟩ := clearAsked_effect t (cmdChix cmd)
    refine ⟨_, congrArg Host.Outcome.next (saw_runs s _ _ 0x21 _ false h (isCmd_sawCmd cmd 0x21 (by decide))
      (hneeds s _ _ h hd (.inr rfl) (hhere hw)) (runClear_here t _ e en hc hw hsp ho) hoth), ?_, hch, ?_⟩
    · rw [hhdr]
      exact congrArg Hdr.busy (hdr_modHdr (s.begin.emit (.cpDone false)) .saw (fun h => { h with busy := true }))
    · refine hwait.trans ?_
      rw [show t.store.wait = [] from storeIdle_wait s (idle_parts s (canRun_parts s .saw h).1).1]
      rfl
  · obtain ⟨hstart, hend⟩ := saw_answered s (s.sawTaken (sawCmd cmd 0x21)) _ 0x21 _ false 0x28 0 h (isCmd_sawCmd cmd 0x21 (by decide))
      (hneeds s _ _ h hd (.inr rfl) (by rw [hw]; exact fun h => by cases h)) (runClear_stored (s.sawTaken _) _ hc hw hi)
      (duties_of_agrees _ _ (sawTaken_agrees s _)) (entriesIdle_of_ch s (s.sawTaken _) rfl (canRun_parts s .saw h).1) rfl
    exact ⟨_, congrArg Host.Outcome.next hstart, hend, (sawDone_agrees (s.sawTaken _) _ _).ch⟩
  · let t := s.sawTaken (sawCmd cmd 0x30)
    let l := s.bucketChans (cmdChix cmd / 1024)
    let d := if l.isEmpty then 0 else (crc64 (l.map f).flatten).toNat
    have hrun : t.sawBody 0x30 (cmdChix cmd) false = (t.digestShown d l.length).sawDone 0 0 := runBucket_resident t (cmdChix cmd) f hc hr
    obtain ⟨hb, h0, h1, h2, h3⟩ := digestShown_effect t d l.length
    simp only [State.beside, Prod.mk.injEq] at hb
    obtain ⟨bd, bch, bpg, -⟩ := hb
    have hn : s.sawNeeds 0x30 (cmdChix cmd) false = tableDoms := sawNeeds_bucket s _ (fun y hy => by
      obtain ⟨e, en, he, -⟩ := hr y hy
      rw [he]
      rfl)
    obtain ⟨hstart, hend⟩ := saw_answered s _ _ 0x30 _ false 0 0 h (isCmd_sawCmd cmd 0x30 (by decide))
      (needs_tables s .saw h _ _ _ hn) hrun bd (entriesIdle_of_ch s _ bch (canRun_parts s .saw h).1) (congrArg Pager.saw bpg)
    refine ⟨_, congrArg Host.Outcome.next hstart, hend, (sawDone_agrees _ _ _).ch.trans bch, ?_, ?_, fun hl => ?_, fun hl => ?_⟩
    · rw [sawDone_sawArg, h2]
    · rw [sawDone_sawArg, h3]
    · have hd : d = 0 := if_pos (List.isEmpty_iff.mpr hl)
      rw [sawDone_sawArg, sawDone_sawArg, h0, h1, hd]
      exact ⟨rfl, rfl⟩
    · have hd : d = (crc64 (l.map f).flatten).toNat := if_neg (by rw [List.isEmpty_iff]; exact hl)
      rw [sawDone_sawArg, sawDone_sawArg, h0, h1, hd]
      exact ⟨rfl, rfl⟩

end Sys2Proof.Machine
end

section
/-! PROOFS. SLOT_INSTALL and SLOT_ERASE (R149, R168, R171). -/
namespace Sys2Proof.Machine

/-! ### How a KEYW command runs with nothing else under way -/

/-- The state in which KEYW_CMD has taken a command. -/
def State.keywTaken (s : State) (c : W32) : State :=
  ((s.begin.emit (.cpDone false)).setBusy .keyw true).modPager (fun p => { p with keyw := some c })
/-- What follows a KEYW command that has run, once no other window command is in progress. -/
theorem keywStart_carryOn (s u : State) (c : W32) (h : s.canRun .keyw = true) (hrun : (s.keywTaken c).keywRun = u)
    (hl : u.lease.cmd = none) (hs : u.store.cmd = none) : s.begin.keywStart c = u.carryOn := by
  obtain ⟨hidle, hfree, -⟩ := canRun_parts s .keyw h
  obtain ⟨hstore, hwin, -, -, hent, hdom⟩ := idle_parts s hidle
  obtain ⟨hsaw, -, -, hcmd⟩ := idle_cmds s hwin
  have htake : s.begin.keywStart c = (s.keywTaken c).settle :=
    through_plain s.begin .keyw 0x80 c (·.keywTake c) { off := 0x80, wo := 0x1FFFFFFF } rfl hfree rfl rfl rfl rfl rfl
  have hreg : (s.keywTaken c).regRetry = s.keywTaken c := by
    unfold State.windowsIdle at hwin
    simp only [Bool.and_eq_true, Bool.not_eq_true', List.isEmpty_iff] at hwin
    obtain ⟨⟨⟨-, hchk⟩, hread⟩, hput⟩ := hwin
    exact regRetry_idle _ hchk hread hput
  have hw : (s.keywTaken c).winRetry = u := by
    have a : (s.keywTaken c).sawRun = s.keywTaken c := by
      have hsaw' : (s.keywTaken c).pager.saw = none := hsaw
      unfold State.sawRun
      rw [hsaw']
    have b : u.leaseRun = u := by unfold State.leaseRun; rw [hl]
    have b' : u.storeRun = u := by unfold State.storeRun; rw [hs]
    unfold State.winRetry
    rw [hreg, a, hrun, b, b']
  rw [htake]
  unfold State.settle State.carryOn
  dsimp only
  rw [wakeNeeded_idle (s.keywTaken c) hdom, reap_idle (s.keywTaken c) hent, storeSettle_idle 8 (s.keywTaken c) hstore hcmd, hw]
theorem setKeyw_retireAt (s : State) (off : Nat) (w : W32) : (s.setCfg .keyw off w).retireAt = s.retireAt := by
  have hne : Page.lease.at 0x88 ≠ Page.keyw.at off := by
    change (7 * 0x1000 + 0x88 : Nat) ≠ 9 * 0x1000 + off
    omega
  unfold State.retireAt
  rw [cfg_setCfg_ne s .keyw .lease off 0x88 w hne]
/-- What the end of a KEYW command leaves beside the command itself. -/
def State.unkeyed (s : State) :=
  (s.store, s.lease, s.pwr, s.slices, s.sys, (s.pair, s.retireAt, s.pager.saw, s.pager.calRead, s.pager.calPut), s.ch, s.keyx)
theorem setKeyw_unkeyed (s : State) (off : Nat) (w : W32) : (s.setCfg .keyw off w).unkeyed = s.unkeyed := by
  unfold State.unkeyed
  rw [setKeyw_retireAt]
  rfl
theorem modKeyw_unkeyed (s : State) (c : Option W32) : (s.modPager (fun p => { p with keyw := c })).unkeyed = s.unkeyed := rfl
theorem cmdDone_unkeyed (s : State) (p : Page) (off flag code op detail : Nat) :
    (s.cmdDone p off flag code op detail).unkeyed = s.unkeyed := by
  have hret : (s.cmdDone p off flag code op detail).retireAt = s.retireAt := by
    unfold State.retireAt State.cmdDone
    rw [setFlag_cfg]
    rfl
  unfold State.unkeyed
  rw [hret]
  rfl
theorem keywDone_unkeyed (s : State) (code gen : Nat) : (s.keywDone code gen).unkeyed = s.unkeyed := by
  have hzero : ∀ s : State, s.zeroBlob.unkeyed = s.unkeyed := fun s =>
    forEach_keeps State.unkeyed _ (fun s i => setKeyw_unkeyed s _ _) _ s
  unfold State.keywDone
  extract_lets op a b
  have ha : a.unkeyed = s.unkeyed := by
    simp only [a]
    split
    · exact hzero s
    · rfl
  have hb : b.unkeyed = a.unkeyed := when_keeps State.unkeyed _ (fun s => by rfl) _ a
  exact (cmdDone_unkeyed _ _ _ _ _ _ _).trans (((modKeyw_unkeyed b none).trans hb).trans ha)
theorem keywDone_keyw (s : State) (code gen : Nat) : (s.keywDone code gen).pager.keyw = none := rfl
theorem keywDone_ended (s : State) (c : W32) (code gen : Nat) (hc : s.pager.keyw = some c) :
    (s.keywDone code gen).ended .keyw 0x84 0 code (cmdOp c) (gen * 256) := by
  unfold State.keywDone
  rw [hc]
  exact cmdDone_ended _ _ _ _ _ _ _ (by decide)
/-- A KEYW command that only answers is answered within the step of its write. -/
theorem keyw_answered (s : State) (c : W32) (code gen : Nat) (h : s.canRun .keyw = true)
    (hrun : (s.keywTaken c).keywRun = (s.keywTaken c).keywDone code gen) :
    s.begin.keywStart c = (s.keywTaken c).keywDone code gen ∧ ((s.keywTaken c).keywDone code gen).ch = s.ch ∧
    ((s.keywTaken c).keywDone code gen).keyx = s.keyx ∧
    ((s.keywTaken c).keywDone code gen).ended .keyw 0x84 0 code (cmdOp c) (gen * 256) := by
  have hidle := (canRun_parts s .keyw h).1
  obtain ⟨hsaw, hk, hl, hs⟩ := idle_cmds s (idle_parts s hidle).2.1
  have hu := keywDone_unkeyed (s.keywTaken c) code gen
  simp only [State.unkeyed, Prod.mk.injEq] at hu
  obtain ⟨ust, ul, upw, usl, usys, ⟨upair, uret, usaw, uread, uput⟩, uch, ukx⟩ := hu
  have hd : ((s.keywTaken c).keywDone code gen).duties = s.duties := by
    unfold State.duties
    rw [ust, ul, upw, usl, usys, upair, uret, uread, uput, keywDone_keyw, hk]
    rfl
  have hend := idle_of_duties s _ hd hidle (entriesIdle_of_ch s _ uch hidle) (usaw.trans hsaw)
  refine ⟨?_, uch, ukx, keywDone_ended _ c code gen rfl⟩
  rw [keywStart_carryOn s _ c h hrun ((congrArg Lease.cmd ul).trans hl) ((congrArg Store.cmd ust).trans hs), carryOn_idle _ hend]

/-! ### The command -/

theorem domsLost_append (s : State) (a b : List Nat) : s.domsLost (a ++ b) = (s.domsLost a || s.domsLost b) := List.any_append
theorem domsUp_append (s : State) (a b : List Nat) : s.domsUp (a ++ b) = (s.domsUp a && s.domsUp b) := List.all_append
/-- With its domains there, KEYW works on its resident channel. -/
theorem keywRun_here (s : State) (c : W32) (e : Nat) (en : Entry) (hc : s.pager.keyw = some c) (ht : s.tablesUp = true)
    (hi : s.installing = false) (hop : cmdOp c = 1 ∨ cmdOp c = 2) (hr : cmdOp c = 1 → s.sys.rootKey.isSome = true ∧ s.sys.zero = .no)
    (hl : s.domsLost (if cmdOp c = 1 then [1, 44] else [1]) = false) (hup : s.domUp 1 = true)
    (hw : s.whereIs (cmdChix c) = .here e en) : s.keywRun = s.keywHere c e en := by
  obtain ⟨tup, tlost⟩ := tablesUp_parts s ht
  have hneed : s.domsLost (if cmdOp c = 1 then 1 :: 44 :: tableDoms else 1 :: tableDoms) = false := by
    rcases hop with h | h
    · rw [h, if_pos rfl] at hl
      rw [h, if_pos rfl]
      exact (domsLost_append s [1, 44] tableDoms).trans (by rw [hl, tlost]; rfl)
    · rw [h, if_neg (by decide)] at hl
      rw [h, if_neg (by decide)]
      exact (domsLost_append s [1] tableDoms).trans (by rw [hl, tlost]; rfl)
  have hall : s.domsUp (1 :: tableDoms) = true := by
    unfold State.domsUp
    rw [List.all_cons, hup]
    exact tup
  have hbad : ¬ (cmdOp c ≠ 1 ∧ cmdOp c ≠ 2) := by omega
  have hroot : ¬ (cmdOp c = 1 ∧ (s.sys.rootKey.isNone = true ∨ s.sys.zero ≠ .no)) := by
    rintro ⟨h1, h2⟩
    obtain ⟨hk, hz⟩ := hr h1
    rcases h2 with h2 | h2
    · rw [Option.isNone_iff_eq_none] at h2
      rw [h2] at hk
      cases hk
    · exact h2 hz
  unfold State.keywRun
  simp only [hc, hi, hneed, hall, hw, if_neg hbad, if_neg hroot, Bool.false_eq_true, if_false, Bool.not_true]
theorem keywRun_unknown (s : State) (c : W32) (hc : s.pager.keyw = some c) (ht : s.tablesUp = true)
    (hi : s.installing = false) (hop : cmdOp c = 2) (hl : s.domsLost [1] = false) (hup : s.domUp 1 = true)
    (hw : s.whereIs (cmdChix c) = .unknown) : s.keywRun = s.keywDone 0x03 0 := by
  obtain ⟨tup, tlost⟩ := tablesUp_parts s ht
  have hneed : s.domsLost (1 :: tableDoms) = false := (domsLost_append s [1] tableDoms).trans (by rw [hl, tlost]; rfl)
  have hall : s.domsUp (1 :: tableDoms) = true := by
    unfold State.domsUp
    rw [List.all_cons, hup]
    exact tup
  unfold State.keywRun
  simp [hc, hi, hop, hneed, hall, hw]
theorem keywRun_noRoot (s : State) (c : W32) (hc : s.pager.keyw = some c) (hi : s.installing = false) (hop : cmdOp c = 1)
    (hr : s.sys.rootKey = none) : s.keywRun = s.keywDone 0x19 s.keywGen := by
  unfold State.keywRun
  simp [hc, hi, hop, hr]
theorem keywHere_installs (s : State) (c : W32) (e : Nat) (en : Entry) (hop : cmdOp c = 1)
    (hu : (s.slot (vslotOf e (cmdB28 c))).unsettled = false) (hk : s.kekWaits .install = false)
    (hi : s.installCheck e en (cmdB28 c) = none) : s.keywHere c e en = s.keyxPush .install := by
  unfold State.keywHere
  simp only [hop, hu, hk, hi, Bool.false_eq_true, if_false, if_true]
theorem keywHere_refused (s : State) (c : W32) (e r : Nat) (en : Entry) (hop : cmdOp c = 1)
    (hu : (s.slot (vslotOf e (cmdB28 c))).unsettled = false) (hk : s.kekWaits .install = false)
    (hi : s.installCheck e en (cmdB28 c) = some r) :
    s.keywHere c e en = s.keywDone r (s.slot (vslotOf e (cmdB28 c))).gen.toNat := by
  unfold State.keywHere
  simp only [hop, hu, hk, hi, Bool.false_eq_true, if_false, if_true]
theorem keywHere_erase (s : State) (c : W32) (e : Nat) (en : Entry) (hop : cmdOp c = 2)
    (hu : (s.slot (vslotOf e (cmdB28 c))).unsettled = false) (hl : (s.slot (vslotOf e (cmdB28 c))).st = .live) :
    s.keywHere c e en = (s.eraseSlot e (cmdB28 c)).settleSlot e (cmdB28 c) := by
  unfold State.keywHere
  simp [hop, hu, hl]
theorem installCheck_of_parts (s t : State) (hcfg : t.cfg = s.cfg) (hch : t.ch = s.ch) (hsys : t.sys = s.sys) (e : Nat) (en : Entry)
    (b : Bool) : t.installCheck e en b = s.installCheck e en b := by
  unfold State.installCheck State.blob State.getBytes State.kek State.slot
  rw [hcfg, hch, hsys]


/-! ### A slot that is erased and held by no frame -/

theorem pushJournal_stay (s : State) (it : JItem) : (s.pushJournal it).stay = s.stay := rfl
theorem invalidate_stay (s : State) (x : Nat) (b : Bool) (tag : W32) : (s.invalidate x b tag).stay = s.stay :=
  (mirrorLease_stay _ _ _ _ _ _).trans (pushJournal_stay s _)
theorem eraseSlot_effect (s : State) (e : Nat) (b : Bool) (en : Entry) (he : s.entry e = some en)
    (hl : (s.slot (vslotOf e b)).st = .live) : (s.eraseSlot e b).stay = s.stay ∧
    ((s.eraseSlot e b).slot (vslotOf e b)).st = .erased ∧ ((s.eraseSlot e b).slot (vslotOf e b)).clearing = true := by
  let v := vslotOf e b
  let t1 := s.schedOnSlot e b .lost
  let t2 := t1.when (!cRx en.cfg0) (fun s' => (s'.endLease v).invalidate en.chix b (s.slot v).tag)
  let t3 := t2.modSlot v (fun o => { o with st := .erased, clearing := true, retired := false, retAt := 0 })
  have hr : s.eraseSlot e b = t3.slotChanged e b := by
    unfold State.eraseSlot
    simp only [he, hl, if_true]
    rfl
  have h2 : t2.stay = t1.stay := when_keeps State.stay _ (fun s' => (invalidate_stay _ _ _ _).trans (endLease_stay s' v)) _ t1
  have h3 : t3.stay = t2.stay := modSlot_stay t2 v _ (fun _ => rfl)
  have hslot : (t3.slotChanged e b).slot v = { t2.slot v with st := .erased, clearing := true, retired := false, retAt := 0 } :=
    (slot_of_ch _ _ v (slotChanged_ch t3 e b)).trans (slot_modSlot t2 v _)
  rw [hr]
  refine ⟨(slotChanged_stay t3 e b).trans (h3.trans (h2.trans (stay_of_plain _ _ (schedOnSlot_plain s e b .lost)))), ?_, ?_⟩
  · exact congrArg Slot.st hslot
  · exact congrArg Slot.clearing hslot
/-- A slot whose material is to go and that no frame holds is cleared, its GEN counts up, and the command ends (R149, R171). -/
theorem settleSlot_erased (s : State) (e : Nat) (b : Bool) (en : Entry) (c : W32) (he : s.entry e = some en)
    (hst : (s.slot (vslotOf e b)).st = .erased) (hcl : (s.slot (vslotOf e b)).clearing = true)
    (hh : s.holders (vslotOf e b) (s.slot (vslotOf e b)).gen = false) (hc : s.pager.keyw = some c) (hx : cmdChix c = en.chix)
    (hb : cmdB28 c = b) : ∃ a : State,
    s.settleSlot e b = a.keywDone 0 ((s.slot (vslotOf e b)).gen + 1).toNat ∧ a.pager.keyw = some c ∧ a.others = s.others ∧
    a.slot (vslotOf e b) = { (s.slot (vslotOf e b)).cleared with gen := (s.slot (vslotOf e b)).gen + 1 } := by
  let v := vslotOf e b
  let a := (s.modSlot v (fun o => { o.cleared with gen := o.gen + 1 })).slotChanged e b
  have hun : ¬ ((s.slot (vslotOf e b)).unsettled = false ∨ s.holders (vslotOf e b) (s.slot (vslotOf e b)).gen = true) := by
    unfold Slot.unsettled
    rw [hcl, hh, Bool.or_true]
    decide
  have hstay : a.stay.1 = s.pager := congrArg (·.1) (slotChanged_stay (s.modSlot v (fun o => { o.cleared with gen := o.gen + 1 })) e b)
  have hsl : a.slot v = { (s.slot v).cleared with gen := (s.slot v).gen + 1 } :=
    (slot_of_ch _ _ v (slotChanged_ch _ e b)).trans (slot_modSlot s v _)
  have hkeyw : a.pager.keyw = some c := (congrArg Pager.keyw hstay :).trans hc
  have hon : a.keywOn en.chix b = true := by
    unfold State.keywOn
    rw [hkeyw]
    simp [hx, hb]
  refine ⟨a, ?_, hkeyw, ?_, hsl⟩
  · unfold State.settleSlot
    simp only [he]
    rw [if_neg hun, if_neg (by rw [hst]; decide)]
    change a.when (a.keywOn en.chix b) (fun s => s.keywDone 0 (s.slot v).gen.toNat) = _
    rw [hon]
    change a.keywDone 0 (a.slot v).gen.toNat = _
    rw [hsl]
  · have h := slotChanged_stay (s.modSlot v (fun o => { o.cleared with gen := o.gen + 1 })) e b
    simp only [State.stay, Prod.mk.injEq] at h
    obtain ⟨hp, -, hcm, hlc, -⟩ := h
    unfold State.others
    rw [hp, hcm, hlc]
    rfl

/-- Settles O54, clause by clause. -/
theorem slotsInstalledAndErased : Obligations.SlotsInstalledAndErased := by
  unfold Obligations.SlotsInstalledAndErased
  have htab : ∀ {s : State}, s.canRun .keyw = true → s.tablesUp = true := fun h => (canRun_parts _ .keyw h).2.2
  have hop1 : ∀ cmd, cmdOp (withOp cmd 1) = 1 := fun cmd => cmdOp_withOp cmd 1 (by decide)
  have hop2 : ∀ cmd, cmdOp (withOp cmd 2) = 2 := fun cmd => cmdOp_withOp cmd 2 (by decide)
  refine ⟨fun cmd e en s h hup hl hi hr hz hk hw hu => ?_, fun cmd s h hi hr => ?_, fun cmd e en s h hup hl hi hw hst hcl hh => ?_,
    fun cmd s h hup hl hi hw => ?_⟩
  · let c := withOp cmd 1
    let t := s.keywTaken c
    have hx : cmdChix c = cmdChix cmd := cmdChix_withOp cmd 1
    have hb : cmdB28 c = cmdB28 cmd := cmdB28_withOp cmd 1
    have hup1 : s.domUp 1 = true := by
      unfold State.domsUp at hup
      rw [List.all_cons, Bool.and_eq_true] at hup
      exact hup.1
    have hrun : t.keywRun = t.keywHere c e en :=
      keywRun_here t c e en rfl (htab (s := s) h) hi (.inl (hop1 cmd)) (fun _ => ⟨hr, hz⟩) (by rw [hop1, if_pos rfl]; exact hl) hup1 (hx ▸ hw)
    have hu' : (t.slot (vslotOf e (cmdB28 c))).unsettled = false := hb ▸ hu
    have hchk : t.installCheck e en (cmdB28 c) = s.installCheck e en (cmdB28 cmd) :=
      (installCheck_of_parts s t rfl rfl rfl e en _).trans (by rw [hb])
    refine ⟨fun hn => ?_, fun r hr => ?_⟩
    · obtain ⟨-, -, hlc, hsc⟩ := idle_cmds s (idle_parts s (canRun_parts s .keyw h).1).2.1
      refine ⟨t.keyxPush .install, congrArg Host.Outcome.next (keywStart_carryOn s _ c h
        (hrun.trans (keywHere_installs t c e en (hop1 cmd) hu' hk (hchk.trans hn))) hlc hsc), ?_, rfl, rfl⟩
      exact congrArg Hdr.busy (hdr_modHdr (s.begin.emit (.cpDone false)) .keyw (fun h => { h with busy := true }))
    · obtain ⟨hstart, hch, hkx, hend⟩ := keyw_answered s c r _ h
        (hrun.trans (keywHere_refused t c e r en (hop1 cmd) hu' hk (hchk.trans hr)))
      have hg : (t.slot (vslotOf e (cmdB28 c))).gen = (s.slot (vslotOf e (cmdB28 cmd))).gen := by
        rw [hb]
        rfl
      rw [hop1] at hend
      refine ⟨_, congrArg Host.Outcome.next hstart, hch, hkx, ?_⟩
      rw [← hg]
      exact hend
  · obtain ⟨hstart, hch, -, hend⟩ := keyw_answered s (withOp cmd 1) 0x19 _ h
      (keywRun_noRoot (s.keywTaken (withOp cmd 1)) _ rfl hi (hop1 cmd) hr)
    rw [hop1] at hend
    exact ⟨_, _, congrArg Host.Outcome.next hstart, hch, hend⟩
  · let c := withOp cmd 2
    let t := s.keywTaken c
    let v := vslotOf e (cmdB28 cmd)
    have hx : cmdChix c = cmdChix cmd := cmdChix_withOp cmd 2
    have hb : cmdB28 c = cmdB28 cmd := cmdB28_withOp cmd 2
    obtain ⟨-, -, hen, -, hchix, -⟩ := whereIs_here s _ e en hw
    have hu : (t.slot (vslotOf e (cmdB28 c))).unsettled = false := by
      rw [hb]
      change (decide ((s.slot v).st = .draining) || (s.slot v).clearing) = false
      rw [hst, hcl]
      rfl
    have hrun : t.keywRun = (t.eraseSlot e (cmdB28 cmd)).settleSlot e (cmdB28 cmd) :=
      (keywRun_here t c e en rfl (htab (s := s) h) hi (.inr (hop2 cmd)) (fun h => absurd ((hop2 cmd).symm.trans h) (by decide))
        (by rw [hop2, if_neg (by decide)]; exact hl) hup (hx ▸ hw)).trans
        ((keywHere_erase t c e en (hop2 cmd) hu (by rw [hb]; exact hst)).trans (by rw [hb]))
    obtain ⟨hstay, hst', hcl'⟩ := eraseSlot_effect t e (cmdB28 cmd) en hen hst
    simp only [State.stay, Prod.mk.injEq] at hstay
    obtain ⟨hp, hdp, hsc, hlc, -, hten, hgen⟩ := hstay
    have hg : ((t.eraseSlot e (cmdB28 cmd)).slot v).gen = (s.slot v).gen := congrFun hgen v
    obtain ⟨en', hen', hx'⟩ : ∃ en', (t.eraseSlot e (cmdB28 cmd)).entry e = some en' ∧ en'.chix = en.chix := by
      have h := congrFun hten e
      unfold State.tenant at h
      rw [show t.entry e = some en from hen] at h
      obtain ⟨en', h1, h2⟩ := Option.map_eq_some_iff.mp h
      exact ⟨en', h1, congrArg Prod.fst h2⟩
    obtain ⟨a, hset, hak, hao, hasl⟩ := settleSlot_erased (t.eraseSlot e (cmdB28 cmd)) e (cmdB28 cmd) en' c hen' hst' hcl'
      (by rw [hg]; exact (holders_of_dp t _ hdp _ _).trans hh) ((congrArg Pager.keyw hp :).trans rfl) (hx.trans (hchix.symm.trans hx'.symm)) hb
    have hun := keywDone_unkeyed a 0 ((s.slot v).gen + 1).toNat
    simp only [State.unkeyed, Prod.mk.injEq] at hun
    obtain ⟨ust, ul, -, -, -, -, uch, -⟩ := hun
    obtain ⟨-, -, hl0, hs0⟩ := idle_cmds s (idle_parts s (canRun_parts s .keyw h).1).2.1
    have hoth : a.lease.cmd = none ∧ a.store.cmd = none := by
      simp only [State.others, Prod.mk.injEq] at hao
      obtain ⟨-, h1, h2⟩ := hao
      exact ⟨h1.trans (hlc.trans hl0), h2.trans (hsc.trans hs0)⟩
    have hrun' : t.keywRun = a.keywDone 0 ((s.slot v).gen + 1).toNat := by rw [hrun, hset, hg]
    have hslot : (a.keywDone 0 ((s.slot v).gen + 1).toNat).slot v =
        { ((t.eraseSlot e (cmdB28 cmd)).slot v).cleared with gen := (s.slot v).gen + 1 } := by
      rw [slot_of_ch _ _ v uch, hasl, hg]
    have hend := keywDone_ended a c 0 ((s.slot v).gen + 1).toNat hak
    rw [hop2] at hend
    refine ⟨_, congrArg Host.Outcome.next (keywStart_carryOn s _ c h hrun' ((congrArg Lease.cmd ul).trans hoth.1)
      ((congrArg Store.cmd ust).trans hoth.2)), ?_, congrArg Slot.key hslot, congrArg Slot.h hslot, congrArg Slot.gen hslot, hend⟩
    exact (congrArg Slot.st hslot :).trans hst'
  · obtain ⟨hstart, hch, -, hend⟩ := keyw_answered s (withOp cmd 2) 0x03 0 h
      (keywRun_unknown (s.keywTaken (withOp cmd 2)) _ rfl (htab (s := s) h) hi (hop2 cmd) hl hup (by rw [cmdChix_withOp]; exact hw))
    rw [hop2] at hend
    exact ⟨_, congrArg Host.Outcome.next hstart, hch, hend⟩

end Sys2Proof.Machine
end

section
/-! PROOFS. The commands of the LEASE and STORE windows (R199, R200, R254, R255). -/
namespace Sys2Proof.Machine

/-! ### How a LEASE command runs with nothing else under way -/

/-- The state in which LEASE_CMD has taken a command. -/
def State.leaseTaken (s : State) (c : W32) : State :=
  ((s.begin.emit (.cpDone false)).setBusy .lease true).modLease (fun l => { l with cmd := some c })
/-- The state in which STORE_CMD has taken a command. -/
def State.storeTaken (s : State) (c : W32) : State :=
  ((s.begin.emit (.cpDone false)).setBusy .store true).modStore (fun t => { t with cmd := some c })
theorem sawRun_none (s : State) (h : s.pager.saw = none) : s.sawRun = s := by
  unfold State.sawRun
  rw [h]
theorem keywRun_none (s : State) (h : s.pager.keyw = none) : s.keywRun = s := by
  unfold State.keywRun
  rw [h]
theorem leaseRun_none (s : State) (h : s.lease.cmd = none) : s.leaseRun = s := by
  unfold State.leaseRun
  rw [h]
theorem storeRun_none (s : State) (h : s.store.cmd = none) : s.storeRun = s := by
  unfold State.storeRun
  rw [h]
/-- Nothing waits for its domain in a state that agrees in what does. -/
theorem regRetry_of_parts (s t : State) (hs : s.windowsIdle = true) (hsys : t.sys = s.sys) (hp : t.pager = s.pager) : t.regRetry = t := by
  unfold State.windowsIdle at hs
  simp only [Bool.and_eq_true, Bool.not_eq_true', List.isEmpty_iff] at hs
  obtain ⟨⟨⟨-, hchk⟩, hread⟩, hput⟩ := hs
  exact regRetry_idle t (hsys ▸ hchk) (hp ▸ hread) (hp ▸ hput)
/-- A command of the STORE window that waits to run does nothing to a store that is at rest. -/
theorem pumpStore_waits (s : State) (c : W32) (h : s.store.wait = []) (hc : s.store.cmd = some c) :
    s.pumpStore = if cmdOp c = 5 ∧ fld c 31 29 = 0 ∧ fld c 15 8 = 0 ∧ s.domUp 45 = true ∧ s.wcbDirty = false then s.storeDone 0 0
      else s := by
  have hn : s.nextReq = none := by
    unfold State.nextReq
    simp [h, firstReq]
  have h1 : ∀ k, pumpStoreN k s = s := fun k => by cases k <;> simp [pumpStoreN, hn]
  have h2 : s.countWaits = s := by
    unfold State.countWaits
    rw [h]
    rfl
  unfold State.pumpStore
  rw [h1, h2]
  unfold State.flushCheck
  rw [hc]
theorem storeSettle_waits (k : Nat) (s : State) (c : W32) (h : s.storeIdle = true) (hc : s.store.cmd = some c) (hop : cmdOp c ≠ 5) :
    storeSettle k s = s := by
  unfold State.storeIdle at h
  simp only [Bool.and_eq_true, List.isEmpty_iff] at h
  obtain ⟨hw, hf⟩ := h
  cases k with
  | zero => rfl
  | succ k =>
    unfold storeSettle
    have hp : s.pumpStore = s := (pumpStore_waits s c hw hc).trans (if_neg (fun hh => hop hh.1))
    rw [hp]
    simp [hf]
theorem leaseStart_carryOn (s u : State) (c : W32) (h : s.canRun .lease = true) (hrun : (s.leaseTaken c).leaseRun = u)
    (hs : u.store.cmd = none) : s.begin.leaseStart c = u.carryOn := by
  obtain ⟨hidle, hfree, -⟩ := canRun_parts s .lease h
  obtain ⟨hstore, hwin, -, -, hent, hdom⟩ := idle_parts s hidle
  obtain ⟨hsaw, hkeyw, -, hcmd⟩ := idle_cmds s hwin
  have htake : s.begin.leaseStart c = (s.leaseTaken c).settle :=
    through_plain s.begin .lease 0xC0 c (·.leaseTake c) { off := 0xC0, wo := 0xFFFFFFF } rfl hfree rfl rfl rfl rfl rfl
  have hw : (s.leaseTaken c).winRetry = u := by
    unfold State.winRetry
    rw [regRetry_of_parts s (s.leaseTaken c) hwin rfl rfl, sawRun_none (s.leaseTaken c) hsaw, keywRun_none (s.leaseTaken c) hkeyw,
      hrun, storeRun_none u hs]
  rw [htake]
  unfold State.settle State.carryOn
  dsimp only
  rw [wakeNeeded_idle (s.leaseTaken c) hdom, reap_idle (s.leaseTaken c) hent, storeSettle_idle 8 (s.leaseTaken c) hstore hcmd, hw]
theorem storeStart_carryOn (s u : State) (c : W32) (h : s.canRun .store = true) (hop : cmdOp c ≠ 5)
    (hrun : (s.storeTaken c).storeRun = u) : s.begin.storeStart c = u.carryOn := by
  obtain ⟨hidle, hfree, -⟩ := canRun_parts s .store h
  obtain ⟨hstore, hwin, -, -, hent, hdom⟩ := idle_parts s hidle
  obtain ⟨hsaw, hkeyw, hlease, -⟩ := idle_cmds s hwin
  have htake : s.begin.storeStart c = (s.storeTaken c).settle :=
    through_plain s.begin .store 0xD0 c (·.storeTake c) { off := 0xD0, wo := 0xFFFFFFFF } rfl hfree rfl rfl rfl rfl rfl
  have hw : (s.storeTaken c).winRetry = u := by
    unfold State.winRetry
    rw [regRetry_of_parts s (s.storeTaken c) hwin rfl rfl, sawRun_none (s.storeTaken c) hsaw, keywRun_none (s.storeTaken c) hkeyw,
      leaseRun_none (s.storeTaken c) hlease, hrun]
  have hsettle : storeSettle 8 (s.storeTaken c) = s.storeTaken c := storeSettle_waits 8 _ c hstore rfl hop
  rw [htake]
  unfold State.settle State.carryOn
  dsimp only
  rw [wakeNeeded_idle (s.storeTaken c) hdom, reap_idle (s.storeTaken c) hent, hsettle, hw]

/-- WCB_FLUSH with nothing dirty ends before anything else is served (R254). -/
theorem storeStart_flush (s : State) (c : W32) (h : s.canRun .store = true) (hop : cmdOp c = 5) (h1 : fld c 31 29 = 0)
    (h2 : fld c 15 8 = 0) (hd : s.domUp 45 = true) (hw : s.wcbDirty = false) :
    s.begin.storeStart c = ((s.storeTaken c).storeDone 0 0).carryOn := by
  obtain ⟨hidle, hfree, -⟩ := canRun_parts s .store h
  obtain ⟨hstore, hwin, -, -, hent, hdom⟩ := idle_parts s hidle
  obtain ⟨hsaw, hkeyw, hlease, -⟩ := idle_cmds s hwin
  have htake : s.begin.storeStart c = (s.storeTaken c).settle :=
    through_plain s.begin .store 0xD0 c (·.storeTake c) { off := 0xD0, wo := 0xFFFFFFFF } rfl hfree rfl rfl rfl rfl rfl
  let u := (s.storeTaken c).storeDone 0 0
  have hpump : (s.storeTaken c).pumpStore = u :=
    (pumpStore_waits (s.storeTaken c) c (storeIdle_wait s hstore) rfl).trans (if_pos ⟨hop, h1, h2, hd, hw⟩)
  have hfin : u.store.fin.isEmpty = true := by
    unfold State.storeIdle at hstore
    simp only [Bool.and_eq_true] at hstore
    exact hstore.2
  have hsettle : storeSettle 8 (s.storeTaken c) = u := by
    unfold storeSettle
    rw [hpump]
    exact if_pos hfin
  have hretry : u.winRetry = u := by
    unfold State.winRetry
    rw [regRetry_of_parts s u hwin rfl rfl, sawRun_none u hsaw, keywRun_none u hkeyw, leaseRun_none u hlease, storeRun_none u rfl]
  rw [htake]
  unfold State.settle State.carryOn
  dsimp only
  rw [wakeNeeded_idle (s.storeTaken c) hdom, reap_idle (s.storeTaken c) hent, hsettle, hretry]

/-! ### How they end -/

theorem cmdDone_duties (s : State) (p : Page) (off flag code op detail : Nat) :
    (s.cmdDone p off flag code op detail).duties = s.duties := by
  have hret : (s.cmdDone p off flag code op detail).retireAt = s.retireAt := by
    unfold State.retireAt State.cmdDone
    rw [setFlag_cfg]
    rfl
  unfold State.duties
  rw [hret]
  rfl
theorem leaseDone_ended (s : State) (c : W32) (code : Nat) (hc : s.lease.cmd = some c) :
    (s.leaseDone code).ended .lease 0xC4 6 code (cmdOp c) 0 := by
  unfold State.leaseDone
  rw [hc]
  exact cmdDone_ended _ _ _ _ _ _ _ (by decide)
theorem storeDone_ended (s : State) (c : W32) (code detail : Nat) (hc : s.store.cmd = some c) :
    (s.storeDone code detail).ended .store 0xD4 8 code (cmdOp c) detail := by
  unfold State.storeDone
  rw [hc]
  exact cmdDone_ended _ _ _ _ _ _ _ (by decide)
/-- A LEASE command that only answers is answered within the step of its write. -/
theorem lease_answered (s u : State) (c : W32) (code : Nat) (h : s.canRun .lease = true)
    (hrun : (s.leaseTaken c).leaseRun = u.leaseDone code) (hd : u.duties = (s.leaseTaken c).duties) (hch : u.ch = s.ch)
    (hsaw : u.pager.saw = s.pager.saw) :
    s.begin.leaseStart c = u.leaseDone code ∧ (u.leaseDone code).lease = s.lease ∧
    (u.leaseDone code).ended .lease 0xC4 6 code (cmdOp c) 0 := by
  have hidle := (canRun_parts s .lease h).1
  obtain ⟨hs, -, hl, hst⟩ := idle_cmds s (idle_parts s hidle).2.1
  simp only [State.duties, Prod.mk.injEq] at hd
  obtain ⟨dst, dl, dpw, dsl, dsys, ⟨d1, d2, d3, d4, d5⟩, dret, dkw, dread, dput⟩ := hd
  have hlease : (u.leaseDone code).lease = s.lease := by
    change { u.lease with cmd := none } = s.lease
    rw [dl, ← hl]
    rfl
  have hduties : (u.leaseDone code).duties = s.duties := by
    refine (cmdDone_duties (u.modLease (fun l => { l with cmd := none })) _ _ _ _ _ _).trans ?_
    have h' : { u.lease with cmd := none } = s.lease := hlease
    unfold State.duties
    change (u.store, { u.lease with cmd := none }, u.pwr, u.slices, u.sys, (u.pair.inbox, u.pair.syncEnd, u.pair.ackOwed,
      u.pair.jnlWait, u.pair.jnlFail), u.retireAt, u.pager.keyw, u.pager.calRead, u.pager.calPut) = _
    rw [h', dst, dpw, dsl, dsys, d1, d2, d3, d4, d5, dret, dkw, dread, dput]
    rfl
  have hend := idle_of_duties s _ hduties hidle (entriesIdle_of_ch s (u.leaseDone code) hch hidle) (hsaw.trans hs)
  refine ⟨?_, hlease, leaseDone_ended u c code (congrArg Lease.cmd dl)⟩
  rw [leaseStart_carryOn s _ c h hrun ((congrArg Store.cmd dst).trans hst), carryOn_idle _ hend]
/-- What the end of a STORE command leaves to do: nothing, when the store is as it was. -/
theorem storeDone_idle (s u : State) (c : W32) (code detail : Nat) (h : s.canRun .store = true)
    (hd : u.duties = (s.storeTaken c).duties) (hch : u.ch = s.ch) (hsaw : u.pager.saw = s.pager.saw) :
    (u.storeDone code detail).carryOn = u.storeDone code detail ∧ (u.storeDone code detail).store = s.store := by
  have hidle := (canRun_parts s .store h).1
  obtain ⟨hs, -, -, hst⟩ := idle_cmds s (idle_parts s hidle).2.1
  simp only [State.duties, Prod.mk.injEq] at hd
  obtain ⟨dst, dl, dpw, dsl, dsys, ⟨d1, d2, d3, d4, d5⟩, dret, dkw, dread, dput⟩ := hd
  have hstore : { u.store with cmd := none } = s.store := by
    rw [dst, ← hst]
    rfl
  have hduties : (u.storeDone code detail).duties = s.duties := by
    refine (cmdDone_duties (u.modStore (fun t => { t with cmd := none })) _ _ _ _ _ _).trans ?_
    unfold State.duties
    change ({ u.store with cmd := none }, u.lease, u.pwr, u.slices, u.sys, (u.pair.inbox, u.pair.syncEnd, u.pair.ackOwed,
      u.pair.jnlWait, u.pair.jnlFail), u.retireAt, u.pager.keyw, u.pager.calRead, u.pager.calPut) = _
    rw [hstore, dl, dpw, dsl, dsys, d1, d2, d3, d4, d5, dret, dkw, dread, dput]
    rfl
  exact ⟨carryOn_idle _ (idle_of_duties s _ hduties hidle (entriesIdle_of_ch s (u.storeDone code detail) hch hidle) (hsaw.trans hs)),
    hstore⟩
/-- A STORE command that only answers is answered within the step of its write. -/
theorem store_answered (s u : State) (c : W32) (code detail : Nat) (h : s.canRun .store = true) (hop : cmdOp c ≠ 5)
    (hrun : (s.storeTaken c).storeRun = u.storeDone code detail) (hd : u.duties = (s.storeTaken c).duties) (hch : u.ch = s.ch)
    (hsaw : u.pager.saw = s.pager.saw) :
    s.begin.storeStart c = u.storeDone code detail ∧ (u.storeDone code detail).store = s.store ∧
    (u.storeDone code detail).ended .store 0xD4 8 code (cmdOp c) detail := by
  obtain ⟨hcarry, hstore⟩ := storeDone_idle s u c code detail h hd hch hsaw
  refine ⟨(storeStart_carryOn s _ c h hop hrun).trans hcarry, hstore, storeDone_ended u c code detail ?_⟩
  exact congrArg (fun x : Store × _ => x.1.cmd) hd

end Sys2Proof.Machine
end

section
/-! PROOFS. JNL_READ, JNL_DROP, HSW_READ, HSW_WRITE, KEY_NEW, KEY_ERASE, WCB_FLUSH and KEY_QUERY (R199, R200, R254, R255). -/
namespace Sys2Proof.Machine

/-! ### JNL_READ and JNL_DROP -/

theorem roW_setRo_ne (s : State) (p q : Page) (off off' : Nat) (v : W32) (h : q.at off' ≠ p.at off) :
    (s.setRo p off v).roW q off' = s.roW q off' := Tab.get_set_ne _ _ _ _ _ _ h
/-- Result words written in turn at one page. -/
theorem setRo_duties (s : State) (p : Page) (off : Nat) (v : W32) : (s.setRo p off v).duties = s.duties := by
  unfold State.duties State.retireAt
  rw [setRo_cfg]
  rfl
theorem setRo_ch (s : State) (p : Page) (off : Nat) (v : W32) : (s.setRo p off v).ch = s.ch := rfl
theorem setRo_pager (s : State) (p : Page) (off : Nat) (v : W32) : (s.setRo p off v).pager = s.pager := rfl
/-- The words of a live entry, as JNL_READ shows them. -/
def State.jnlShown (s : State) (v : Live) : State :=
  let e := v.ent
  (((((s.setRo .lease 0xC8 (atBit true 31 ||| atBit e.av 30 ||| atBit e.bv 29 ||| atPos (e.kind.toNat % 4) 24 ||| atPos v.unit 0)).setRo
    .lease 0xCC (lo32 e.ceilA)).setRo .lease 0xD0 (hi32 e.ceilA)).setRo .lease 0xD4 (lo32 e.ceilB)).setRo .lease 0xD8 (hi32 e.ceilB)).setRo
    .lease 0xDC (atPos v.handle.toNat 16)
theorem jnlAnswer_eq (s : State) (v : Live) : s.jnlAnswer v = (s.jnlShown v).leaseDone 0 := rfl
theorem at_ne (p : Page) (a b : Nat) (h : a ≠ b) : p.at a ≠ p.at b := fun e => h (Nat.add_left_cancel e)
theorem jnlShown_keeps (s : State) (v : Live) : (s.jnlShown v).duties = s.duties ∧ (s.jnlShown v).ch = s.ch ∧
    (s.jnlShown v).pager = s.pager := by
  unfold State.jnlShown
  simp only [setRo_duties, setRo_ch, setRo_pager, and_self]
theorem roW_setRo_lease (s : State) (a b : Nat) (w : W32) (h : b ≠ a) : (s.setRo .lease a w).roW .lease b = s.roW .lease b :=
  roW_setRo_ne s .lease .lease a b w (at_ne _ _ _ h)
theorem jnlShown_words (s : State) (v : Live) :
    (s.jnlShown v).roW .lease 0xCC = lo32 v.ent.ceilA ∧ (s.jnlShown v).roW .lease 0xD0 = hi32 v.ent.ceilA ∧
    (s.jnlShown v).roW .lease 0xD4 = lo32 v.ent.ceilB ∧ (s.jnlShown v).roW .lease 0xD8 = hi32 v.ent.ceilB := by
  unfold State.jnlShown
  dsimp only
  refine ⟨?_, ?_, ?_, ?_⟩
  · rw [roW_setRo_lease _ _ _ _ (by decide), roW_setRo_lease _ _ _ _ (by decide), roW_setRo_lease _ _ _ _ (by decide),
      roW_setRo_lease _ _ _ _ (by decide), roW_setRo]
  · rw [roW_setRo_lease _ _ _ _ (by decide), roW_setRo_lease _ _ _ _ (by decide), roW_setRo_lease _ _ _ _ (by decide), roW_setRo]
  · rw [roW_setRo_lease _ _ _ _ (by decide), roW_setRo_lease _ _ _ _ (by decide), roW_setRo]
  · rw [roW_setRo_lease _ _ _ _ (by decide), roW_setRo]
theorem leaseDone_roW (s : State) (code off : Nat) (h : off ≠ 0xC4) : (s.leaseDone code).roW .lease off = s.roW .lease off :=
  roW_setRo_ne _ .lease .lease 0xC4 off _ (at_ne _ _ _ h)
section
variable (s : State) (c : W32) (hc : s.lease.cmd = some c) (hd : s.dropping = false) (ht : s.tablesUp = true)
  (hs : s.lease.scanDone = true)
include hc hd ht hs
theorem leaseRun_shows (v : Live) (hop : cmdOp c = 1) (hv : s.lease.live (cmdChix c) = some v) : s.leaseRun = s.jnlAnswer v := by
  obtain ⟨tup, tlost⟩ := tablesUp_parts s ht
  unfold State.leaseRun
  simp [hc, hd, tup, tlost, hs, hop, hv]
theorem leaseRun_absent (hop : cmdOp c = 1) (hv : s.lease.live (cmdChix c) = none) :
    s.leaseRun = (s.forEach (List.range 6) (fun s n => s.setRo .lease (0xC8 + 4 * n) 0)).leaseDone 0x03 := by
  obtain ⟨tup, tlost⟩ := tablesUp_parts s ht
  unfold State.leaseRun
  simp [hc, hd, tup, tlost, hs, hop, hv]
theorem leaseRun_drops (v : Live) (hop : cmdOp c = 2) (hk : s.known (cmdChix c) = false) (hv : s.lease.live (cmdChix c) = some v) :
    s.leaseRun = s.forgetJournal (cmdChix c) true := by
  obtain ⟨tup, tlost⟩ := tablesUp_parts s ht
  unfold State.leaseRun
  simp [hc, hd, tup, tlost, hs, hop, hk, hv]
theorem leaseRun_known (hop : cmdOp c = 2) (hk : s.known (cmdChix c) = true) : s.leaseRun = s.leaseDone 0x20 := by
  obtain ⟨tup, tlost⟩ := tablesUp_parts s ht
  unfold State.leaseRun
  simp [hc, hd, tup, tlost, hs, hop, hk]
end

/-! ### The STORE window -/

theorem withOp_fields (cmd : W32) (op : Nat) : fld (withOp cmd op) 31 29 = fld cmd 31 29 ∧
    fld (withOp cmd op) 15 8 = fld cmd 15 8 ∧ cmdSel (withOp cmd op) = cmdSel cmd :=
  ⟨fld_mergeBits _ _ _ _ _ (by decide) (by decide), fld_mergeBits _ _ _ _ _ (by decide) (by decide),
    fld_mergeBits _ _ _ _ _ (by decide) (by decide)⟩
/-- What STORE_CMD runs with the store there and no host line in the engine. -/
def State.storeBody (s : State) (op : Nat) (c : W32) : State :=
  let sel := cmdSel c
  match op with
  | 1 => s.storeRead (s.hswAddr / 64) sel .host
  | 2 =>
    if s.hswMask = 0 then s.storeDone 0 0
    else s.storeReq true (s.hswAddr / 64) sel .host (s.getBytes .store 0x100 16) s.hswMask
  | 3 => if s.marchHolds sel then s.storeDone 0x25 0 else s.keyNew c
  | 4 => if s.marchHolds sel then s.storeDone 0x25 0 else s.keyErase sel
  | 5 => (s.forEach (s.store.wcb.filter s.mayBack) (fun s w => s.writeBack w)).flushCheck
  | _ =>
    let k := s.keySel sel
    let m := s.store.march
    let tgt := decide (sel = m.tgt)
    s.storeDone 0 (b2n k.seed.isSome + 2 * b2n k.zkeep + 4 * b2n (tgt && s.marchHolds sel) + 8 * b2n (tgt && m.split))
theorem storeBody_nothing (s : State) (c : W32) (hm : s.hswMask = 0) : s.storeBody 2 c = s.storeDone 0 0 := by
  unfold State.storeBody
  simp only [hm, if_true]
theorem storeBody_writes (s : State) (c : W32) (hm : s.hswMask ≠ 0) : s.storeBody 2 c =
    s.storeReq true (s.hswAddr / 64) (cmdSel c) .host (s.getBytes .store 0x100 16) s.hswMask := by
  unfold State.storeBody
  simp only [hm, if_false]
theorem storeRun_up (s : State) (c : W32) (hc : s.store.cmd = some c) (hb : s.hostBusy = false) (hop : 1 ≤ cmdOp c ∧ cmdOp c ≤ 6)
    (hu : (s.dom 45).unavail = false) (hd : s.domUp 45 = true) :
    s.storeRun = if s.storeFieldsOk c then s.storeBody (cmdOp c) c else s.storeFail c 0x02 := by
  have hbad : ¬ (cmdOp c = 0 ∨ 6 < cmdOp c) := by omega
  unfold State.storeRun
  simp only [hc, hb, hu, hd, if_neg hbad, Bool.false_eq_true, if_false, Bool.not_true]
  cases s.storeFieldsOk c <;> rfl
theorem storeFieldsOk_line (s : State) (cmd : W32) (op : Nat) (hop : op = 1 ∨ op = 2) (h1 : fld cmd 31 29 = 0) (h2 : fld cmd 15 8 = 0) :
    s.storeFieldsOk (withOp cmd op) = decide (s.hswAddr % 64 = 0) := by
  obtain ⟨f1, f2, -⟩ := withOp_fields cmd op
  have hcop : cmdOp (withOp cmd op) = op := cmdOp_withOp cmd op (by omega)
  unfold State.storeFieldsOk
  rw [f1, f2, hcop, h1, h2]
  rcases hop with rfl | rfl <;> simp
theorem storeFieldsOk_key (s : State) (cmd : W32) (op : Nat) (hop : op = 3 ∨ op = 4 ∨ op = 6) (h1 : fld cmd 31 29 = 0)
    (h2 : fld cmd 15 8 = 0) (hs : s.large = true ∨ cmdSel cmd < 16) : s.storeFieldsOk (withOp cmd op) = true := by
  obtain ⟨f1, f2, f3⟩ := withOp_fields cmd op
  have hcop : cmdOp (withOp cmd op) = op := cmdOp_withOp cmd op (by omega)
  unfold State.storeFieldsOk
  rw [f1, f2, f3, hcop, h1, h2]
  rcases hop with rfl | rfl | rfl <;> rcases hs with h | h <;> simp [h]

/-! A failed read. -/

theorem cfg_forEach_setCfg (s : State) (p : Page) (off k i : Nat) (g : Nat → W32) (hi : i < k) :
    (s.forEach (List.range k) (fun s i => s.setCfg p (off + 4 * i) (g i))).cfg p (off + 4 * i) = g i := by
  induction k with
  | zero => exact absurd hi (Nat.not_lt_zero i)
  | succ k ih =>
    have hstep : s.forEach (List.range (k + 1)) (fun s i => s.setCfg p (off + 4 * i) (g i)) =
        (s.forEach (List.range k) (fun s i => s.setCfg p (off + 4 * i) (g i))).setCfg p (off + 4 * k) (g k) := by
      unfold State.forEach
      rw [List.range_succ, List.foldl_append]
      rfl
    rw [hstep]
    by_cases h : i = k
    · rw [h, cfg_setCfg]
    · rw [cfg_setCfg_ne _ _ _ _ _ _ (at_ne _ _ _ (by omega)), ih (by omega)]
theorem ofLe_zeros (n : Nat) : ofLe (zeros n) = 0 := by
  unfold zeros
  induction n with
  | zero => rfl
  | succ n ih =>
    rw [List.replicate_succ]
    unfold ofLe
    rw [ih]
    rfl
theorem slice_zeros (n a k : Nat) : slice (zeros n) a k = zeros (min k (n - a)) := by
  unfold slice zeros
  rw [List.drop_replicate, List.take_replicate]
theorem putZeros_cfg (s : State) (i : Nat) (hi : i < 16) :
    (s.putBytes .store 0x100 (zeros 64)).cfg .store (0x100 + 4 * i) = 0 := by
  unfold State.putBytes
  refine (cfg_forEach_setCfg s .store 0x100 16 i _ hi).trans ?_
  rw [slice_zeros, ofLe_zeros]
  rfl
theorem putZeros_duties (s : State) : (s.putBytes .store 0x100 (zeros 64)).duties = s.duties := by
  refine forEach_keeps State.duties _ (fun s i => ?_) _ s
  have hne : Page.lease.at 0x88 ≠ Page.store.at (0x100 + 4 * i) := by
    change (7 * 0x1000 + 0x88 : Nat) ≠ 11 * 0x1000 + (0x100 + 4 * i)
    omega
  unfold State.duties State.retireAt
  rw [cfg_setCfg_ne s .store .lease _ 0x88 _ hne]
  rfl
theorem putZeros_keeps (s : State) : (s.putBytes .store 0x100 (zeros 64)).ch = s.ch ∧
    (s.putBytes .store 0x100 (zeros 64)).pager = s.pager :=
  ⟨forEach_keeps State.ch _ (fun s i => by rfl) _ s, forEach_keeps State.pager _ (fun s i => by rfl) _ s⟩

/-! KEY_NEW and KEY_ERASE. -/

theorem leaveWcb_wcb (s : State) (sel : Nat) (w : Wcb) (h : w ∈ (s.leaveWcb sel).store.wcb) (hs : w.sel = sel) :
    w.filling = true ∧ w.drop = true := by
  change w ∈ (s.store.wcb.filter (fun w => decide (w.sel ≠ sel) || w.filling)).map (fun w =>
    if w.sel = sel then { w with drop := true } else w) at h
  obtain ⟨w', hm, rfl⟩ := List.mem_map.mp h
  have hf := List.of_mem_filter hm
  by_cases hw : w'.sel = sel
  · rw [if_pos hw]
    simp only [hw, ne_eq, not_true_eq_false, decide_false, Bool.false_or] at hf
    exact ⟨hf, rfl⟩
  · rw [if_neg hw] at hs
    exact absurd hs hw
theorem useKey_held (s : State) (sel : Nat) :
    (s.useKey sel).alwaysHeld sel = true ∨ sel ∈ (s.useKey sel).store.cache := by
  have hroom : 0 < s.cacheRoom := by
    unfold State.cacheRoom
    have : ∀ b, b2n b ≤ 1 := by decide
    have h1 := this (s.keySel s.pageKix).seed.isSome
    have h2 := this (s.marchHolds s.store.march.tgt && !decide (s.store.march.tgt = s.pageKix))
    have h3 := this s.store.march.nextSeed.isSome
    dsimp only
    omega
  unfold State.useKey
  split
  · next h => exact .inl h
  · refine .inr ?_
    change sel ∈ (sel :: s.store.cache.filter (· ≠ sel)).take s.cacheRoom
    obtain ⟨n, hn⟩ := Nat.exists_eq_succ_of_ne_zero (Nat.pos_iff_ne_zero.mp hroom)
    rw [hn, List.take_succ_cons]
    exact List.mem_cons_self
theorem keyNew_word (s : State) (c : W32) (w : W128) (rest : List W128) (hm : s.store.masterLost = false)
    (hs : s.seedsFree = w :: rest) : s.keyNew c = ((((s.dropSeeds 1).setKey (cmdSel c) { seed := some w, zkeep := cmdB28 c }).useKey
      (cmdSel c)).leaveWcb (cmdSel c)).storeDone 0 0 := by
  have hd : s.masterDraw = s := by
    unfold State.masterDraw
    rw [hm]
    rfl
  unfold State.keyNew
  simp only [hd, hm, hs, Bool.false_eq_true, if_false]
theorem keyNew_dry (s : State) (c : W32) (hs : s.sys.seeds = []) (hr : s.sys.rnErr = true) : s.keyNew c = s.storeDone 0x26 0 := by
  have hf : s.seedsFree = [] := by
    unfold State.seedsFree
    rw [hs]
    exact List.take_nil
  have hd : s.masterDraw = s := by
    unfold State.masterDraw
    rw [hf]
    split <;> rfl
  unfold State.keyNew
  simp only [hd, hf, ite_self, hr, hs, List.isEmpty_nil, Bool.and_self, if_true]

theorem forgetJournal_todo (s : State) (x : Nat) (d : Bool)
    (h : ((s.lease.content x).half false).isSome = true ∨ ((s.lease.content x).half true).isSome = true) :
    (s.forgetJournal x d).lease.todo = s.lease.todo ++ [{
      chix := x
      why := .inval (((s.lease.content x).half false).map (·.1)) (((s.lease.content x).half true).map (·.1)) d }] ∧
    (s.forgetJournal x d).hdr = s.hdr ∧ (s.forgetJournal x d).store = s.store := by
  have hm : ∀ (s : State) b, (s.mirrorLease x b false 0 0).lease = s.lease ∧ (s.mirrorLease x b false 0 0).hdr = s.hdr ∧
      (s.mirrorLease x b false 0 0).store = s.store := fun s b => by
    unfold State.mirrorLease State.when
    split <;> exact ⟨rfl, rfl, rfl⟩
  have hw : ∀ (s : State) b c, (s.when c (·.mirrorLease x b false 0 0)).lease = s.lease ∧
      (s.when c (·.mirrorLease x b false 0 0)).hdr = s.hdr ∧ (s.when c (·.mirrorLease x b false 0 0)).store = s.store := fun s b c => by
    cases c with
    | false => exact ⟨rfl, rfl, rfl⟩
    | true => exact hm s b
  unfold State.forgetJournal
  extract_lets c a b t
  have hgo : ¬ (a.isNone = true ∧ b.isNone = true) := by
    simp only [a, b, Option.isNone_map, c]
    rintro ⟨h1, h2⟩
    rw [Option.isNone_iff_eq_none] at h1 h2
    rw [h1, h2] at h
    simp at h
  rw [if_neg hgo]
  obtain ⟨l1, h1, s1⟩ := hw t false a.isSome
  obtain ⟨l2, h2, s2⟩ := hw (t.when a.isSome (·.mirrorLease x false false 0 0)) true b.isSome
  exact ⟨congrArg Lease.todo (l2.trans l1), h2.trans h1, s2.trans s1⟩

section
variable (s : State) (cmd : W32) (h : s.canRun .store = true) (hb : s.hostBusy = false) (hd : s.domUp 45 = true)
  (hu : (s.dom 45).unavail = false)
include hb hd hu
theorem storeTaken_runs (op : Nat) (hop : 1 ≤ op ∧ op ≤ 6) (hf : (s.storeTaken (withOp cmd op)).storeFieldsOk (withOp cmd op) = true) :
    (s.storeTaken (withOp cmd op)).storeRun = (s.storeTaken (withOp cmd op)).storeBody op (withOp cmd op) := by
  have hcop : cmdOp (withOp cmd op) = op := cmdOp_withOp cmd op (by omega)
  have hrun := storeRun_up (s.storeTaken (withOp cmd op)) (withOp cmd op) rfl hb (by rw [hcop]; exact hop) hu hd
  rw [if_pos hf, hcop] at hrun
  exact hrun
theorem storeTaken_misaligned (op : Nat) (hop : op = 1 ∨ op = 2) (h1 : fld cmd 31 29 = 0) (h2 : fld cmd 15 8 = 0)
    (ha : s.hswAddr % 64 ≠ 0) :
    (s.storeTaken (withOp cmd op)).storeRun = (s.storeTaken (withOp cmd op)).storeFail (withOp cmd op) 0x02 := by
  have hcop : cmdOp (withOp cmd op) = op := cmdOp_withOp cmd op (by omega)
  have hf := (storeFieldsOk_line (s.storeTaken (withOp cmd op)) cmd op hop h1 h2).trans (decide_eq_false ha)
  have hrun := storeRun_up (s.storeTaken (withOp cmd op)) (withOp cmd op) rfl hb (by rw [hcop]; omega) hu hd
  rw [if_neg (by rw [hf]; exact Bool.false_ne_true)] at hrun
  exact hrun
include h
/-- A STORE command that only answers. -/
theorem store_only_answers (op code detail : Nat) (hop : (1 ≤ op ∧ op ≤ 6) ∧ op ≠ 5)
    (hf : (s.storeTaken (withOp cmd op)).storeFieldsOk (withOp cmd op) = true)
    (hrun : (s.storeTaken (withOp cmd op)).storeBody op (withOp cmd op) = (s.storeTaken (withOp cmd op)).storeDone code detail) :
    ∃ t : State, Host.Outcome.next (s.begin.storeStart (withOp cmd op)) = (Host.Outcome.next t : Host.Outcome State Fault Refusal) ∧
      t.ended .store 0xD4 8 code op detail ∧ t.store = s.store := by
  have hcop : cmdOp (withOp cmd op) = op := cmdOp_withOp cmd op (by omega)
  obtain ⟨hstart, hst, hend⟩ := store_answered s (s.storeTaken (withOp cmd op)) _ code detail h (by rw [hcop]; exact hop.2)
    ((storeTaken_runs s cmd hb hd hu op hop.1 hf).trans hrun) rfl rfl rfl
  rw [hcop] at hend
  exact ⟨_, congrArg Host.Outcome.next hstart, hend, hst⟩
end
theorem storeTaken_busy (s : State) (c : W32) : ((s.storeTaken c).hdr .store).busy = true :=
  congrArg Hdr.busy (hdr_modHdr (s.begin.emit (.cpDone false)) .store (fun h => { h with busy := true }))
theorem hswMask_of_cfg (s t : State) (h : t.cfg = s.cfg) : t.hswMask = s.hswMask := by
  unfold State.hswMask
  rw [h]
theorem keySel_setKey (s : State) (n : Nat) (k : KeySel) : (s.setKey n k).keySel n = k := Tab.get_set _ _ _ _
theorem keyErase_effect (s : State) (sel : Nat) : (s.keyErase sel).keySel sel = {} ∧ sel ∉ (s.keyErase sel).store.cache ∧
    ∀ w ∈ (s.keyErase sel).store.wcb, w.sel = sel → w.filling = true ∧ w.drop = true := by
  refine ⟨keySel_setKey s sel {}, ?_, fun w hw hs => ?_⟩
  · change sel ∉ s.store.cache.filter (· ≠ sel)
    simp
  · exact leaveWcb_wcb ((s.setKey sel {}).modStore (fun t => { t with cache := t.cache.filter (· ≠ sel) })) sel w hw hs

/-- Settles O55, command by command. -/
theorem storeAndJournalCommands : Obligations.StoreAndJournalCommands := by
  unfold Obligations.StoreAndJournalCommands
  have hop : ∀ cmd op, op < 256 → cmdOp (withOp cmd op) = op := fun cmd op h => cmdOp_withOp cmd op h
  have htab : ∀ {s : State} {p}, s.canRun p = true → s.tablesUp = true := fun h => (canRun_parts _ _ h).2.2
  refine ⟨fun cmd v s h hd hs hv => ?_, fun cmd s h hd hs hv => ?_, fun cmd v s h hd hs hk hv hc => ?_, fun cmd s h hd hs hk => ?_,
    fun cmd s h hb hd hu h1 h2 => ⟨fun ha => ⟨?_, fun hm => ?_, fun hm => ?_⟩, fun ha p hp => ?_,
      fun hsel hm => ⟨fun w rest hw hml => ?_, fun hse hr => ?_, ?_⟩, fun hsel hm p hp => ?_, fun hw => ?_, fun hsel => ?_⟩⟩
  · let c := withOp cmd 1
    let t := s.leaseTaken c
    obtain ⟨jd, jch, jp⟩ := jnlShown_keeps t v
    have hrun : t.leaseRun = (t.jnlShown v).leaseDone 0 :=
      (leaseRun_shows t c rfl hd (htab (s := s) h) hs v (hop cmd 1 (by decide)) (by rw [cmdChix_withOp]; exact hv)).trans (jnlAnswer_eq t v)
    obtain ⟨hstart, hl, hend⟩ := lease_answered s _ c 0 h hrun jd jch (congrArg Pager.saw jp)
    rw [hop cmd 1 (by decide)] at hend
    obtain ⟨w1, w2, w3, w4⟩ := jnlShown_words t v
    refine ⟨_, congrArg Host.Outcome.next hstart, hend, hl, ?_⟩
    rw [leaseDone_roW _ _ _ (by decide), leaseDone_roW _ _ _ (by decide), leaseDone_roW _ _ _ (by decide),
      leaseDone_roW _ _ _ (by decide)]
    exact ⟨w1, w2, w3, w4⟩
  · let c := withOp cmd 1
    let t := s.leaseTaken c
    have hrun := leaseRun_absent t c rfl hd (htab (s := s) h) hs (hop cmd 1 (by decide)) (by rw [cmdChix_withOp]; exact hv)
    obtain ⟨hstart, hl, hend⟩ := lease_answered s _ c 0x03 h hrun (forEach_keeps State.duties _ (fun s n => setRo_duties s _ _ _) _ t)
      (forEach_keeps State.ch _ (fun s n => by rfl) _ t)
      (forEach_keeps (fun s : State => s.pager.saw) _ (fun s n => by rfl) _ t)
    rw [hop cmd 1 (by decide)] at hend
    exact ⟨_, congrArg Host.Outcome.next hstart, hend, hl⟩
  · let c := withOp cmd 2
    let t := s.leaseTaken c
    have hx : cmdChix c = cmdChix cmd := cmdChix_withOp cmd 2
    have hrun : t.leaseRun = t.forgetJournal (cmdChix cmd) true :=
      (leaseRun_drops t c rfl hd (htab (s := s) h) hs v (hop cmd 2 (by decide)) (by rw [hx]; exact hk) (by rw [hx]; exact hv)).trans
        (by rw [hx])
    obtain ⟨ftodo, fhdr, fst⟩ := forgetJournal_todo t (cmdChix cmd) true hc
    have hst := (idle_cmds s (idle_parts s (canRun_parts s .lease h).1).2.1).2.2.2
    refine ⟨_, congrArg Host.Outcome.next (leaseStart_carryOn s _ c h hrun ((congrArg Store.cmd fst).trans hst)), ?_, ftodo⟩
    rw [fhdr]
    exact congrArg Hdr.busy (hdr_modHdr (s.begin.emit (.cpDone false)) .lease (fun h => { h with busy := true }))
  · let c := withOp cmd 2
    let t := s.leaseTaken c
    have hrun := leaseRun_known t c rfl hd (htab (s := s) h) hs (hop cmd 2 (by decide)) (by rw [cmdChix_withOp]; exact hk)
    obtain ⟨hstart, hl, hend⟩ := lease_answered s t c 0x20 h hrun rfl rfl rfl
    rw [hop cmd 2 (by decide)] at hend
    exact ⟨_, congrArg Host.Outcome.next hstart, hend, hl⟩
  · have hf := (storeFieldsOk_line (s.storeTaken (withOp cmd 1)) cmd 1 (.inl rfl) h1 h2).trans (decide_eq_true ha)
    have hwait := storeIdle_wait s (idle_parts s (canRun_parts s .store h).1).1
    refine ⟨_, congrArg Host.Outcome.next (storeStart_carryOn s _ (withOp cmd 1) h (by rw [hop cmd 1 (by decide)]; decide)
      (storeTaken_runs s cmd hb hd hu 1 (by decide) hf)), storeTaken_busy s (withOp cmd 1), ?_⟩
    change s.store.wait ++ [_] = _
    rw [hwait, (withOp_fields cmd 1).2.2]
    rfl
  · have hf := (storeFieldsOk_line (s.storeTaken (withOp cmd 2)) cmd 2 (.inr rfl) h1 h2).trans (decide_eq_true ha)
    have hwait := storeIdle_wait s (idle_parts s (canRun_parts s .store h).1).1
    have hmask := hswMask_of_cfg s (s.storeTaken (withOp cmd 2)) rfl
    have hbody := storeBody_writes (s.storeTaken (withOp cmd 2)) (withOp cmd 2) (by rw [hmask]; exact hm)
    rw [hmask] at hbody
    refine ⟨_, congrArg Host.Outcome.next (storeStart_carryOn s _ _ h (by rw [hop cmd 2 (by decide)]; decide)
      ((storeTaken_runs s cmd hb hd hu 2 (by decide) hf).trans hbody)), storeTaken_busy s (withOp cmd 2), ?_⟩
    change s.store.wait ++ [_] = _
    rw [hwait, (withOp_fields cmd 2).2.2]
    rfl
  · have hf := (storeFieldsOk_line (s.storeTaken (withOp cmd 2)) cmd 2 (.inr rfl) h1 h2).trans (decide_eq_true ha)
    obtain ⟨t, hx, hend, -⟩ := store_only_answers s cmd h hb hd hu 2 0 0 (by decide) hf
      (storeBody_nothing _ _ ((hswMask_of_cfg s (s.storeTaken _) rfl).trans hm))
    exact ⟨t, hx, hend⟩
  · have fails : ∀ op, op = 1 ∨ op = 2 → ∃ t : State, Host.Outcome.next (s.begin.storeStart (withOp cmd op)) =
        (Host.Outcome.next t : Host.Outcome State Fault Refusal) ∧ t.ended .store 0xD4 8 0x02 op 0 ∧
        (op = 1 → ∀ i, i < 16 → t.cfg .store (0x100 + 4 * i) = 0) := fun op ho => by
      let c := withOp cmd op
      let t := s.storeTaken c
      have hcop : cmdOp c = op := hop cmd op (by omega)
      let u := t.when (decide (cmdOp c = 1)) (·.putBytes .store 0x100 (zeros 64))
      have hud : u.duties = t.duties ∧ u.ch = t.ch ∧ u.pager = t.pager := by
        simp only [u, State.when]
        split
        · exact ⟨putZeros_duties t, putZeros_keeps t⟩
        · exact ⟨rfl, rfl, rfl⟩
      obtain ⟨ud, uch, up⟩ := hud
      obtain ⟨hstart, -, hend⟩ := store_answered s u c 0x02 0 h (by omega) (storeTaken_misaligned s cmd hb hd hu op ho h1 h2 ha) ud uch
        (congrArg Pager.saw up)
      rw [hcop] at hend
      refine ⟨_, congrArg Host.Outcome.next hstart, hend, fun h1 i hi => ?_⟩
      have hu1 : u = t.putBytes .store 0x100 (zeros 64) := by
        simp only [u, State.when]
        exact if_pos (decide_eq_true (hcop.trans h1))
      change u.cfg .store (0x100 + 4 * i) = 0
      rw [hu1]
      exact putZeros_cfg t i hi
    have hp' : p = (.hswRead cmd, 1) ∨ p = (.hswWrite cmd, 2) := by simpa using hp
    rcases hp' with rfl | rfl
    · exact fails 1 (.inl rfl)
    · exact fails 2 (.inr rfl)
  · let c := withOp cmd 3
    let t := s.storeTaken c
    have hsl : cmdSel c = cmdSel cmd := (withOp_fields cmd 3).2.2
    have hf := storeFieldsOk_key t cmd 3 (.inl rfl) h1 h2 hsel
    let k := (t.dropSeeds 1).setKey (cmdSel c) { seed := some w, zkeep := cmdB28 c }
    have hbody : t.storeBody 3 c = ((k.useKey (cmdSel c)).leaveWcb (cmdSel c)).storeDone 0 0 :=
      (if_neg (by rw [hsl]; exact Bool.eq_false_iff.mp hm)).trans (keyNew_word t c w rest hml hw)
    have hheld := useKey_held k (cmdSel c)
    have huse : (k.useKey (cmdSel c)).sys = k.sys ∧ (k.useKey (cmdSel c)).store.sels = k.store.sels ∧
        (k.useKey (cmdSel c)).store.cmd = k.store.cmd := by
      unfold State.useKey
      split <;> exact ⟨rfl, rfl, rfl⟩
    obtain ⟨usys, usels, ucmd⟩ := huse
    have hend := storeDone_ended ((k.useKey (cmdSel c)).leaveWcb (cmdSel c)) c 0 0 ucmd
    rw [hop cmd 3 (by decide)] at hend
    rw [← hsl]
    refine ⟨_, congrArg Host.Outcome.next (storeStart_carryOn s _ c h (by rw [hop cmd 3 (by decide)]; decide)
      ((storeTaken_runs s cmd hb hd hu 3 (by decide) hf).trans hbody)), hend, ?_, ?_, hheld, fun w' hw' hs' => ?_⟩
    · exact congrArg Sys.seeds usys
    · rw [← cmdB28_withOp cmd 3]
      refine (congrArg (fun l : Tab KeySel => Tab.get {} l (cmdSel c)) usels).trans ?_
      exact keySel_setKey _ _ _
    · exact leaveWcb_wcb (k.useKey (cmdSel c)) (cmdSel c) w' hw' hs'
  · have hsl : cmdSel (withOp cmd 3) = cmdSel cmd := (withOp_fields cmd 3).2.2
    obtain ⟨t, hx, hend, hst⟩ := store_only_answers s cmd h hb hd hu 3 0x26 0 (by decide)
      (storeFieldsOk_key (s.storeTaken _) cmd 3 (.inl rfl) h1 h2 hsel)
      ((if_neg (by rw [hsl]; exact Bool.eq_false_iff.mp hm)).trans (keyNew_dry (s.storeTaken _) _ hse hr))
    exact ⟨t, hx, hend, congrArg Store.sels hst⟩
  · let c := withOp cmd 4
    let t := s.storeTaken c
    have hsl : cmdSel c = cmdSel cmd := (withOp_fields cmd 4).2.2
    have hf := storeFieldsOk_key t cmd 4 (.inr (.inl rfl)) h1 h2 hsel
    have hbody : t.storeBody 4 c = t.keyErase (cmdSel c) := if_neg (by rw [hsl]; exact Bool.eq_false_iff.mp hm)
    have hend := storeDone_ended (((t.setKey (cmdSel c) {}).modStore (fun t => { t with cache := t.cache.filter (· ≠ cmdSel c) })).leaveWcb
      (cmdSel c)) c 0 0 rfl
    rw [hop cmd 4 (by decide)] at hend
    rw [← hsl]
    exact ⟨_, congrArg Host.Outcome.next (storeStart_carryOn s _ c h (by rw [hop cmd 4 (by decide)]; decide)
      ((storeTaken_runs s cmd hb hd hu 4 (by decide) hf).trans hbody)), hend, keyErase_effect t (cmdSel c)⟩
  · have refused : ∀ op, op = 3 ∨ op = 4 → ∃ t : State, Host.Outcome.next (s.begin.storeStart (withOp cmd op)) =
        (Host.Outcome.next t : Host.Outcome State Fault Refusal) ∧ t.ended .store 0xD4 8 0x25 op 0 ∧
        t.store.sels = s.store.sels := fun op ho => by
      have hsl : cmdSel (withOp cmd op) = cmdSel cmd := (withOp_fields cmd op).2.2
      have hheld : (s.storeTaken (withOp cmd op)).marchHolds (cmdSel (withOp cmd op)) = true := by
        rw [hsl]
        exact hm
      have hf := storeFieldsOk_key (s.storeTaken (withOp cmd op)) cmd op (by omega) h1 h2 hsel
      obtain ⟨t, hx, hend, hst⟩ := store_only_answers s cmd h hb hd hu op 0x25 0 (by omega) hf
        (by rcases ho with rfl | rfl <;> exact if_pos hheld)
      exact ⟨t, hx, hend, congrArg Store.sels hst⟩
    have hp' : p = (.keyNew cmd, 3) ∨ p = (.keyErase cmd, 4) := by simpa using hp
    rcases hp' with rfl | rfl
    · exact refused 3 (.inl rfl)
    · exact refused 4 (.inr rfl)
  · let c := withOp cmd 5
    obtain ⟨f1, f2, -⟩ := withOp_fields cmd 5
    have hflush := storeStart_flush s c h (hop cmd 5 (by decide)) (f1.trans h1) (f2.trans h2) hd hw
    obtain ⟨hcarry, -⟩ := storeDone_idle s (s.storeTaken c) c 0 0 h rfl rfl rfl
    have hend := storeDone_ended (s.storeTaken c) c 0 0 rfl
    rw [hop cmd 5 (by decide)] at hend
    exact ⟨_, congrArg Host.Outcome.next (hflush.trans hcarry), hend⟩
  · have hsl : cmdSel (withOp cmd 6) = cmdSel cmd := (withOp_fields cmd 6).2.2
    obtain ⟨t, hx, hend, -⟩ := store_only_answers s cmd h hb hd hu 6 0 _ (by decide)
      (storeFieldsOk_key (s.storeTaken _) cmd 6 (.inr (.inr rfl)) h1 h2 hsel) rfl
    rw [hsl] at hend
    exact ⟨t, hx, hend⟩

end Sys2Proof.Machine
end

section
/-! PROOFS. The admission of a frame: what stands from the test at the SOF to the end of admission, the frame as it is added,
its ticket and its way past the slices (R62, R74, R96, R101). -/
namespace Sys2Proof.Machine

/-! ### What admission reads and leaves as it was -/

/-- What the tests of an admission read beside the frames: settings, role, channels, leases and the security core. -/
def State.scene (s : State) := (s.regs.cfg, s.regs.parBad, s.pair, s.ch, s.lease, s.sys)

theorem detectAs_scene (s : State) (inj : Bool) (det inst : Nat) (a b : W32) : (s.detectAs inj det inst a b).scene = s.scene := by
  unfold State.detectAs
  dsimp only
  split <;> rfl
theorem busErrFlag_scene (s : State) (d : Dir) (port : Nat) : (s.busErrFlag d port).scene = s.scene := by
  unfold State.busErrFlag
  split <;> rfl
theorem busParity_scene (s : State) (d : Dir) (port : Nat) (cls : Bool) : (s.busParity d port cls).scene = s.scene :=
  (detectAs_scene _ _ _ _ _ _).trans (busErrFlag_scene s d port)
theorem parity_scene (s : State) (c : Bool) (d : Dir) (port : Nat) (cls : Bool) :
    (s.when c (·.busParity d port cls)).scene = s.scene :=
  when_keeps State.scene (fun s => s.busParity d port cls) (fun s => busParity_scene s d port cls) c s
theorem parity_dp (s : State) (c : Bool) (d : Dir) (port : Nat) (cls : Bool) :
    (s.when c (·.busParity d port cls)).dp = s.dp :=
  when_keeps State.dp (fun s => s.busParity d port cls) (fun s => busParity_dp s d port cls) c s
theorem bwIn_scene (s : State) (d : Dir) (port k : Nat) : (s.bwIn d port k).scene = s.scene :=
  when_keeps State.scene (fun s => s.bwAdd port .ingress k) (fun _ => rfl) _ s
theorem admitCounts_scene (s : State) (f : Frame) : (s.admitCounts f).scene = s.scene := by
  unfold State.admitCounts State.when
  split <;> rfl
theorem admitCounts_dp' (s : State) (f : Frame) : (s.admitCounts f).dp = s.dp := by
  unfold State.admitCounts State.when
  split <;> rfl
theorem takeTicket_scene (s : State) (f : Frame) : (s.takeTicket f).scene = s.scene := by
  unfold State.takeTicket
  dsimp only
  split <;> rfl

theorem cfg_of_scene (s t : State) (h : t.scene = s.scene) (p : Page) (off : Nat) : t.cfg p off = s.cfg p off := by
  simp only [State.scene, Prod.mk.injEq] at h
  unfold State.cfg
  rw [h.1, h.2.1]
theorem pair_of_scene (s t : State) (h : t.scene = s.scene) : t.pair = s.pair := by
  simp only [State.scene, Prod.mk.injEq] at h; exact h.2.2.1
theorem ch_of_scene (s t : State) (h : t.scene = s.scene) : t.ch = s.ch := by
  simp only [State.scene, Prod.mk.injEq] at h; exact h.2.2.2.1
theorem sys_of_scene (s t : State) (h : t.scene = s.scene) : t.sys = s.sys := by
  simp only [State.scene, Prod.mk.injEq] at h; exact h.2.2.2.2.2
theorem roleOpen_of_scene (s t : State) (h : t.scene = s.scene) : t.roleOpen = s.roleOpen := by
  unfold State.roleOpen
  rw [pair_of_scene s t h]
theorem portEn_of_scene (s t : State) (h : t.scene = s.scene) (p : Nat) : t.portEn p = s.portEn p := by
  unfold State.portEn
  rw [cfg_of_scene s t h]
theorem admFree_of_scene (s t : State) (h : t.scene = s.scene) (hd : t.dp = s.dp) (p : Nat) : t.admFree p = s.admFree p := by
  unfold State.admFree State.portLanes State.framesOf
  rw [cfg_of_scene s t h, hd]
theorem busOpen_of_dp (s t : State) (hd : t.dp = s.dp) (d : Dir) (p : Nat) (cls : Bool) : t.busOpen d p cls = s.busOpen d p cls := by
  unfold State.busOpen State.openFrames State.framesOf
  rw [hd]

/-! ### The tests at the SOF -/

theorem ofNat_port (port : Fin 32) : Fin.ofNat 32 port.val = port := by
  apply Fin.ext
  show port.val % 32 = port.val
  omega
theorem admits_parts (s : State) (d : Dir) (port : Fin 32) (cls : Bool) (desc : W64) (h : s.admits d port cls desc = true) :
    5 ≤ s.sys.phase ∧ s.held (.port port) = false ∧ s.resetOn (.port port) = false ∧ s.busOpen d port cls = false ∧
    s.portEn port = true ∧ s.roleOpen = true ∧ descOk desc cls = true ∧ (d = .egress ∨ 16384 ≤ s.admFree port) := by
  simp only [State.admits, Bool.and_eq_true, decide_eq_true_eq, Bool.not_eq_true', Bool.or_eq_true] at h
  obtain ⟨⟨⟨⟨⟨⟨⟨h1, h2⟩, h3⟩, h4⟩, h5⟩, h6⟩, h7⟩, h8⟩ := h
  exact ⟨h1, h2, h3, h4, h5, h6, h7, h8⟩
/-- Nothing refuses the frame on egress: it is added, and its action is taken from a state that differs in records of a parity
error alone. -/
theorem egAdmit_added (s : State) (port : Fin 32) (cls : Bool) (desc : W64) (b : Bytes) (dpBad upErr eof : Bool)
    (h : s.admits .egress port cls desc = true) :
    ∃ t : State, t.scene = s.scene ∧ t.dp = s.dp ∧ s.begin.egAdmit port cls desc b dpBad upErr eof =
      (((t.addFrame (s.newFrame .egress port cls desc b dpBad upErr eof)).admitCounts
        (s.newFrame .egress port cls desc b dpBad upErr eof)).egAction (s.newFrame .egress port cls desc b dpBad upErr eof)) := by
  obtain ⟨hph, hheld, hres, hopen, hen, hrole, hdesc, -⟩ := admits_parts s _ _ _ _ h
  refine ⟨s.begin.when dpBad (·.busParity .egress port cls), parity_scene s.begin _ _ _ _, parity_dp s.begin _ _ _ _, ?_⟩
  have hsc : (s.begin.when dpBad (·.busParity .egress port cls)).scene = s.scene := parity_scene s.begin _ _ _ _
  have hdp : (s.begin.when dpBad (·.busParity .egress port cls)).dp = s.dp := parity_dp s.begin _ _ _ _
  have hoff : (decide (s.begin.sys.phase < 5) || s.begin.held (.port (Fin.ofNat 32 port)) ||
      s.begin.resetOn (.port (Fin.ofNat 32 port))) = false := by
    rw [ofNat_port, show s.begin.held (.port port) = false from hheld, show s.begin.resetOn (.port port) = false from hres]
    simp only [Bool.or_false, decide_eq_false_iff_not]
    exact Nat.not_lt.mpr hph
  unfold State.egAdmit
  simp only [hoff, Bool.false_eq_true, if_false, busOpen_of_dp _ _ hdp, hopen, portEn_of_scene _ _ hsc, hen,
    roleOpen_of_scene _ _ hsc, hrole, hdesc, Bool.not_true]
  rfl
/-- The same on ingress, where the bytes that have come are counted as well. -/
theorem inAdmit_added (s : State) (port : Fin 32) (cls : Bool) (desc : W64) (b : Bytes) (dpBad upErr eof : Bool)
    (h : s.admits .ingress port cls desc = true) :
    ∃ t : State, t.scene = s.scene ∧ t.dp = s.dp ∧ s.begin.inAdmit port cls desc b dpBad upErr eof =
      (((t.addFrame (s.newFrame .ingress port cls desc b dpBad upErr eof)).admitCounts
        (s.newFrame .ingress port cls desc b dpBad upErr eof)).inAction (s.newFrame .ingress port cls desc b dpBad upErr eof)) := by
  obtain ⟨hph, hheld, hres, hopen, hen, hrole, hdesc, hfree⟩ := admits_parts s _ _ _ _ h
  have hfree : 16384 ≤ s.admFree port := hfree.resolve_left (by decide)
  obtain ⟨t, ht⟩ : ∃ t, t = s.begin.when dpBad (·.busParity .ingress port cls) := ⟨_, rfl⟩
  have hsc : t.scene = s.scene := by rw [ht]; exact parity_scene s.begin _ _ _ _
  have hdp : t.dp = s.dp := by rw [ht]; exact parity_dp s.begin _ _ _ _
  obtain ⟨u, hu⟩ : ∃ u, u = t.bwIn .ingress port (24 + (s.newFrame .ingress port cls desc b dpBad upErr eof).got) := ⟨_, rfl⟩
  have hsc' : u.scene = s.scene := by rw [hu, bwIn_scene, hsc]
  have hdp' : u.dp = s.dp := by rw [hu, bwIn_dp, hdp]
  refine ⟨u, hsc', hdp', ?_⟩
  have hph : ¬ s.begin.sys.phase < 5 := Nat.not_lt.mpr hph
  have hoff : (s.begin.held (.port (Fin.ofNat 32 port)) || s.begin.resetOn (.port (Fin.ofNat 32 port))) = false := by
    rw [ofNat_port, show s.begin.held (.port port) = false from hheld, show s.begin.resetOn (.port port) = false from hres]
    rfl
  have hnew : s.begin.newFrame .ingress port cls desc b dpBad upErr eof = s.newFrame .ingress port cls desc b dpBad upErr eof := rfl
  unfold State.inAdmit
  simp only [hph, if_false, hoff, Bool.false_eq_true, Bool.not_false, Bool.and_true, hnew, ← ht, ← hu,
    busOpen_of_dp _ _ hdp, hopen, portEn_of_scene _ _ hsc', hen, roleOpen_of_scene _ _ hsc', hrole, hdesc, Bool.not_true,
    admFree_of_scene _ _ hsc' hdp', Nat.not_lt.mpr hfree]

/-! ### The newest frame

The frames of a state whose newest one is known: it stands last in the list, and no other has its number. -/

/-- The frames are `l` and behind them `f`, which has a number of its own. -/
def State.newest (s : State) (l : List Frame) (f : Frame) : Prop :=
  s.dp.frames = l ++ [f] ∧ (∀ g ∈ l, g.id ≠ f.id) ∧ f.void_ = false
theorem addFrame_newest (s : State) (f : Frame) (hn : s.dp.numbered) (hid : f.id = s.dp.nextFrame) (hv : f.void_ = false) :
    (s.addFrame f).newest s.dp.frames f :=
  ⟨rfl, fun g hg h => absurd (hn.1 g hg) (by omega), hv⟩
section
variable {s : State} {l : List Frame} {f : Frame}

theorem State.newest.of_frames {t : State} (h : s.newest l f) (ht : t.dp.frames = s.dp.frames) : t.newest l f :=
  ⟨ht.trans h.1, h.2⟩
theorem State.newest.frame (h : s.newest l f) : s.frame f.id = some f := by
  obtain ⟨hl, hne, hv⟩ := h
  unfold State.frame
  rw [hl, List.find?_append, List.find?_eq_none.mpr (fun g hg => by simp [hne g hg]), List.find?_cons_of_pos (by simp [hv])]
  rfl
theorem State.newest.modFrame (h : s.newest l f) (g : Frame → Frame) (hid : (g f).id = f.id) (hv : (g f).void_ = f.void_) :
    (s.modFrame f.id g).newest l (g f) := by
  obtain ⟨hl, hne, hv0⟩ := h
  refine ⟨?_, fun x hx => by rw [hid]; exact hne x hx, hv.trans hv0⟩
  show s.dp.frames.map _ = _
  have hold : l.map (fun x => if x.id = f.id then g x else x) = l :=
    (List.map_congr_left (fun x hx => if_neg (hne x hx))).trans (List.map_id _)
  rw [hl, List.map_append, hold, List.map_cons, if_pos rfl, List.map_nil]
theorem State.newest.ticketsOut (h : s.newest l f) (hf : f.ticket = none) (k : Nat) :
    s.ticketsOut k = (l.filter (fun f => decide (f.key_ = k) && f.ticket.isSome)).length := by
  unfold State.ticketsOut
  rw [h.1, List.filter_append, List.filter_cons_of_neg (by simp [hf]), List.filter_nil, List.append_nil]
theorem State.newest.ticketWaits (h : s.newest l f) (k : Nat) : s.ticketWaits k f.id =
    l.any (fun g => decide (g.key_ = k) && decide (g.stage ≠ .missq) && g.ticket.isNone && !g.void_ && decide (g.id ≠ f.id)) := by
  unfold State.ticketWaits
  rw [h.1, List.any_append, List.any_cons, List.any_nil]
  simp
theorem State.newest.rsiFree (h : s.newest l f) (hf : f.stage = .waiting) (p : Nat) :
    s.rsiFree p = 1048576 - ((l.filter (fun f => f.port / 16 = p / 16)).map Frame.rsiBytes).sum := by
  have hz : f.rsiBytes = 0 := by unfold Frame.rsiBytes; rw [hf]
  unfold State.rsiFree
  rw [h.1, List.filter_append, List.map_append, List.sum_append]
  by_cases hp : f.port / 16 = p / 16
  · simp [hp, hz]
  · simp [hp]
theorem State.newest.missCount (h : s.newest l f) (hf : f.stage = .waiting) (x : Nat) :
    s.missCount x = (l.filter (fun f => decide (f.stage = .missq) && decide (f.chix = x))).length := by
  unfold State.missCount
  rw [h.1, List.filter_append, List.filter_cons_of_neg (by simp [hf]), List.filter_nil, List.append_nil]
theorem State.newest.setTicket (h : s.newest l f) (k : Nat) :
    (s.setTicket f.id k).newest l { f with ticket := some (Tab.get 0 s.dp.ticketNext k % 4096) } :=
  State.newest.of_frames (h.modFrame (fun f => { f with ticket := some (Tab.get 0 s.dp.ticketNext k % 4096) }) rfl rfl) rfl
/-- A ticket that cannot be given leaves the frame as it is. -/
theorem State.newest.takeTicket (h : s.newest l f) : ∃ n, (s.takeTicket f).newest l { f with ticket := n } := by
  unfold State.takeTicket
  dsimp only
  split
  · exact ⟨_, h.setTicket f.key_⟩
  · exact ⟨f.ticket, h.of_frames rfl⟩
theorem State.newest.rseReturn (h : s.newest l f) : ∃ n, (s.rseReturn f).newest l { f with paid := n } := by
  unfold State.rseReturn
  split
  · refine ⟨max f.paid f.segsIn, (h.modFrame (fun g => { g with paid := max g.paid f.segsIn }) rfl rfl).of_frames ?_⟩
    rw [payRse_dp]
  · exact ⟨f.paid, h⟩

/-! ### A frame on its way past the slices -/

/-- A frame with its ticket and room left is written to the reorder buffer. -/
theorem State.newest.passTry (h : s.newest l f) (hp : f.passes = true) (hr : s.roomFor f = true) :
    ∃ n, (s.passTry f).newest l { f with stage := .written, paid := n } := by
  have hw : ((s.modFrame f.id (fun g => { g with stage := .written })).sendTicket f 63 false).newest l
      { f with stage := .written } :=
    (h.modFrame (fun g => { g with stage := .written }) rfl rfl).of_frames (by rw [sendTicket_dp])
  unfold State.passTry
  rw [if_pos (by rw [hp, hr]; rfl)]
  unfold State.rseReturn
  split
  · refine ⟨max f.paid f.segsIn, ?_⟩
    exact (hw.modFrame (fun g => { g with paid := max g.paid f.segsIn }) rfl rfl).of_frames (by rw [payRse_dp])
  · exact ⟨f.paid, hw⟩
theorem State.newest.vfCheck (h : s.newest l f) (hv : f.verifyFirst = false) : s.vfCheck f.id = s := by
  unfold State.vfCheck
  rw [h.frame]
  simp [hv]
theorem State.newest.voidLong (h : s.newest l f) (hv : f.tooLong = false) : s.voidLong f.id = s := by
  unfold State.voidLong
  rw [h.frame]
  simp [hv]

end

theorem plainOut_void' (f : Frame) (out : Bytes) : (f.plainOut out).void_ = f.void_ := by unfold Frame.plainOut; split <;> rfl
theorem quietDrop_off (s : State) (h : s.dp.quiet = false) : s.quietDrop = s := by
  unfold State.quietDrop
  rw [h]
  rfl
theorem rseReturn_quiet (s : State) (f : Frame) : (s.rseReturn f).dp.quiet = s.dp.quiet := by
  unfold State.rseReturn
  split
  · rw [payRse_dp]; rfl
  · rfl
theorem passTry_quiet (s : State) (f : Frame) : (s.passTry f).dp.quiet = s.dp.quiet := by
  unfold State.passTry
  split
  · rw [rseReturn_quiet, sendTicket_dp]; rfl
  · rfl
theorem takeTicket_quiet (s : State) (f : Frame) : (s.takeTicket f).dp.quiet = s.dp.quiet := by
  unfold State.takeTicket
  dsimp only
  split <;> rfl
theorem bypPass_of_dp (s t : State) (f : Frame) (h : t.dp.byp = s.dp.byp) : t.bypPass f = s.bypPass f := by
  unfold State.bypPass
  rw [h]

theorem takeTicket_free (s : State) (f : Frame) (hout : s.ticketsOut f.key_ < 4096) (hw : s.ticketWaits f.key_ f.id = false) :
    s.takeTicket f = s.setTicket f.id f.key_ := by
  unfold State.takeTicket
  exact if_pos ⟨hout, hw⟩
/-- A frame of the newest place goes past the slices: it takes the next ticket and is written. -/
theorem State.newest.passFrame {s : State} {l : List Frame} {f : Frame} (h : s.newest l f) (out : Bytes) (g : Frame → Frame)
    (p : Frame) (hp : p = (g { f with stage := .waiting, icvDone := true, checked := true }).plainOut out)
    (hid : p.id = f.id) (hv : p.void_ = f.void_) (ht : p.ticket = none) (hvf : p.verifyFirst = false)
    (hst : p.stage = .waiting) (hk : p.kind = .bypass)
    (hout : (l.filter (fun f => decide (f.key_ = p.key_) && f.ticket.isSome)).length < 4096)
    (hw : l.any (fun g => decide (g.key_ = p.key_) && decide (g.stage ≠ .missq) && g.ticket.isNone && !g.void_ &&
      decide (g.id ≠ p.id)) = false)
    (hroom : p.dir = .egress ∨ (if p.eof then p.outLen else 16352) ≤
      1048576 - ((l.filter (fun f => f.port / 16 = p.port / 16)).map Frame.rsiBytes).sum) :
    ∃ n q, q = { p with ticket := some (Tab.get 0 s.dp.ticketNext p.key_ % 4096), stage := .written, paid := n } ∧
      (s.passFrame f.id out g).newest l q ∧ (s.passFrame f.id out g).dp.quiet = s.dp.quiet := by
  have h1 := h.modFrame (fun f => (g { f with stage := .waiting, icvDone := true, checked := true }).plainOut out)
    (by rw [← hp]; exact hid) (by rw [← hp]; exact hv)
  rw [← hp] at h1
  obtain ⟨a, ha⟩ : ∃ a, a = s.modFrame f.id (fun f => (g { f with stage := .waiting, icvDone := true, checked := true }).plainOut out) := ⟨_, rfl⟩
  have htn : a.dp.ticketNext = s.dp.ticketNext := by rw [ha]; rfl
  rw [← ha] at h1
  have h2 := h1.setTicket p.key_
  rw [htn] at h2
  have hpass : ({ p with ticket := some (Tab.get 0 s.dp.ticketNext p.key_ % 4096) } : Frame).passes = true := by
    simp [Frame.passes, hst, hk, hv, h.2.2]
  have hr : (a.setTicket p.id p.key_).roomFor { p with ticket := some (Tab.get 0 s.dp.ticketNext p.key_ % 4096) } = true := by
    unfold State.roomFor
    split
    · simp [hk]
    · next hd => rw [h2.rsiFree hst]; exact decide_eq_true (hroom.resolve_left hd)
  obtain ⟨n, h3⟩ := h2.passTry hpass hr
  have hf2 : (a.setTicket p.id p.key_).frame p.id = some { p with ticket := some (Tab.get 0 s.dp.ticketNext p.key_ % 4096) } :=
    h2.frame
  have hrun : s.passFrame f.id out g =
      (a.setTicket p.id p.key_).passTry { p with ticket := some (Tab.get 0 s.dp.ticketNext p.key_ % 4096) } := by
    unfold State.passFrame
    rw [← ha, ← hid]
    simp only [h1.frame, takeTicket_free a p (by rw [h1.ticketsOut ht]; exact hout) (by rw [h1.ticketWaits]; exact hw),
      hf2]
    exact h3.vfCheck hvf
  rw [hrun]
  refine ⟨n, _, rfl, h3, ?_⟩
  rw [passTry_quiet, ha]
  rfl

/-! ### Bypass frames -/

/-- The frame as it has been added and counted. -/
theorem added_newest (s t : State) (f : Frame) (hn : s.dp.numbered) (hdp : t.dp = s.dp) (hid : f.id = s.dp.nextFrame)
    (hv : f.void_ = false) : ((t.addFrame f).admitCounts f).newest s.dp.frames f := by
  rw [← hdp]
  exact (addFrame_newest t f (hdp ▸ hn) (hid.trans (by rw [hdp])) hv).of_frames (by rw [admitCounts_dp])
theorem added_order (s t : State) (f : Frame) (hdp : t.dp = s.dp) :
    ((t.addFrame f).admitCounts f).dp.quiet = s.dp.quiet ∧
    ((t.addFrame f).admitCounts f).dp.ticketNext = s.dp.ticketNext ∧ ((t.addFrame f).admitCounts f).dp.byp = s.dp.byp := by
  rw [admitCounts_dp, ← hdp]
  exact ⟨rfl, rfl, rfl⟩
theorem egAction_bypass (s : State) (f : Frame) (h : dAction f.desc = 1) : s.egAction f = s.egBypass f := by
  unfold State.egAction
  rw [h]
  rfl
theorem inAction_bypass (s : State) (f : Frame) (h : dAction f.desc = 1) : s.inAction f = s.inBypass f := by
  unfold State.inAction
  rw [h]
  rfl
/-- What a bypass frame is on egress, and on ingress. -/
def Frame.asBypassEg (g : Frame) : Frame := { g with kind := .bypass, outcome := .bypassed, tooLong := false }
def Frame.asBypassIn (g : Frame) : Frame := { g with kind := .bypass, result := 1, noch := true, outcome := .bypassed }
/-- On egress, where the length is inside BLK_MTU. -/
theorem egBypass_short (s : State) (f : Frame) (hb : s.bypPass f = true) (hl : f.bytes.length + 4 ≤ f.mtu) :
    s.egBypass f = (s.passFrame f.id f.bytes Frame.asBypassEg).voidLong f.id := by
  unfold State.egBypass
  simp only [hb, if_true, decide_eq_false (Nat.not_lt.mpr hl), Bool.false_eq_true, if_false]
  rfl
theorem inBypass_passed (s : State) (f : Frame) (hb : s.bypPass f = true) :
    s.inBypass f = s.passFrame f.id f.bytes Frame.asBypassIn := by
  unfold State.inBypass
  rw [if_pos hb]
  rfl
/-- The admission of a bypass frame on egress. -/
theorem egBypass_admitted (s : State) (port : Fin 32) (cls : Bool) (desc : W64) (bytes : Bytes) (dpBad upErr eof : Bool)
    (hn : s.dp.numbered) (hadm : s.admits .egress port cls desc = true) (hact : dAction desc = 1)
    (hbyp : s.bypPass (s.newFrame .egress port cls desc bytes dpBad upErr eof) = true)
    (hlen : bytes.length + 4 ≤ s.blkMtu port) (hout : s.ticketsOut (chanKey .egress port cls) < 4096)
    (hw : s.ticketWaits (chanKey .egress port cls) s.dp.nextFrame = false) (hq : s.dp.quiet = false) :
    ∃ t f, exec (.egressFrameAdmit port cls desc bytes dpBad upErr eof) s = .next t ∧ t.frame s.dp.nextFrame = some f ∧
      f.dir = .egress ∧ f.port = port ∧ f.express = cls ∧ f.kind = .bypass ∧ f.outcome = .bypassed ∧ f.stage = .written ∧
      f.outBytes = bytes.take 16348 ∧ f.ticket = some (Tab.get 0 s.dp.ticketNext (chanKey .egress port cls) % 4096) := by
  obtain ⟨t, -, hdp, hrun⟩ := egAdmit_added s port cls desc bytes dpBad upErr eof hadm
  obtain ⟨f, hf⟩ : ∃ f, f = s.newFrame .egress port cls desc bytes dpBad upErr eof := ⟨_, rfl⟩
  rw [← hf] at hrun hbyp
  have hnew := added_newest s t f hn hdp (by rw [hf]; rfl) (by rw [hf]; rfl)
  obtain ⟨hquiet, hnext, hpol⟩ := added_order s t f hdp
  obtain ⟨u, hu⟩ : ∃ u, u = (t.addFrame f).admitCounts f := ⟨_, rfl⟩
  rw [← hu] at hrun hnew hquiet hnext hpol
  have hlong : f.bytes.length + 4 ≤ f.mtu := by
    have hb : f.bytes.length ≤ bytes.length := by rw [hf]; exact List.length_take_le' _ _
    have hm : f.mtu = s.blkMtu port := by rw [hf]; rfl
    omega
  obtain ⟨n, g, hg, hpass, hpq⟩ := hnew.passFrame f.bytes Frame.asBypassEg _ rfl (by rw [plainOut_id]; rfl) (by rw [plainOut_void']; rfl)
    (by rw [hf]; rfl) (by rw [hf]; rfl) (by rw [hf]; rfl) (by rw [hf]; rfl)
    (by rw [hf]; exact hout) (by rw [hf]; exact hw) (.inl (by rw [hf]; rfl))
  have hid : g.id = f.id := by rw [hg]; exact plainOut_id _ _
  have hend : (s.begin.egAdmit port cls desc bytes dpBad upErr eof).quietDrop = u.passFrame f.id f.bytes Frame.asBypassEg := by
    have hv : (u.passFrame f.id f.bytes Frame.asBypassEg).voidLong f.id = u.passFrame f.id f.bytes Frame.asBypassEg :=
      hid ▸ hpass.voidLong (by rw [hg, hf]; rfl)
    rw [hrun, egAction_bypass u f (by rw [hf]; exact hact), egBypass_short u f ((bypPass_of_dp s u f hpol).trans hbyp) hlong, hv]
    exact quietDrop_off _ (by rw [hpq, hquiet, hq])
  refine ⟨_, g, congrArg Host.Outcome.next hend, ?_, ?_⟩
  · have hfid : s.dp.nextFrame = g.id := by rw [hid, hf]; rfl
    rw [hfid]
    exact hpass.frame
  · rw [hg, hnext, hf]
    exact ⟨rfl, rfl, rfl, rfl, rfl, rfl, rfl, rfl⟩
/-- What a bypass frame sends on RSI is no longer than the bus allows. -/
theorem outLen_bypass (g : Frame) (hk : g.kind = .bypass) (ho : g.outBytes = g.bytes.take 16348) : g.outLen ≤ 16352 := by
  have hl : g.outLen = if g.outBytes.isEmpty then g.bytes.length else g.outBytes.length := by
    unfold Frame.outLen
    rw [hk]
  have ht : g.outBytes.length = min 16348 g.bytes.length := by rw [ho]; exact List.length_take
  rw [hl]
  split
  · next he => have := List.isEmpty_iff_length_eq_zero.mp he; omega
  · omega
theorem rsi_whole (g : Frame) (hk : g.kind = .bypass) (ho : g.outBytes = g.bytes.take 16348) :
    (if g.eof then g.outLen else 16352) ≤ 16352 := by
  split
  · exact outLen_bypass g hk ho
  · exact le_refl _
/-- On ingress, where the reorder buffer has room for a whole frame. -/
theorem inBypass_admitted (s : State) (port : Fin 32) (cls : Bool) (desc : W64) (bytes : Bytes) (dpBad upErr eof : Bool)
    (hn : s.dp.numbered) (hadm : s.admits .ingress port cls desc = true) (hact : dAction desc = 1)
    (hbyp : s.bypPass (s.newFrame .ingress port cls desc bytes dpBad upErr eof) = true)
    (hout : s.ticketsOut (chanKey .ingress port cls) < 4096)
    (hw : s.ticketWaits (chanKey .ingress port cls) s.dp.nextFrame = false) (hroom : 16352 ≤ s.rsiFree port) :
    ∃ t f, exec (.ingressFrameAdmit port cls desc bytes dpBad upErr eof) s = .next t ∧ t.frame s.dp.nextFrame = some f ∧
      f.dir = .ingress ∧ f.port = port ∧ f.express = cls ∧ f.kind = .bypass ∧ f.outcome = .bypassed ∧ f.stage = .written ∧
      f.outBytes = bytes.take 16348 ∧ f.result = 1 ∧ f.noch = true ∧
      f.ticket = some (Tab.get 0 s.dp.ticketNext (chanKey .ingress port cls) % 4096) := by
  obtain ⟨t, -, hdp, hrun⟩ := inAdmit_added s port cls desc bytes dpBad upErr eof hadm
  obtain ⟨f, hf⟩ : ∃ f, f = s.newFrame .ingress port cls desc bytes dpBad upErr eof := ⟨_, rfl⟩
  rw [← hf] at hrun hbyp
  have hnew := added_newest s t f hn hdp (by rw [hf]; rfl) (by rw [hf]; rfl)
  obtain ⟨-, hnext, hpol⟩ := added_order s t f hdp
  obtain ⟨u, hu⟩ : ∃ u, u = (t.addFrame f).admitCounts f := ⟨_, rfl⟩
  rw [← hu] at hrun hnew hnext hpol
  have hbytes : (s.newFrame .ingress port cls desc bytes dpBad upErr eof).bytes.take 16348 = bytes.take 16348 := List.take_take
  obtain ⟨n, g, hg, hpass, -⟩ := hnew.passFrame f.bytes Frame.asBypassIn _ rfl (by rw [plainOut_id]; rfl) (by rw [plainOut_void']; rfl)
    (by rw [hf]; rfl) (by rw [hf]; rfl) (by rw [hf]; rfl) (by rw [hf]; rfl)
    (by rw [hf]; exact hout) (by rw [hf]; exact hw) (.inr (by rw [hf]; exact le_trans (rsi_whole _ rfl rfl) hroom))
  have hid : g.id = f.id := by rw [hg]; exact plainOut_id _ _
  have hend : s.begin.inAdmit port cls desc bytes dpBad upErr eof = u.passFrame f.id f.bytes Frame.asBypassIn := by
    rw [hrun, inAction_bypass u f (by rw [hf]; exact hact), inBypass_passed u f ((bypPass_of_dp s u f hpol).trans hbyp)]
  refine ⟨_, g, congrArg Host.Outcome.next hend, ?_, ?_⟩
  · have hfid : s.dp.nextFrame = g.id := by rw [hid, hf]; rfl
    rw [hfid]
    exact hpass.frame
  · rw [hg, hnext, hf]
    exact ⟨rfl, rfl, rfl, rfl, rfl, rfl, hbytes, rfl, rfl, rfl⟩

/-- Settles O17: the newest frame is followed through its admission, its ticket and the test of room. -/
theorem bypassFrameAdmitted : Obligations.BypassFrameAdmitted := by
  unfold Obligations.BypassFrameAdmitted
  exact ⟨fun port cls desc bytes dpBad upErr eof s => egBypass_admitted s port cls desc bytes dpBad upErr eof,
    fun port cls desc bytes dpBad upErr eof s => inBypass_admitted s port cls desc bytes dpBad upErr eof⟩

end Sys2Proof.Machine
end

section
/-! PROOFS. The lookup of an egress frame and the packet number it draws (R63, R73, R176 to R179). -/
namespace Sys2Proof.Machine

/-! ### What leaves the next packet numbers as they are -/

/-- The next packet number of every slot. -/
def State.pns (s : State) : Nat → Nat := fun v => (s.slot v).next
theorem pns_of_ch (s t : State) (h : t.ch = s.ch) : t.pns = s.pns := funext fun v => by
  unfold State.pns
  rw [slot_of_ch s t v h]
theorem modSlot_pns (s : State) (v : Nat) (f : Slot → Slot) (hf : ∀ o, (f o).next = o.next) : (s.modSlot v f).pns = s.pns := by
  funext w
  unfold State.pns
  by_cases h : w = v
  · rw [h, slot_modSlot, hf]
  · rw [slot_modSlot_ne s v w f h]
theorem cannot_pns (s : State) (v : Nat) (c : LCause) : (s.cannot v c).pns = s.pns := by
  unfold State.cannot
  dsimp only
  split
  · exact (pns_of_ch _ _ rfl).trans (modSlot_pns s v (fun x => { x with lst := .hold, cause := c }) (fun _ => rfl))
  · exact (pns_of_ch _ _ rfl).trans (modSlot_pns s v (fun x => { x with lst := .last, cause := c }) (fun _ => rfl))
  · exact modSlot_pns s v (fun x => { x with cause := c }) (fun _ => rfl)
theorem makeRequest_ch (s : State) (x v c : Nat) : (s.makeRequest x v c).ch = s.ch := by
  unfold State.makeRequest State.mirrorLease State.when
  dsimp only
  split <;> rfl
theorem requestNext_pns (s : State) (v : Nat) : (s.requestNext v).pns = s.pns := by
  unfold State.requestNext
  split
  · rfl
  · split
    · rfl
    · dsimp only
      split
      · exact cannot_pns s v _
      · exact pns_of_ch _ _ (makeRequest_ch s _ v _)
theorem blindHold_pns (s : State) (v : Nat) : (s.blindHold v).pns = s.pns := by
  unfold State.blindHold
  dsimp only
  split
  · exact (pns_of_ch _ _ rfl).trans (modSlot_pns s v (fun x => { x with lst := .hold, cause := .blind }) (fun _ => rfl))
  · rfl
theorem nvNone_pns (s : State) : s.nvNone.pns = s.pns := by
  unfold State.nvNone
  dsimp only
  refine (forEach_keeps State.pns (fun s v => s.cannot v .nv) (fun s v => cannot_pns s v _) _ _).trans ?_
  exact pns_of_ch _ _ rfl
theorem retireMark_ch (s : State) (n : Nat) : (s.retireMark n).ch = s.ch := by
  unfold State.retireMark State.when
  dsimp only
  split <;> rfl
theorem openHead_ch (s : State) (n : Nat) : (s.openHead n).ch = s.ch := rfl
theorem openNext_ch (s : State) : s.openNext.ch = s.ch := by
  have ho : (match s.chooseHead with | some n => s.openHead n | none => s).ch = s.ch := by split <;> rfl
  unfold State.openNext
  dsimp only
  split
  · split
    · rfl
    · split
      · exact ho
      · rfl
  · exact ho
theorem issueFirst_ch (s : State) (h : Nat) (it : JItem) (t : List JItem) : (s.issueFirst h it t).ch = s.ch := rfl
theorem writeNext_ch (s : State) (h : Nat) : (s.writeNext h).ch = s.ch := by
  unfold State.writeNext
  dsimp only
  split
  · rfl
  · split <;> rfl
  · rfl
  · rfl
theorem pumpLease1_pns (s : State) : s.pumpLease1.pns = s.pns := by
  unfold State.pumpLease1
  dsimp only
  split
  · rfl
  split
  · exact pns_of_ch _ _ rfl
  split
  · exact pns_of_ch _ _ rfl
  split
  · exact nvNone_pns s
  split
  · exact pns_of_ch _ _ (retireMark_ch s _)
  split
  · exact pns_of_ch _ _ (openNext_ch s)
  split
  · rfl
  split
  · split
    · exact pns_of_ch _ _ (writeNext_ch s _)
    · exact pns_of_ch _ _ (openNext_ch s)
  · exact pns_of_ch _ _ (openNext_ch s)
theorem jnlAdmit1_ch (s : State) (it : JItem) : (s.jnlAdmit1 it).ch = s.ch := by
  unfold State.jnlAdmit1
  split
  · rfl
  split
  · split <;> rfl
  · split <;> rfl
theorem jnlAdmit_ch (s : State) : s.jnlAdmit.ch = s.ch := by
  unfold State.jnlAdmit
  split
  · exact (forEach_keeps State.ch (fun s it => s.jnlAdmit1 it) (fun s it => jnlAdmit1_ch s it) _ _ :)
  · rfl
theorem pumpLease_pns (s : State) : s.pumpLease.pns = s.pns := by
  unfold State.pumpLease
  exact (forEach_keeps State.pns (fun s _ => s.pumpLease1) (fun s _ => pumpLease1_pns s) (List.range 16) s.jnlAdmit).trans
    (pns_of_ch _ _ (jnlAdmit_ch s))
/-- A draw raises the next packet number of its slot by one. -/
theorem drawPn_next (s : State) (v : Nat) : ((s.drawPn v).slot v).next = (s.slot v).next + 1 := by
  obtain ⟨a, ha⟩ : ∃ a, a = s.modSlot v (fun x => { x with next := x.next + 1 }) := ⟨_, rfl⟩
  have han : a.pns v = (s.slot v).next + 1 := by
    rw [ha]
    unfold State.pns
    rw [slot_modSlot]
  have hb : ((a.modSlot v (fun x => { x with bnd := x.ceil })).requestNext v).pns = a.pns :=
    (requestNext_pns _ v).trans (modSlot_pns a v (fun x => { x with bnd := x.ceil }) (fun _ => rfl))
  obtain ⟨b, hbd⟩ : ∃ b, b = (if (s.slot v).bnd ≤ (s.slot v).next ∧ (s.slot v).lst = .run then
      (a.modSlot v (fun x => { x with bnd := x.ceil })).requestNext v else a) := ⟨_, rfl⟩
  have hbn : b.pns = a.pns := by
    rw [hbd]
    split
    · exact hb
    · rfl
  change (s.drawPn v).pns v = _
  rw [← han, ← hbn]
  refine congrFun ?_ v
  unfold State.drawPn
  dsimp only
  rw [← ha, ← hbd]
  split
  · exact (pns_of_ch _ _ rfl).trans (modSlot_pns b v (fun x => { x with lst := .hold }) (fun _ => rfl))
  · exact blindHold_pns b v

/-! ### The draw -/

theorem takeTicket_ch (s : State) (f : Frame) : (s.takeTicket f).ch = s.ch := ch_of_scene _ _ (takeTicket_scene s f)
/-- A frame with what it takes from a vault slot. -/
def Frame.withSlot (f : Frame) (v : Nat) (sl : Slot) : Frame :=
  { f with
    vslot := v, gen := sl.gen, holds := true, an := sl.an, key := sl.key, salt := sl.salt, ssci := sl.ssci, h := sl.h,
    hasChan := true, stage := .waiting }
/-- A frame with its ticket, or without one. -/
def Frame.withTicket (f : Frame) (n : Option Nat) : Frame := { f with ticket := n }
theorem holdSlot_eq (s : State) (id e : Nat) (b : Bool) (g : Frame → Frame) (f : Frame) (sl : Slot)
    (hsl : sl = s.maskSlot (vslotOf e b) (s.slot (vslotOf e b)))
    (h : (s.modFrame id (fun f => g (f.withSlot (vslotOf e b) sl))).frame id = some f) :
    s.holdSlot id e b g = (s.modFrame id (fun f => g (f.withSlot (vslotOf e b) sl))).takeTicket f := by
  subst hsl
  unfold State.holdSlot
  exact (congrArg (fun o : Option Frame => match o with
    | some f => (s.modFrame id (fun f => g (f.withSlot (vslotOf e b) (s.maskSlot (vslotOf e b) (s.slot (vslotOf e b)))))).takeTicket f
    | none => s.modFrame id (fun f => g (f.withSlot (vslotOf e b) (s.maskSlot (vslotOf e b) (s.slot (vslotOf e b)))))) h :)
/-- A frame takes key and slot, and a ticket as one is free. -/
theorem State.newest.holdSlot {s : State} {l : List Frame} {f : Frame} (h : s.newest l f) (e : Nat) (b : Bool) (g : Frame → Frame)
    (hid : ∀ f, (g f).id = f.id) (hv : ∀ f, (g f).void_ = f.void_) (sl : Slot) (hsl : sl = s.maskSlot (vslotOf e b) (s.slot (vslotOf e b))) :
    ∃ n q, q = (g (f.withSlot (vslotOf e b) sl)).withTicket n ∧ (s.holdSlot f.id e b g).newest l q ∧
      (s.holdSlot f.id e b g).ch = s.ch ∧ (s.holdSlot f.id e b g).dp.quiet = s.dp.quiet := by
  have h1 := h.modFrame (fun f => g (f.withSlot (vslotOf e b) sl)) (hid _) (hv _)
  have hf : (s.modFrame f.id (fun f => g (f.withSlot (vslotOf e b) sl))).frame f.id = some (g (f.withSlot (vslotOf e b) sl)) := by
    have := h1.frame
    rwa [show (g (f.withSlot (vslotOf e b) sl)).id = f.id from hid _] at this
  obtain ⟨n, h2⟩ := h1.takeTicket
  rw [holdSlot_eq s f.id e b g _ sl hsl hf]
  exact ⟨n, _, rfl, h2, takeTicket_ch _ _, takeTicket_quiet _ _⟩
/-- What the frame keeps of its channel. -/
def Frame.ofChannel (g : Frame) (en : Entry) (pn c l : Nat) : Frame :=
  { g with kind := .macsec, cfg0 := en.cfg0, sci := en.sci, pn := pn, clear := c, len := l, noch := false, outcome := .protected_ }
/-- The frame with the judgement of its length. -/
def Frame.judged (s : State) (g : Frame) : Frame := { g with tooLong := s.tooLong g }
theorem egDraw_eq (s : State) (f : Frame) (e : Nat) (en : Entry) (ht : suiteT10 (cSuite en.cfg0) = false) :
    ∃ c l, s.egDraw f e en =
      let t := ((s.holdSlot f.id e en.act (fun g => g.ofChannel en (s.slot (vslotOf e en.act)).next c l)).drawPn
        (vslotOf e en.act)).pumpLease
      (t.modFrame f.id (Frame.judged t)).voidLong f.id := by
  unfold State.egDraw
  simp only [ht, Bool.false_eq_true, if_false]
  exact ⟨_, _, rfl⟩
theorem outLen_macsec (g : Frame) (hk : g.kind = .macsec) (hd : g.dir = .egress) :
    g.outLen = g.bytes.length + (if cScInc g.cfg0 then 16 else 8) + 16 := by
  unfold Frame.outLen
  rw [hk, hd]
theorem tooLong_macsec (s : State) (g : Frame) (hk : g.kind = .macsec) (hd : g.dir = .egress)
    (hl : g.bytes.length + (if cScInc g.cfg0 then 16 else 8) + 20 ≤ g.mtu) : s.tooLong g = false := by
  unfold State.tooLong
  rw [outLen_macsec g hk hd, hk]
  simp only [reduceCtorEq, decide_false, Bool.false_and, Bool.or_false, decide_eq_false_iff_not]
  omega
/-- The draw of the next packet number for a frame that is not too long. -/
theorem egDraw_drawn (s : State) (l : List Frame) (f : Frame) (e : Nat) (en : Entry) (h : s.newest l f)
    (hdir : f.dir = .egress) (ht : suiteT10 (cSuite en.cfg0) = false)
    (hlen : f.bytes.length + (if cScInc en.cfg0 then 16 else 8) + 20 ≤ f.mtu) (sl : Slot)
    (hsl : sl = s.maskSlot (vslotOf e en.act) (s.slot (vslotOf e en.act))) :
    ∃ g, (s.egDraw f e en).newest l g ∧ g.id = f.id ∧ g.kind = .macsec ∧ g.stage = .waiting ∧ g.chix = f.chix ∧
      g.pn = (s.slot (vslotOf e en.act)).next ∧ g.an = sl.an ∧ g.key = sl.key ∧ g.salt = sl.salt ∧ g.holds = true ∧
      ((s.egDraw f e en).slot (vslotOf e en.act)).next = (s.slot (vslotOf e en.act)).next + 1 ∧
      (s.egDraw f e en).dp.quiet = s.dp.quiet := by
  obtain ⟨c, len, hrun⟩ := egDraw_eq s f e en ht
  obtain ⟨n, q, hq, hnew, hch, hquiet⟩ := h.holdSlot e en.act (fun g => g.ofChannel en (s.slot (vslotOf e en.act)).next c len)
    (fun _ => rfl) (fun _ => rfl) sl hsl
  obtain ⟨u, hu⟩ : ∃ u, u = s.holdSlot f.id e en.act (fun g => g.ofChannel en (s.slot (vslotOf e en.act)).next c len) := ⟨_, rfl⟩
  rw [← hu] at hrun hnew hch hquiet
  obtain ⟨t, hts⟩ : ∃ t, t = (u.drawPn (vslotOf e en.act)).pumpLease := ⟨_, rfl⟩
  have htd : t.dp = u.dp := by rw [hts, pumpLease_dp, drawPn_dp]
  have htn : t.pns (vslotOf e en.act) = (s.slot (vslotOf e en.act)).next + 1 := by
    rw [hts, pumpLease_pns]
    exact (drawPn_next u _).trans (by rw [slot_of_ch s u _ hch])
  rw [← hts] at hrun
  have hqid : q.id = f.id := by rw [hq]; rfl
  have hlong : t.tooLong q = false := tooLong_macsec t q (by rw [hq]; rfl) (by rw [hq]; exact hdir) (by rw [hq]; exact hlen)
  have hmod : (t.modFrame f.id (Frame.judged t)).newest l (q.judged t) :=
    hqid ▸ (hnew.of_frames (t := t) (by rw [htd])).modFrame (Frame.judged t) rfl rfl
  have hend : s.egDraw f e en = t.modFrame f.id (Frame.judged t) :=
    hrun.trans ((show (q.judged t).id = f.id from hqid) ▸ hmod.voidLong hlong)
  rw [hend]
  refine ⟨_, hmod, hqid, ?_⟩
  refine ⟨?_, ?_, ?_, ?_, ?_, ?_, ?_, ?_, htn, (congrArg Dp.quiet htd :).trans hquiet⟩ <;> (unfold Frame.judged; rw [hq]; rfl)

/-! ### The lookup -/

theorem find_of (s t : State) (x : Nat) (q : Bool) (hch : t.ch = s.ch) (hm : t.missCount x = s.missCount x) :
    t.find x q = s.find x q := by
  have he : t.entry = s.entry := funext fun e => entry_of_ch s t e hch
  unfold State.find State.resiLost State.known State.resident State.resi
  rw [he, hch, hm]

theorem entry_modFrame (s : State) (id e : Nat) (g : Frame → Frame) : (s.modFrame id g).entry e = s.entry e := rfl
/-- Without a pending Equinox there is none to apply. -/
theorem eqxApply_none (s : State) (e : Nat) (en : Entry) (stamp : Stamp) (he : s.entry e = some en) (hq : en.eqx = none) :
    s.eqxApply e stamp = s := by
  unfold State.eqxApply
  simp only [he, hq]
/-- A slot in RUN that has not reached the bound of R208 is not switched. -/
theorem eqxForced_below (s : State) (e : Nat) (en : Entry) (stamp : Stamp) (he : s.entry e = some en)
    (hp : (s.slot (vslotOf e en.act)).hasPn = true) (hb : (s.slot (vslotOf e en.act)).next < s.forcedAt en) :
    s.eqxForced e stamp = s := by
  unfold State.eqxForced
  simp only [he, hp, hb, if_true, ite_self]
theorem hasPn_of_run (sl : Slot) (h : sl.lst = .run) (hn : sl.next < sl.ceil) : sl.hasPn = true := by
  unfold Slot.hasPn
  simp [h, hn]
/-- A frame that fits its channel and does not fail a check draws its packet number from a state in which the use of the entry
is noted. -/
theorem egChecks_drawn (s : State) (l : List Frame) (f : Frame) (e : Nat) (en : Entry) (h : s.newest l f)
    (he : s.entry e = some en) (hen : cEn en.cfg0 = true) (hrx : cRx en.cfg0 = false) (hport : cPort en.cfg0 = f.port)
    (hcls : cExpress en.cfg0 = f.express) (hfit : s.suiteFits f en.cfg0 = true) (htags : cClear en.cfg0 ≤ dTags f.desc)
    (hok : tagsOk f.bytes (cClear en.cfg0) = true) (hlen : 14 + 4 * cClear en.cfg0 ≤ f.bytes.length) (hq : en.eqx = none)
    (hst : (s.slot (vslotOf e en.act)).st = .live) (hpn : (s.slot (vslotOf e en.act)).hasPn = true)
    (hb : (s.slot (vslotOf e en.act)).next < s.forcedAt en) :
    ∃ (t : State) (w : Entry), w.cfg0 = en.cfg0 ∧ w.act = en.act ∧ t.ch.slots = s.ch.slots ∧ t.sys = s.sys ∧ t.dp.quiet = s.dp.quiet ∧
      t.newest l { f with hasChan := true } ∧ s.egChecks f e en = t.egDraw f e w := by
  obtain ⟨a, ha⟩ : ∃ a, a = (s.modEntry e (fun x => { x with lastUsed := s.useMs })).modFrame f.id (fun g => { g with hasChan := true }) :=
    ⟨_, rfl⟩
  have hent : a.entry e = some { en with lastUsed := s.useMs } := by
    rw [ha, entry_modFrame, entry_modEntry, he]
    rfl
  have hsl : a.ch.slots = s.ch.slots := by rw [ha]; rfl
  have hslot : a.slot (vslotOf e en.act) = s.slot (vslotOf e en.act) := slot_of_slots s a _ hsl
  have hforce : a.forcedAt { en with lastUsed := s.useMs } = s.forcedAt en := by rw [ha]; rfl
  have happly : (a.eqxApply e f.stamp).eqxForced e f.stamp = a := by
    rw [eqxApply_none a e _ f.stamp hent hq]
    exact eqxForced_below a e _ f.stamp hent (hslot ▸ hpn) (by rw [hforce]; exact hslot ▸ hb)
  have hsuite : a.suiteFits f en.cfg0 = true := by rw [ha]; exact hfit
  have hnew : a.newest l { f with hasChan := true } := by
    rw [ha]
    exact (h.of_frames (t := s.modEntry e (fun x => { x with lastUsed := s.useMs })) rfl).modFrame (fun g => { g with hasChan := true }) rfl rfl
  refine ⟨a, { en with lastUsed := s.useMs }, rfl, rfl, hsl, by rw [ha]; rfl, by rw [ha]; rfl, hnew, ?_⟩
  have hbad : ¬ (dTags f.desc < cClear en.cfg0 ∨ tagsOk f.bytes (cClear en.cfg0) = false ∨ f.bytes.length < 14 + 4 * cClear en.cfg0) := by
    rw [hok]
    simp only [Bool.true_eq_false, false_or]
    omega
  have hact : ({ en with lastUsed := s.useMs } : Entry).act = en.act := rfl
  unfold State.egChecks
  simp only [← ha, hen, hrx, hport, hcls, hsuite, Bool.not_true, ne_eq, not_true, decide_false, Bool.or_false,
    bne_self_eq_false, Bool.false_eq_true, if_false, hbad, happly, hent, hact, hslot, hst, hpn]
theorem egLookup_entry (s : State) (f : Frame) (q : Bool) (e : Nat) (en : Entry) (h : s.find f.chix q = .entry e en) :
    s.egLookup f q = s.egChecks f e en := by
  unfold State.egLookup
  rw [h]
theorem find_entry (s : State) (x : Nat) (q : Bool) (e : Nat) (en : Entry) (h : s.find x q = .entry e en) : s.entry e = some en := by
  unfold State.find at h
  split at h
  · cases h
  split at h
  · cases h
  split at h
  · cases h
  split at h
  · cases h
  split at h
  · cases h
  · next he _ => cases h; exact he
theorem egAction_protect (s : State) (f : Frame) (h : dAction f.desc = 0) : s.egAction f = s.egLookup f true := by
  unfold State.egAction
  rw [h]
  rfl
/-- An action of 0 asks for a channel that is not of the legacy frame format. -/
theorem suiteFits_protect (s : State) (f : Frame) (cfg : W32) (ha : dAction f.desc = 0) (ht : suiteT10 (cSuite cfg) = false) :
    s.suiteFits f cfg = true := by
  unfold State.suiteFits
  rw [ha, ht]
  rfl

/-- Settles O18: the newest frame is followed through the lookup of its channel, the checks and the draw. -/
theorem egressFrameDrawsPn : Obligations.EgressFrameDrawsPn := by
  unfold Obligations.EgressFrameDrawsPn
  intro port cls desc bytes dpBad upErr eof e en s hn hadm hact hfind hen hrx hport hcls ht10 htags hok hlen heqx hst hrun hbnd hceil
    hforce hmtu hq
  obtain ⟨t, hsc, hdp, hadd⟩ := egAdmit_added s port cls desc bytes dpBad upErr eof hadm
  obtain ⟨f, hf⟩ : ∃ f, f = s.newFrame .egress port cls desc bytes dpBad upErr eof := ⟨_, rfl⟩
  rw [← hf] at hadd
  have hnew := added_newest s t f hn hdp (by rw [hf]; rfl) (by rw [hf]; rfl)
  obtain ⟨hquiet, -, -⟩ := added_order s t f hdp
  obtain ⟨u, hu⟩ : ∃ u, u = (t.addFrame f).admitCounts f := ⟨_, rfl⟩
  rw [← hu] at hadd hnew hquiet
  have husc : u.scene = s.scene := by rw [hu, admitCounts_scene]; exact hsc
  have hch := ch_of_scene s u husc
  have hdesc : f.desc = desc := by rw [hf]; rfl
  have hufind : u.find f.chix true = .entry e en := by
    have hx : f.chix = dChix desc := by rw [hf]; rfl
    rw [hx, find_of s u _ true hch (hnew.missCount (by rw [hf]; rfl) _)]
    exact hfind
  have hslot : u.slot (vslotOf e en.act) = s.slot (vslotOf e en.act) := slot_of_ch s u _ hch
  have huforce : u.forcedAt en = s.forcedAt en := by
    unfold State.forcedAt State.forceLog
    rw [cfg_of_scene s u husc]
  have hpn : (s.slot (vslotOf e en.act)).hasPn = true := hasPn_of_run _ hrun (lt_of_lt_of_le hbnd hceil)
  obtain ⟨a, w, hwc, hwa, hasl, hasys, haq, hanew, hchecks⟩ := egChecks_drawn u _ f e en hnew (find_entry u _ true e en hufind) hen hrx
    (by rw [hf]; exact hport) (by rw [hf]; exact hcls) (suiteFits_protect u f _ (by rw [hdesc]; exact hact) ht10)
    (by rw [hdesc]; exact htags) (by rw [hf]; exact hok) (by rw [hf]; exact hlen) heqx (by rw [hslot]; exact hst)
    (by rw [hslot]; exact hpn) (by rw [hslot, huforce]; exact hforce)
  have haslot : a.slot (vslotOf e w.act) = s.slot (vslotOf e en.act) := by rw [hwa, slot_of_slots u a _ hasl, hslot]
  have hbytes : f.bytes.length ≤ bytes.length := by rw [hf]; exact List.length_take_le' _ _
  have hfmtu : f.mtu = s.blkMtu port := by rw [hf]; rfl
  have hasys : a.sys = s.sys := hasys.trans (sys_of_scene s u husc)
  obtain ⟨g, hgnew, hgid, hkind, hstage, hchix, hgpn, han, hkey, hsalt, hholds, hnext, hgq⟩ :=
    egDraw_drawn a _ { f with hasChan := true } e w hanew (by rw [hf]; rfl) (by rw [hwc]; exact ht10)
      (by rw [hwc, show ({ f with hasChan := true } : Frame).bytes = f.bytes from rfl,
            show ({ f with hasChan := true } : Frame).mtu = f.mtu from rfl]; omega)
      (s.maskSlot (vslotOf e en.act) (s.slot (vslotOf e en.act)))
      (by rw [haslot, hwa]; unfold State.maskSlot; rw [hasys])
  have hdraw : a.egDraw f e w = a.egDraw { f with hasChan := true } e w := rfl
  have hend : (s.begin.egAdmit port cls desc bytes dpBad upErr eof).quietDrop = a.egDraw { f with hasChan := true } e w := by
    rw [hadd, egAction_protect u f (by rw [hdesc]; exact hact), egLookup_entry u f true e en hufind, hchecks, hdraw]
    exact quietDrop_off _ (by rw [hgq, haq, hquiet, hq])
  have hv : vslotOf e w.act = vslotOf e en.act := by rw [hwa]
  refine ⟨_, g, congrArg Host.Outcome.next hend, ?_, hkind, hstage, ?_, ?_, han, hkey, hsalt, hholds, ?_⟩
  · have hid : s.dp.nextFrame = g.id := by rw [hgid]; exact hf ▸ rfl
    rw [hid]
    exact hgnew.frame
  · rw [hchix, hf]
    rfl
  · rw [hgpn, haslot]
  · rw [← hv, hnext, haslot, hv]

end Sys2Proof.Machine
end

section
/-! PROOFS. Dispatch of bulk frames, resumption of bulk issue and release of the miss queue (R19, R126, R227). -/
namespace Sys2Proof.Machine

/-! ### Dispatch -/

theorem leastBy_mem (key : Nat → Nat) (l : List Nat) (n : Nat) (h : leastBy key l = some n) : n ∈ l := by
  induction l with
  | nil => cases h
  | cons a t ih =>
    unfold leastBy at h
    split at h
    · cases h
      exact List.mem_cons_self
    · next b hb =>
      split at h
      · cases h
        exact List.mem_cons_self
      · cases h
        exact List.mem_cons_of_mem _ (ih hb)
/-- A slice that is picked for a bulk frame is of its direction and takes it. -/
theorem pickBulk_takes (s : State) (f : Frame) (n : Nat) (h : s.pickBulk f = some n) :
    n ∈ slicesOf (decide (f.dir = .ingress)) ∧ s.takesBulk f n = true := by
  obtain ⟨ok, hok⟩ : ∃ ok, ok = (slicesOf (decide (f.dir = .ingress))).filter (s.takesBulk f) := ⟨_, rfl⟩
  have hmem : n ∈ ok := by
    unfold State.pickBulk State.leastQueued at h
    dsimp only at h
    rw [← hok] at h
    have hl := leastBy_mem _ _ _ h
    have hsub : ∀ l : List Nat, n ∈ (if (l.filter (fun n => s.prevSlice f != some n)).isEmpty then l else
        l.filter (fun n => s.prevSlice f != some n)) → n ∈ l := by
      intro l hn
      split at hn
      · exact hn
      · exact (List.mem_filter.mp hn).1
    have hl := hsub _ hl
    split at hl
    · exact hl
    · exact (List.mem_filter.mp hl).1
  rw [hok] at hmem
  exact List.mem_filter.mp hmem
theorem takesBulk_parts (s : State) (f : Frame) (n : Nat) (h : s.takesBulk f n = true) :
    (s.sl n).st = .summer ∧ (s.freeRec n).isSome = true := by
  unfold State.takesBulk at h
  simp only [Bool.and_eq_true, decide_eq_true_eq] at h
  exact ⟨h.1.1.1.1, h.1.1.1.2⟩
theorem freeRec_free (s : State) (n r : Nat) (h : s.freeRec n = some r) : 1 ≤ r ∧ r ≤ 4 ∧ s.recTaken n r = false := by
  have hm := List.mem_of_find?_eq_some h
  have hp := List.find?_some h
  simp only [List.mem_cons, List.not_mem_nil, or_false] at hm
  exact ⟨by omega, by omega, by simpa using hp⟩
theorem frame_rseReturn (s : State) (f g : Frame) (id : Nat) (h : s.frame id = some g) :
    ∃ n, (s.rseReturn f).frame id = some { g with paid := n } := by
  unfold State.rseReturn
  split
  · by_cases hid : f.id = id
    · refine ⟨max g.paid f.segsIn, (frame_dp (s.modFrame f.id (fun g => { g with paid := max g.paid f.segsIn })) _ id
        (by rw [payRse_dp])).trans ?_⟩
      rw [hid]
      exact frame_modFrame s id _ g (fun _ => ⟨rfl, rfl⟩) h
    · refine ⟨g.paid, (frame_dp (s.modFrame f.id (fun g => { g with paid := max g.paid f.segsIn })) _ id
        (by rw [payRse_dp])).trans ?_⟩
      exact (frame_modFrame_ne s f.id id (fun g => { g with paid := max g.paid f.segsIn }) (fun _ => rfl) (Ne.symm hid)).trans h
  · exact ⟨g.paid, h⟩
/-- A frame as it starts in a record. -/
def Frame.inRecord (g : Frame) (n r res disp : Nat) : Frame :=
  { g with stage := .inSlice n r, resv := res, disp := disp, issued := 0, aadN := 0, pos := 0, acc := 0, ks := [] }
theorem toSlice_frame (s : State) (f : Frame) (n r : Nat) (h : s.frame f.id = some f) :
    ∃ g, (s.toSlice f n r).frame f.id = some g ∧ g.stage = .inSlice n r ∧ g.pn = f.pn ∧ g.ticket = f.ticket := by
  obtain ⟨a, ha⟩ : ∃ a, a = (if f.dir = .egress then s.setBuf f.key_ (s.bufSpace f.key_ - f.reserve) else s) := ⟨_, rfl⟩
  obtain ⟨res, hres⟩ : ∃ res, res = (if f.dir = .egress then f.reserve else 0) := ⟨_, rfl⟩
  have hrun : s.toSlice f n r = (((a.modFrame f.id (fun g => g.inRecord n r res a.dp.nextDisp)).modDp
      (fun d => { d with nextDisp := d.nextDisp + 1 })).sendTicket f n false).rseReturn f := by
    rw [ha, hres]
    rfl
  have haf : a.frame f.id = some f := by
    rw [ha]
    split
    · exact h
    · exact h
  have hmod := frame_modFrame a f.id (fun g => g.inRecord n r res a.dp.nextDisp) f (fun _ => ⟨rfl, rfl⟩) haf
  obtain ⟨k, hk⟩ := frame_rseReturn (((a.modFrame f.id (fun g => g.inRecord n r res a.dp.nextDisp)).modDp
      (fun d => { d with nextDisp := d.nextDisp + 1 })).sendTicket f n false) f _ f.id
    ((frame_frames (a.modFrame f.id (fun g => g.inRecord n r res a.dp.nextDisp)) _ f.id (by rw [sendTicket_dp]; rfl)).trans hmod)
  rw [hrun]
  exact ⟨_, hk, rfl, rfl, rfl⟩
/-- A bulk frame is no frame without cipher work. -/
theorem passes_of_waits (f : Frame) (h : f.waits = true) : f.passes = false := by
  simp only [Frame.waits, Bool.and_eq_true] at h
  simp only [Frame.passes, h.2, Bool.not_true, Bool.and_false]
theorem dispatch_bulk (s : State) (f : Frame) (n r : Nat) (hw : f.waits = true) (he : f.asExpress = false) (hr : s.roomFor f = true)
    (hn : s.pickBulk f = some n) (hfree : s.freeRec n = some r) : s.dispatch f = s.toSlice f n r := by
  unfold State.dispatch
  simp only [hw, hr, he, hn, hfree, Bool.not_true, Bool.or_self, Bool.false_eq_true, if_false]
theorem exec_sliceDispatch (s : State) (id : Nat) (f : Frame) (h : s.frame id = some f) (hp : f.passes = false) :
    exec (.sliceDispatch id) s = .next (s.begin.dispatch f) := by
  have hb : s.begin.frame id = some f := h
  change execSliceDispatch id s = _
  unfold execSliceDispatch
  simp only [hb, hp, Bool.false_eq_true, if_false]

/-! ### Resumption -/

theorem inSl_resumed (g : Frame) (n k : Nat) : ({ g with suspended := false, issued := k } : Frame).inSl n = g.inSl n := rfl
theorem resume_effect (s : State) (n : Nat) : ((s.resume n).sl n).susp = none ∧
    (∀ f ∈ (s.resume n).dp.frames, f.inSl n = true → f.suspended = false) ∧
    (s.resume n).dp.frames.map (·.id) = s.dp.frames.map (·.id) ∧
    (s.resume n).dp.frames.map (·.stage) = s.dp.frames.map (·.stage) := by
  refine ⟨?_, fun f hf hin => ?_, ?_, ?_⟩
  · exact (congrArg Slice.susp (Tab.get_modify {} s.slices.sl n (fun c => { c with susp := none })) :)
  · obtain ⟨g, -, rfl⟩ := List.mem_map.mp hf
    by_cases hg : g.inSl n = true
    · rw [if_pos hg]
    · rw [if_neg hg] at hin
      exact absurd hin hg
  · show List.map _ (List.map _ s.dp.frames) = _
    rw [List.map_map]
    exact List.map_congr_left fun g _ => by simp only [Function.comp_apply]; split <;> rfl
  · show List.map _ (List.map _ s.dp.frames) = _
    rw [List.map_map]
    exact List.map_congr_left fun g _ => by simp only [Function.comp_apply]; split <;> rfl
theorem exec_bulkResume (s : State) (n : Fin 40) : exec (.bulkResume n) s =
    .next (if s.expressIn n.val then s.begin.resume n.val else s.begin) := rfl

/-! ### The miss queue -/

theorem find_unqueued (s t : State) (x : Nat) (hch : t.ch = s.ch) : t.find x false = s.find x false := by
  have he : t.entry = s.entry := funext fun e => entry_of_ch s t e hch
  unfold State.find State.resiLost State.known State.resident State.resi
  rw [he, hch]
  simp only [Bool.false_and]
/-- The only frame of a channel that waits in the miss queue leaves it. -/
theorem missRelease_one (s : State) (d : Dir) (x : BitVec 20) (f : Frame) (hr : s.missReady x.toNat = true)
    (hf : s.frame f.id = some f)
    (hq : s.dp.frames.filter (fun g => decide (g.stage = .missq) && decide (g.chix = x.toNat) && decide (g.dir = d)) = [f]) :
    exec (.missQueueRelease d x) s = .next (s.begin.missLeave f) := by
  refine congrArg Host.Outcome.next ?_
  have hrb : s.begin.missReady x.toNat = true := hr
  have hqb : s.begin.dp.frames.filter (fun g => decide (g.stage = .missq) && decide (g.chix = x.toNat) && decide (g.dir = d)) = [f] := hq
  have hfb : s.begin.frame f.id = some f := hf
  unfold State.missRelease
  rw [if_pos hrb, hqb]
  simp only [List.map_cons, List.map_nil, State.forEach, List.foldl_cons, List.foldl_nil, hfb]
theorem missq_parts (s : State) (d : Dir) (x : Nat) (f : Frame)
    (hq : s.dp.frames.filter (fun g => decide (g.stage = .missq) && decide (g.chix = x) && decide (g.dir = d)) = [f]) :
    f.stage = .missq ∧ f.chix = x ∧ f.dir = d := by
  have hm : f ∈ s.dp.frames.filter (fun g => decide (g.stage = .missq) && decide (g.chix = x) && decide (g.dir = d)) := by
    rw [hq]; exact List.mem_singleton.mpr rfl
  have hp := (List.mem_filter.mp hm).2
  simp only [Bool.and_eq_true, decide_eq_true_eq] at hp
  exact ⟨hp.1.1, hp.1.2, hp.2⟩
theorem missReady_unknown (s : State) (x : Nat) (h : s.find x false = .unknown) : s.missReady x = true := by
  unfold State.missReady
  rw [h]
/-- A frame whose channel has become unknown is dropped as it leaves the miss queue. -/
theorem missLeave_unknown (s : State) (f : Frame) (hd : f.dir = .egress) (h : s.find f.chix false = .unknown) :
    (s.missLeave f).frame f.id = none := by
  obtain ⟨t, ht⟩ : ∃ t, t = s.modDp (fun d =>
    { d with frames := d.frames.filter (fun h => decide (h.id ≠ f.id)) ++ [{ f with stage := .waiting }] }) := ⟨_, rfl⟩
  have hfind : t.find f.chix false = .unknown := (find_unqueued s t f.chix (by rw [ht]; rfl)).trans h
  have hrun : s.missLeave f = t.dropFrame { f with stage := .waiting } 0x03 := by
    unfold State.missLeave State.egLookup
    rw [if_pos hd, ← ht]
    simp only [hfind]
  rw [hrun]
  exact gone_frame _ _ (gone_end t { f with stage := .waiting } .none (some 0x03))

/-- Settles O19: the slice and record that are picked, the frames after a resumption, and the one frame of the miss queue. -/
theorem bulkFrameDispatched : Obligations.BulkFrameDispatched := by
  unfold Obligations.BulkFrameDispatched
  refine ⟨fun id f s _ hf hw he hr hp => ?_, fun n s hx => ?_, fun n s hx => ?_, fun d x f s hr hf hq => ?_,
    fun x f s hu hf hq _ _ => ?_⟩
  · obtain ⟨n, hn⟩ := Option.isSome_iff_exists.mp hp
    obtain ⟨hin, htakes⟩ := pickBulk_takes s f n hn
    obtain ⟨hsummer, hfree⟩ := takesBulk_parts s f n htakes
    obtain ⟨r, hrec⟩ := Option.isSome_iff_exists.mp hfree
    obtain ⟨hr1, hr4, htaken⟩ := freeRec_free s n r hrec
    have hid : f.id = id := (frame_some s id f hf).2.1
    obtain ⟨g, hg, hstage, hpn, htick⟩ := toSlice_frame s.begin f n r (hid ▸ hf)
    have hrun := exec_sliceDispatch s id f hf (passes_of_waits f hw)
    rw [dispatch_bulk s.begin f n r hw he hr hn hrec] at hrun
    exact ⟨_, n, r, g, hrun, hid ▸ hg, hstage, hin, hsummer, hr1, hr4, htaken, hpn, htick⟩
  · rw [exec_bulkResume, hx]
    rfl
  · obtain ⟨hsusp, hframes, hids, hstages⟩ := resume_effect s.begin n.val
    exact ⟨_, by rw [exec_bulkResume, hx]; rfl, hsusp, hframes, hids, hstages⟩
  · obtain ⟨-, -, hd⟩ := missq_parts s d x.toNat f hq
    rw [missRelease_one s d x f hr hf hq, ← hd]
    rfl
  · obtain ⟨-, hx, hd⟩ := missq_parts s .egress x.toNat f hq
    have hub : s.begin.find f.chix false = .unknown := hx ▸ hu
    exact ⟨_, missRelease_one s .egress x f (missReady_unknown s _ hu) hf hq, missLeave_unknown s.begin f hd hub⟩

end Sys2Proof.Machine
end

section
/-! PROOFS. A frame that stays: what the work on other frames, tickets, credits and space leave of a frame as it was; and the end
of a frame's work in a slice (R84, R96, R120). -/
namespace Sys2Proof.Machine

/-! ### The gist of a frame -/

/-- What of a frame is left as it was by tickets, credits, room, the issue of blocks and the end of other frames. -/
def Frame.gist (f : Frame) := (f.stage, f.eof, f.icvDone, f.icvBad, f.outBytes, f.verifyFirst, f.tooLong, f.dir)
/-- The frame of a number and its gist. -/
def State.shows (s : State) (id : Nat) (f : Frame) : Prop := ∃ g, s.frame id = some g ∧ g.gist = f.gist
theorem shows_frame (s : State) (id : Nat) (f : Frame) (h : s.frame id = some f) : s.shows id f := ⟨f, h, rfl⟩
theorem shows_of_frame (s t : State) (id : Nat) (f : Frame) (ht : t.frame id = s.frame id) (h : s.shows id f) : t.shows id f := by
  obtain ⟨g, hg, hf⟩ := h
  exact ⟨g, ht.trans hg, hf⟩
theorem shows_frames (s t : State) (id : Nat) (f : Frame) (ht : t.dp.frames = s.dp.frames) (h : s.shows id f) : t.shows id f :=
  shows_of_frame s t id f (frame_frames s t id ht) h
/-- A change of a frame that keeps its gist. -/
theorem shows_modFrame (s : State) (id j : Nat) (f : Frame) (g : Frame → Frame)
    (hg : ∀ x, (g x).id = x.id ∧ (g x).void_ = x.void_) (hk : j = id → ∀ x, (g x).gist = x.gist) (h : s.shows id f) :
    (s.modFrame j g).shows id f := by
  obtain ⟨x, hx, hf⟩ := h
  by_cases hj : id = j
  · subst hj
    exact ⟨g x, frame_modFrame s id g x hg hx, (hk rfl x).trans hf⟩
  · exact ⟨x, (frame_modFrame_ne s j id g (fun x => (hg x).1) hj).trans hx, hf⟩
/-- A change of every frame that keeps each one's gist. -/
theorem shows_modAll (s : State) (id : Nat) (f : Frame) (g : Frame → Frame)
    (hg : ∀ x, (g x).id = x.id ∧ (g x).void_ = x.void_) (hk : ∀ x, (g x).gist = x.gist) (h : s.shows id f) :
    (s.modDp (fun d => { d with frames := d.frames.map g })).shows id f := by
  obtain ⟨x, hx, hf⟩ := h
  exact ⟨g x, by rw [frame_modAll s g hg id, hx]; rfl, (hk x).trans hf⟩
theorem shows_forEach {α : Type} (id : Nat) (f : Frame) (g : State → α → State) (hg : ∀ s a, s.shows id f → (g s a).shows id f)
    (l : List α) (s : State) (h : s.shows id f) : (s.forEach l g).shows id f := forEach_inv (fun s => s.shows id f) g hg l s h
theorem shows_when (id : Nat) (f : Frame) (g : State → State) (hg : ∀ s, s.shows id f → (g s).shows id f) (c : Bool) (s : State)
    (h : s.shows id f) : (s.when c g).shows id f := by cases c <;> simp [h, hg]

/-! ### Tickets, credits and room -/

theorem shows_setTicket (s : State) (id j k : Nat) (f : Frame) (h : s.shows id f) : (s.setTicket j k).shows id f :=
  shows_frames (s.modFrame j (fun f => { f with ticket := some (Tab.get 0 s.dp.ticketNext k % 4096) })) _ id f rfl
    (shows_modFrame s id j f (fun f => { f with ticket := some (Tab.get 0 s.dp.ticketNext k % 4096) }) (fun _ => ⟨rfl, rfl⟩)
      (fun _ _ => rfl) h)
theorem shows_takeTicket (s : State) (id : Nat) (f g : Frame) (h : s.shows id f) : (s.takeTicket g).shows id f := by
  unfold State.takeTicket
  dsimp only
  split
  · exact shows_setTicket s id _ _ f h
  · exact shows_frames s _ id f rfl h
theorem shows_rseReturn (s : State) (id : Nat) (f g : Frame) (h : s.shows id f) : (s.rseReturn g).shows id f := by
  unfold State.rseReturn
  split
  · refine shows_frames (s.modFrame g.id (fun x => { x with paid := max x.paid g.segsIn })) _ id f (by rw [payRse_dp]) ?_
    exact shows_modFrame s id g.id f (fun x => { x with paid := max x.paid g.segsIn }) (fun _ => ⟨rfl, rfl⟩) (fun _ _ => rfl) h
  · exact h
section
variable {id : Nat} {f : Frame} (hf : f.stage ≠ .waiting)
include hf

theorem stage_of_gist (g : Frame) (h : g.gist = f.gist) : g.stage ≠ .waiting := by
  have hs : g.stage = f.stage := congrArg (·.1) h
  rw [hs]
  exact hf
/-- Only a waiting frame goes past the slices. -/
theorem shows_passTry (s : State) (g : Frame) (hg : s.frame g.id = some g) (h : s.shows id f) : (s.passTry g).shows id f := by
  unfold State.passTry
  split
  · next hp =>
    have hw : g.stage = .waiting := by
      simp only [Frame.passes, Bool.and_eq_true, decide_eq_true_eq] at hp
      exact hp.1.1.1.1
    have hne : g.id ≠ id := by
      obtain ⟨x, hx, hxf⟩ := h
      intro e
      rw [e, hx] at hg
      cases hg
      exact stage_of_gist hf g hxf hw
    refine shows_rseReturn _ _ _ _ (shows_frames (s.modFrame g.id (fun x => { x with stage := .written })) _ id f
      (by rw [sendTicket_dp]) ?_)
    exact shows_modFrame s id g.id f (fun x => { x with stage := .written }) (fun _ => ⟨rfl, rfl⟩) (fun e => absurd e hne) h
  · exact h
theorem shows_passTry_at (s : State) (j : Nat) (g : Frame) (hg : s.frame j = some g) (h : s.shows id f) : (s.passTry g).shows id f :=
  shows_passTry hf s g (by rw [(frame_some s j g hg).2.1]; exact hg) h
theorem shows_passAll (s : State) (p : Frame → Bool) (h : s.shows id f) : (s.passAll p).shows id f := by
  unfold State.passAll
  refine shows_forEach id f _ (fun s a h => ?_) _ _ h
  split
  · next g hg => exact shows_passTry_at hf s a g hg h
  · exact h
theorem shows_nextTicket (s : State) (k : Nat) (h : s.shows id f) : (s.nextTicket k).shows id f := by
  unfold State.nextTicket
  refine shows_forEach id f _ (fun s a h => ?_) _ _ h
  have ht := shows_setTicket s id a k f h
  split
  · dsimp only
    split
    · next g hg => exact shows_passTry_at hf _ a g hg ht
    · exact ht
  · exact h

/-! ### The end of another frame -/

omit hf in
theorem find_sweepVoid (k : Nat) (l : List Frame) : (sweepVoid k l).find? (fun g => decide (g.id = id) && !g.void_) =
    l.find? (fun g => decide (g.id = id) && !g.void_) := by
  induction l with
  | nil => rfl
  | cons a t ih =>
    unfold sweepVoid
    split
    · split
      · next hv => rw [ih, List.find?_cons_of_neg (by simp [hv])]
      · rfl
    · rw [List.find?_cons, List.find?_cons, ih]
omit hf in
theorem find_filter_ne (j : Nat) (l : List Frame) (h : j ≠ id) :
    (l.filter (fun g => decide (g.id ≠ j))).find? (fun g => decide (g.id = id) && !g.void_) =
    l.find? (fun g => decide (g.id = id) && !g.void_) := by
  induction l with
  | nil => rfl
  | cons a t ih =>
    by_cases ha : a.id = j
    · rw [List.filter_cons_of_neg (by simp [ha]), ih, List.find?_cons_of_neg (by simp [ha, h])]
    · rw [List.filter_cons_of_pos (by simp [ha]), List.find?_cons, List.find?_cons, ih]
theorem shows_after (s : State) (k : Nat) (c : Bool) (p : Frame → Bool) (h : s.shows id f) :
    ((s.nextTicket k).when c (·.passAll p)).shows id f :=
  shows_when id f (fun s => s.passAll p) (fun s h => shows_passAll hf s p h) _ _ (shows_nextTicket hf s k h)
theorem shows_removeFrame (s : State) (g : Frame) (hg : g.id ≠ id) (h : s.shows id f) : (s.removeFrame g).shows id f :=
  shows_after hf _ _ _ _ (shows_of_frame s _ id f ((find_sweepVoid _ _).trans (find_filter_ne _ _ hg)) h)
theorem shows_voidFrame (s : State) (g : Frame) (hg : g.id ≠ id) (h : s.shows id f) : (s.voidFrame g).shows id f := by
  unfold State.voidFrame
  extract_lets src t
  have ht : t.shows id f := by
    obtain ⟨x, hx, hxf⟩ := h
    refine ⟨x, ?_, hxf⟩
    refine (frame_modFrame_ne _ g.id id (fun x =>
      { x with void_ := true, stage := .written, holds := false, eof := true, bytes := [], outBytes := [], key := [], salt := [],
               h := [], ks := [] }) (fun _ => rfl) (Ne.symm hg)).trans ?_
    exact (frame_dp s _ id (by rw [sendTicket_dp])).trans hx
  clear_value t
  split
  · exact shows_removeFrame hf s g hg h
  · exact shows_after hf _ _ _ _ (shows_of_frame t _ id f (find_sweepVoid _ _) ht)
omit hf in
theorem shows_resume (s : State) (n : Nat) (h : s.shows id f) : (s.resume n).shows id f := by
  unfold State.resume
  extract_lets back
  refine shows_modAll (s.modSl n (fun c => { c with susp := none })) id f
    (fun g => if g.inSl n then { g with suspended := false, issued := back g } else g) (fun x => ?_) (fun x => ?_)
    (shows_frames s _ id f rfl h)
  · constructor <;> split <;> rfl
  · split <;> rfl
omit hf in
theorem shows_leaveSlice (s : State) (g : Frame) (h : s.shows id f) : (s.leaveSlice g).shows id f := by
  unfold State.leaveSlice
  split
  · split
    · exact shows_resume s _ h
    · exact h
  · exact h
omit hf in
theorem shows_addStub (s : State) (g : Frame) (h : s.shows id f) : (s.addStub g).shows id f := by
  unfold State.addStub
  split
  · exact h
  · exact shows_frames s _ id f rfl h
/-- A frame stays as another one ends. -/
theorem shows_endFrame (s : State) (g : Frame) (c : Code) (n : Option Nat) (hg : g.id ≠ id) (h : s.shows id f) :
    (s.endFrame g c n).shows id f := by
  unfold State.endFrame
  extract_lets s1 s2 s3 k
  have h1 : s1.shows id f := shows_frames s s1 id f (by simp only [s1]; split <;> simp) h
  have h2 : s2.shows id f := shows_when id f (fun s => s.rseReturn g) (fun s h => shows_rseReturn s id f g h) _ _ h1
  have h3 : s3.shows id f := shows_addStub _ _ (shows_leaveSlice _ _ h2)
  clear_value s3
  split
  · refine shows_frames ((s3.draw.refund g k).removeFrame g) _ id f (by rw [sendEof_dp]) ?_
    exact shows_removeFrame hf _ g hg (shows_frames s3 _ id f rfl h3)
  · exact shows_voidFrame hf s3 g hg h3
theorem shows_dropStat (s : State) (g : Frame) (l : List (Nat × Nat)) (hg : g.id ≠ id) (h : s.shows id f) :
    (s.dropStat g l).shows id f := shows_frames (s.endFrame g .none none) _ id f rfl (shows_endFrame hf s g _ _ hg h)

end

/-! ### The EOF of a frame -/

theorem shows_addFrame (s : State) (id : Nat) (f g : Frame) (h : s.shows id f) : (s.addFrame g).shows id f := by
  obtain ⟨x, hx, hxf⟩ := h
  refine ⟨x, ?_, hxf⟩
  unfold State.frame at hx ⊢
  show (s.dp.frames ++ [g]).find? _ = _
  rw [List.find?_append, hx]
  rfl
theorem shows_addReport (s : State) (id : Nat) (f g : Frame) (h : s.shows id f) : (s.addReport g).shows id f := by
  have ha : (s.addFrame { g with id := s.dp.nextFrame }).shows id f := shows_addFrame s id f _ h
  unfold State.addReport
  dsimp only
  split
  · exact shows_takeTicket _ id f _ ha
  · exact ha
theorem shows_specDrop (s : State) (id : Nat) (f g : Frame) (h : s.shows id f) : (s.specDrop g).shows id f := by
  unfold State.specDrop
  split
  · dsimp only
    split
    · exact h
    · refine shows_frames (s.modFrame g.id (fun x =>
        { x with issued := g.slots, ks := x.ks.take (16 * (g.slots - 1 - x.pos / 16)) })) _ id f rfl ?_
      exact shows_modFrame s id g.id f (fun x =>
        { x with issued := g.slots, ks := x.ks.take (16 * (g.slots - 1 - x.pos / 16)) }) (fun _ => ⟨rfl, rfl⟩) (fun _ _ => rfl) h
  · exact h
/-- The frame whose EOF has been taken. -/
theorem closeFrame_shows (s : State) (f : Frame) (h : s.frame f.id = some f) : (s.closeFrame f).shows f.id { f with eof := true } := by
  unfold State.closeFrame
  split
  · next he =>
    refine ⟨f, h, ?_⟩
    unfold Frame.gist
    rw [he]
  · extract_lets g s1 s2 s3 s4
    have h1 : s1.frame f.id = some f := by
      refine (frame_frames s s1 f.id ?_).trans h
      exact when_keeps (fun s => s.dp.frames) _ (fun s => by rfl) _ s
    have h2 : s2.shows f.id { f with eof := true } := by
      refine shows_specDrop _ _ _ _ ?_
      exact ⟨_, frame_modFrame s1 f.id (fun x => { x with eof := true, got := g.got, resv := g.resv, rep := none }) f
        (fun _ => ⟨rfl, rfl⟩) h1, rfl⟩
    have h3 : s3.shows f.id { f with eof := true } := shows_frames s2 s3 _ _ (by simp only [s3, bwIn_dp]) h2
    have h4 : s4.shows f.id { f with eof := true } :=
      shows_when _ _ (fun s => s.rseReturn g) (fun s h => shows_rseReturn s _ _ g h) _ _ h3
    clear_value s4
    split
    · exact shows_addReport _ _ _ _ h4
    · exact h4
theorem shows_issueRest (s : State) (id : Nat) (f g : Frame) (n : Nat) (h : s.shows id f) : (s.issueRest g n).shows id f := by
  unfold State.issueRest
  dsimp only
  split
  · exact h
  · exact shows_frames s _ id f rfl h
/-- A frame whose blocks are all in, out of its slice. -/
theorem workDone_shows (s : State) (f g : Frame) (n : Nat) (h : s.frame f.id = some f) :
    (((s.closeFrame f).leaveSlice f).issueRest g n).shows f.id { f with eof := true } :=
  shows_issueRest _ _ _ _ _ (shows_leaveSlice _ _ (closeFrame_shows s f h))

/-! ### The Quiet level -/

theorem addReport_quiet (s : State) (g : Frame) : (s.addReport g).dp.quiet = s.dp.quiet := by
  unfold State.addReport
  dsimp only
  split
  · exact (takeTicket_quiet _ _).trans rfl
  · rfl
theorem specDrop_quiet (s : State) (g : Frame) : (s.specDrop g).dp.quiet = s.dp.quiet := by
  unfold State.specDrop
  split
  · dsimp only
    split <;> rfl
  · rfl
theorem closeFrame_quiet (s : State) (f : Frame) : (s.closeFrame f).dp.quiet = s.dp.quiet := by
  unfold State.closeFrame
  split
  · rfl
  · extract_lets g s1 s2 s3 s4
    have h1 : s1.dp.quiet = s.dp.quiet := when_keeps (fun s => s.dp.quiet) _ (fun s => by rfl) _ s
    have h2 : s2.dp.quiet = s1.dp.quiet := (specDrop_quiet _ g).trans rfl
    have h3 : s3.dp.quiet = s2.dp.quiet := congrArg Dp.quiet (by simp only [s3, bwIn_dp])
    have h4 : s4.dp.quiet = s3.dp.quiet := when_keeps (fun s => s.dp.quiet) (fun s => s.rseReturn g) (fun s => rseReturn_quiet s g) _ s3
    have h := h4.trans (h3.trans (h2.trans h1))
    clear_value s4
    split
    · exact (addReport_quiet _ _).trans h
    · exact h
theorem leaveSlice_quiet (s : State) (f : Frame) : (s.leaveSlice f).dp.quiet = s.dp.quiet := by
  unfold State.leaveSlice
  split
  · split <;> rfl
  · rfl
theorem issueRest_quiet (s : State) (g : Frame) (n : Nat) : (s.issueRest g n).dp.quiet = s.dp.quiet := by
  unfold State.issueRest
  dsimp only
  split <;> rfl

/-! ### The black form -/

/-- An egress frame as it leaves its slice with its bytes. -/
def Frame.blackened (g : Frame) (out : Bytes) : Frame :=
  { g with
    stage := .written, icvDone := true, checked := true, holds := false, key := [], salt := [], h := [], ekj0 := 0, acc := 0,
    ks := [], outBytes := out }
theorem icvWritten_short (s : State) (f : Frame) (n r : Nat) (h : s.frame f.id = some f) (hs : f.stage = .inSlice n r)
    (hm : s.icvMay f = true) (hl : f.tooLong = false) :
    ∃ g : Frame, (s.icvWritten f).frame f.id = some (g.blackened f.black) ∧ g.eof = true ∧
      (s.icvWritten f).dp.quiet = s.dp.quiet := by
  obtain ⟨e, he⟩ : ∃ e : Frame, e = { f with eof := true } := ⟨_, rfl⟩
  obtain ⟨t, ht⟩ : ∃ t, t = ((s.closeFrame f).leaveSlice f).issueRest e n := ⟨_, rfl⟩
  obtain ⟨g, hg, hgist⟩ : t.shows f.id { f with eof := true } := by rw [ht]; exact workDone_shows s f _ n h
  have heof : g.eof = true := congrArg (·.2.1) hgist
  have hlong : g.tooLong = false := (congrArg (fun x => x.2.2.2.2.2.2.1) hgist).trans hl
  have hmod : (t.modFrame f.id (fun g => g.blackened f.black)).frame f.id = some (g.blackened f.black) :=
    frame_modFrame t f.id (fun g => g.blackened f.black) g (fun _ => ⟨rfl, rfl⟩) hg
  have hrun : s.icvWritten f = t.modFrame f.id (fun g => g.blackened f.black) := by
    unfold State.icvWritten
    rw [← he, hs]
    simp only [hm, hl, Bool.not_true, Bool.false_and, Bool.false_eq_true, if_false, ← ht]
    unfold Frame.blackened at hmod ⊢
    simp only [hmod, hlong, Bool.false_and, Bool.false_eq_true, if_false]
  rw [hrun]
  refine ⟨g, hmod, heof, ?_⟩
  rw [show (t.modFrame f.id (fun g => g.blackened f.black)).dp.quiet = t.dp.quiet from rfl, ht, issueRest_quiet, leaveSlice_quiet,
    closeFrame_quiet]

/-! ### The final checks -/

section
variable {id : Nat} {f : Frame} (hf : f.stage ≠ .waiting) (hv : f.verifyFirst = false)
include hf hv

/-- The final check of a frame leaves every frame that may go out before it is checked; it drops a frame of VERIFY_FIRST alone. -/
theorem shows_finalOne (s : State) (g : Frame) (hg : s.frame g.id = some g) (h : s.shows id f) : (s.finalOne g).shows id f := by
  have hne : g.verifyFirst = true → g.id ≠ id := by
    intro hgv e
    obtain ⟨x, hx, hxf⟩ := h
    rw [e, hx] at hg
    cases hg
    rw [show g.verifyFirst = f.verifyFirst from congrArg (fun x => x.2.2.2.2.2.1) hxf, hv] at hgv
    cases hgv
  unfold State.finalOne
  extract_lets t e sb sl live rp w delayed u v
  have ht : t.shows id f := shows_modFrame s id g.id f (fun x => { x with checked := true, holds := false, key := [], salt := [] })
    (fun _ => ⟨rfl, rfl⟩) (fun _ _ => rfl) h
  have hu : u.shows id f := shows_frames t u id f rfl ht
  have hvs : v.shows id f := shows_modFrame u id g.id f
    (fun x => { x with outcome := .verified delayed, result := if x.verifyFirst ∧ x.kind = .macsec then 0 else x.result })
    (fun _ => ⟨rfl, rfl⟩) (fun _ _ => rfl) hu
  have hend : (v.solArm e sb g.stamp).shows id f := shows_frames v _ id f (by rw [solArm_dp]) hvs
  clear_value v
  split
  · split
    · next hgv =>
      split
      · split
        · exact ht
        · exact shows_dropStat hf t g _ (hne hgv) ht
      · exact shows_modFrame t id g.id f (fun x => { x with outcome := .invalid, result := 2 }) (fun _ => ⟨rfl, rfl⟩)
          (fun _ _ => rfl) ht
    · split
      · exact ht
      · exact shows_modFrame t id g.id f (fun x => { x with outcome := .invalid }) (fun _ => ⟨rfl, rfl⟩) (fun _ _ => rfl) ht
  · split
    · exact ht
    · split
      · split
        · next hgv => exact shows_dropStat hf t g _ (hne hgv) ht
        · exact shows_modFrame t id g.id f (fun x => { x with late := true }) (fun _ => ⟨rfl, rfl⟩) (fun _ _ => rfl) ht
      · exact hend
theorem shows_finalChecks (s : State) (k : Nat) (h : s.shows id f) : (s.finalChecks k).shows id f := by
  unfold State.finalChecks
  refine shows_forEach id f _ (fun s a h => ?_) _ _ h
  split
  · next g hg => exact shows_finalOne hf hv s g (by rw [(frame_some s a g hg).2.1]; exact hg) h
  · exact h

end

/-! ### The red form -/

/-- An ingress frame as it leaves its slice with its bytes and the result of the compare. -/
def Frame.compared (g : Frame) (bad : Bool) (red : Bytes) : Frame :=
  { g with
    stage := .written, icvDone := true, icvBad := bad, holds := false, h := [], ekj0 := 0, acc := 0, ks := [],
    outBytes := red.take rsiLimit, truncated := g.truncated || decide (rsiLimit < red.length) }
theorem icvCompare_run (s : State) (f : Frame) (n r : Nat) (hs : f.stage = .inSlice n r)
    (hm : s.icvMay f = true) (hv : f.verifyFirst = false) :
    s.icvCompare f = ((((s.closeFrame f).leaveSlice f).issueRest { f with eof := true } n).modFrame f.id
      (fun g => g.compared (decide (f.rxTag ≠ f.rxIcv)) f.red)).finalChecks f.key_ := by
  obtain ⟨e, he⟩ : ∃ e : Frame, e = { f with eof := true } := ⟨_, rfl⟩
  unfold State.icvCompare
  rw [← he, hs]
  simp only [hm, hv, Bool.not_true, Bool.false_eq_true, false_and, if_false]
  rfl
theorem icvCompare_leaves (s : State) (f : Frame) (n r : Nat) (h : s.frame f.id = some f) (hs : f.stage = .inSlice n r)
    (hm : s.icvMay f = true) (hv : f.verifyFirst = false) :
    ∃ g : Frame, (s.icvCompare f).frame f.id = some g ∧ g.stage = .written ∧ g.icvDone = true ∧
      g.icvBad = decide (f.rxTag ≠ f.rxIcv) ∧ g.outBytes = f.red.take 16348 := by
  obtain ⟨x, hx, hxf⟩ := workDone_shows s f { f with eof := true } n h
  have hxv : x.verifyFirst = false := (congrArg (fun x => x.2.2.2.2.2.1) hxf).trans hv
  have hmod := shows_frame _ _ _ (frame_modFrame _ f.id (fun g => g.compared (decide (f.rxTag ≠ f.rxIcv)) f.red) x
    (fun _ => ⟨rfl, rfl⟩) hx)
  obtain ⟨g, hg, hgf⟩ := shows_finalChecks (f := x.compared (decide (f.rxTag ≠ f.rxIcv)) f.red) (fun hw => nomatch (show FStage.written = FStage.waiting from hw))
    hxv _ f.key_ hmod
  rw [icvCompare_run s f n r hs hm hv]
  refine ⟨g, hg, ?_⟩
  simp only [Frame.gist, Frame.compared, Prod.mk.injEq] at hgf
  obtain ⟨hstage, -, hdone, hbad, hout, -⟩ := hgf
  exact ⟨hstage, hdone, hbad, hout⟩

/-- Settles O20: the frame is followed out of its slice, and on ingress through the final checks. -/
theorem sliceWorkEnds : Obligations.SliceWorkEnds := by
  unfold Obligations.SliceWorkEnds
  refine ⟨fun id n r f s _ hf hd hs hm hl hq => ?_, fun id n r f s _ hf hd hs hm hv => ?_⟩
  · have hid : f.id = id := (frame_some s id f hf).2.1
    subst hid
    obtain ⟨g, hg, heof, hquiet⟩ := icvWritten_short s.begin f n r hf hs hm hl
    have hrun : exec (.egressIcvWritten f.id) s = .next (s.begin.icvWritten f) := by
      change execEgressIcvWritten f.id s = _
      unfold execEgressIcvWritten
      simp only [show s.begin.frame f.id = some f from hf, hd, if_true, quietDrop_off _ (hquiet.trans hq)]
    exact ⟨_, _, hrun, hg, rfl, rfl, rfl, rfl, rfl, rfl, heof⟩
  · have hid : f.id = id := (frame_some s id f hf).2.1
    subst hid
    obtain ⟨g, hg, hstage, hdone, hbad, hout⟩ := icvCompare_leaves s.begin f n r hf hs hm hv
    have hrun : exec (.ingressIcvCompare f.id) s = .next (s.begin.icvCompare f) := by
      change execIngressIcvCompare f.id s = _
      unfold execIngressIcvCompare
      simp only [show s.begin.frame f.id = some f from hf, hd, if_true]
    exact ⟨_, _, hrun, hg, hstage, hdone, hbad, hout⟩

end Sys2Proof.Machine
end

section
/-! PROOFS. Release of frames in order, and the ends of frames that break (R16, R32, R78, R100, R105, R128, R300). -/
namespace Sys2Proof.Machine

/-! ### SOF -/

theorem headFrame_mem (s : State) (k : Nat) (f : Frame) (h : s.headFrame k = some f) : f ∈ s.dp.frames ∧ f.key_ = k := by
  have hm := List.mem_of_find?_eq_some h
  have hp := List.find?_some h
  simp only [Bool.and_eq_true, decide_eq_true_eq] at hp
  exact ⟨hm, hp.1⟩
theorem mayRelease_void (s : State) (d : Dir) (port : Nat) (f : Frame) (h : s.mayRelease d port f = true) : f.void_ = false := by
  simp only [State.mayRelease, State.mayStart, Bool.and_eq_true, Bool.not_eq_true'] at h
  exact h.1.1.1.1.1.2
/-- What follows the SOF of a frame: counters and flags. -/
theorem sofRelease_effect (s : State) (f : Frame) (h : s.frame f.id = some f) :
    ∃ g : Frame, (s.sofRelease f).frame f.id = some g ∧ g.sofOut = true ∧
      .sof f.dir f.port f.express f.outDesc ∈ (s.sofRelease f).out ∧
      (s.sofRelease f).credit f.key_ = s.credit f.key_ - f.segs := by
  unfold State.sofRelease
  extract_lets eg k s1 s2 s3 s4
  have h2 : s2.frame f.id = some { f with sofOut := true, charged := f.segs } :=
    frame_modFrame s1 f.id (fun g => { g with sofOut := true, charged := f.segs }) f (fun _ => ⟨rfl, rfl⟩) h
  have hc : s2.credit f.key_ = s.credit f.key_ - f.segs := Tab.get_modify 0 s.dp.credit f.key_ (· - f.segs)
  have ho : .sof f.dir f.port f.express f.outDesc ∈ s2.out := List.mem_append_right _ (List.mem_singleton.mpr rfl)
  have h4 : (s4.dp, s4.out) = (s2.dp, s2.out) :=
    when_keeps (fun s => (s.dp, s.out)) (fun s => s.bwAdd f.port .egress 24) (fun _ => rfl) _ s3
  obtain ⟨u, hu⟩ : ∃ u, u = s4.when (f.asExpress && decide (12 < s4.sys.aoClk - f.at_)) (fun s =>
    (s.portCount f.port (if eg then 0x12 else 0x50)).portFlag f.port (if eg then 7 else 8)) := ⟨_, rfl⟩
  have h5 : (u.dp, u.out) = (s4.dp, s4.out) := by
    rw [hu]
    exact when_keeps (fun s => (s.dp, s.out)) (fun s => (s.portCount f.port (if eg then 0x12 else 0x50)).portFlag f.port
      (if eg then 7 else 8)) (fun _ => rfl) _ s4
  obtain ⟨hdp, hout⟩ := Prod.mk.injEq _ _ _ _ ▸ h5.trans h4
  rw [← hu]
  refine ⟨_, (frame_dp s2 u f.id hdp).trans h2, rfl, hout ▸ ho, ?_⟩
  rw [← hc]
  unfold State.credit
  rw [hdp]
theorem trySof_released (s u : State) (d : Dir) (port : Nat) (cls : Bool) (f : Frame)
    (hu : u = s.when (decide (d = .ingress)) (·.finalChecks (chanKey d port cls)))
    (hh : u.headFrame (chanKey d port cls) = some f) (hr : u.mayRelease d port f = true) :
    s.trySof d port cls = u.sofRelease f := by
  unfold State.trySof
  rw [← hu]
  simp only [hh, hr, if_true]
theorem head_frame (s : State) (k : Nat) (f : Frame) (hn : s.dp.numbered) (hh : s.headFrame k = some f) (hv : f.void_ = false) :
    s.frame f.id = some f := frame_of_mem s f hn (headFrame_mem s k f hh).1 hv

/-! ### EOF -/

theorem countEnd_quiet (s : State) (f : Frame) : (s.countEnd f).dp.quiet = s.dp.quiet :=
  congrArg Dp.quiet (countEnd_dp s f)
theorem nextTicket_quiet (s : State) (k : Nat) : (s.nextTicket k).dp.quiet = s.dp.quiet := by
  unfold State.nextTicket
  refine forEach_keeps (fun s => s.dp.quiet) _ (fun s a => ?_) _ _
  dsimp only
  split
  · split
    · exact (passTry_quiet _ _).trans rfl
    · rfl
  · rfl
theorem passAll_quiet (s : State) (p : Frame → Bool) : (s.passAll p).dp.quiet = s.dp.quiet := by
  unfold State.passAll
  refine forEach_keeps (fun s => s.dp.quiet) _ (fun s a => ?_) _ _
  split
  · exact passTry_quiet _ _
  · rfl
theorem removeFrame_quiet (s : State) (f : Frame) : (s.removeFrame f).dp.quiet = s.dp.quiet := by
  unfold State.removeFrame
  exact (when_keeps (fun s => s.dp.quiet) (fun s => s.passAll (fun g => decide (g.dir = .ingress))) (fun s => passAll_quiet s _) _ _).trans
    ((nextTicket_quiet _ _).trans rfl)
theorem sendEof_out (s : State) (f : Frame) (b : Bytes) (c : Code) (h : f.dir = .egress → s.dp.quiet = false) :
    .eof f.dir f.port f.express b c ∈ (s.sendEof f b c).out := by
  unfold State.sendEof
  rw [if_neg (fun hq => by rw [h hq.1] at hq; exact absurd hq.2 (by decide))]
  exact List.mem_append_right _ (List.mem_singleton.mpr rfl)

theorem voidFrame_quiet (s : State) (f : Frame) : (s.voidFrame f).dp.quiet = s.dp.quiet := by
  unfold State.voidFrame
  extract_lets src t
  have ht : t.dp.quiet = s.dp.quiet := (congrArg Dp.quiet (sendTicket_dp s f src true) :)
  clear_value t
  split
  · exact removeFrame_quiet s f
  · exact (when_keeps (fun s => s.dp.quiet) (fun s => s.passAll (fun g => decide (g.dir = .ingress))) (fun s => passAll_quiet s _) _ _).trans
      ((nextTicket_quiet _ _).trans ht)
theorem addStub_quiet (s : State) (f : Frame) : (s.addStub f).dp.quiet = s.dp.quiet := by
  unfold State.addStub
  split <;> rfl
theorem endFrame_quiet (s : State) (f : Frame) (c : Code) (n : Option Nat) : (s.endFrame f c n).dp.quiet = s.dp.quiet := by
  unfold State.endFrame
  extract_lets s1 s2 s3 k
  have h1 : s1.dp.quiet = s.dp.quiet := by simp only [s1]; split <;> rfl
  have h2 : s2.dp.quiet = s1.dp.quiet := when_keeps (fun s => s.dp.quiet) (fun s => s.rseReturn f) (fun s => rseReturn_quiet s f) _ s1
  have h3 : s3.dp.quiet = s2.dp.quiet := (addStub_quiet _ f).trans (leaveSlice_quiet s2 f)
  have h := h3.trans (h2.trans h1)
  clear_value s3
  split
  · rw [sendEof_dp]
    exact (removeFrame_quiet _ f).trans h
  · exact (voidFrame_quiet s3 f).trans h
theorem finalOne_quiet (s : State) (f : Frame) : (s.finalOne f).dp.quiet = s.dp.quiet := by
  unfold State.finalOne
  extract_lets t e sb sl live rp w delayed u v
  have hvq : v.dp.quiet = s.dp.quiet := rfl
  have ht : t.dp.quiet = s.dp.quiet := rfl
  clear_value v t
  have hv : (v.solArm e sb f.stamp).dp.quiet = s.dp.quiet := (congrArg Dp.quiet (solArm_dp v e sb f.stamp) :).trans hvq
  have hdrop (l : List (Nat × Nat)) : (t.dropStat f l).dp.quiet = s.dp.quiet := (endFrame_quiet t f .none none :).trans ht
  split
  · split
    · split
      · split
        · exact ht
        · exact hdrop _
      · exact ht
    · split
      · exact ht
      · exact ht
  · split
    · exact ht
    · split
      · split
        · exact hdrop _
        · exact ht
      · exact hv
theorem finalChecks_quiet (s : State) (k : Nat) : (s.finalChecks k).dp.quiet = s.dp.quiet := by
  unfold State.finalChecks
  refine forEach_keeps (fun s => s.dp.quiet) _ (fun s a => ?_) _ _
  split
  · exact finalOne_quiet s _
  · rfl
theorem tryEof_released (s u : State) (d : Dir) (port : Nat) (cls : Bool) (f : Frame)
    (hu : u = s.when (decide (d = .ingress)) (·.finalChecks (chanKey d port cls)))
    (hh : u.headFrame (chanKey d port cls) = some f) (hs : f.sofOut = true) (hst : f.stage = .written) (hc : f.checked = true)
    (he : u.expressReady d port cls = false) :
    s.tryEof d port cls = (((((u.closeFrame f).countEnd f).refund f (segsOf f.outBytes.length)).when (decide (d = .egress))
      (·.bwAdd port .egress f.outBytes.length)).removeFrame f).sendEof f f.outBytes f.code := by
  have hm : f.mayEnd = true := by simp [Frame.mayEnd, hs, hst, hc]
  unfold State.tryEof
  rw [← hu]
  simp only [hh, hm, he, Bool.not_false, Bool.and_self, if_true]
theorem eof_effect (u : State) (f : Frame) (c : Bool) (port n : Nat) (hq : f.dir = .egress → u.dp.quiet = false) :
    let t := (((((u.closeFrame f).countEnd f).refund f (segsOf f.outBytes.length)).when c
      (·.bwAdd port .egress n)).removeFrame f).sendEof f f.outBytes f.code
    .eof f.dir f.port f.express f.outBytes f.code ∈ t.out ∧ t.frame f.id = none := by
  intro t
  refine ⟨sendEof_out _ f _ _ (fun hd => ?_), ?_⟩
  · rw [removeFrame_quiet]
    refine (when_keeps (fun s => s.dp.quiet) (fun s => s.bwAdd port .egress n) (fun _ => rfl) _ _).trans ?_
    exact (countEnd_quiet _ f).trans ((closeFrame_quiet u f).trans (hq hd))
  · exact gone_frame _ _ (gone_dp ((((((u.closeFrame f).countEnd f).refund f (segsOf f.outBytes.length)).when c
      (·.bwAdd port .egress n)).removeFrame f)) _ _ (by simp only [t, sendEof_dp]) (gone_remove _ f))

/-- Settles O21: the frame at the head of its order is the one that the release drives. -/
theorem framesReleased : Obligations.FramesReleased := by
  unfold Obligations.FramesReleased
  refine ⟨fun port cls f s hn hh hr => ?_, fun port cls f s u hn hu hh hr => ?_, fun d port cls f s u hu hh hs hst hc he hq => ?_⟩
  · have hrun := trySof_released s.begin s.begin .egress port cls f rfl hh hr
    obtain ⟨g, hg, hsof, hout, hcr⟩ := sofRelease_effect s.begin f (head_frame s.begin _ f hn hh (mayRelease_void s _ _ f hr))
    exact ⟨_, g, congrArg Host.Outcome.next hrun, hg, hsof, hout, hcr⟩
  · have hrun := trySof_released s.begin u .ingress port cls f hu hh hr
    have hun : u.dp.numbered := by rw [hu]; exact finalChecks_num _ _ hn
    obtain ⟨g, hg, hsof, hout, hcr⟩ := sofRelease_effect u f (head_frame u _ f hun hh (mayRelease_void u _ _ f hr))
    exact ⟨_, g, congrArg Host.Outcome.next hrun, hg, hsof, hout, hcr⟩
  · have hu' : u = s.begin.when (decide (d = .ingress)) (·.finalChecks (chanKey d port cls)) := by
      rw [hu]
      cases d <;> rfl
    have huq : u.dp.quiet = s.dp.quiet := by
      rw [hu]
      split
      · exact finalChecks_quiet _ _
      · rfl
    obtain ⟨hout, hgone⟩ := eof_effect u f (decide (d = .egress)) port f.outBytes.length (fun hd => huq.trans (hq hd))
    exact ⟨_, congrArg Host.Outcome.next (tryEof_released s.begin u d port cls f hu' hh hs hst hc he), hout, hgone⟩

/-! ### A report that is no report

The report that a stub carries takes its place when its port has a framing error (R27, R112). The statement of that error speaks of
every state, also of one whose stub carries an open frame in the place of a report. No step makes such a stub: `Frame.report`,
which `State.addStub` and `State.addReport` are given, has taken its EOF. -/

/-- A frame that is still open. -/
def openFrame : Frame := { id := 0, dir := .egress, port := 0, express := false, desc := 0, stamp := {}, at_ := 0, bytes := [], eof := false }
/-- A state whose only stub, of port 0 on egress, carries the open frame. -/
def strayStub : State :=
  ({} : State).modDp (fun d => { d with
    stubs := [{ id := 0, dir := .egress, port := 0, express := false, busLen := 0, got := 0, rep := some openFrame }] })
/-- The framing error puts the frame into the list as it is. -/
theorem framing_strayStub : ∃ f ∈ (strayStub.begin.framing .egress 0).dp.frames,
    f.dir = .egress ∧ f.port = 0 ∧ f.eof = false ∧ f.kind ≠ .report ∧ f.void_ = false := by
  decide
/-- Refutes O22: after a framing error on the port of `strayStub` an open frame of the port is left that is not void. -/
theorem not_brokenFramesEnd : ¬ Obligations.BrokenFramesEnd := by
  unfold Obligations.BrokenFramesEnd
  rintro ⟨-, -, -, -, h⟩
  obtain ⟨t, ht, -, hall, -⟩ := h .egress 0 strayStub
  have hrun : strayStub.begin.framing .egress 0 = t := Host.Outcome.next.inj ht
  obtain ⟨f, hf, hd, hp, he, hk, hv⟩ := framing_strayStub
  rw [hrun] at hf
  exact absurd ((hall f hf hd hp he hk).symm.trans hv) (by decide)

end Sys2Proof.Machine
end

section
/-! PROOFS. Credit and the messages of the crossings (R10, R33, R34, R297, R307, R367). -/
namespace Sys2Proof.Machine

/-! ### What the end of a frame leaves of registers and faults -/

/-- The registers and the fault record. -/
def State.board (s : State) := (s.regs, s.flt)
theorem payRse_board (s : State) (p : Nat) (x : Bool) (n : Nat) : (s.payRse p x n).board = s.board := by
  unfold State.payRse
  split <;> rfl
theorem rseReturn_board (s : State) (f : Frame) : (s.rseReturn f).board = s.board := by
  unfold State.rseReturn
  split
  · exact (payRse_board _ _ _ _).trans rfl
  · rfl
theorem sendTicket_board (s : State) (f : Frame) (n : Nat) (v : Bool) : (s.sendTicket f n v).board = s.board := by
  unfold State.sendTicket
  split <;> rfl
theorem passTry_board (s : State) (f : Frame) : (s.passTry f).board = s.board := by
  unfold State.passTry
  split
  · exact (rseReturn_board _ _).trans ((sendTicket_board _ _ _ _).trans rfl)
  · rfl
theorem passAll_board (s : State) (p : Frame → Bool) : (s.passAll p).board = s.board := by
  unfold State.passAll
  refine forEach_keeps State.board _ (fun s a => ?_) _ _
  split
  · exact passTry_board s _
  · rfl
theorem nextTicket_board (s : State) (k : Nat) : (s.nextTicket k).board = s.board := by
  unfold State.nextTicket
  refine forEach_keeps State.board _ (fun s a => ?_) _ _
  dsimp only
  split
  · split
    · exact (passTry_board _ _).trans rfl
    · rfl
  · rfl
theorem after_board (s : State) (k : Nat) (c : Bool) (p : Frame → Bool) :
    ((s.nextTicket k).when c (·.passAll p)).board = s.board :=
  (when_keeps State.board (fun s => s.passAll p) (fun s => passAll_board s p) _ _).trans (nextTicket_board s k)
theorem removeFrame_board (s : State) (f : Frame) : (s.removeFrame f).board = s.board := (after_board _ _ _ _).trans rfl
theorem voidFrame_board (s : State) (f : Frame) : (s.voidFrame f).board = s.board := by
  unfold State.voidFrame
  extract_lets src t
  have ht : t.board = s.board := (sendTicket_board s f src true :)
  clear_value t
  split
  · exact removeFrame_board s f
  · exact (after_board _ _ _ _).trans ht
theorem leaveSlice_board (s : State) (f : Frame) : (s.leaveSlice f).board = s.board := by
  unfold State.leaveSlice
  split
  · split <;> rfl
  · rfl
theorem addStub_board (s : State) (f : Frame) : (s.addStub f).board = s.board := by
  unfold State.addStub
  split <;> rfl
theorem sendEof_board (s : State) (f : Frame) (b : Bytes) (c : Code) : (s.sendEof f b c).board = s.board := by
  unfold State.sendEof
  split <;> rfl
/-- The end of a frame leaves registers and faults as they are. -/
theorem endFrame_board (s : State) (f : Frame) (c : Code) (n : Option Nat) : (s.endFrame f c n).board = s.board := by
  unfold State.endFrame
  extract_lets s1 s2 s3 k
  have h1 : s1.board = s.board := by simp only [s1]; split <;> rfl
  have h2 : s2.board = s1.board := when_keeps State.board (fun s => s.rseReturn f) (fun s => rseReturn_board s f) _ s1
  have h3 : s3.board = s2.board := (addStub_board _ f).trans (leaveSlice_board s2 f)
  have h := h3.trans (h2.trans h1)
  clear_value s3
  split
  · exact (sendEof_board _ _ _ _).trans ((removeFrame_board _ f).trans h)
  · exact (voidFrame_board s3 f).trans h
theorem endFrames_board (s : State) (p : Frame → Bool) (c : Code) (n : Frame → Option Nat) : (s.endFrames p c n).board = s.board := by
  unfold State.endFrames
  refine forEach_keeps State.board _ (fun s a => ?_) _ _
  split
  · exact endFrame_board s _ _ _
  · rfl

/-! ### Credit -/

theorem creditReturn_early (s : State) (d : Dir) (port : Nat) (cls : Bool) (n : Nat) (h : chanKey d port cls ∉ s.dp.crInit) :
    s.creditReturn d port cls false n = s := by
  unfold State.creditReturn
  simp only [Bool.false_eq_true, if_false, h]
theorem creditReturn_more (s : State) (d : Dir) (port : Nat) (cls : Bool) (n : Nat) (h : chanKey d port cls ∈ s.dp.crInit) :
    (s.creditReturn d port cls false n).credit (chanKey d port cls) = s.credit (chanKey d port cls) + n := by
  unfold State.creditReturn
  simp only [Bool.false_eq_true, if_false, h, if_true]
  exact Tab.get_modify 0 s.dp.credit (chanKey d port cls) (· + n)
theorem creditReturn_init (s : State) (d : Dir) (port : Nat) (cls : Bool) (n : Nat)
    (h : Tab.get 0 s.dp.sent (chanKey d port cls) ≤ n) :
    (s.creditReturn d port cls true n).credit (chanKey d port cls) = n := by
  unfold State.creditReturn
  simp only [if_true, Nat.not_lt.mpr h, if_false]
  exact Tab.get_set 0 s.dp.credit (chanKey d port cls) n

/-! ### Lane control and link status -/

theorem laneReset_effect (s : State) (lane : Nat) : .laneCtl lane .reset ∈ (s.laneControl lane .reset).out ∧
    (s.laneControl lane .reset).credit (chanKey .egress lane false) = 0 ∧
    (s.laneControl lane .reset).credit (chanKey .egress lane true) = 0 := by
  have hne : chanKey .egress lane false ≠ chanKey .egress lane true := by
    unfold chanKey b2n
    simp
  obtain ⟨u, hu⟩ : ∃ u, u = s.endFrames (fun f => decide (f.dir = .egress) && decide (f.port = lane) && f.sofOut) .abort
    (fun _ => none) := ⟨_, rfl⟩
  unfold State.laneControl
  simp only [← hu]
  refine ⟨List.mem_append_right _ (List.mem_singleton.mpr rfl), ?_, ?_⟩
  · show Tab.get 0 (Tab.set 0 (Tab.set 0 u.dp.credit (chanKey .egress lane false) 0) (chanKey .egress lane true) 0) _ = 0
    rw [Tab.get_set_ne _ _ _ _ _ _ hne, Tab.get_set]
  · show Tab.get 0 (Tab.set 0 (Tab.set 0 u.dp.credit (chanKey .egress lane false) 0) (chanKey .egress lane true) 0) _ = 0
    rw [Tab.get_set]
/-- A status bit of one lane is put into the bits of all lanes. -/
theorem getLsbD_putLane (lane : Fin 32) (w : W32) (b : Bool) (n : Nat) :
    (mergeBits (1#32 <<< lane.val) (atBit b lane) w).getLsbD n = if n = lane then b else w.getLsbD n := by
  by_cases hn : n < 32
  · rw [getLsbD_mergeBits _ _ _ _ hn]
    have hbit : (1#32 <<< lane.val).getLsbD n = decide (n = lane.val) := by
      rw [BitVec.getLsbD_shiftLeft, BitVec.getLsbD_one]
      simp only [hn, decide_true, Bool.true_and]
      rw [← Bool.decide_and, ← decide_not, ← Bool.decide_and]
      exact decide_eq_decide.mpr ⟨fun h => by omega, fun h => by omega⟩
    have hat : (atBit b lane).getLsbD n = (b && decide (n = lane.val)) := by
      unfold atBit
      cases b
      · simp
      · rw [if_pos rfl, hbit, Bool.true_and]
    rw [hbit, hat]
    by_cases h : n = lane.val <;> simp [h]
  · have hl : n ≠ lane.val := by omega
    rw [if_neg hl, BitVec.getLsbD_of_ge _ _ (by omega), BitVec.getLsbD_of_ge _ _ (by omega)]
/-- The status bits of a lane; the flags of ports whose link changes follow. -/
theorem linkStatus_effect (s : State) (lane : Fin 32) (up mf ec : Bool) :
    (∀ n, (s.linkStatus lane up mf ec).dp.linkUp.getLsbD n = if n = lane then up else s.dp.linkUp.getLsbD n) ∧
    (∀ n, (s.linkStatus lane up mf ec).dp.macFault.getLsbD n = if n = lane then mf else s.dp.macFault.getLsbD n) ∧
    (∀ n, (s.linkStatus lane up mf ec).dp.expCap.getLsbD n = if n = lane then ec else s.dp.expCap.getLsbD n) := by
  unfold State.linkStatus
  extract_lets old put t
  have hdp : (t.forEach ((List.range 32).filter (fun p => decide (p ∈ old) != t.linkUp p)) (fun s p => s.portBFlag p 1)).dp = t.dp :=
    forEach_keeps State.dp (fun s p => s.portBFlag p 1) (fun _ _ => rfl) _ t
  rw [hdp]
  exact ⟨getLsbD_putLane lane _ up, getLsbD_putLane lane _ mf, getLsbD_putLane lane _ ec⟩

/-! ### Counters and faults of the black half -/

theorem portAdd_effect (s : State) (p c n : Nat) : Tab.get 0 (s.portAdd p c n).cnt.port (p * 128 + c) =
    Tab.get 0 s.cnt.port (p * 128 + c) + BitVec.ofNat 48 n := Tab.get_modify 0 s.cnt.port (p * 128 + c) (· + BitVec.ofNat 48 n)
theorem blackCount_named (s : State) (lane c n : Nat) (h : portCtrNamed c = true) :
    s.blackCount lane c n = s.portAdd ((s.portOfLane lane).getD lane) c n := by
  unfold State.blackCount
  rw [if_pos h]
/-- A flag of a register stays set as others are set. -/
theorem setFlags_keeps_flag (s : State) (q p : Page) (o off n : Nat) (m : W32) (h : s.flag p off n = true) :
    (s.setFlags q o m).flag p off n = true := by
  unfold State.flag bit at h ⊢
  by_cases he : p.at off = q.at o
  · have hs : (s.setFlags q o m).stickyW p off = s.stickyW p off ||| m := by
      unfold State.stickyW State.setFlags
      rw [he]
      exact Tab.get_set 0 s.regs.sticky (q.at o) _
    rw [hs, BitVec.getLsbD_or, h, Bool.true_or]
  · have hs : (s.setFlags q o m).stickyW p off = s.stickyW p off := Tab.get_set_ne 0 0 s.regs.sticky (q.at o) (p.at off) _ he
    rw [hs, h]
theorem detect_keeps_flag (s : State) (det inst : Nat) (a b : W32) (p : Page) (off n : Nat) (h : s.flag p off n = true) :
    (s.detect det inst a b).flag p off n = true := by
  unfold State.detect State.detectAs
  dsimp only
  split
  · exact h
  · exact setFlags_keeps_flag (s.evt (det - 1) 1) .flt p 0x40 off n _ h
/-- A partition that is held, the frames of a port apart. -/
theorem holdUnit_port (s : State) (p : Fin 32) : (s.holdUnit (.port p)).regs = s.regs ∧
    (s.holdUnit (.port p)).cnt.acc = s.cnt.acc ∧
    (s.resetOn (.port p) = false → (s.holdUnit (.port p)).held (.port p) = true) := by
  unfold State.holdUnit
  by_cases hr : s.resetOn (.port p) = true
  · rw [if_pos hr]
    exact ⟨rfl, rfl, fun h => absurd (hr.symm.trans h) (by decide)⟩
  · rw [if_neg hr]
    by_cases hh : s.held (.port p) = true
    · rw [if_pos hh]
      exact ⟨rfl, rfl, fun _ => hh⟩
    · rw [if_neg hh]
      obtain ⟨t, ht⟩ : ∃ t, t = s.modFlt (fun f => { f with held := f.held ++ [.port p] }) := ⟨_, rfl⟩
      have hb : (t.stomp (fun f => decide (f.port = p.val))).board = t.board := endFrames_board t _ _ _
      have hc : (t.stomp (fun f => decide (f.port = p.val))).cnt.acc = t.cnt.acc := endFrames_acc t _ _ _
      simp only [← ht]
      obtain ⟨hregs, hflt⟩ := Prod.mk.injEq _ _ _ _ ▸ hb
      refine ⟨hregs.trans (by rw [ht]; rfl), hc.trans (by rw [ht]; rfl), fun _ => ?_⟩
      unfold State.held
      rw [hflt, ht]
      exact decide_eq_true (List.mem_append_right _ (List.mem_singleton.mpr rfl))

/-- The detectors of the black half. -/
theorem blackFault_known (s : State) (lane det : Nat) (h : det ∈ [0x10, 0x11, 0x13, 0x14, 0x15, 0x16]) :
    s.blackFault lane det =
      ((s.portBFlag ((s.portOfLane lane).getD lane) 6).detect det (if det = 0x16 then lane else (s.portOfLane lane).getD lane)
        (laneInfo lane false) 0).when (decide (det = 0x15) || decide (det = 0x16))
        (·.holdUnit (.port (Fin.ofNat 32 ((s.portOfLane lane).getD lane)))) := by
  have hd : det = 0x11 ∨ det = 0x10 ∨ (0x13 ≤ det ∧ det ≤ 0x16) := by
    simp only [List.mem_cons, List.not_mem_nil, or_false] at h
    omega
  unfold State.blackFault
  simp only [hd, if_true]
theorem blackFault_effect (s : State) (lane det : Nat) (h : det ∈ [0x10, 0x11, 0x13, 0x14, 0x15, 0x16]) :
    (s.blackFault lane det).counted (det - 1) = s.counted (det - 1) + 1 ∧
    (s.blackFault lane det).flag (.port ((s.portOfLane lane).getD lane)) 0x44 6 = true ∧
    (0x15 ≤ det → s.resetOn (.port (Fin.ofNat 32 ((s.portOfLane lane).getD lane))) = false →
      (s.blackFault lane det).held (.port (Fin.ofNat 32 ((s.portOfLane lane).getD lane))) = true) := by
  rw [blackFault_known s lane det h]
  obtain ⟨p, hp⟩ : ∃ p, p = (s.portOfLane lane).getD lane := ⟨_, rfl⟩
  rw [← hp]
  obtain ⟨t, ht⟩ : ∃ t, t = (s.portBFlag p 6).detect det (if det = 0x16 then lane else p) (laneInfo lane false) 0 := ⟨_, rfl⟩
  have hcnt : t.counted (det - 1) = s.counted (det - 1) + 1 := by
    rw [ht]
    exact (counted_detect (s.portBFlag p 6) false det _ _ _).trans rfl
  have hflag : t.flag (.port p) 0x44 6 = true := by
    rw [ht]
    exact detect_keeps_flag _ _ _ _ _ _ _ _ (flag_setFlag s (.port p) 0x44 6 (by decide))
  have hv : t.regView = s.regView := by
    rw [ht]
    exact (detect_rv _ _ _ _ _).trans rfl
  have hreset : t.resetOn (.port (Fin.ofNat 32 p)) = s.resetOn (.port (Fin.ofNat 32 p)) := by
    have hr : t.regs.resetting = s.regs.resetting := (congrArg (fun v => v.1.1) hv :)
    unfold State.resetOn
    rw [hr]
  rw [← ht]
  obtain ⟨hregs, hacc, hheld⟩ := holdUnit_port t (Fin.ofNat 32 p)
  cases hc : (decide (det = 0x15) || decide (det = 0x16))
  · refine ⟨hcnt, hflag, fun hd => ?_⟩
    simp only [Bool.or_eq_false_iff, decide_eq_false_iff_not] at hc
    simp only [List.mem_cons, List.not_mem_nil, or_false] at h
    omega
  · exact ⟨(counted_acc _ _ _ hacc).trans hcnt, (flag_of_regs _ _ _ _ _ hregs).trans hflag, fun _ hr => hheld (hreset.trans hr)⟩
/-- A message of a wrong format is counted. -/
theorem xingBad_effect (s : State) (lane : Nat) : (s.xingBad lane).dp = s.dp ∧ (s.xingBad lane).counted 0x15 = s.counted 0x15 + 1 :=
  ⟨detect_dp _ _ _ _ _, counted_detect s false 0x16 _ _ _⟩

/-- Settles O23: one lemma for each message. -/
theorem creditsAndCrossings : Obligations.CreditsAndCrossings := by
  unfold Obligations.CreditsAndCrossings
  refine ⟨fun d port cls n s h => ?_, fun d port cls n s h => ?_, fun d port cls n s h => ?_, fun lane s => rfl, fun lane s => ?_,
    fun lane up mf ec s => ?_, fun lane cls free s => ?_, fun lane ctr inc s h => ?_, fun lane det s h => ?_,
    fun lane up mf ec cls code free inc ctr det s c hc => ?_⟩
  · exact congrArg Host.Outcome.next (creditReturn_early s.begin d port cls _ h)
  · exact ⟨_, rfl, creditReturn_more s.begin d port cls _ h⟩
  · exact ⟨_, rfl, creditReturn_init s.begin d port cls _ h⟩
  · exact ⟨_, rfl, laneReset_effect s.begin lane⟩
  · exact ⟨_, rfl, linkStatus_effect s.begin lane up mf ec⟩
  · exact ⟨_, rfl, Tab.get_set 32768 s.dp.bufFree (chanKey .egress lane cls) free.toNat⟩
  · exact ⟨_, congrArg Host.Outcome.next (blackCount_named s.begin lane _ _ h), portAdd_effect s.begin _ _ _⟩
  · exact ⟨_, rfl, blackFault_effect s.begin lane det.toNat h⟩
  · have hx := xingBad_effect s.begin lane
    simp only [List.mem_cons, List.not_mem_nil, or_false] at hc
    rcases hc with rfl | rfl | rfl | rfl | rfl <;> exact ⟨_, rfl, hx⟩

end Sys2Proof.Machine
end

section
/-! PROOFS. Answers of the store memory, key sets that are expanded, and buffer entries written back (R245, R249, R252, R254). -/
namespace Sys2Proof.Machine

/-! ### The end of a host command -/

theorem putBytes_word (s : State) (p : Page) (off i : Nat) (b : Bytes) (hi : i < b.length / 4) :
    (s.putBytes p off b).cfg p (off + 4 * i) = BitVec.ofNat 32 (ofLe (slice b (4 * i) 4)) :=
  cfg_forEach_setCfg s p off (b.length / 4) i (fun i => BitVec.ofNat 32 (ofLe (slice b (4 * i) 4))) hi
theorem putBytes_store (s : State) (p : Page) (off : Nat) (b : Bytes) : (s.putBytes p off b).store = s.store :=
  forEach_keeps State.store (fun s i => s.setCfg p (off + 4 * i) (BitVec.ofNat 32 (ofLe (slice b (4 * i) 4)))) (fun _ _ => rfl) _ s
theorem storeDone_cfg (s : State) (code detail : Nat) (p : Page) (off : Nat) : (s.storeDone code detail).cfg p off = s.cfg p off := rfl
theorem storeDone_store (s : State) (code detail : Nat) : (s.storeDone code detail).store = { s.store with cmd := none } := rfl
theorem takeOut_some (s : State) (wr : Bool) (id : Nat) (r : SReq)
    (h : s.store.out.find? (fun q => decide (q.id = id) && (q.wr == wr)) = some r) :
    s.takeOut wr id = some (r, s.modStore (fun t => { t with out := t.out.filter (fun q => decide (q.id ≠ id)) })) := by
  unfold State.takeOut
  rw [h]
theorem finish_host_read (s : State) (r : SReq) (f : FinRes) (hw : r.who = .host) (hr : r.wr = false) : s.finish r f = s.hostEnd r f := by
  unfold State.finish State.endReq
  simp only [hw, hr, State.when, Bool.false_eq_true, if_false]
theorem finish_host_write (s : State) (r : SReq) (f : FinRes) (hw : r.who = .host) (hr : r.wr = true) :
    s.finish r f = (s.wholeEnd r f).hostEnd r f := by
  unfold State.finish State.endReq
  simp only [hw, hr, State.when, if_true]
/-- A read that is verified fills HSW_DATA. -/
theorem hostEnd_read (s : State) (r : SReq) (c : W32) (d : Bytes) (fx : Bool) (hr : r.wr = false) (hc : s.store.cmd = some c)
    (hd : d.length = 64) :
    let u := s.hostEnd r (.ok d fx)
    u.store = { s.store with cmd := none } ∧
    (∀ i, i < 16 → u.cfg .store (0x100 + 4 * i) = BitVec.ofNat 32 (ofLe (slice d (4 * i) 4))) ∧
    u.ended .store 0xD4 8 0 (cmdOp c) (b2n fx) := by
  intro u
  have hu : u = (s.putBytes .store 0x100 d).storeDone 0 (b2n fx) := by
    simp only [u]
    unfold State.hostEnd
    rw [hr]
    cases fx <;> rfl
  rw [hu]
  refine ⟨?_, fun i hi => ?_, storeDone_ended _ c 0 _ ?_⟩
  · rw [storeDone_store, putBytes_store]
  · rw [storeDone_cfg, putBytes_word s .store 0x100 i d (by omega)]
  · rw [putBytes_store, hc]
theorem readResp_ok (s : State) (r : SReq) (data side d : Bytes) (fx : Bool) (h : checkLine s.store.master r data side = .ok d fx) :
    s.readResp r false data side = (s.when fx (fun s => (s.setFlag .store 0x40 3).evt 192 1)).finish r (.ok d fx) := by
  unfold State.readResp
  simp only [Bool.false_eq_true, if_false, h]
  cases fx <;> rfl
theorem wholeEnd_keeps (s : State) (r : SReq) (f : FinRes) :
    (s.wholeEnd r f).store.cmd = s.store.cmd ∧ (s.wholeEnd r f).store.out = s.store.out := by
  unfold State.wholeEnd
  split
  · exact ⟨rfl, rfl⟩
  · split
    · split <;> exact ⟨rfl, rfl⟩
    · exact ⟨rfl, rfl⟩

/-! ### Answers to the host -/

theorem hostRead_answered (s : State) (id : BitVec 8) (data side d : Bytes) (fx : Bool) (r : SReq) (c : W32)
    (hout : s.store.out.find? (fun q => decide (q.id = id.toNat) && (q.wr == false)) = some r) (hw : r.who = .host) (hr : r.wr = false)
    (hc : s.store.cmd = some c) (hok : checkLine s.store.master r data side = .ok d fx) (hd : d.length = 64) :
    ∃ u : State, exec (.storeReadResponse id false data side false) s = .next u.settle ∧ u.store.cmd = none ∧
      u.store.out = s.store.out.filter (fun q => decide (q.id ≠ id.toNat)) ∧
      (∀ i, i < 16 → u.cfg .store (0x100 + 4 * i) = BitVec.ofNat 32 (ofLe (slice d (4 * i) 4))) ∧
      u.ended .store 0xD4 8 0 (cmdOp c) (b2n fx) := by
  obtain ⟨t, ht⟩ : ∃ t, t = s.begin.modStore (fun t => { t with out := t.out.filter (fun q => decide (q.id ≠ id.toNat)) }) := ⟨_, rfl⟩
  obtain ⟨v, hv⟩ : ∃ v, v = t.when fx (fun s => (s.setFlag .store 0x40 3).evt 192 1) := ⟨_, rfl⟩
  have hvs : v.store = t.store := by
    rw [hv]
    exact when_keeps State.store (fun s => (s.setFlag .store 0x40 3).evt 192 1) (fun _ => rfl) fx t
  have hts : t.store = { s.store with out := s.store.out.filter (fun q => decide (q.id ≠ id.toNat)) } := by rw [ht]; rfl
  have hrun : exec (.storeReadResponse id false data side false) s = .next (v.hostEnd r (.ok d fx)).settle := by
    change execStoreReadResponse id false data side false s = _
    unfold execStoreReadResponse
    simp only [takeOut_some s.begin false id.toNat r hout, ← ht]
    rw [← finish_host_read v r _ hw hr, hv, ← readResp_ok t r data side d fx (by rw [hts]; exact hok)]
    rfl
  obtain ⟨hstore, hdata, hend⟩ := hostEnd_read v r c d fx hr (by rw [hvs, hts]; exact hc) hd
  refine ⟨_, hrun, ?_, ?_, hdata, hend⟩
  · rw [hstore]
  · rw [hstore, hvs, hts]
theorem hostWrite_answered (s : State) (id : BitVec 8) (r : SReq) (c : W32)
    (hout : s.store.out.find? (fun q => decide (q.id = id.toNat) && (q.wr == true)) = some r) (hw : r.who = .host) (hr : r.wr = true)
    (hc : s.store.cmd = some c) :
    ∃ u : State, exec (.storeWriteAck id false) s = .next u.settle ∧ u.store.cmd = none ∧
      u.store.out = s.store.out.filter (fun q => decide (q.id ≠ id.toNat)) ∧ u.ended .store 0xD4 8 0 (cmdOp c) 0 := by
  obtain ⟨t, ht⟩ : ∃ t, t = s.begin.modStore (fun t => { t with out := t.out.filter (fun q => decide (q.id ≠ id.toNat)) }) := ⟨_, rfl⟩
  obtain ⟨hcmd, houts⟩ := wholeEnd_keeps t r (.ok [] false)
  have htc : (t.wholeEnd r (.ok [] false)).store.cmd = some c := by rw [hcmd, ht]; exact hc
  have hend : t.finish r (.ok [] false) = (t.wholeEnd r (.ok [] false)).storeDone 0 0 := by
    rw [finish_host_write t r _ hw hr]
    unfold State.hostEnd
    rw [hr]
    rfl
  have hrun : exec (.storeWriteAck id false) s = .next ((t.wholeEnd r (.ok [] false)).storeDone 0 0).settle := by
    change execStoreWriteAck id false s = _
    unfold execStoreWriteAck
    simp only [takeOut_some s.begin true id.toNat r hout, ← ht]
    rw [← hend]
    rfl
  refine ⟨_, hrun, rfl, ?_, storeDone_ended _ c 0 0 htc⟩
  rw [storeDone_store]
  show (t.wholeEnd r (.ok [] false)).store.out = _
  rw [houts, ht]
  rfl

/-! ### Key sets and buffer entries -/

theorem keyCacheFill_effect (s : State) (sel : BitVec 12) (hm : sel.toNat ∈ s.store.missed) (hd : s.domUp 45 = true) :
    exec (.keyCacheFill sel) s = .next (s.begin.cacheFill sel.toNat).settle := by
  have hc : sel.toNat ∈ s.begin.store.missed ∧ s.begin.domUp 45 = true := ⟨hm, hd⟩
  change execKeyCacheFill sel s = _
  unfold execKeyCacheFill
  simp only [if_pos hc]
theorem wcb_modWcb (s : State) (line : Nat) (f : Wcb → Wcb) (w : Wcb) (hf : ∀ w, (f w).line = w.line) (h : s.wcb line = some w) :
    (s.modWcb line f).wcb line = some (f w) := by
  unfold State.wcb at h ⊢
  have hl : w.line = line := by simpa using List.find?_some h
  have hcomp : ((fun w : Wcb => decide (w.line = line)) ∘ fun w => if w.line = line then f w else w) = fun w => decide (w.line = line) := by
    funext w
    simp only [Function.comp_apply]
    split
    · rw [hf]
    · rfl
  show (s.store.wcb.map _).find? _ = _
  rw [List.find?_map, hcomp, h]
  simp [hl]
theorem issueWrite_effect (s : State) (r : SReq) (sel i : Nat) (d : Bytes) (hi : s.freeId = some i) :
    (∃ data side : Bytes, .stq true r.line sel i data side ∈ (s.issueWrite r sel d).out) ∧
    (s.issueWrite r sel d).store.wcb = s.store.wcb := by
  unfold State.issueWrite
  rw [hi]
  exact ⟨⟨_, _, List.mem_append_right _ (List.mem_singleton.mpr rfl)⟩, rfl⟩
theorem writeBack_effect (s : State) (w : Wcb) (i : Nat) (h : s.wcb w.line = some w) (hi : s.freeId = some i) :
    (∃ data side : Bytes, .stq true w.line w.sel i data side ∈ (s.writeBack w).out) ∧
    (s.writeBack w).wcb w.line = some { w with dirty := 0, writing := true } := by
  unfold State.writeBack
  extract_lets t
  obtain ⟨v, hv⟩ : ∃ v, v = t.modWcb w.line (fun w => { w with dirty := 0, writing := true }) := ⟨_, rfl⟩
  have hvi : v.freeId = some i := by rw [hv]; exact hi
  have hvw : v.wcb w.line = some { w with dirty := 0, writing := true } := by
    rw [hv]
    exact wcb_modWcb t w.line (fun w => { w with dirty := 0, writing := true }) w (fun _ => rfl) h
  rw [← hv]
  obtain ⟨hout, hwcb⟩ := issueWrite_effect v
    { ser := t.store.nextId, wr := true, line := w.line, kix := w.sel, who := .wcbBack } w.sel i w.data hvi
  refine ⟨hout, ?_⟩
  rw [← hvw]
  unfold State.wcb
  rw [hwcb]

/-- Settles O25: one lemma for each answer. -/
theorem storeAnswers : Obligations.StoreAnswers := by
  unfold Obligations.StoreAnswers
  refine ⟨fun id data side d fx r c s => hostRead_answered s id data side d fx r c, fun id r c s => hostWrite_answered s id r c,
    fun sel s hm hd => ?_, fun line w i s hw hb hd hi => ?_⟩
  · rw [keyCacheFill_effect s sel hm hd]
    rfl
  · have hl : w.line = line.toNat := by simpa using List.find?_some hw
    have hrun : exec (.wcbIdleFlush line) s = .next (s.begin.writeBack w).settle := by
      have hwb : s.begin.wcb line.toNat = some w := hw
      have hgo : (s.begin.mayBack w && s.begin.domUp 45 && s.begin.freeId.isSome) = true := by
        rw [show s.begin.mayBack w = true from hb, show s.begin.domUp 45 = true from hd, show s.begin.freeId = some i from hi]
        rfl
      change execWcbIdleFlush line s = _
      unfold execWcbIdleFlush
      simp only [hwb, hgo, if_true]
    obtain ⟨⟨data, side, hout⟩, hwcb⟩ := writeBack_effect s.begin w i (hl ▸ hw) hi
    refine ⟨_, data, side, hrun, hl ▸ hout, ?_⟩
    rw [← hl]
    exact hwcb

end Sys2Proof.Machine
end

section
/-! PROOFS. KEYX jobs start and end (R162, R163, R168, R228). -/
namespace Sys2Proof.Machine

theorem core_setCore (s : State) (c : Nat) (j : Option KJob) : (s.setCore c j).core c = j := Tab.get_set none s.keyx.cores c j
/-- The start of a job on the core that is free for it. -/
theorem keyxStart_effect (s : State) (j : KJob) (c : Nat) (hd : s.domUp 44 = true) (hj : s.nextJob = some j)
    (hc : s.coreFor j = some c) :
    s.keyxStart.core c = some j ∧ s.keyxStart.keyx.queue = s.keyx.queue.erase j ∧
    Tab.get 64 s.keyxStart.keyx.held c = s.jobKek j := by
  unfold State.keyxStart
  simp only [hd, if_true, hj, hc]
  exact ⟨core_setCore s c (some j), rfl, Tab.get_ins 64 s.keyx.held c _⟩
/-- A job whose KEK is there is taken off its core and has its effect. -/
theorem keyxEnd_unwrap (s : State) (c x : Nat) (b : Bool) (h : s.core c = some (.unwrap x b)) (hw : s.kekWaits (.unwrap x b) = false) :
    s.keyxEnd c = (s.setCore c none).pageUnwrapped x b := by
  have hw' : (s.setCore c none).kekWaits (.unwrap x b) = false := hw
  unfold State.keyxEnd
  simp only [h, hw', Bool.false_eq_true, if_false]
theorem keyxEnd_install (s : State) (c : Nat) (w : W32) (h : s.core c = some .install) (hw : s.kekWaits .install = false)
    (hk : s.pager.keyw = some w) : s.keyxEnd c = (s.setCore c none).installDone w := by
  have hw' : (s.setCore c none).kekWaits .install = false := hw
  have hk' : (s.setCore c none).pager.keyw = some w := hk
  unfold State.keyxEnd
  simp only [h, hw', hk', Bool.false_eq_true, if_false]
/-- The areas of a page-in that have been unwrapped. -/
def PageIn.unwrapped (p : PageIn) (b : Bool) : PageIn := { p with done := if p.done.contains b then p.done else p.done ++ [b] }
theorem mem_unwrapped (p : PageIn) (b : Bool) : b ∈ (p.unwrapped b).done := by
  unfold PageIn.unwrapped
  dsimp only
  split
  · next h => exact List.contains_iff_mem.mp h
  · exact List.mem_append_right _ (List.mem_singleton.mpr rfl)
/-- Until every line of the record has been read, the unwrap is only noted. -/
theorem pageUnwrapped_early (s : State) (x : Nat) (b : Bool) (p : PageIn) (hp : s.pageIn x = some p) (hw : p.whole = false) :
    s.pageUnwrapped x b = s.modIn x (fun p => p.unwrapped b) ∧
    (s.modIn x (fun p => p.unwrapped b)).pageIn x = some (p.unwrapped b) := by
  have hm : (s.modIn x (fun p => p.unwrapped b)).pageIn x = some (p.unwrapped b) := by
    rw [pageIn_modIn s x (fun p => p.unwrapped b) (fun _ => rfl), hp]
    rfl
  refine ⟨?_, hm⟩
  have hw' : (p.unwrapped b).whole = false := hw
  change (s.modIn x (fun p => p.unwrapped b)).pageTry x = _
  unfold State.pageTry
  simp only [hm, hw', Bool.false_eq_true, if_false]
/-- An install whose blob does not unwrap ends its command. -/
theorem installDone_refused (s : State) (w : W32) (e : Nat) (en : Entry) (k : Bytes) (r : Nat) (hx : s.whereIs (cmdChix w) = .here e en)
    (hk : s.kek ((byteAt s.blob 1).toNat) = some k)
    (hu : unwrapBlob k (s.blob.drop 8) (usageOf en.cfg0 false) (byteAt s.blob 2).toNat (cmdChix w) (ofBe (slice s.blob 4 2)) 1
      (cmdB28 w) = .error r) : s.installDone w = s.keywDone r s.keywGen := by
  unfold State.installDone
  simp only [hx, hk, hu]
theorem keywDone_keyx (s : State) (code gen : Nat) : (s.keywDone code gen).keyx = s.keyx ∧ (s.keywDone code gen).ch = s.ch := by
  have h := keywDone_unkeyed s code gen
  exact ⟨(congrArg (fun u => u.2.2.2.2.2.2.2) h :), (congrArg (fun u => u.2.2.2.2.2.2.1) h :)⟩
theorem core_of_keyx (s t : State) (c : Nat) (h : t.keyx = s.keyx) : t.core c = s.core c := by
  unfold State.core
  rw [h]

/-- Settles O26: the start of a job and its end by kind. -/
theorem keyxJobs : Obligations.KeyxJobs := by
  unfold Obligations.KeyxJobs
  refine ⟨fun j c s hd hj hc => ?_, fun c x b p s hc hw hp hwh => ?_, fun c w e en k r s hc hw hk hx hkek hu => ?_⟩
  · exact ⟨_, rfl, keyxStart_effect s.begin j c hd hj hc⟩
  · obtain ⟨hrun, hin⟩ := pageUnwrapped_early (s.begin.setCore c.val none) x b p hp hwh
    have hend := (keyxEnd_unwrap s.begin c.val x b hc hw).trans hrun
    exact ⟨_, _, congrArg (fun u => Host.Outcome.next (State.settle u)) hend, core_setCore s.begin c.val none, hin, mem_unwrapped p b⟩
  · obtain ⟨t, ht⟩ : ∃ t, t = s.begin.setCore c.val none := ⟨_, rfl⟩
    have hend : s.begin.keyxEnd c.val = t.keywDone r t.keywGen := by
      rw [keyxEnd_install s.begin c.val w hc hw hk, ← ht]
      exact installDone_refused t w e en k r (by rw [ht]; exact hx) (by rw [ht]; exact hkek) (by rw [ht]; exact hu)
    obtain ⟨hkeyx, hch⟩ := keywDone_keyx t r t.keywGen
    refine ⟨_, t.keywGen * 256, congrArg (fun u => Host.Outcome.next (State.settle u)) hend, ?_, keywDone_keyw t r _, ?_, ?_⟩
    · rw [core_of_keyx _ _ _ hkeyx, ht]
      exact core_setCore s.begin c.val none
    · rw [hch, ht]
      rfl
    · exact keywDone_ended t w r _ (by rw [ht]; exact hk)

end Sys2Proof.Machine
end

section
/-! PROOFS. Page-outs and group jobs start (R231, R233, R236). -/
namespace Sys2Proof.Machine

/-! ### Page-outs -/

theorem keyxPush_queue (s : State) (x : Nat) (l : List Bool) :
    (s.forEach l (fun s b => s.keyxPush (.wrap x b))).keyx.queue = s.keyx.queue ++ l.map (fun b => .wrap x b) := by
  induction l generalizing s with
  | nil => exact (List.append_nil _).symm
  | cons b l ih =>
    rw [forEach_cons, ih]
    exact List.append_assoc _ _ _
theorem pageOut_chix (s : State) (x : Nat) (o : PageOut) (h : s.pageOut x = some o) : o.chix = x := by
  simpa using List.find?_some h
/-- The record is formed and its lines are asked for: a page-out under way stays so. -/
theorem outWrite_keeps (s : State) (x : Nat) (o : PageOut) (ho : s.pageOut x = some o) (hs : o.started = true) :
    (s.outWrite x).keyx = s.keyx ∧ ∃ q, (s.outWrite x).pageOut x = some q ∧ q.started = true := by
  unfold State.outWrite
  rw [ho]
  split
  · next o' e _ _ =>
    split
    · next en _ =>
      extract_lets blob t r
      obtain ⟨u, hu⟩ : ∃ u, u = t.modOut x (fun o => { o with writing := true, left := 8 }) := ⟨_, rfl⟩
      have huo : u.pageOut x = some { o with writing := true, left := 8 } := by
        rw [hu]
        exact pageOut_modOut t x (fun o => { o with writing := true, left := 8 }) o (fun _ => rfl) ho
      have huk : u.keyx = s.keyx := by rw [hu]; rfl
      rw [← hu]
      have hk : ((u.forEach (List.range 8) (fun s l =>
          s.storeWrite (s.recLine x l) s.pageKix (.pageOut x l) (slice r (64 * l) 64))).keyx,
          (u.forEach (List.range 8) (fun s l =>
          s.storeWrite (s.recLine x l) s.pageKix (.pageOut x l) (slice r (64 * l) 64))).pager) = (u.keyx, u.pager) :=
        forEach_keeps (fun s => (s.keyx, s.pager)) (fun s l =>
          s.storeWrite (s.recLine x l) s.pageKix (.pageOut x l) (slice r (64 * l) 64)) (fun _ _ => rfl) _ u
      obtain ⟨hkx, hkp⟩ := Prod.mk.injEq _ _ _ _ ▸ hk
      exact ⟨hkx.trans huk, _, (pageOut_of_pager u _ x hkp).trans huo, hs⟩
    · exact ⟨rfl, o, ho, hs⟩
  · exact ⟨rfl, o, ho, hs⟩
theorem outNext_keeps (s : State) (x : Nat) (o : PageOut) (ho : s.pageOut x = some o) (hs : o.started = true) :
    (s.outNext x).keyx = s.keyx ∧ ∃ q, (s.outNext x).pageOut x = some q ∧ q.started = true := by
  unfold State.outNext
  rw [ho]
  dsimp only
  split
  · exact outWrite_keeps s x o ho hs
  · exact ⟨rfl, o, ho, hs⟩
theorem outStart_queues (s : State) (x e : Nat) (o : PageOut) (ho : s.pageOut x = some o) (hq : s.outcomesOf x = [])
    (hsp : s.spilling x = false) (hz : s.zerosLeft x = false) (hk : s.sys.kek63.isSome = true) :
    (∃ q, (s.outStart x e).pageOut x = some q ∧ q.started = true) ∧
    (s.outStart x e).keyx.queue = s.keyx.queue ++
      ([false, true].filter (fun b => decide ((s.slot (vslotOf e b)).st = .live))).map (fun b => .wrap x b) := by
  obtain ⟨t, ht⟩ : ∃ t, t = s.applyAll x := ⟨_, rfl⟩
  have hta := ht.trans (applyAll_none s x hq)
  have hto : t.pageOut x = some o := by rw [hta]; exact ho
  have htsp : t.spilling x = false := by rw [hta]; exact hsp
  have htz : t.zerosLeft x = false := by rw [hta]; exact hz
  have htk : t.sys.kek63.isSome = true := by rw [hta]; exact hk
  have htl : [false, true].filter (fun b => decide ((t.slot (vslotOf e b)).st = .live)) =
      [false, true].filter (fun b => decide ((s.slot (vslotOf e b)).st = .live)) := by rw [hta]; rfl
  obtain ⟨l, hl⟩ : ∃ l, l = [false, true].filter (fun b => decide ((s.slot (vslotOf e b)).st = .live)) := ⟨_, rfl⟩
  obtain ⟨v, hv⟩ : ∃ v, v = t.modOut x (fun o => { o with started := true, queued := l }) := ⟨_, rfl⟩
  have hrun : s.outStart x e = (v.forEach l (fun s b => s.keyxPush (.wrap x b))).outNext x := by
    unfold State.outStart
    simp only [← ht, htsp, htz, htk, Bool.false_eq_true, if_false, if_true]
    rw [htl, ← hl, ← hv]
  have hvo : v.pageOut x = some { o with started := true, queued := l } := by
    rw [hv]
    exact pageOut_modOut t x (fun o => { o with started := true, queued := l }) o (fun _ => rfl) hto
  have hwp : (v.forEach l (fun s b => s.keyxPush (.wrap x b))).pager = v.pager :=
    forEach_keeps State.pager (fun s b => s.keyxPush (.wrap x b)) (fun _ _ => rfl) l v
  obtain ⟨hkeyx, hout⟩ := outNext_keeps (v.forEach l (fun s b => s.keyxPush (.wrap x b))) x _ ((pageOut_of_pager v _ x hwp).trans hvo) rfl
  rw [hrun]
  refine ⟨hout, ?_⟩
  rw [hkeyx, keyxPush_queue, hv, hta, ← hl]
  rfl
theorem outWaits_parts (s : State) (o : PageOut) (h : s.outWaits o = true) : s.spilling o.chix = false := by
  unfold State.outWaits at h
  simp only [Bool.and_eq_true] at h
  obtain ⟨-, hr⟩ := h
  split at hr
  · unfold State.outReady at hr
    simp only [Bool.and_eq_true, Bool.not_eq_true'] at hr
    exact hr.2
  · cases hr

/-! ### Group jobs -/

/-- An eviction at the word of a group job. -/
theorem jobEvict_new (s : State) (x e : Nat) (en : Entry) (hr : s.resident x = some e) (he : s.entry e = some en)
    (hp : en.pinned = false) (hv : en.evicting = false) (ho : s.pageOut x = none) :
    s.jobEvict x = (s.modEntry e (fun en => { en with evicting := true })).pushOut { chix := x } := by
  unfold State.jobEvict
  simp only [hr, he, hp, hv, Bool.false_eq_true, or_self, if_false]
  exact evict_new s x e false false ho
theorem jobCheck_waits (s : State) (o : PageOut) (ho : o ∈ s.pager.outs) (hc : o.byCmd = false) : s.jobCheck = s := by
  have ha : s.pager.outs.any (fun o => !o.byCmd) = true := List.any_eq_true.mpr ⟨o, ho, by rw [hc]; rfl⟩
  unfold State.jobCheck
  simp only [ha, Bool.not_true, Bool.false_eq_true, and_false, if_false]
theorem runJob_evicts (s : State) (j : GroupJob) (x e : Nat) (en : Entry) (hj : j.evict = true) (hl : s.jobChans j = [x])
    (hr : s.resident x = some e) (he : s.entry e = some en) (hp : en.pinned = false) (hv : en.evicting = false)
    (ho : s.pageOut x = none) :
    (s.runJob j).pager.running = true ∧ (s.runJob j).entry e = some { en with evicting := true } ∧
    (s.runJob j).pager.outs = s.pager.outs ++ [{ chix := x, ser := s.pager.nextSer }] ∧
    (s.runJob j).counted 168 = s.counted 168 + 1 := by
  obtain ⟨t, ht⟩ : ∃ t, t = s.evt 168 1 := ⟨_, rfl⟩
  have htl : t.jobChans j = [x] := by rw [ht]; exact hl
  have htj := jobEvict_new t x e en (by rw [ht]; exact hr) (by rw [ht]; exact he) hp hv (by rw [ht]; exact ho)
  obtain ⟨v, hvd⟩ : ∃ v, v = (((t.modEntry e (fun en => { en with evicting := true })).pushOut { chix := x }).modPager
    (fun p => { p with running := true })) := ⟨_, rfl⟩
  have hvo : v.pager.outs = s.pager.outs ++ [{ chix := x, ser := s.pager.nextSer }] := by rw [hvd, ht]; rfl
  have hrun : s.runJob j = v := by
    unfold State.runJob
    simp only [hj, if_true, ← ht, htl, forEach_cons, forEach_nil, htj, ← hvd]
    exact jobCheck_waits v { chix := x, ser := s.pager.nextSer } (by rw [hvo]; exact List.mem_append_right _ (List.mem_singleton.mpr rfl)) rfl
  rw [hrun]
  refine ⟨by rw [hvd]; rfl, ?_, hvo, ?_⟩
  · have hent : v.entry e = (t.modEntry e (fun en => { en with evicting := true })).entry e := by rw [hvd]; rfl
    rw [hent, entry_modEntry, show t.entry e = some en by rw [ht]; exact he]
    rfl
  · have hc : v.counted 168 = t.counted 168 := by rw [hvd]; rfl
    rw [hc, ht]
    exact counted_evt s 168 1

/-- Settles O27: the start of a page-out, and the one eviction of a group job. -/
theorem pageOutsRun : Obligations.PageOutsRun := by
  unfold Obligations.PageOutsRun
  refine ⟨fun x e o s ho hr hw hf hfst hd hq hz hk _ => ?_, fun j rest x e en s hj hn hup hd hev hl hr he hp hv ho => ?_⟩
  · have hgo : (s.begin.outWaits o && s.begin.pagerFree && s.begin.outFirst o && s.begin.domsUp (1 :: tableDoms)) = true := by
      rw [show s.begin.outWaits o = true from hw, show s.begin.pagerFree = true from hf, show s.begin.outFirst o = true from hfst,
        show s.begin.domsUp (1 :: tableDoms) = true from hd]
      rfl
    have hrun : exec (.pageOutStart x) s = .next (s.begin.outStart x.toNat e).settle := by
      change execPageOutStart x s = _
      unfold execPageOutStart
      simp only [show s.begin.pageOut x.toNat = some o from ho, show s.begin.resident x.toNat = some e from hr, hgo, if_true]
    have hsp : s.begin.spilling x.toNat = false := pageOut_chix s x.toNat o ho ▸ outWaits_parts s o hw
    obtain ⟨⟨q, hqo, hqs⟩, hqueue⟩ := outStart_queues s.begin x.toNat e o ho hq hsp hz hk
    exact ⟨_, q, hrun, hqo, hqs, hqueue⟩
  · have hgo : (!s.begin.pager.running && s.begin.pagerUp && s.begin.domsUp tableDoms) = true := by
      rw [show s.begin.pager.running = false from hn, show s.begin.pagerUp = true from hup, show s.begin.domsUp tableDoms = true from hd]
      rfl
    have hrun : exec .groupJobStart s = .next (s.begin.runJob j).settle := by
      change execGroupJobStart s = _
      unfold execGroupJobStart
      simp only [show s.begin.pager.jobs = j :: rest from hj, hgo, if_true]
    exact ⟨_, hrun, runJob_evicts s.begin j x e en hev hl hr he hp hv ho⟩

end Sys2Proof.Machine
end

section
/-! PROOFS. Calendar entries fire and season floors end (R237, R238, R288, R289). -/
namespace Sys2Proof.Machine

theorem calEntry_setCal (s : State) (n : Nat) (w : W128) : (s.setCal n w).calEntry n = w := Tab.get_set 0 s.pager.cal n w
/-- An entry that is due is reason enough for the calendar to fire. -/
theorem calReady_due (s : State) (n t : Nat) (w : W128) (hv : s.sys.tmA.vld = true) (hc : s.pager.cal = [(n, w)])
    (hd : calDue w = some t) (ht : t ≤ s.sys.tmA.ns) : s.calReady = true := by
  unfold State.calReady
  rw [hv, hc]
  simp [hd, ht]
theorem fireAll_one (s : State) (n t : Nat) (w : W128) (hc : s.pager.cal = [(n, w)]) (hd : calDue w = some t)
    (ht : t ≤ s.sys.tmA.ns) : s.fireAll = s.fireEntry n w t := by
  unfold State.fireAll
  rw [hc]
  simp only [forEach_cons, forEach_nil, hd, ht, if_true]
theorem exec_calendarFire (s : State) (n t : Nat) (w : W128) (hv : s.sys.tmA.vld = true) (hu : s.domUp 53 = true)
    (hc : s.pager.cal = [(n, w)]) (hd : calDue w = some t) (ht : t ≤ s.sys.tmA.ns) :
    exec .calendarFire s = .next (s.begin.fireEntry n w t).settle := by
  have hr : s.begin.calReady = true := calReady_due s.begin n t w hv hc hd ht
  change execCalendarFire s = _
  unfold execCalendarFire
  simp only [hr, if_true, show s.begin.domUp 53 = true from hu, fireAll_one s.begin n t w hc hd ht]
/-- An entry of a group job. -/
theorem fireEntry_job (s : State) (n t : Nat) (w : W128) (hk : calFld w 127 126 = 1) (hl : s.pager.jobs.length < 8) :
    (s.fireEntry n w t).calEntry n = calNext w t s.sys.tmA.ns ∧
    (s.fireEntry n w t).pager.jobs = s.pager.jobs ++
      [{ evict := w.getLsbD 125, group := BitVec.ofNat 12 (calFld w 123 112), mask := BitVec.ofNat 12 (calFld w 111 100) }] := by
  unfold State.fireEntry State.pushJob
  simp only [hk, hl, if_true]
  exact ⟨calEntry_setCal _ n _, rfl⟩
/-- An entry of a season floor that lasts. -/
theorem fireEntry_floor (s : State) (n t : Nat) (w : W128) (hk : calFld w 127 126 = 2) (hd : calFld w 111 100 ≠ 0)
    (hl : s.pager.floors.length < 8) :
    (s.fireEntry n w t).calEntry n = calNext w t s.sys.tmA.ns ∧ (s.fireEntry n w t).counted 181 = s.counted 181 + 1 ∧
    (s.fireEntry n w t).pager.floors = s.pager.floors ++ [{
      ef := min 20 (calFld w 125 121), ifl := min 20 (calFld w 120 116), kx := w.getLsbD 115,
      ends := t + calFld w 111 100 * 1000000000 }] := by
  have hl' : (s.evt 181 1).pager.floors.length < 8 := hl
  unfold State.fireEntry State.fireSeason State.addFloor
  simp only [hk, hd, hl', if_true, if_false, show ¬ (2 : Nat) = 1 by decide]
  exact ⟨calEntry_setCal _ n _, counted_evt s 181 1, rfl⟩

/-- Settles O28: the one entry that is due, by its kind, and the floors that are kept. -/
theorem calendarFires : Obligations.CalendarFires := by
  unfold Obligations.CalendarFires
  refine ⟨fun n t w s hv hu hc hd ht hk hl => ?_, fun n t w s hv hu hc hd ht hk hz hl => ?_, fun s hv => ?_, fun s hv => ?_⟩
  · exact ⟨_, exec_calendarFire s n t w hv hu hc hd ht, fireEntry_job s.begin n t w hk hl⟩
  · exact ⟨_, exec_calendarFire s n t w hv hu hc hd ht, fireEntry_floor s.begin n t w hk hz hl⟩
  · change execSeasonFloorEnd s = _
    unfold execSeasonFloorEnd
    simp only [show s.begin.sys.tmA.vld = true from hv, if_true]
    rfl
  · change execSeasonFloorEnd s = _
    unfold execSeasonFloorEnd
    simp only [show s.begin.sys.tmA.vld = false from hv, Bool.false_eq_true, if_false]
    rfl

end Sys2Proof.Machine
end

section
/-! PROOFS. Retirement of a Solstice, the stall of an Equinox and the end of a drain (R150, R206, R211). -/
namespace Sys2Proof.Machine

/-! ### Retirement -/

theorem told_acc (s : State) (c : Bool) (f : Pair → Pair) : (s.when c (·.modPair f)).cnt.acc = s.cnt.acc :=
  when_keeps (fun s => s.cnt.acc) (fun s => s.modPair f) (fun _ => rfl) c s
theorem slotChanged_acc (s : State) (e : Nat) (b : Bool) : (s.slotChanged e b).cnt.acc = s.cnt.acc := by
  have hexp (s : State) (x : Nat) : (s.unexpose x b).cnt.acc = s.cnt.acc := told_acc s _ _
  unfold State.slotChanged
  split
  · next en _ =>
    have hw (c : Bool) : (s.when c (·.unexpose en.chix b)).cnt.acc = s.cnt.acc :=
      when_keeps (fun s => s.cnt.acc) (fun s => s.unexpose en.chix b) (fun s => hexp s _) c s
    dsimp only
    split
    · exact (told_acc _ _ _).trans (hw _)
    · exact hw _
  · rfl
theorem eqxLog_counted (s : State) (k x : Nat) (b : Bool) (an : BitVec 2) (t n : Nat) (hn : n ≠ 151) :
    (s.eqxLog k x b an t).counted n = s.counted n := by
  unfold State.eqxLog
  split
  · rfl
  · exact (counted_evt_ne _ 151 1 n hn).trans (counted_acc _ _ n rfl)
/-- The slot of a retirement, and its count. -/
theorem retire_slot (s : State) (e : Nat) (en : Entry) (q : Sol) (he : s.entry e = some en) :
    (s.retire e q).slot (vslotOf e q.slotB) = { s.slot (vslotOf e q.slotB) with retired := true, retAt := q.val } ∧
    (s.retire e q).counted 150 = s.counted 150 + 1 := by
  let v := vslotOf e q.slotB
  let a := s.modSlot v (fun x => { x with retired := true, retAt := q.val })
  let b := (a.modEntry e (fun x => { x with sol := none })).evt 150 1
  let c := b.eqxLog 5 en.chix q.slotB (b.slot v).an q.val
  let d := c.mirrorSched (schedItem en.chix q.slotB 4 q.mode.code 0 false (c.slot v)
      (beBytes 6 (nsSec q.val) ++ beBytes 4 (nsNs q.val)))
  have hr : s.retire e q = d.slotChanged e q.slotB := by
    unfold State.retire
    rw [he]
  obtain ⟨-, -, hcs, -⟩ := eqxLog_keeps b 5 en.chix q.slotB (b.slot v).an q.val
  have hch : (d.slotChanged e q.slotB).ch = c.ch := (slotChanged_ch d e q.slotB).trans (mirrorSched_ch c _)
  rw [hr]
  constructor
  · rw [slot_of_ch _ _ v hch, slot_of_slots b c v hcs]
    exact slot_modSlot s v (fun x => { x with retired := true, retAt := q.val })
  · calc (d.slotChanged e q.slotB).counted 150
      _ = c.counted 150 := counted_acc _ _ _ ((slotChanged_acc d e q.slotB).trans (told_acc c _ _))
      _ = b.counted 150 := eqxLog_counted b _ _ _ _ _ 150 (by decide)
      _ = s.counted 150 + 1 := (counted_evt (a.modEntry e (fun x => { x with sol := none })) 150 1).trans rfl

/-! ### The end of a drain -/

theorem keywDone_outs (s : State) (code gen : Nat) : (s.keywDone code gen).pager.outs = s.pager.outs := by
  unfold State.keywDone
  extract_lets op a b
  have ha : a.pager = s.pager := by
    simp only [a]
    split
    · exact forEach_keeps State.pager (fun s i => s.setCfg .keyw (0x100 + 4 * i) 0) (fun _ _ => rfl) _ s
    · rfl
  have hb : b.pager = a.pager := when_keeps State.pager (fun s => s.evt (80 + code) 1) (fun _ => rfl) _ a
  exact (congrArg Pager.outs (hb.trans ha) :)
/-- A slot whose material is to go and that no frame holds is cleared, whatever command waits for it. -/
theorem settleSlot_cleared (s : State) (e : Nat) (b : Bool) (en : Entry) (he : s.entry e = some en)
    (hst : (s.slot (vslotOf e b)).st = .erased) (hcl : (s.slot (vslotOf e b)).clearing = true)
    (hh : s.holders (vslotOf e b) (s.slot (vslotOf e b)).gen = false) :
    (s.settleSlot e b).slot (vslotOf e b) = { (s.slot (vslotOf e b)).cleared with gen := (s.slot (vslotOf e b)).gen + 1 } ∧
    (s.settleSlot e b).pager.outs = s.pager.outs := by
  let v := vslotOf e b
  let a := (s.modSlot v (fun o => { o.cleared with gen := o.gen + 1 })).slotChanged e b
  have hun : ¬ ((s.slot v).unsettled = false ∨ s.holders v (s.slot v).gen = true) := by
    unfold Slot.unsettled
    rw [hcl, hh, Bool.or_true]
    decide
  have hsl : a.slot v = { (s.slot v).cleared with gen := (s.slot v).gen + 1 } :=
    (slot_of_ch _ _ v (slotChanged_ch _ e b)).trans (slot_modSlot s v _)
  have hpager : a.pager = s.pager :=
    (congrArg (·.1) (slotChanged_stay (s.modSlot v (fun o => { o.cleared with gen := o.gen + 1 })) e b) :)
  have hrun : s.settleSlot e b = a.when (a.keywOn en.chix b) (fun s => s.keywDone 0 (s.slot v).gen.toNat) := by
    unfold State.settleSlot
    simp only [he]
    rw [if_neg hun, if_neg (by rw [hst]; decide)]
  rw [hrun]
  constructor
  · refine (slot_of_ch a _ v ?_).trans hsl
    exact when_keeps State.ch (fun s => s.keywDone 0 (s.slot v).gen.toNat) (fun s => (keywDone_keyx s 0 _).2) _ a
  · refine Eq.trans ?_ (congrArg Pager.outs hpager)
    exact when_keeps (fun s => s.pager.outs) (fun s => s.keywDone 0 (s.slot v).gen.toNat) (fun s => keywDone_outs s 0 _) _ a
theorem outTry_none (s : State) (x : Nat) (h : s.pageOut x = none) : s.outTry x = s := by
  unfold State.outTry
  rw [h]

/-- Settles O29: the retirement, the stalled Equinox, and the cleared slot. -/
theorem keyChangesEnd : Obligations.KeyChangesEnd := by
  unfold Obligations.KeyChangesEnd
  refine ⟨fun x e en q s hr he hq hd => ?_, fun x e en q s hr he hq hdef hst => ?_, fun x b e en s hr he hst hcl hh ho => ?_⟩
  · have hrun : exec (.solsticeRetire x) s = .next (s.begin.retire e q) := by
      change execSolsticeRetire x s = _
      unfold execSolsticeRetire
      simp only [show s.begin.resident x.toNat = some e from hr, show s.begin.entry e = some en from he, hq,
        show s.begin.solDue q = true from hd, if_true]
    obtain ⟨hent, -, -, -⟩ := retire_effect s.begin e en q he
    obtain ⟨hslot, hcnt⟩ := retire_slot s.begin e en q he
    exact ⟨_, hrun, hent, hslot, hcnt⟩
  · obtain ⟨t, ht⟩ : ∃ t, t = s.begin.modEntry e (fun x => { x with eqx := some { q with stalled := true } }) := ⟨_, rfl⟩
    have hent : t.entry e = some { en with eqx := some { q with stalled := true } } := by
      rw [ht, entry_modEntry, show s.begin.entry e = some en from he]
      rfl
    have hgo : (q.deferred && !q.stalled) = true := by
      rw [hdef, hst]
      rfl
    have hrun : exec (.eqxStall x) s = .next ((t.setFlag .glb 0x50 2).evt 148 1) := by
      change execEqxStall x s = _
      unfold execEqxStall
      simp only [show s.begin.resident x.toNat = some e from hr, show s.begin.entry e = some en from he, hq, hgo, if_true,
        ← ht]
    refine ⟨_, hrun, hent, flag_setFlag t .glb 0x50 2 (by decide), ?_⟩
    refine (counted_evt (t.setFlag .glb 0x50 2) 148 1).trans ?_
    rw [ht]
    rfl
  · obtain ⟨hslot, houts⟩ := settleSlot_cleared s.begin e b en he hst hcl hh
    have hpo : (s.begin.settleSlot e b).pageOut x.toNat = none := by
      unfold State.pageOut
      rw [houts]
      exact ho
    have hrun : exec (.slotDrainDone x b) s = .next (s.begin.settleSlot e b).settle := by
      change execSlotDrainDone x b s = _
      unfold execSlotDrainDone
      simp only [show s.begin.resident x.toNat = some e from hr, outTry_none _ _ hpo]
    exact ⟨_, hrun, hslot⟩

end Sys2Proof.Machine
end

section
/-! PROOFS. MARCH: its commands, key generation and walk (R256 to R261, R264). -/
namespace Sys2Proof.Machine

/-! ### A write of MARCH_CMD -/

/-- A write of MARCH_CMD is answered. -/
def State.marchTaken (s : State) : State := s.begin.emit (.cpDone false)
/-- MARCH_RESULT as a command leaves it. -/
def State.marchSays (t : State) (op code : Nat) : State := t.setRo .march 0x9C (atPos code 24 ||| atPos (op % 256) 16)
theorem marchStart_run (s t : State) (op code : Nat) (hop : op ∈ [1, 2, 3, 4, 5, 6]) (hf : s.free .march = true)
    (h : s.marchTaken.marchRun op = (t, code)) : s.begin.marchStart op = (t.marchSays op code).settle := by
  have hfb : s.begin.free .march = true := hf
  have hthrough : s.begin.marchStart op = s.marchTaken.marchCmd op := by
    unfold State.marchStart
    simp only [List.mem_cons, List.not_mem_nil, or_false] at hop
    rcases hop with rfl | rfl | rfl | rfl | rfl | rfl <;>
      exact through_plain s.begin .march 0x98 _ _ _ rfl hfb (by decide) rfl rfl rfl rfl
  rw [hthrough]
  unfold State.marchCmd
  rw [h]
  rfl
theorem marchSays_roW (t : State) (op code : Nat) : (t.marchSays op code).roW .march 0x9C = (atPos code 24 ||| atPos (op % 256) 16) :=
  roW_setRo _ _ _ _

/-! ### The table of the commands -/

/-- With MARCH held every command is refused. -/
theorem marchRun_held (s : State) (op : Nat) (h : s.held .march = true) (h1 : 1 ≤ op) (h6 : op ≤ 6) : s.marchRun op = (s, 0x40) := by
  unfold State.marchRun
  simp only [h, h1, h6, decide_true, Bool.and_self, if_true]
theorem marchRun_start (s : State) (f l : Nat) (hh : s.held .march = false) (hst : s.store.march.st = .idle)
    (hsp : s.store.march.split = false) (hs : s.marchSpan = some (f, l))
    (hk : (s.keySel (fld (s.cfg .march 0x80) 11 0)).seed.isSome = true) :
    s.marchRun 1 = (s.modMarch (fun m => { m with
      st := .keygen, tgt := fld (s.cfg .march 0x80) 11 0, first := f, last := l, bound := f, hwm := f, rekeyed := [], flight := [],
      redo := [], reason := 0, failed := none }), 0) := by
  have hn : (s.keySel (fld (s.cfg .march 0x80) 11 0)).seed.isNone = false := by
    rw [← Option.not_isSome, hk]
    rfl
  unfold State.marchRun
  simp only [hh, hs, hsp, hst, hn, Bool.false_and, Bool.false_eq_true, if_false, if_true, reduceCtorEq, false_and, ne_eq, not_true]
theorem marchRun_noSpan (s : State) (hh : s.held .march = false) (hs : s.marchSpan = none) : s.marchRun 1 = (s, 0x02) := by
  unfold State.marchRun
  simp only [hh, hs, Bool.false_and, Bool.false_eq_true, if_false, if_true]
theorem marchRun_pause (s : State) (hh : s.held .march = false) (hst : s.store.march.st = .run)
    (hs : s.store.march.stopping = false) : s.marchRun 2 = ((s.modMarch (fun m => { m with pausing := true })).marchSettle, 0) := by
  unfold State.marchRun
  simp only [hh, hst, hs, Bool.false_and, Bool.false_eq_true, if_false, true_and, if_true, show ¬ (2 : Nat) = 1 by decide]
theorem marchRun_resume (s : State) (hh : s.held .march = false) (hst : s.store.march.st = .paused) :
    s.marchRun 3 = (s.modMarch (fun m => { m with st := .run }), 0) := by
  unfold State.marchRun
  simp only [hh, hst, Bool.false_and, Bool.false_eq_true, if_false, if_true, show ¬ (3 : Nat) = 1 by decide,
    show ¬ (3 : Nat) = 2 by decide]
theorem marchRun_retry (s : State) (k : Nat) (hh : s.held .march = false) (hst : s.store.march.st = .halted)
    (hs : s.store.march.stopping = false) (hk : s.store.march.failed = some k) :
    s.marchRun 4 = ((s.modMarch (fun m => { m with
      st := .run, reason := 0, failed := none, flight := insNat m.flight k, redo := insNat m.redo k })).storeRead k
        s.store.march.tgt .march, 0) := by
  unfold State.marchRun
  simp only [hh, hst, hs, hk, Bool.false_and, Bool.false_eq_true, if_false, if_true, true_and, show ¬ (4 : Nat) = 1 by decide,
    show ¬ (4 : Nat) = 2 by decide, show ¬ (4 : Nat) = 3 by decide]
theorem marchRun_zero (s : State) (k : Nat) (hh : s.held .march = false) (hst : s.store.march.st = .halted)
    (hs : s.store.march.stopping = false) (hk : s.store.march.failed = some k) :
    s.marchRun 5 = ((((s.modMarch (fun m => { m with
      st := .run, reason := 0, failed := none, flight := insNat m.flight k })).storeWrite k s.store.march.tgt .march
        (zeros 64)).setFlag .march 0x40 3).evt 203 1, 0) := by
  unfold State.marchRun
  simp only [hh, hst, hs, hk, Bool.false_and, Bool.false_eq_true, if_false, if_true, true_and, show ¬ (5 : Nat) = 1 by decide,
    show ¬ (5 : Nat) = 2 by decide, show ¬ (5 : Nat) = 3 by decide, show ¬ (5 : Nat) = 4 by decide]
theorem marchRun_stop (s : State) (hh : s.held .march = false) (hst : s.store.march.st ∈ [MState.run, .paused, .halted]) :
    s.marchRun 6 = ((s.modMarch (fun m => { m with stopping := true })).marchSettle, 0) := by
  simp only [List.mem_cons, List.not_mem_nil, or_false] at hst
  unfold State.marchRun
  simp only [hh, hst, Bool.false_and, Bool.false_eq_true, if_false, if_true, show ¬ (6 : Nat) = 1 by decide,
    show ¬ (6 : Nat) = 2 by decide, show ¬ (6 : Nat) = 3 by decide, show ¬ (6 : Nat) = 4 by decide, show ¬ (6 : Nat) = 5 by decide]
/-- In IDLE, KEYGEN and STOPPED the commands but START are refused. -/
theorem marchRun_refused (s : State) (op : Nat) (hop : op ∈ [2, 3, 4, 5, 6])
    (hst : s.store.march.st ∈ [MState.idle, .keygen, .stopped]) : s.marchRun op = (s, 0x40) := by
  have hne : s.store.march.st ≠ .run ∧ s.store.march.st ≠ .paused ∧ s.store.march.st ≠ .halted := by
    simp only [List.mem_cons, List.not_mem_nil, or_false] at hst
    rcases hst with h | h | h <;> rw [h] <;> decide
  obtain ⟨hr, hp, hh⟩ := hne
  simp only [List.mem_cons, List.not_mem_nil, or_false] at hop
  by_cases hheld : s.held .march = true
  · exact marchRun_held s op hheld (by omega) (by omega)
  · unfold State.marchRun
    rcases hop with rfl | rfl | rfl | rfl | rfl <;>
      simp only [hheld, hr, hp, hh, Bool.false_and, false_and, or_self, if_false, if_true, reduceCtorEq, Nat.reduceEqDiff,
        OfNat.ofNat_ne_one, Nat.reduceLeDiff, decide_true]

/-! ### PAUSE and STOP take effect at once, or wait -/

theorem marchSettle_pause (s : State) (hs : s.store.march.stopping = false) :
    (s.modMarch (fun m => { m with pausing := true })).marchSettle.store.march =
      if s.store.march.bound = s.store.march.hwm then { s.store.march with st := .paused, pausing := false }
      else { s.store.march with pausing := true } := by
  have hstop : (s.modMarch (fun m => { m with pausing := true })).store.march.stopping = false := hs
  unfold State.marchSettle
  simp only [hstop, Bool.false_eq_true, and_false, if_false]
  by_cases hb : s.store.march.bound = s.store.march.hwm
  · have hb' : (s.modMarch (fun m => { m with pausing := true })).store.march.bound =
        (s.modMarch (fun m => { m with pausing := true })).store.march.hwm ∧
        (s.modMarch (fun m => { m with pausing := true })).store.march.pausing = true := ⟨hb, rfl⟩
    rw [if_pos hb, if_pos hb']
    rfl
  · have hb' : ¬ ((s.modMarch (fun m => { m with pausing := true })).store.march.bound =
        (s.modMarch (fun m => { m with pausing := true })).store.march.hwm ∧
        (s.modMarch (fun m => { m with pausing := true })).store.march.pausing = true) := fun h => hb h.1
    rw [if_neg hb, if_neg hb']
    rfl
theorem marchSettle_stop (s : State) (hf : s.store.march.flight = []) :
    (s.modMarch (fun m => { m with stopping := true })).marchSettle.store.march =
      { s.store.march with st := .stopped, reason := 0, failed := none, stopping := false, pausing := false } := by
  have h : (s.modMarch (fun m => { m with stopping := true })).store.march.flight.isEmpty = true ∧
      (s.modMarch (fun m => { m with stopping := true })).store.march.stopping = true := by
    refine ⟨?_, rfl⟩
    rw [show (s.modMarch (fun m => { m with stopping := true })).store.march.flight = s.store.march.flight from rfl, hf]
    rfl
  unfold State.marchSettle
  simp only [h, and_self, if_true]
  rfl

/-! ### Key generation and the walk -/

theorem marchKeygen_done (s : State) (w : W128) (rest : List W128) (hst : s.store.march.st = .keygen) (hd : s.domUp 45 = true)
    (hs : s.seedsFree = w :: rest) (hi : s.domainsIdle = true) :
    exec .marchKeygenDone s = .next ((s.begin.dropSeeds 1).modMarch
      (fun m => { m with st := .run, split := true, nextSeed := some w })) := by
  have hgo : s.begin.store.march.st = .keygen ∧ s.begin.domUp 45 = true := ⟨hst, hd⟩
  have hk : s.begin.marchKeygen = (s.begin.dropSeeds 1).modMarch (fun m => { m with st := .run, split := true, nextSeed := some w }) := by
    unfold State.marchKeygen
    simp only [show s.begin.seedsFree = w :: rest from hs]
  change execMarchKeygenDone s = _
  unfold execMarchKeygenDone
  simp only [hgo, and_self, if_true, hk]
  exact congrArg Host.Outcome.next (pmPump_idle _ hi)
theorem marchLineIssue_next (s : State) (k : Nat) (hst : s.store.march.st = .run) (hs : s.store.march.stopping = false)
    (hr : s.marchRate ≠ 0) (hd : s.domUp 45 = true) (hh : s.held .march = false) (h1 : s.resetOn .march = false)
    (h2 : s.resetOn .store = false) (hn : s.store.march.nextLine = some k) :
    exec .marchLineIssue s = .next ((s.begin.modMarch (fun m => { m with
      hwm := max m.hwm (k + 1), flight := insNat m.flight k,
      redo := if k < m.hwm then insNat m.redo k else m.redo })).storeRead k s.store.march.tgt .march).settle := by
  have hgo : (decide (s.begin.store.march.st = .run) && !s.begin.store.march.stopping && decide (s.begin.marchRate ≠ 0) &&
      s.begin.domUp 45 && !s.begin.held .march && !s.begin.resetOn .march && !s.begin.resetOn .store) = true := by
    rw [show s.begin.store.march.st = .run from hst, show s.begin.store.march.stopping = false from hs,
      show s.begin.domUp 45 = true from hd, show s.begin.held .march = false from hh, show s.begin.resetOn .march = false from h1,
      show s.begin.resetOn .store = false from h2, decide_eq_true (show s.begin.marchRate ≠ 0 from hr)]
    rfl
  have hi : s.begin.marchIssue = (s.begin.modMarch (fun m => { m with
      hwm := max m.hwm (k + 1), flight := insNat m.flight k,
      redo := if k < m.hwm then insNat m.redo k else m.redo })).storeRead k s.store.march.tgt .march := by
    unfold State.marchIssue
    simp only [show s.begin.store.march.nextLine = some k from hn]
    rfl
  change execMarchLineIssue s = _
  unfold execMarchLineIssue
  simp only [hgo, if_true, hi]

/-! ### The obligation -/

/-- A command is answered by what its row of the table says. -/
theorem march_answered (s t : State) (op code : Nat) (hop : op ∈ [1, 2, 3, 4, 5, 6]) (hf : s.free .march = true)
    (h : s.marchTaken.marchRun op = (t, code)) : ∃ u : State, s.begin.marchStart op = u.settle ∧
      u.roW .march 0x9C = (atPos code 24 ||| atPos (op % 256) 16) ∧ u.store = t.store ∧
      u.counted 203 = t.counted 203 ∧ u.flag .march 0x40 3 = t.flag .march 0x40 3 :=
  ⟨t.marchSays op code, marchStart_run s t op code hop hf h, marchSays_roW t op code, rfl, rfl, rfl⟩
theorem exec_marchOp (s u : State) (op : Nat) (c : Instr) (hc : (c, op) ∈ [(Instr.marchStart, 1), (.marchPause, 2), (.marchResume, 3),
    (.marchRetry, 4), (.marchZero, 5), (.marchStop, 6)]) (h : s.begin.marchStart op = u) : exec c s = .next u := by
  subst h
  simp only [List.mem_cons, Prod.mk.injEq, List.not_mem_nil, or_false] at hc
  rcases hc with ⟨rfl, rfl⟩ | ⟨rfl, rfl⟩ | ⟨rfl, rfl⟩ | ⟨rfl, rfl⟩ | ⟨rfl, rfl⟩ | ⟨rfl, rfl⟩ <;> rfl

/-- A command that is refused with 0x40. -/
theorem marchOp_refused (s : State) (p : Instr × Nat) (hp : p ∈ [(Instr.marchStart, 1), (.marchPause, 2), (.marchResume, 3),
    (.marchRetry, 4), (.marchZero, 5), (.marchStop, 6)]) (hf : s.free .march = true)
    (h : s.marchTaken.marchRun p.2 = (s.marchTaken, 0x40)) :
    ∃ u : State, exec p.1 s = .next u.settle ∧ u.roW .march 0x9C = (atPos 0x40 24 ||| atPos p.2 16) ∧ u.store = s.store := by
  have hop : p.2 ∈ [1, 2, 3, 4, 5, 6] := List.mem_map_of_mem (f := Prod.snd) hp
  have hmod : p.2 % 256 = p.2 := by
    simp only [List.mem_cons, List.not_mem_nil, or_false] at hop
    omega
  obtain ⟨u, hrun, hro, hstore, -⟩ := march_answered s _ p.2 0x40 hop hf h
  rw [hmod] at hro
  exact ⟨u, exec_marchOp s _ p.2 p.1 hp hrun, hro, hstore⟩

/-- Settles O31: each row of the table of the commands, key generation and the walk. -/
theorem marchWorks : Obligations.MarchWorks := by
  unfold Obligations.MarchWorks
  refine ⟨fun w rest s hst hd hs hi => marchKeygen_done s w rest hst hd hs hi,
    fun k s hst hs hr hd hh h1 h2 hn => marchLineIssue_next s k hst hs hr hd hh h1 h2 hn,
    fun f l s hf hh hst hsp hs hk => ?_, fun s hf hh hs => ?_, fun s hf hh hst hs => ?_, fun s hf hh hst => ?_,
    fun k s hf hh hst hs hk => ⟨?_, ?_⟩, fun s hf hh hst hfl => ?_, fun s hf hst p hp => ?_, fun s hf hh p hp => ?_⟩
  · obtain ⟨u, hrun, hro, hstore, -⟩ := march_answered s _ 1 0 (by decide) hf (marchRun_start s.marchTaken f l hh hst hsp hs hk)
    exact ⟨u, exec_marchOp s _ 1 _ (by decide) hrun, hro, congrArg Store.march hstore⟩
  · obtain ⟨u, hrun, hro, hstore, -⟩ := march_answered s _ 1 2 (by decide) hf (marchRun_noSpan s.marchTaken hh hs)
    exact ⟨u, exec_marchOp s _ 1 _ (by decide) hrun, hro, hstore⟩
  · obtain ⟨u, hrun, hro, hstore, -⟩ := march_answered s _ 2 0 (by decide) hf (marchRun_pause s.marchTaken hh hst hs)
    exact ⟨u, exec_marchOp s _ 2 _ (by decide) hrun, hro, (congrArg Store.march hstore).trans (marchSettle_pause s.marchTaken hs)⟩
  · obtain ⟨u, hrun, hro, hstore, -⟩ := march_answered s _ 3 0 (by decide) hf (marchRun_resume s.marchTaken hh hst)
    exact ⟨u, exec_marchOp s _ 3 _ (by decide) hrun, hro, congrArg Store.march hstore⟩
  · obtain ⟨u, hrun, hro, hstore, -⟩ := march_answered s _ 4 0 (by decide) hf (marchRun_retry s.marchTaken k hh hst hs hk)
    exact ⟨u, exec_marchOp s _ 4 _ (by decide) hrun, hro, congrArg Store.march hstore, congrArg Store.wait hstore⟩
  · obtain ⟨u, hrun, hro, hstore, hcnt, hflag⟩ := march_answered s _ 5 0 (by decide) hf (marchRun_zero s.marchTaken k hh hst hs hk)
    refine ⟨u, exec_marchOp s _ 5 _ (by decide) hrun, hro, congrArg Store.march hstore, hflag.trans ?_, hcnt.trans ?_,
      congrArg Store.wait hstore⟩
    · exact flag_setFlag _ .march 0x40 3 (by decide)
    · exact counted_evt _ 203 1
  · obtain ⟨u, hrun, hro, hstore, -⟩ := march_answered s _ 6 0 (by decide) hf (marchRun_stop s.marchTaken hh hst)
    exact ⟨u, exec_marchOp s _ 6 _ (by decide) hrun, hro, (congrArg Store.march hstore).trans (marchSettle_stop s.marchTaken hfl)⟩
  · have hop : p.2 ∈ [2, 3, 4, 5, 6] := List.mem_map_of_mem (f := Prod.snd) hp
    exact marchOp_refused s p (List.mem_cons_of_mem _ hp) hf (marchRun_refused s.marchTaken p.2 hop hst)
  · have hop : p.2 ∈ [1, 2, 3, 4, 5, 6] := List.mem_map_of_mem (f := Prod.snd) hp
    simp only [List.mem_cons, List.not_mem_nil, or_false] at hop
    exact marchOp_refused s p hp hf (marchRun_held s.marchTaken p.2 hh (by omega) (by omega))

end Sys2Proof.Machine
end

section
/-! PROOFS. The season governor: what its requests, wakes and evaluations change, and the statement about its evaluations,
surges and domains (R52, R277 to R291). -/
namespace Sys2Proof.Machine

/-! ### Records of domains and slices -/

theorem dom_modDom (s : State) (d : Nat) (f : Dom → Dom) : (s.modDom d f).dom d = f (s.dom d) := Tab.get_modify _ _ _ _
theorem dom_modDom_ne (s : State) (d e : Nat) (f : Dom → Dom) (h : e ≠ d) : (s.modDom d f).dom e = s.dom e :=
  Tab.get_modify_ne _ _ _ _ _ h
theorem sl_modSl (s : State) (n : Nat) (f : Slice → Slice) : (s.modSl n f).sl n = f (s.sl n) := Tab.get_modify _ _ _ _
theorem sl_modSl_ne (s : State) (n k : Nat) (f : Slice → Slice) (h : k ≠ n) : (s.modSl n f).sl k = s.sl k :=
  Tab.get_modify_ne _ _ _ _ _ h
theorem dom_of_pwr (s t : State) (d : Nat) (h : t.pwr = s.pwr) : t.dom d = s.dom d := by
  unfold State.dom
  rw [h]
theorem sl_of_slices (s t : State) (n : Nat) (h : t.slices = s.slices) : t.sl n = s.sl n := by
  unfold State.sl
  rw [h]
theorem isSliceDom_slice (n : Nat) (h : n < 40) : isSliceDom (n + 4) = true := by
  unfold isSliceDom
  simp only [Bool.and_eq_true, decide_eq_true_eq]
  omega
theorem isSliceDom_range {d : Nat} (h : isSliceDom d = true) : 4 ≤ d ∧ d < 44 := by
  unfold isSliceDom at h
  simpa only [Bool.and_eq_true, decide_eq_true_eq] using h
theorem govDoms_not_slice {d : Nat} (h : d ∈ govDoms) : isSliceDom d = false := by
  revert d
  decide

/-! ### What requests and wakes leave alone -/

/-- A state without its outputs, its counters, the records of slices and domains, and the holders of the reserve role. -/
def State.still (s : State) : State := { s with
  out := [], cnt := {}, slices := { s.slices with sl := [], rsvE := [], rsvI := [] }, pwr := { s.pwr with dom := [] } }
/-- The counts other than those of wakes, sleeps and waits for seed words. -/
def State.otherCounts (s : State) (n : Nat) : Nat := if n ∈ [176, 177, 178, 186] then 0 else s.counted n
/-- What requests to the power manager and wakes of slices leave alone. -/
def State.unpowered (s : State) : State × (Nat → Nat) := (s.still, s.otherCounts)
theorem modDom_unpowered (s : State) (d : Nat) (f : Dom → Dom) : (s.modDom d f).unpowered = s.unpowered := rfl
theorem modSl_unpowered (s : State) (n : Nat) (f : Slice → Slice) : (s.modSl n f).unpowered = s.unpowered := rfl
theorem emit_unpowered (s : State) (e : Emit) : (s.emit e).unpowered = s.unpowered := rfl
theorem setRsv_unpowered (s : State) (ing : Bool) (l : NatSet) : (s.setRsv ing l).unpowered = s.unpowered := by
  cases ing <;> rfl
theorem evt_unpowered (s : State) (n k : Nat) (h : n ∈ [176, 177, 178, 186]) : (s.evt n k).unpowered = s.unpowered := by
  refine Prod.ext rfl (funext fun m => ?_)
  show (s.evt n k).otherCounts m = s.otherCounts m
  unfold State.otherCounts
  by_cases hm : m = n
  · rw [hm, if_pos h, if_pos h]
  · rw [counted_evt_ne _ _ _ _ hm]
theorem when_unpowered (s : State) (c : Bool) (f : State → State) (h : (f s).unpowered = s.unpowered) :
    (s.when c f).unpowered = s.unpowered := by
  cases c
  · rfl
  · exact h
theorem counted_of_unpowered (s t : State) (n : Nat) (hn : n ∉ [176, 177, 178, 186]) (h : t.unpowered = s.unpowered) :
    t.counted n = s.counted n := by
  have hc : t.otherCounts n = s.otherCounts n := congrFun (congrArg Prod.snd h :) n
  unfold State.otherCounts at hc
  rwa [if_neg hn, if_neg hn] at hc
theorem pmIssue_unpowered (s : State) (d : Nat) (op : PmOp) : (s.pmIssue d op).unpowered = s.unpowered := by
  unfold State.pmIssue
  dsimp only
  split
  · split
    · rw [evt_unpowered _ _ _ (by decide), modSl_unpowered, emit_unpowered, modDom_unpowered]
    · rw [evt_unpowered _ _ _ (by decide), modDom_unpowered, emit_unpowered, modDom_unpowered]
  · rw [emit_unpowered, modDom_unpowered]
theorem pmTry_unpowered (s : State) (d : Nat) (op : PmOp) : (s.pmTry d op).unpowered = s.unpowered := by
  unfold State.pmTry
  dsimp only
  split
  · rfl
  · split
    · exact modDom_unpowered _ _ _
    · split
      · rw [when_unpowered _ _ _ (evt_unpowered _ _ _ (by decide)), modDom_unpowered]
      · exact pmIssue_unpowered _ _ _
theorem rsvReturn_unpowered (s : State) (n : Nat) : (s.rsvReturn n).unpowered = s.unpowered := by
  unfold State.rsvReturn
  dsimp only
  split
  · split
    · rfl
    · exact setRsv_unpowered _ _ _
  · rfl
theorem wakeSlice_unpowered (s : State) (n : Nat) : (s.wakeSlice n).unpowered = s.unpowered := by
  unfold State.wakeSlice
  split
  · exact when_unpowered _ _ _ (pmTry_unpowered _ _ _)
  · split
    · rfl
    · rw [modDom_unpowered, rsvReturn_unpowered, modSl_unpowered]
  · rfl
theorem wakeSlices_unpowered (s : State) (ing : Bool) (k : Nat) : (s.wakeSlices ing k).unpowered = s.unpowered :=
  forEach_keeps (·.unpowered) (fun s n => s.wakeSlice n) wakeSlice_unpowered _ s
theorem sleepSlice_unpowered (s : State) (n : Nat) : (s.sleepSlice n).unpowered = s.unpowered := by
  unfold State.sleepSlice
  dsimp only
  rw [evt_unpowered _ _ _ (by decide), modSl_unpowered]
theorem rotTry_unpowered (s : State) (n : Nat) : (s.rotTry n).unpowered = s.unpowered := by
  unfold State.rotTry
  split
  · rw [wakeSlice_unpowered, modSl_unpowered]
  · split
    · rfl
    · split <;> rfl

/-! ### What a slice may be woken for -/

/-- What serviceability and a late rotation test read of a slice. -/
def Slice.fit (c : Slice) : Bool × Option Nat :=
  (decide (c.st = .held) || decide (c.st = .faulted) || (decide (c.st = .drain) && c.svcOut), c.postponed)
/-- The same with its domain's availability. -/
def State.fit (s : State) (n : Nat) : (Bool × Option Nat) × Bool := ((s.sl n).fit, (s.dom (n + 4)).unavail)
theorem modSl_fit (s : State) (n k : Nat) (f : Slice → Slice) (h : (f (s.sl n)).fit = (s.sl n).fit) :
    (s.modSl n f).fit k = s.fit k := by
  refine Prod.ext ?_ rfl
  show ((s.modSl n f).sl k).fit = (s.sl k).fit
  by_cases hk : k = n
  · rw [hk, sl_modSl, h]
  · rw [sl_modSl_ne _ _ _ _ hk]
theorem modSl_fit_ne (s : State) (n k : Nat) (f : Slice → Slice) (h : k ≠ n) : (s.modSl n f).fit k = s.fit k :=
  Prod.ext (congrArg Slice.fit (sl_modSl_ne s n k f h)) rfl
theorem modDom_fit (s : State) (d k : Nat) (f : Dom → Dom) (h : (f (s.dom d)).unavail = (s.dom d).unavail) :
    (s.modDom d f).fit k = s.fit k := by
  refine Prod.ext rfl ?_
  show ((s.modDom d f).dom (k + 4)).unavail = (s.dom (k + 4)).unavail
  by_cases hk : k + 4 = d
  · rw [hk, dom_modDom, h]
  · rw [dom_modDom_ne _ _ _ _ hk]
theorem emit_fit (s : State) (e : Emit) (k : Nat) : (s.emit e).fit k = s.fit k := rfl
theorem evt_fit (s : State) (n m k : Nat) : (s.evt n m).fit k = s.fit k := rfl
theorem setRsv_fit (s : State) (ing : Bool) (l : NatSet) (k : Nat) : (s.setRsv ing l).fit k = s.fit k := by
  cases ing <;> rfl
theorem rsvReturn_fit (s : State) (n k : Nat) : (s.rsvReturn n).fit k = s.fit k := by
  unfold State.rsvReturn
  dsimp only
  split
  · split
    · rfl
    · exact setRsv_fit _ _ _ _
  · rfl
/-- A wake is requested of a slice in WINTER only: THAW is as fit. -/
theorem pmTry_wake_fit (s : State) (n k : Nat) (h : (s.sl n).st = .winter) : (s.pmTry (n + 4) .on).fit k = s.fit k := by
  unfold State.pmTry
  dsimp only
  split
  · rfl
  · split
    · exact modDom_fit _ _ _ _ rfl
    · split
      · refine (when_keeps (·.fit k) (·.evt 186 1) (fun _ => rfl) _ _).trans ?_
        exact modDom_fit _ _ _ _ rfl
      · unfold State.pmIssue
        dsimp only
        rw [if_pos (show PmOp.on.wakes = true from rfl)]
        split
        · have hfit : ((s.modDom (n + 4) (fun m => { m with req := some .on, want := none, seedWait := false })).emit
              (.pm (n + 4) .on)).fit k = s.fit k := (emit_fit _ _ _).trans (modDom_fit _ _ _ _ rfl)
          refine (modSl_fit _ _ _ _ ?_).trans hfit
          show ({ s.sl n with st := .thaw } : Slice).fit = (s.sl n).fit
          unfold Slice.fit
          rw [h]
          rfl
        · rw [evt_fit, modDom_fit, emit_fit, modDom_fit] <;> rfl
theorem wakeSlice_fit (s : State) (n k : Nat) : (s.wakeSlice n).fit k = s.fit k := by
  unfold State.wakeSlice
  split
  · next h =>
    cases (s.sl n).svcOut
    · exact pmTry_wake_fit _ _ _ h
    · rfl
  · next h =>
    split
    · rfl
    · rw [modDom_fit _ _ _ _ rfl, rsvReturn_fit, modSl_fit]
      unfold Slice.fit
      rw [h]
      rfl
  · rfl
theorem rotTry_fit (s : State) (n k : Nat) (h : k ≠ n) : (s.rotTry n).fit k = s.fit k := by
  unfold State.rotTry
  split
  · rw [wakeSlice_fit, modSl_fit_ne _ _ _ _ h]
  · split
    · rfl
    · split <;> exact modSl_fit_ne _ _ _ _ h

/-! ### An evaluation -/

/-- The target of a direction reads the registers, the floors, the frames, the time, the blocks issued and the fitness of the
direction's slices. -/
theorem target_of_fit (s t : State) (ing : Bool) (hr : t.regs = s.regs) (hp : t.pager = s.pager) (hd : t.dp = s.dp)
    (hs : t.sys = s.sys) (hi : t.issued ing = s.issued ing) (hf : ∀ k ∈ slicesOf ing, t.fit k = s.fit k) :
    t.target ing = s.target ing := by
  have hsv : ∀ u : State, ∀ k, u.serviceable k = (!(u.fit k).1.1 && !(u.fit k).2) := fun _ _ => rfl
  have hlate : t.rotLate ing = s.rotLate ing := by
    have hone : ∀ u : State, u.rotLate ing = (slicesOf ing).any (fun n => match (u.fit n).1.2 with
      | some a => decide (a + 50000 ≤ u.sys.aoClk)
      | none => false) := fun _ => rfl
    rw [hone, hone, hs]
    rw [Bool.eq_iff_iff, List.any_eq_true, List.any_eq_true]
    exact exists_congr fun k => and_congr_right fun hk => by rw [hf k hk]
  have hcnt : t.serviceableCnt ing = s.serviceableCnt ing := by
    exact congrArg List.length (List.filter_congr fun k hk => by rw [hsv t, hsv s, hf k hk])
  have hany : t.anyPort = s.anyPort := by
    unfold State.anyPort
    congr 1
    funext p
    unfold State.portWanted State.portEn State.cfg State.hdr State.stg
    rw [hr]
  have hfloor : t.sliceFloor ing = s.sliceFloor ing := by
    unfold State.sliceFloor State.cfg
    rw [hr]
  have hutil : t.govUtil = s.govUtil ∧ t.govSpare = s.govSpare := by
    unfold State.govUtil State.govSpare State.cfg
    rw [hr]
    exact ⟨rfl, rfl⟩
  have hcal : t.calFloor ing = s.calFloor ing := by
    unfold State.calFloor
    rw [hp]
  have hq : t.queuedBlocks ing = s.queuedBlocks ing := by
    unfold State.queuedBlocks
    rw [hd]
  unfold State.target
  rw [hlate, hcnt, hany, hfloor, hutil.1, hutil.2, hcal, hq, hi]

/-- A state as an evaluation of a direction leaves it, apart from its record of how long too many slices have been awake. -/
def State.calm (s : State) : State := { s.still with pwr := { s.still.pwr with overE := none, overI := none } }
theorem calm_of_unpowered (s t : State) (h : t.unpowered = s.unpowered) : t.calm = s.calm :=
  congrArg (fun v : State × (Nat → Nat) => { v.1 with pwr := { v.1.pwr with overE := none, overI := none } }) h
theorem setOver_calm (s : State) (ing : Bool) (v : Option Nat) : (s.setOver ing v).calm = s.calm := by cases ing <;> rfl
theorem setOver_fit (s : State) (ing : Bool) (v : Option Nat) (k : Nat) : (s.setOver ing v).fit k = s.fit k := by
  cases ing <;> rfl

/-- The slices that are awake and wanted, and the target: more are woken, or one goes to AUTUMN. -/
def State.govMove (s : State) (ing : Bool) (a goal : Nat) : State :=
  if a < goal then (s.setOver ing none).wakeSlices ing (goal - a)
  else if goal < a then
    let since := (s.over ing).getD s.sys.aoClk
    let s := s.setOver ing (some since)
    if since + s.govHold ≤ s.sys.aoClk ∧ s.govEn then
      match s.sleepPick ing with
      | some n => s.sleepSlice n
      | none => s
    else s
  else s.setOver ing none
/-- The wakes that an earlier evaluation left wanted. -/
def State.unwant (s : State) (l : List Nat) : State :=
  s.forEach l (fun s n => s.modDom (n + 4) (fun m => if m.want = some .on then { m with want := none } else m))
/-- The waits for seed words of slices that are not wanted. -/
def State.unwait (s : State) (l : List Nat) : State :=
  s.forEach l (fun s n => s.modDom (n + 4) (fun m => if m.want = none then { m with seedWait := false } else m))
/-- The target as an evaluation sets it. -/
def State.retarget (s : State) (ing : Bool) : State :=
  s.modPwr (fun p => if ing then { p with targetI := s.target ing } else { p with targetE := s.target ing })
/-- The holders of the reserve role are woken while a port is enabled. -/
def State.holdersUp (s : State) (ing : Bool) : State :=
  s.when s.anyPort (fun s => s.forEach (s.rsv ing) (fun s n => s.wakeSlice n))
/-- The issue count of a direction begins anew. -/
def State.clearIssued (s : State) (ing : Bool) : State :=
  s.modSlices (fun c => if ing then { c with issuedI := 0 } else { c with issuedE := 0 })
theorem govDir_parts (s : State) (ing : Bool) : ∃ (l m : List Nat) (a goal : Nat), (∀ n ∈ m, n ∈ slicesOf ing) ∧
    s.govDir ing = ((((((s.retarget ing).unwant l).holdersUp ing).govMove ing a goal).unwait (slicesOf ing)).forEach m
      (fun s n => s.rotTry n)).clearIssued ing :=
  ⟨_, _, _, _, fun _ hn => List.mem_of_mem_filter hn, rfl⟩

/-- The slice that is sent to AUTUMN is one of the direction. -/
theorem sleepPick_mem (s : State) (ing : Bool) (n : Nat) (h : s.sleepPick ing = some n) : n ∈ slicesOf ing := by
  have hpick : ∀ (l : List Nat) (b : Option Nat), l.foldl (fun b n => match b with
      | none => some n
      | some k => if s.slQueue n ≤ s.slQueue k then some n else some k) b = some n → b = some n ∨ n ∈ l := by
    intro l
    induction l with
    | nil => exact fun b hb => .inl hb
    | cons a l ih =>
      intro b hb
      rcases ih _ hb with hstep | hin
      · cases b with
        | none => exact .inr (Option.some.inj hstep ▸ List.mem_cons_self)
        | some k =>
          dsimp only at hstep
          split at hstep
          · exact .inr (Option.some.inj hstep ▸ List.mem_cons_self)
          · exact .inl hstep
      · exact .inr (List.mem_cons_of_mem _ hin)
  rcases hpick _ none h with hnone | hin
  · cases hnone
  · exact List.mem_of_mem_filter hin
theorem govMove_calm (s : State) (ing : Bool) (a goal : Nat) : (s.govMove ing a goal).calm = s.calm := by
  unfold State.govMove
  split
  · rw [calm_of_unpowered _ _ (wakeSlices_unpowered _ _ _), setOver_calm]
  · split
    · dsimp only
      split
      · split
        · rw [calm_of_unpowered _ _ (sleepSlice_unpowered _ _), setOver_calm]
        · exact setOver_calm _ _ _
      · exact setOver_calm _ _ _
    · exact setOver_calm _ _ _
theorem sleepSlice_fit_ne (s : State) (n k : Nat) (h : k ≠ n) : (s.sleepSlice n).fit k = s.fit k :=
  modSl_fit_ne s n k _ h
theorem govMove_fit (s : State) (ing : Bool) (a goal k : Nat) (hk : k ∉ slicesOf ing) :
    (s.govMove ing a goal).fit k = s.fit k := by
  unfold State.govMove
  split
  · exact (forEach_keeps (·.fit k) (fun s n => s.wakeSlice n) (fun s n => wakeSlice_fit s n k) _ _).trans (setOver_fit _ _ _ _)
  · split
    · dsimp only
      split
      · split
        · next n hn =>
          have hne : k ≠ n := fun e => hk (e ▸ sleepPick_mem _ _ _ hn)
          rw [sleepSlice_fit_ne _ _ _ hne, setOver_fit]
        · exact setOver_fit _ _ _ _
      · exact setOver_fit _ _ _ _
    · exact setOver_fit _ _ _ _
theorem holdersUp_unpowered (s : State) (ing : Bool) : (s.holdersUp ing).unpowered = s.unpowered :=
  when_unpowered _ _ _ (forEach_keeps (·.unpowered) (fun s n => s.wakeSlice n) wakeSlice_unpowered _ s)
theorem holdersUp_fit (s : State) (ing : Bool) (k : Nat) : (s.holdersUp ing).fit k = s.fit k :=
  when_keeps (·.fit k) (fun s => s.forEach (s.rsv ing) (fun s n => s.wakeSlice n))
    (fun s => forEach_keeps (·.fit k) (fun s n => s.wakeSlice n) (fun s n => wakeSlice_fit s n k) _ s) _ s
theorem unwant_unpowered (s : State) (l : List Nat) : (s.unwant l).unpowered = s.unpowered :=
  forEach_keeps (·.unpowered) _ (fun s n => modDom_unpowered s (n + 4) _) l s
theorem unwait_unpowered (s : State) (l : List Nat) : (s.unwait l).unpowered = s.unpowered :=
  forEach_keeps (·.unpowered) _ (fun s n => modDom_unpowered s (n + 4) _) l s
theorem unwant_fit (s : State) (l : List Nat) (k : Nat) : (s.unwant l).fit k = s.fit k :=
  forEach_keeps (·.fit k) _ (fun s n => modDom_fit s (n + 4) k _ (by split <;> rfl)) l s
theorem unwait_fit (s : State) (l : List Nat) (k : Nat) : (s.unwait l).fit k = s.fit k :=
  forEach_keeps (·.fit k) _ (fun s n => modDom_fit s (n + 4) k _ (by split <;> rfl)) l s
theorem retarget_fit (s : State) (ing : Bool) (k : Nat) : (s.retarget ing).fit k = s.fit k := by cases ing <;> rfl
theorem clearIssued_fit (s : State) (ing : Bool) (k : Nat) : (s.clearIssued ing).fit k = s.fit k := by cases ing <;> rfl
theorem clearIssued_calm (s t : State) (ing : Bool) (h : t.calm = s.calm) : (t.clearIssued ing).calm = (s.clearIssued ing).calm := by
  cases ing
  · exact (congrArg (fun u : State => { u with slices := { u.slices with issuedE := 0 } }) h :)
  · exact (congrArg (fun u : State => { u with slices := { u.slices with issuedI := 0 } }) h :)
theorem rotTries_fit (s : State) (m : List Nat) (k : Nat) (hk : k ∉ m) : (s.forEach m (fun s n => s.rotTry n)).fit k = s.fit k := by
  induction m generalizing s with
  | nil => rfl
  | cons n m ih =>
    rw [forEach_cons, ih _ fun h => hk (List.mem_cons_of_mem _ h), rotTry_fit _ _ _ (List.ne_of_not_mem_cons hk)]
theorem govDir_calm (s : State) (ing : Bool) : (s.govDir ing).calm = ((s.retarget ing).clearIssued ing).calm := by
  obtain ⟨l, m, a, goal, -, hparts⟩ := govDir_parts s ing
  rw [hparts]
  refine clearIssued_calm _ _ _ ?_
  rw [calm_of_unpowered _ _ (forEach_keeps (·.unpowered) (fun s n => s.rotTry n) rotTry_unpowered m _),
    calm_of_unpowered _ _ (unwait_unpowered _ _), govMove_calm, calm_of_unpowered _ _ (holdersUp_unpowered _ _),
    calm_of_unpowered _ _ (unwant_unpowered _ _)]
/-- An evaluation of a direction leaves the slices of the other as fit as they were. -/
theorem govDir_fit (s : State) (ing : Bool) (k : Nat) (hk : k ∉ slicesOf ing) : (s.govDir ing).fit k = s.fit k := by
  obtain ⟨l, m, a, goal, hm, hparts⟩ := govDir_parts s ing
  rw [hparts, clearIssued_fit, rotTries_fit _ _ _ (fun h => hk (hm k h)), unwait_fit, govMove_fit _ _ _ _ _ hk, holdersUp_fit,
    unwant_fit, retarget_fit]

/-! ### A surge -/

/-- The slice is on its way to SUMMER. -/
def State.rising (s : State) (n : Nat) : Prop :=
  (s.sl n).st = .summer ∨ (s.sl n).st = .thaw ∨ (s.dom (n + 4)).want = some .on
/-- The slice may be woken. -/
def State.wakeable (s : State) (n : Nat) : Prop :=
  (s.dom (n + 4)).unavail = false ∧ ((s.sl n).st = .autumn ∧ (s.dom (n + 4)).req = none ∨
    (s.sl n).st = .winter ∧ (s.sl n).svcOut = false ∧ (s.dom (n + 4)).refused = false)
theorem rsvReturn_sl (s : State) (n : Nat) : (s.rsvReturn n).pwr = s.pwr ∧ ∀ k, (s.rsvReturn n).sl k = s.sl k := by
  unfold State.rsvReturn State.setRsv
  dsimp only
  split
  · split
    · exact ⟨rfl, fun _ => rfl⟩
    · cases isIng n <;> exact ⟨rfl, fun _ => rfl⟩
  · exact ⟨rfl, fun _ => rfl⟩
/-- A request to the power manager concerns its own domain and slice only. -/
theorem pmTry_other (s : State) (d : Nat) (op : PmOp) (n : Nat) (h : n + 4 ≠ d) :
    (s.pmTry d op).sl n = s.sl n ∧ (s.pmTry d op).dom (n + 4) = s.dom (n + 4) := by
  unfold State.pmTry
  dsimp only
  split
  · exact ⟨rfl, rfl⟩
  · split
    · exact ⟨rfl, dom_modDom_ne _ _ _ _ h⟩
    · split
      · cases (s.dom d).seedWait <;> exact ⟨rfl, dom_modDom_ne _ _ _ _ h⟩
      · unfold State.pmIssue
        dsimp only
        split
        · split
          · next hd => exact ⟨sl_modSl_ne _ _ _ _ (by have := isSliceDom_range hd; omega), dom_modDom_ne _ _ _ _ h⟩
          · exact ⟨rfl, (dom_modDom_ne _ _ _ _ h).trans (dom_modDom_ne _ _ _ _ h)⟩
        · exact ⟨rfl, dom_modDom_ne _ _ _ _ h⟩
theorem wakeSlice_other (s : State) (k n : Nat) (h : n ≠ k) :
    (s.wakeSlice k).sl n = s.sl n ∧ (s.wakeSlice k).dom (n + 4) = s.dom (n + 4) := by
  unfold State.wakeSlice
  split
  · cases (s.sl k).svcOut
    · exact pmTry_other _ _ _ _ (by omega)
    · exact ⟨rfl, rfl⟩
  · split
    · exact ⟨rfl, rfl⟩
    · obtain ⟨hp, hs⟩ := rsvReturn_sl (s.modSl k (fun c => { c with st := .summer })) k
      refine ⟨?_, (dom_modDom_ne _ _ _ _ (by omega)).trans (dom_of_pwr _ _ _ hp)⟩
      exact (hs n).trans (sl_modSl_ne _ _ _ _ h)
  · exact ⟨rfl, rfl⟩
/-- A wake that is asked for is under way, or wanted. -/
theorem pmTry_on_rising (s : State) (n : Nat) (hn : n < 40) (hu : (s.dom (n + 4)).unavail = false)
    (hr : (s.dom (n + 4)).refused = false) : (s.pmTry (n + 4) .on).rising n := by
  unfold State.pmTry State.rising
  dsimp only
  rw [if_neg (by rw [hu, hr]; decide)]
  split
  · exact .inr (.inr (by rw [dom_modDom]))
  · split
    · refine .inr (.inr ?_)
      cases (s.dom (n + 4)).seedWait <;> exact congrArg Dom.want (dom_modDom _ _ _)
    · refine .inr (.inl ?_)
      unfold State.pmIssue
      dsimp only
      rw [if_pos (show PmOp.on.wakes = true from rfl), if_pos (isSliceDom_slice n hn)]
      exact congrArg Slice.st (sl_modSl _ _ _)
theorem wakeSlice_summer (s : State) (n : Nat) (ha : (s.sl n).st = .autumn)
    (hd : ¬((s.dom (n + 4)).req.isSome ∨ (s.dom (n + 4)).unavail = true)) : ((s.wakeSlice n).sl n).st = .summer := by
  unfold State.wakeSlice
  rw [ha]
  dsimp only
  rw [if_neg hd]
  obtain ⟨-, hs⟩ := rsvReturn_sl (s.modSl n (fun c => { c with st := .summer })) n
  exact congrArg Slice.st ((hs n).trans (sl_modSl _ _ _))
theorem wakeSlice_wakes (s : State) (n : Nat) (hn : n < 40) (h : s.wakeable n) : (s.wakeSlice n).rising n := by
  obtain ⟨hu, ⟨ha, hq⟩ | ⟨hw, hv, hr⟩⟩ := h
  · exact .inl (wakeSlice_summer s n ha (by rw [hq, hu]; decide))
  · unfold State.wakeSlice
    rw [hw, hv]
    exact pmTry_on_rising s n hn hu hr
/-- A wake once wanted or under way stays so. -/
theorem wakeSlice_rising (s : State) (n : Nat) (hn : n < 40) (h : s.rising n) : (s.wakeSlice n).rising n := by
  unfold State.wakeSlice
  split
  · next hw =>
    cases (s.sl n).svcOut
    · show (s.pmTry (n + 4) .on).rising n
      by_cases hd : (s.dom (n + 4)).unavail ∨ (s.dom (n + 4)).refused
      · unfold State.pmTry
        dsimp only
        rwa [if_pos hd]
      · rw [not_or, Bool.not_eq_true, Bool.not_eq_true] at hd
        exact pmTry_on_rising s n hn hd.1 hd.2
    · exact h
  · next ha =>
    split
    · exact h
    · next hd =>
      refine .inl ?_
      have hs := wakeSlice_summer s n ha hd
      unfold State.wakeSlice at hs
      rw [ha] at hs
      dsimp only at hs
      rwa [if_neg hd] at hs
  · exact h
theorem wakeSlices_rise (s : State) (l : List Nat) (n : Nat) (hn : n < 40) (hin : n ∈ l ∧ s.wakeable n ∨ s.rising n) :
    (s.forEach l (fun s n => s.wakeSlice n)).rising n := by
  induction l generalizing s with
  | nil => exact hin.elim (fun h => absurd h.1 List.not_mem_nil) id
  | cons k l ih =>
    rw [forEach_cons]
    refine ih _ ?_
    by_cases hk : n = k
    · subst hk
      exact .inr (hin.elim (fun h => wakeSlice_wakes s n hn h.2) (wakeSlice_rising s n hn))
    · obtain ⟨hs, hd⟩ := wakeSlice_other s k n hk
      unfold State.wakeable State.rising at hin ⊢
      rw [hs, hd]
      exact hin.imp_left fun h => ⟨(List.mem_cons.mp h.1).resolve_left hk, h.2⟩
theorem slicesOf_lt {ing : Bool} {n : Nat} (h : n ∈ slicesOf ing) : n < 40 := by
  revert n
  cases ing <;> decide
/-- What is chosen to be woken may be woken. -/
theorem wakeOrder_wakeable (s : State) (ing : Bool) (n : Nat) (h : n ∈ s.wakeOrder ing) : n < 40 ∧ s.wakeable n := by
  unfold State.wakeOrder at h
  simp only [List.mem_append, List.mem_insertionSort, List.mem_filter, Bool.and_eq_true, Bool.not_eq_true', decide_eq_true_eq,
    Option.isNone_iff_eq_none] at h
  have havail : s.serviceable n = true → (s.dom (n + 4)).unavail = false := by
    unfold State.serviceable
    simp only [Bool.and_eq_true, Bool.not_eq_true']
    exact fun h => h.2
  rcases h with ⟨hin, ⟨ha, hq⟩, hs⟩ | ⟨hin, ⟨⟨⟨⟨hw, hv⟩, hs⟩, hr⟩, -⟩, -⟩
  · exact ⟨slicesOf_lt hin, havail hs, .inl ⟨ha, hq⟩⟩
  · exact ⟨slicesOf_lt hin, havail hs, .inr ⟨hw, hv, hr⟩⟩
theorem surgeNow_effect (s : State) : s.surgeNow.flag .pwr 0x40 3 = true ∧ s.surgeNow.counted 180 = s.counted 180 + 1 ∧
    s.surgeNow.pwr.overI = none ∧
    s.surgeNow.pwr.surge = (s.wakeOrder true).take
      (min s.govSurge (s.serviceableCnt true - (s.awakeCnt true + s.wantCnt true))) ∧
    ∀ n ∈ s.surgeNow.pwr.surge, s.surgeNow.rising n := by
  unfold State.surgeNow
  extract_lets k l t
  obtain ⟨b, hb⟩ : ∃ b : State, b = s.modPwr (fun p => { p with surge := l, overI := none }) := ⟨_, rfl⟩
  have ht : t.unpowered = b.unpowered := by
    rw [hb]
    exact wakeSlices_unpowered _ _ _
  have hpwr : ({ t.pwr with dom := [] } : Pwr) = { b.pwr with dom := [] } := (congrArg (fun v => v.1.pwr) ht :)
  have hsurge : t.pwr.surge = l := (congrArg Pwr.surge hpwr :).trans (by rw [hb]; rfl)
  refine ⟨(flag_of_regs (t.setFlag .pwr 0x40 3) _ _ _ _ rfl).trans (flag_setFlag t .pwr 0x40 3 (by decide)), ?_, (congrArg Pwr.overI hpwr :).trans (by rw [hb]; rfl), hsurge, ?_⟩
  · rw [counted_evt]
    exact congrArg (· + 1) ((counted_of_unpowered _ _ _ (by decide) ht).trans (by rw [hb]; rfl))
  · intro n hn
    have hin : n ∈ l := hsurge ▸ hn
    obtain ⟨hlt, hw⟩ := wakeOrder_wakeable s true n (List.mem_of_mem_take hin)
    exact wakeSlices_rise _ l n hlt (.inl ⟨hin, hw⟩)

/-! ### The season of a domain -/

/-- A request that nothing stands against is issued at once; one to sleep changes the domain's record alone. -/
theorem pmTry_sleep (s : State) (d : Nat) (op : PmOp) (hop : op.wakes = false) (hq : (s.dom d).req = none)
    (hu : (s.dom d).unavail = false) (hr : (s.dom d).refused = false) (hn : s.pmOut < 8) :
    s.pmTry d op = (s.modDom d (fun m => { m with req := some op, want := none, seedWait := false })).emit (.pm d op) := by
  unfold State.pmTry State.pmIssue
  dsimp only
  rw [if_neg (by rw [hu, hr]; decide), if_neg (by rw [hq]; simpa using hn), if_neg (by rw [hop]; simp)]
  rw [if_neg (by rw [hop]; decide)]
theorem sleepOp_sleeps (d : Nat) : (sleepOp d).wakes = false := by
  unfold sleepOp
  split <;> rfl

/-- Settles O33: an evaluation and a surge by what wakes leave alone, the seasons of a domain by their cases. -/
theorem governorEvaluates : Obligations.GovernorEvaluates := by
  unfold Obligations.GovernorEvaluates
  refine ⟨?_, ?_, ?_, ?_, ?_⟩
  · intro s hup
    have hE := govDir_calm s.begin false
    have hI := govDir_calm (s.begin.govDir false) true
    have hmark : ∀ u v : State, u.calm = v.calm → u.pwr.targetE = v.pwr.targetE ∧ u.pwr.targetI = v.pwr.targetI ∧
        u.slices.issuedE = v.slices.issuedE ∧ u.slices.issuedI = v.slices.issuedI := fun u v h =>
      ⟨(congrArg (fun u => u.pwr.targetE) h :), (congrArg (fun u => u.pwr.targetI) h :),
        (congrArg (fun u => u.slices.issuedE) h :), (congrArg (fun u => u.slices.issuedI) h :)⟩
    obtain ⟨hE1, hE2, hE3, hE4⟩ := hmark _ _ hE
    obtain ⟨hI1, hI2, hI3, hI4⟩ := hmark _ _ hI
    have htarget : (s.begin.govDir false).target true = s.begin.target true :=
      target_of_fit _ _ true (congrArg State.regs hE :) (congrArg State.pager hE :) (congrArg State.dp hE :)
        (congrArg State.sys hE :) hE4 (fun k hk => govDir_fit s.begin false k (by
          revert k
          decide))
    refine ⟨(s.begin.govDir false).govDir true, ?_, hI1.trans hE1, hI2.trans htarget, hI3.trans hE3, hI4⟩
    change execGovEvaluation s = _
    unfold execGovEvaluation
    dsimp only
    rw [show s.begin.govUp = true from hup]
    rfl
  · intro port s hup hs ho
    refine ⟨s.begin.surgeNow, ?_, surgeNow_effect s.begin⟩
    change execSurge port s = _
    unfold execSurge
    dsimp only
    rw [show s.begin.govUp = true from hup, show s.begin.surging port = true from hs, show s.begin.surgeOpen = false from ho]
    rfl
  · intro d s hup hd hsn hnd
    have hexec : exec (.domainIdleExpiry d) s = .next (((s.begin.modDom d.val (fun m => { m with season := .autumn })).when
        (decide (d.val = 45)) (fun s => s.modStore (fun t => { t with wcbHeld := s.wcbUsed }))).evt 179 1) := by
      change execDomainIdleExpiry d s = _
      unfold execDomainIdleExpiry
      dsimp only
      rw [show s.begin.govUp = true from hup, show s.begin.needed d.val = false from hnd,
        show decide ((s.begin.dom d.val).season = .summer) = true from decide_eq_true hsn, decide_eq_true hd]
      rfl
    refine ⟨_, hexec, ?_, ?_⟩
    · cases decide (d.val = 45) <;> exact dom_modDom _ _ _
    · rw [counted_evt]
      cases decide (d.val = 45) <;> rfl
  · intro d s hup hd hsn hnd hq hdr hu hr hn
    have hexec : exec (.domainAutumnDrained d) s = .next (s.begin.pmTry d.val (sleepOp d.val)) := by
      change execDomainAutumnDrained d s = _
      unfold execDomainAutumnDrained State.autumnNext
      dsimp only
      rw [show s.begin.govUp = true from hup, decide_eq_true hd,
        show decide ((s.begin.dom d.val).season = .autumn) = true from decide_eq_true hsn,
        show s.begin.needed d.val = false from hnd, show s.begin.domDrained d.val = true from hdr,
        show (s.begin.dom d.val).req = none from hq]
      rfl
    rw [pmTry_sleep s.begin d.val (sleepOp d.val) (sleepOp_sleeps d.val) hq hu hr hn] at hexec
    exact ⟨_, hexec, rfl, dom_modDom _ _ _⟩
  · intro d s hup hd hsn hnd hq hu
    have hexec : exec (.domainAutumnDrained d) s =
        .next (s.begin.modDom d.val (fun m => { m with season := .summer, want := none, seedWait := false })) := by
      change execDomainAutumnDrained d s = _
      unfold execDomainAutumnDrained State.autumnNext State.wakeDom
      dsimp only
      rw [show s.begin.govUp = true from hup, decide_eq_true hd,
        show (s.begin.dom d.val).season = .autumn from hsn,
        show s.begin.needed d.val = true from hnd, show (s.begin.dom d.val).unavail = false from hu,
        show (s.begin.dom d.val).req = none from hq]
      rfl
    exact ⟨_, hexec, dom_modDom _ _ _⟩

end Sys2Proof.Machine
end

section
/-! PROOFS. The answers of the power manager: acknowledged, refused and timed-out requests, retries and the end of a THAW
(R52, R134, R286, R287, R297). -/
namespace Sys2Proof.Machine

/-! ### What the failure of page-ins leaves alone -/

/-- No record of a domain or slice target differs, and no flag has been cleared. -/
def State.onward (s t : State) : Prop := t.pwr = s.pwr ∧ ∀ p off n, s.flag p off n = true → t.flag p off n = true
theorem onward_refl (s : State) : s.onward s := ⟨rfl, fun _ _ _ h => h⟩
theorem State.onward.trans {s t u : State} (h : s.onward t) (k : t.onward u) : s.onward u :=
  ⟨k.1.trans h.1, fun p off n hf => k.2 p off n (h.2 p off n hf)⟩
theorem onward_of_sticky (s t : State) (hp : t.pwr = s.pwr) (hr : t.regs.sticky = s.regs.sticky) : s.onward t := by
  refine ⟨hp, fun p off n hf => ?_⟩
  unfold State.flag State.stickyW at hf ⊢
  rwa [hr]
theorem onward_setFlag (s : State) (p : Page) (off n : Nat) : s.onward (s.setFlag p off n) :=
  ⟨rfl, fun q o m hf => setFlags_keeps_flag s p q off o m _ hf⟩
theorem onward_detect (s : State) (det inst : Nat) (a b : W32) : s.onward (s.detect det inst a b) := by
  refine ⟨?_, fun p off n hf => detect_keeps_flag s det inst a b p off n hf⟩
  unfold State.detect State.detectAs
  dsimp only
  split <;> rfl
theorem onward_when (s : State) (c : Bool) (f : State → State) (h : ∀ s : State, s.onward (f s)) : s.onward (s.when c f) := by
  cases c
  · exact onward_refl s
  · exact h s
theorem onward_forEach {α : Type} (f : State → α → State) (h : ∀ (s : State) a, s.onward (f s a)) (l : List α) (s : State) :
    s.onward (s.forEach l f) :=
  forEach_inv (s.onward ·) f (fun t a ht => ht.trans (h t a)) l s (onward_refl s)
theorem onward_endFrame (s : State) (f : Frame) (c : Code) (n : Option Nat) : s.onward (s.endFrame f c n) :=
  onward_of_sticky _ _ (congrArg (fun r => r.2.2.2.2.2.2.1) (endFrame_rest s f c n) :)
    (congrArg (fun b => b.1.sticky) (endFrame_board s f c n) :)
theorem onward_missFail (s : State) (p : Frame → Bool) : s.onward (s.missFail p) := by
  refine onward_forEach _ (fun s id => ?_) _ _
  split
  · exact (onward_endFrame _ _ _ _).trans (onward_setFlag _ _ _ _)
  · exact onward_refl s
theorem onward_mirrorFail (s : State) (x : Nat) : s.onward (s.mirrorFail x) := by
  refine (onward_of_sticky s _ rfl rfl).trans (onward_forEach _ (fun s q => ?_) _ _)
  unfold State.mirrorLose State.skew
  split <;> exact onward_of_sticky _ _ rfl rfl
theorem onward_cmdDone (s : State) (p : Page) (off flag code op detail : Nat) : s.onward (s.cmdDone p off flag code op detail) :=
  (onward_of_sticky s ((s.setRo p off (atPos (code % 256) 24 ||| atPos (op % 256) 16 ||| atPos (detail % 65536) 0)).modHdr p
    (fun h => { h with busy := false })) rfl rfl).trans (onward_setFlag _ _ _ _)
theorem onward_sawDone (s : State) (code detail : Nat) : s.onward (s.sawDone code detail) := by
  have hcount : ∀ c, ((s.evt 110 1).when c (·.evt 111 1)).pwr = s.pwr ∧ ((s.evt 110 1).when c (·.evt 111 1)).regs = s.regs :=
    fun c => by cases c <;> exact ⟨rfl, rfl⟩
  unfold State.sawDone
  exact (onward_of_sticky _ _ (hcount _).1 (congrArg Regs.sticky (hcount _).2)).trans (onward_cmdDone _ _ _ _ _ _ _)
theorem onward_zeroBlob (s : State) : s.onward s.zeroBlob :=
  onward_forEach (fun s i => s.setCfg .keyw (0x100 + 4 * i) 0) (fun _ _ => onward_of_sticky _ _ rfl rfl) (List.range 18) s
theorem onward_keywDone (s : State) (code gen : Nat) : s.onward (s.keywDone code gen) := by
  unfold State.keywDone
  extract_lets op t u
  have ht : s.onward t := by
    simp only [t]
    split
    · exact onward_zeroBlob s
    · exact onward_refl s
  have hu : t.onward u := onward_when _ _ _ (fun s => onward_of_sticky _ _ rfl rfl)
  exact (ht.trans hu).trans (onward_cmdDone _ _ _ _ _ _ _)
theorem onward_pageCmdsFail (s : State) (x code : Nat) : s.onward (s.pageCmdsFail x code) := by
  have hsaw : s.onward (s.when (s.sawOn [0x01, 0x04, 0x10, 0x11] x) (·.sawDone code 0)) :=
    onward_when _ _ _ (fun s => onward_sawDone s code 0)
  unfold State.pageCmdsFail
  dsimp only
  split
  · split
    · exact hsaw.trans (onward_keywDone _ _ _)
    · exact hsaw
  · exact hsaw
theorem onward_jobCheck (s : State) : s.onward s.jobCheck := by
  unfold State.jobCheck
  split <;> exact onward_of_sticky _ _ rfl rfl
theorem onward_forgetReqs (s : State) (p : Req → Bool) : s.onward (s.forgetReqs p) := by
  unfold State.forgetReqs
  refine (onward_of_sticky s _ rfl rfl).trans (onward_forEach _ (fun s r => ?_) _ _)
  refine (onward_of_sticky s _ rfl rfl).trans (onward_when _ _ _ (fun s => ?_))
  unfold State.wholeEnd
  (repeat' split) <;> exact onward_of_sticky _ _ rfl rfl
theorem onward_dropIn (s : State) (x : Nat) : s.onward (s.dropIn x) :=
  (onward_forgetReqs s _).trans (onward_of_sticky _ _ rfl rfl)
theorem onward_dropOut (s : State) (x : Nat) : s.onward (s.dropOut x) :=
  (onward_forgetReqs s _).trans (onward_of_sticky _ _ rfl rfl)
theorem onward_pageFail (s : State) (x reason : Nat) (fresh : Bool) : s.onward (s.pageFail x reason fresh) := by
  unfold State.pageFail
  extract_lets t u v w
  have ht : s.onward t := by
    simp only [t]
    split
    · refine ((onward_when s _ _ fun s => ?_).trans (onward_dropIn _ x)).trans (onward_when _ _ _ fun s => onward_dropOut s x)
      exact onward_of_sticky _ _ rfl rfl
    · exact onward_refl s
  have hu : t.onward u := onward_of_sticky _ _ rfl rfl
  have hv : u.onward v := (onward_setFlag u .pager 0x40 2).trans (onward_of_sticky _ _ rfl rfl)
  have hw : v.onward w := onward_when _ _ _ (fun s => onward_detect s _ _ _ _)
  have hs : s.onward w := ((ht.trans hu).trans hv).trans hw
  clear_value w
  exact (((hs.trans (onward_missFail _ _)).trans (onward_mirrorFail _ _)).trans (onward_pageCmdsFail _ _ _)).trans
    (onward_jobCheck _)
theorem onward_pagesLost (s : State) : s.onward s.pagesLost :=
  onward_when _ _ _ (fun s => onward_forEach (fun s x => s.pageFail x 5 true) (fun s x => onward_pageFail s x 5 true) _ s)
/-- A domain that becomes unavailable takes its page-ins along and clears no flag (R281). -/
theorem domUnavail_effect (s : State) (d : Nat) :
    (s.domUnavail d).dom d = { s.dom d with unavail := true, req := none, want := none, seedWait := false } ∧
    ∀ p off n, s.flag p off n = true → (s.domUnavail d).flag p off n = true := by
  obtain ⟨hp, hf⟩ := onward_pagesLost (s.modDom d (fun m => { m with unavail := true, req := none, want := none, seedWait := false }))
  exact ⟨(dom_of_pwr _ _ _ hp).trans (dom_modDom _ _ _), hf⟩

/-! ### Requests outstanding -/

theorem reqs_del_le (m : Tab Dom) (d : Nat) : ((Tab.del m d).filter (fun p => p.2.req.isSome)).length ≤
    (m.filter (fun p => p.2.req.isSome)).length := by
  induction m with
  | nil => exact le_rfl
  | cons q m ih =>
    obtain ⟨a, v⟩ := q
    unfold Tab.del
    split
    · rw [List.filter_cons]
      split
      · exact ih.trans (Nat.le_succ _)
      · exact ih
    · rw [List.filter_cons, List.filter_cons]
      split
      · exact Nat.succ_le_succ ih
      · exact ih
theorem reqs_ins_le (m : Tab Dom) (d : Nat) (x : Dom) (hx : x.req = none) :
    ((Tab.ins m d x).filter (fun p => p.2.req.isSome)).length ≤ (m.filter (fun p => p.2.req.isSome)).length := by
  induction m with
  | nil => simp [Tab.ins, hx]
  | cons q m ih =>
    obtain ⟨a, v⟩ := q
    unfold Tab.ins
    split
    · rw [List.filter_cons, if_neg (by simp [hx])]
    · split
      · rw [List.filter_cons, List.filter_cons, if_neg (by simp [hx])]
        split
        · exact Nat.le_succ _
        · exact le_rfl
      · rw [List.filter_cons, List.filter_cons]
        split
        · exact Nat.succ_le_succ ih
        · exact ih
/-- A record without a request adds none to those outstanding. -/
theorem pmOut_modDom_le (s : State) (d : Nat) (f : Dom → Dom) (h : (f (s.dom d)).req = none) :
    (s.modDom d f).pmOut ≤ s.pmOut := by
  show ((Tab.modify {} s.pwr.dom d f).filter (fun p => p.2.req.isSome)).length ≤ _
  unfold Tab.modify Tab.set
  split
  · exact reqs_del_le _ _
  · exact reqs_ins_le _ _ _ h

/-! ### Acknowledged and refused requests -/

theorem domLost_pwr (s : State) (d : Nat) : (s.domLost d).pwr = s.pwr ∧ (s.domLost d).slices = s.slices ∧
    (s.domLost d).sys.aoClk = s.sys.aoClk := by
  unfold State.domLost
  dsimp only
  (repeat' split) <;> exact ⟨rfl, rfl, rfl⟩
theorem domBack_slice (s : State) (n : Nat) (h : n < 40) : s.domBack (n + 4) = s := by
  unfold State.domBack
  rw [if_neg (by omega), if_neg (by omega)]
theorem seedDom_slice (s : State) (n : Nat) (h : n < 40) : s.seedDom (n + 4) = s.seedGenFrom s.sys.seeds n := by
  unfold State.seedDom domGens
  rw [if_pos (isSliceDom_slice n h)]
  rfl
/-- Two seed words go into the generator. -/
theorem seedGenFrom_two (s : State) (a b : W128) (rest : List W128) (g : Nat) (h : s.sys.seeds = a :: b :: rest) :
    (s.seedGenFrom s.sys.seeds g).sys.seeds = rest ∧ Tab.get 0 (s.seedGenFrom s.sys.seeds g).sys.maskSeed g = b ++ a := by
  unfold State.seedGenFrom
  rw [h]
  refine ⟨?_, Tab.get_set 0 _ g _⟩
  show s.sys.seeds.drop 2 = rest
  rw [h]
  rfl
theorem seedGenFrom_pwr (s : State) (l : List W128) (g : Nat) : (s.seedGenFrom l g).pwr = s.pwr ∧
    (s.seedGenFrom l g).slices = s.slices := by
  unfold State.seedGenFrom
  split <;> exact ⟨rfl, rfl⟩
theorem pmDone_slept (s : State) (d : Nat) (op : PmOp) (hop : op.wakes = false) (hd : isSliceDom d = false)
    (hw : (s.dom d).want = none) :
    (s.pmDone d op).dom d = { s.dom d with req := none, season := .winter, want := none, seedWait := false } := by
  unfold State.pmDone
  extract_lets t u w v
  have hu : u.dom d = { s.dom d with req := none } := (dom_of_pwr _ _ _ (domLost_pwr t d).1).trans (dom_modDom _ _ _)
  have hwn : w = none := (congrArg Dom.want hu :).trans hw
  rw [hop, hd, hwn]
  exact (dom_modDom _ _ _).trans (by rw [hu])
theorem pmDone_sliceOff (s : State) (n : Nat) (hn : n < 40) (hst : (s.sl n).st ≠ .faulted) :
    ((s.pmDone (n + 4) .off).dom (n + 4)).req = none ∧
    (s.pmDone (n + 4) .off).sl n = { s.sl n with st := .winter, winterAt := s.sys.aoClk } := by
  unfold State.pmDone
  extract_lets t u w v
  obtain ⟨hp, hs, hc⟩ := domLost_pwr t (n + 4)
  rw [show PmOp.off.wakes = false from rfl, isSliceDom_slice n hn]
  refine ⟨congrArg Dom.req ((dom_of_pwr _ _ _ hp).trans (dom_modDom _ _ _)), ?_⟩
  have hu : u.sl n = s.sl n := sl_of_slices _ _ _ hs
  refine (sl_modSl u n _).trans ?_
  rw [hu, if_neg hst]
  exact congrArg (fun c => ({ s.sl n with st := .winter, winterAt := c } : Slice)) hc
theorem pmDone_sliceOn (s : State) (n : Nat) (hn : n < 40) (a b : W128) (rest : List W128) (hst : (s.sl n).st = .thaw)
    (hs : s.sys.seeds = a :: b :: rest) :
    ((s.pmDone (n + 4) .on).dom (n + 4)).req = none ∧ (s.pmDone (n + 4) .on).sl n = s.sl n ∧
    (s.pmDone (n + 4) .on).sys.seeds = rest ∧ Tab.get 0 (s.pmDone (n + 4) .on).sys.maskSeed n = b ++ a := by
  unfold State.pmDone
  extract_lets t u w v
  have hseason : t.season (n + 4) = .thaw := by
    unfold State.season
    rw [if_neg (by omega), if_pos (isSliceDom_slice n hn)]
    exact congrArg SlState.season hst
  rw [show PmOp.on.wakes = true from rfl, hseason, domBack_slice t n hn, seedDom_slice t n hn]
  obtain ⟨hp, hsl⟩ := seedGenFrom_pwr t t.sys.seeds n
  obtain ⟨hseeds, hmask⟩ := seedGenFrom_two t a b rest n hs
  exact ⟨congrArg Dom.req ((dom_of_pwr _ _ _ hp).trans (dom_modDom _ _ _)), sl_of_slices _ _ _ hsl, hseeds, hmask⟩

/-- A wake of slices leaves a domain alone that has refused. -/
theorem wakeSlice_refused (s : State) (k n : Nat) (h : (s.dom (n + 4)).refused = true) :
    ((s.wakeSlice k).dom (n + 4)).req = (s.dom (n + 4)).req ∧ ((s.wakeSlice k).dom (n + 4)).refused = true := by
  by_cases hk : n = k
  · subst hk
    unfold State.wakeSlice
    split
    · cases (s.sl n).svcOut
      · show ((s.pmTry (n + 4) .on).dom (n + 4)).req = _ ∧ ((s.pmTry (n + 4) .on).dom (n + 4)).refused = true
        unfold State.pmTry
        rw [if_pos (.inr h)]
        exact ⟨rfl, h⟩
      · exact ⟨rfl, h⟩
    · split
      · exact ⟨rfl, h⟩
      · obtain ⟨hp, -⟩ := rsvReturn_sl (s.modSl n (fun c => { c with st := .summer })) n
        rw [dom_modDom, dom_of_pwr _ _ _ hp]
        exact ⟨rfl, h⟩
    · exact ⟨rfl, h⟩
  · rw [(wakeSlice_other s k n hk).2]
    exact ⟨rfl, h⟩
theorem wakeNext_refused (s : State) (n : Nat) (h : (s.dom (n + 4)).refused = true) :
    ((s.wakeNext n).dom (n + 4)).req = (s.dom (n + 4)).req ∧ ((s.wakeNext n).dom (n + 4)).refused = true ∧
    (s.wakeNext n).otherCounts = s.otherCounts := by
  unfold State.wakeNext
  dsimp only
  split
  · split
    · next k l hl =>
      obtain ⟨t, ht⟩ : ∃ t : State, t = (s.modSl n (fun c => { c with testWake := false })).modPwr (fun p => { p with
        surge := p.surge.map (fun x => if x = n then k else x) }) := ⟨_, rfl⟩
      have hdom : t.dom (n + 4) = s.dom (n + 4) := by rw [ht]; rfl
      have hcounts : t.otherCounts = s.otherCounts := by rw [ht]; rfl
      obtain ⟨hq, hr⟩ := wakeSlice_refused t k n (by rw [hdom]; exact h)
      rw [← ht]
      exact ⟨hq.trans (congrArg Dom.req hdom), hr, (congrArg Prod.snd (wakeSlice_unpowered t k) :).trans hcounts⟩
    · exact ⟨rfl, h, rfl⟩
  · exact ⟨rfl, h, rfl⟩
theorem wakeFailed_refused (s : State) (d : Nat) : ((s.wakeFailed d).dom d).req = (s.dom d).req ∧
    ((s.wakeFailed d).dom d).refused = (s.dom d).refused ∧ (s.wakeFailed d).otherCounts = s.otherCounts := by
  unfold State.wakeFailed
  split
  · exact ⟨rfl, rfl, rfl⟩
  · rw [dom_modDom]
    refine ⟨?_, ?_, rfl⟩ <;> split <;> rfl
/-- A domain as a refusal leaves it, before the refusal is flagged. -/
def State.pmBack (s : State) (d : Nat) (op : PmOp) : State :=
  let w := (s.dom d).want
  let s := s.modDom d (fun m => { m with req := none, want := none, seedWait := false, refused := true })
  if op.wakes then (s.wakeFailed d).when (isSliceDom d) (·.wakeNext (d - 4))
  else if isSliceDom d = false ∧ w.isSome = true then s.modDom d (fun m => { m with season := .summer })
  else s
theorem pmBack_effect (s : State) (d : Nat) (op : PmOp) : ((s.pmBack d op).dom d).req = none ∧
    ((s.pmBack d op).dom d).refused = true ∧ (s.pmBack d op).otherCounts = s.otherCounts := by
  unfold State.pmBack
  extract_lets w t
  have ht : (t.dom d).req = none ∧ (t.dom d).refused = true := by
    simp only [t, dom_modDom]
    exact ⟨trivial, trivial⟩
  split
  · obtain ⟨hq, hr, hc⟩ := wakeFailed_refused t d
    cases hd : isSliceDom d
    · exact ⟨hq.trans ht.1, hr.trans ht.2, hc⟩
    · obtain ⟨n, rfl⟩ : ∃ n, d = n + 4 := ⟨d - 4, by have := isSliceDom_range hd; omega⟩
      obtain ⟨hq', hr', hc'⟩ := wakeNext_refused (t.wakeFailed (n + 4)) n (hr.trans ht.2)
      exact ⟨hq'.trans (hq.trans ht.1), hr', hc'.trans hc⟩
  · split
    · rw [dom_modDom]
      exact ⟨ht.1, ht.2, rfl⟩
    · exact ⟨ht.1, ht.2, rfl⟩
/-- A refusal is flagged and counted (R52). -/
theorem pmRefused_effect (s : State) (d : Nat) (op : PmOp) : ((s.pmRefused d op).dom d).req = none ∧
    ((s.pmRefused d op).dom d).refused = true ∧ (s.pmRefused d op).flag .pwr 0x40 0 = true ∧
    (s.pmRefused d op).counted 184 = s.counted 184 + 1 ∧ (s.pmRefused d op).counted 0x40 = s.counted 0x40 + 1 := by
  have hdef : s.pmRefused d op = (((s.pmBack d op).setFlag .pwr 0x40 0).evt 184 1).detect 0x41 d (BitVec.ofNat 32 d) 0 := rfl
  obtain ⟨hq, hr, hc⟩ := pmBack_effect s d op
  have hcount : ∀ n, n ∉ [176, 177, 178, 186] → (s.pmBack d op).counted n = s.counted n := fun n hn => by
    have h := congrFun hc n
    unfold State.otherCounts at h
    rwa [if_neg hn, if_neg hn] at h
  rw [hdef]
  obtain ⟨t, ht⟩ : ∃ t, t = s.pmBack d op := ⟨_, rfl⟩
  rw [← ht] at hq hr hcount ⊢
  obtain ⟨u, hu⟩ : ∃ u, u = (t.setFlag .pwr 0x40 0).evt 184 1 := ⟨_, rfl⟩
  have hflag : u.flag .pwr 0x40 0 = true := by
    rw [hu]
    exact (flag_of_regs (t.setFlag .pwr 0x40 0) _ _ _ _ rfl).trans (flag_setFlag t .pwr 0x40 0 (by decide))
  have hdom : u.dom d = t.dom d := by rw [hu]; rfl
  obtain ⟨hp, hf⟩ := onward_detect u 0x41 d (BitVec.ofNat 32 d) 0
  have h184 : u.counted 184 = t.counted 184 + 1 := by rw [hu, counted_evt]; rfl
  have h40 : u.counted 0x40 = t.counted 0x40 := by
    rw [hu, counted_evt_ne _ _ _ _ (by decide)]
    rfl
  rw [← hu, dom_of_pwr _ _ _ hp, hdom]
  refine ⟨hq, hr, hf _ _ _ hflag, ?_, ?_⟩
  · rw [← hcount 184 (by decide), ← h184]
    unfold State.detect State.detectAs
    dsimp only
    split
    · exact counted_evt_ne _ _ _ _ (by decide)
    · exact counted_evt_ne _ _ _ _ (by decide)
  · rw [← hcount 0x40 (by decide), ← h40]
    exact counted_detect u false 0x41 d _ _

/-! ### Retries, timeouts and the end of a THAW -/

theorem exec_pmAck (d : Fin 54) (ok : Bool) (op : PmOp) (s : State) (h : (s.dom d.val).req = some op) :
    exec (.pmAck d ok) s = .next ((if ok then s.begin.pmDone d.val op else s.begin.pmRefused d.val op).settle) := by
  change execPmAck d ok s = _
  unfold execPmAck
  dsimp only
  rw [show (s.begin.dom d.val).req = some op from h]
/-- A domain in AUTUMN that has been refused is asked again (R52). -/
theorem pmAgain_autumn (s : State) (d : Nat) (hd : isSliceDom d = false) (ha : (s.dom d).season = .autumn)
    (hn : s.needed d = false) (hq : (s.dom d).req = none) (hdr : s.domDrained d = true) (hu : (s.dom d).unavail = false)
    (ho : s.pmOut < 8) :
    (s.pmAgain d).out = s.out ++ [.pm d (sleepOp d)] ∧ ((s.pmAgain d).dom d).refused = false ∧
    ((s.pmAgain d).dom d).req = some (sleepOp d) := by
  obtain ⟨t, ht⟩ : ∃ t, t = s.modDom d (fun m => { m with refused := false }) := ⟨_, rfl⟩
  have hdom : t.dom d = { s.dom d with refused := false } := by rw [ht, dom_modDom]
  have hneed : t.needed d = false := by rw [ht]; exact hn
  have hdrain : t.domDrained d = true := by rw [ht]; exact hdr
  have hout : t.pmOut < 8 := lt_of_le_of_lt (by rw [ht]; exact pmOut_modDom_le s d _ hq) ho
  have hagain : s.pmAgain d = t.pmTry d (sleepOp d) := by
    unfold State.pmAgain State.autumnNext
    rw [← ht]
    simp only [hd, hdom, ha, hneed, hq, hdrain, Option.isNone_none, Bool.and_self, Bool.false_eq_true, if_false, if_true]
  rw [hagain, pmTry_sleep t d _ (sleepOp_sleeps d) (by rw [hdom]; exact hq) (by rw [hdom]; exact hu) (by rw [hdom]) hout]
  have hafter : (((t.modDom d (fun m => { m with req := some (sleepOp d), want := none, seedWait := false })).emit
      (.pm d (sleepOp d))).dom d) = { t.dom d with req := some (sleepOp d), want := none, seedWait := false } := dom_modDom _ _ _
  rw [hafter, hdom]
  refine ⟨?_, rfl, rfl⟩
  rw [ht]
  rfl
/-- A request that has timed out is flagged, and its domain is unavailable (R52). -/
theorem pmTimeout_effect (d : Fin 54) (op : PmOp) (s : State) (h : (s.dom d.val).req = some op) :
    ∃ u : State, exec (.pmTimeout d) s = .next u.settle ∧ (u.dom d.val).unavail = true ∧ (u.dom d.val).req = none ∧
      u.flag .pwr 0x40 1 = true := by
  obtain ⟨t, ht⟩ : ∃ t : State, t = s.begin.when op.wakes (·.wakeFailed d.val) := ⟨_, rfl⟩
  obtain ⟨v, hv⟩ : ∃ v : State, v = ((t.setFlag .pwr 0x40 1).evt 185 1).detect 0x42 d.val (BitVec.ofNat 32 d.val) 0 := ⟨_, rfl⟩
  have hexec : exec (.pmTimeout d) s = .next (v.domUnavail d.val).settle := by
    change execPmTimeout d s = _
    unfold execPmTimeout
    dsimp only
    rw [show (s.begin.dom d.val).req = some op from h, hv, ht]
  have hflag : v.flag .pwr 0x40 1 = true := by
    rw [hv]
    exact detect_keeps_flag _ _ _ _ _ _ _ _
      ((flag_of_regs (t.setFlag .pwr 0x40 1) _ _ _ _ rfl).trans (flag_setFlag t .pwr 0x40 1 (by decide)))
  obtain ⟨hdom, hkept⟩ := domUnavail_effect v d.val
  refine ⟨_, hexec, ?_, ?_, hkept _ _ _ hflag⟩ <;> rw [hdom]
/-- The end of a THAW that took too long is flagged and counted; nothing else. -/
theorem thawLate_effect (s : State) (late : Bool) :
    (s.when late (fun s => (s.setFlag .pwr 0x40 5).evt 183 1)).counted 183 = s.counted 183 + b2n late ∧
    (s.when late (fun s => (s.setFlag .pwr 0x40 5).evt 183 1)).pwr = s.pwr ∧
    (s.when late (fun s => (s.setFlag .pwr 0x40 5).evt 183 1)).sys = s.sys := by
  cases late
  · exact ⟨rfl, rfl, rfl⟩
  · refine ⟨?_, rfl, rfl⟩
    show ((s.setFlag .pwr 0x40 5).evt 183 1).counted 183 = _
    rw [counted_evt]
    rfl
theorem seeded_of_sys (s t : State) (d : Nat) (h : t.sys = s.sys) : t.seeded d = s.seeded d := by
  unfold State.seeded
  rw [h]
theorem thawTests_keeps (s : State) (d : Nat) : (s.thawTests d).pwr = s.pwr ∧ (s.thawTests d).counted = s.counted := by
  unfold State.thawTests
  (repeat' split) <;> exact ⟨rfl, rfl⟩
theorem thawEnd_passed (s : State) (d : Nat) (late : Bool) (h : s.seeded d = true) :
    (s.thawEnd d true late).dom d = { s.dom d with season := .summer } ∧
    (s.thawEnd d true late).counted 183 = s.counted 183 + b2n late := by
  unfold State.thawEnd
  obtain ⟨hc, hp, hs⟩ := thawLate_effect s late
  obtain ⟨t, ht⟩ : ∃ t, t = s.when late (fun s => (s.setFlag .pwr 0x40 5).evt 183 1) := ⟨_, rfl⟩
  rw [← ht] at hc hp hs ⊢
  obtain ⟨hk, hn⟩ := thawTests_keeps (t.modDom d (fun m => { m with season := .summer })) d
  simp only [seeded_of_sys s t d hs, h, Bool.not_true, Bool.false_eq_true, if_false, if_true]
  exact ⟨(dom_of_pwr _ _ _ hk).trans ((dom_modDom _ _ _).trans (by rw [dom_of_pwr _ _ _ hp])), (congrFun hn 183).trans hc⟩
theorem thawEnd_failed (s : State) (d : Nat) (late : Bool) (h : s.seeded d = true) :
    ((s.thawEnd d false late).dom d).season = .winter ∧ ((s.thawEnd d false late).dom d).unavail = true := by
  unfold State.thawEnd
  obtain ⟨-, hp, hs⟩ := thawLate_effect s late
  obtain ⟨t, ht⟩ : ∃ t, t = s.when late (fun s => (s.setFlag .pwr 0x40 5).evt 183 1) := ⟨_, rfl⟩
  rw [← ht] at hp hs ⊢
  simp only [seeded_of_sys s t d hs, h, Bool.not_true, Bool.false_eq_true, if_false]
  obtain ⟨hdom, -⟩ := domUnavail_effect (t.modDom d (fun m => { m with season := .winter })) d
  obtain ⟨hdet, -⟩ := onward_detect ((t.modDom d (fun m => { m with season := .winter })).domUnavail d) 0x46 d (BitVec.ofNat 32 d) 0
  rw [dom_of_pwr _ _ _ hdet, hdom, dom_modDom]
  exact ⟨rfl, rfl⟩
/-- The end of a THAW waits for the seeding (R286). -/
theorem thawEnd_unseeded (s : State) (d : Nat) (pass late : Bool) (h : s.seeded d = false) :
    (s.thawEnd d pass late).dom d = s.dom d := by
  unfold State.thawEnd
  obtain ⟨-, hp, hs⟩ := thawLate_effect s late
  obtain ⟨t, ht⟩ : ∃ t, t = s.when late (fun s => (s.setFlag .pwr 0x40 5).evt 183 1) := ⟨_, rfl⟩
  rw [← ht] at hp hs ⊢
  simp only [seeded_of_sys s t d hs, h, Bool.not_false, if_true]
  exact dom_of_pwr _ _ _ hp
theorem exec_domainThawDone (d : Fin 54) (pass late : Bool) (s : State) (hd : isSliceDom d.val = false)
    (ht : (s.dom d.val).season = .thaw) (hq : (s.dom d.val).req = none) :
    exec (.domainThawDone d pass late) s = .next (s.begin.thawEnd d.val pass late).settle := by
  change execDomainThawDone d pass late s = _
  unfold execDomainThawDone
  simp only [hd, show (s.begin.dom d.val).season = .thaw from ht, show (s.begin.dom d.val).req = none from hq, Option.isNone_none,
    and_self, Bool.false_eq_true, if_false, if_true]

/-- Settles O34: each answer by the lemma about what the power manager's answer does to its domain. -/
theorem powerManagerAnswers : Obligations.PowerManagerAnswers := by
  unfold Obligations.PowerManagerAnswers
  refine ⟨?_, ?_, ?_, ?_, ?_, ?_, ?_, ?_, ?_⟩
  · intro d s hd hq hw
    exact ⟨_, exec_pmAck d true _ s hq, pmDone_slept s.begin d.val _ (sleepOp_sleeps _) hd hw⟩
  · intro n d s hdn hq hst
    have h := pmDone_sliceOff s.begin n.val n.isLt (by rw [show (s.begin.sl n.val).st = .autumn from hst]; decide)
    rw [← hdn] at h
    exact ⟨_, exec_pmAck d true _ s hq, h⟩
  · intro n d a b rest s hdn hq hst hs
    have h := pmDone_sliceOn s.begin n.val n.isLt a b rest hst hs
    rw [← hdn] at h
    exact ⟨_, exec_pmAck d true _ s hq, h⟩
  · intro d op s hq
    exact ⟨_, exec_pmAck d false op s hq, pmRefused_effect s.begin d.val op⟩
  · intro d s hd hr ha hn hq hdr hu ho
    refine ⟨s.begin.pmAgain d.val, ?_, pmAgain_autumn s.begin d.val hd ha hn hq hdr hu ho⟩
    change execPmRetry d s = _
    unfold execPmRetry
    dsimp only
    rw [show (s.begin.dom d.val).refused = true from hr, if_pos rfl]
  · exact pmTimeout_effect
  · intro d late s hd ht hq hs
    exact ⟨_, exec_domainThawDone d true late s hd ht hq, thawEnd_passed s.begin d.val late hs⟩
  · intro d late s hd ht hq hs
    exact ⟨_, exec_domainThawDone d false late s hd ht hq, thawEnd_failed s.begin d.val late hs⟩
  · intro d pass late s hd ht hq hs
    exact ⟨_, exec_domainThawDone d pass late s hd ht hq, thawEnd_unseeded s.begin d.val pass late hs⟩

end Sys2Proof.Machine
end

section
/-! PROOFS. Slices: drained, tested, rotated and taken out of service (R134, R135, R137, R138, R305). -/
namespace Sys2Proof.Machine

/-! ### A slice enters a state -/

theorem rsvLeave_none (s : State) (n : Nat) (h : n ∉ s.rsv (isIng n)) : s.rsvLeave n = s := by
  unfold State.rsvLeave
  dsimp only
  rw [if_neg h]
/-- A slice enters a state; one that enters HELD or FAULTED without the reserve role changes nothing else. -/
theorem slEnter_sl (s : State) (n : Nat) (st : SlState) (h : st = .held ∨ st = .faulted → n ∉ s.rsv (isIng n)) :
    (s.slEnter n st).sl n = { s.sl n with st := st } := by
  obtain ⟨t, ht⟩ : ∃ t, t = (s.modSl n (fun c => { c with st := st })).modDom (n + 4) (fun m =>
    if m.want = some .off then { m with want := none } else m) := ⟨_, rfl⟩
  have hsl : t.sl n = { s.sl n with st := st } := by
    rw [ht]
    exact sl_modSl s n _
  have hrsv : t.rsv = s.rsv := by rw [ht]; rfl
  unfold State.slEnter
  rw [← ht]
  cases st
  case summer => exact ((rsvReturn_sl t n).2 n).trans hsl
  case held => exact (congrArg (fun u => State.sl u n) (rsvLeave_none t n (hrsv ▸ h (.inl rfl)))).trans hsl
  case faulted => exact (congrArg (fun u => State.sl u n) (rsvLeave_none t n (hrsv ▸ h (.inr rfl)))).trans hsl
  all_goals exact hsl
theorem seedTest_sl (s : State) (n k : Nat) : (s.seedTest n).sl k = s.sl k := by
  have hseed : (s.seedGen n).sl k = s.sl k := sl_of_slices _ _ _ (seedGenFrom_pwr s s.seedsFree n).2
  exact (when_keeps (fun s => s.sl k) (·.evt 120 1) (fun _ => rfl) _ _).trans hseed
/-- A slice enters a state in which it keeps the reserve role, leaving registers and outputs. -/
theorem slEnter_regs (s : State) (n : Nat) (st : SlState) (h : st ≠ .held ∧ st ≠ .faulted ∨ n ∉ s.rsv (isIng n)) :
    (s.slEnter n st).unpowered = s.unpowered ∧ (s.slEnter n st).out = s.out := by
  obtain ⟨t, ht⟩ : ∃ t, t = (s.modSl n (fun c => { c with st := st })).modDom (n + 4) (fun m =>
    if m.want = some .off then { m with want := none } else m) := ⟨_, rfl⟩
  have hkeep : t.unpowered = s.unpowered ∧ t.out = s.out := by
    rw [ht]
    exact ⟨rfl, rfl⟩
  have hrsv : t.rsv = s.rsv := by rw [ht]; rfl
  have hleave : n ∉ s.rsv (isIng n) → t.rsvLeave n = t := fun hn => rsvLeave_none t n (hrsv ▸ hn)
  unfold State.slEnter
  rw [← ht]
  dsimp only
  cases st
  case summer =>
    refine ⟨(rsvReturn_unpowered t n).trans hkeep.1, Eq.trans ?_ hkeep.2⟩
    show (t.rsvReturn n).out = t.out
    unfold State.rsvReturn State.setRsv
    dsimp only
    split
    · split
      · rfl
      · cases isIng n <;> rfl
    · rfl
  case held =>
    rw [← hleave (h.resolve_left fun e => e.1 rfl)] at hkeep
    exact hkeep
  case faulted =>
    rw [← hleave (h.resolve_left fun e => e.2 rfl)] at hkeep
    exact hkeep
  all_goals exact hkeep

/-! ### Drained slices -/

theorem slDrained_test (s : State) (n : Nat) (he : s.slEmpty n = true) (hst : (s.sl n).st = .drain)
    (hm : (s.sl n).maskFault = false) (hv : (s.sl n).svcOut = false) (hr : (s.sl n).rotPending = true) :
    (s.slDrained n).sl n = { s.sl n with st := .test, byTestRun := false } := by
  have hdrained : s.slDrained n = ((s.modSl n (fun c => { c with byTestRun := false })).slEnter n .test).seedTest n := by
    unfold State.slDrained
    simp only [he, hst, hm, hv, hr, Bool.not_true, Bool.false_eq_true, if_false, if_true]
  rw [hdrained, seedTest_sl, slEnter_sl _ _ _ (fun h => by simp at h), sl_modSl]
theorem slDrained_off (s : State) (n : Nat) (he : s.slEmpty n = true) (hst : (s.sl n).st = .autumn)
    (hq : (s.dom (n + 4)).req = none) (hu : (s.dom (n + 4)).unavail = false) (hr : (s.dom (n + 4)).refused = false)
    (ho : s.pmOut < 8) : (s.slDrained n).out = s.out ++ [.pm (n + 4) .off] ∧ ((s.slDrained n).dom (n + 4)).req = some .off := by
  have hdrained : s.slDrained n = s.pmTry (n + 4) .off := by
    unfold State.slDrained
    simp only [he, hst, hq, Bool.not_true, Bool.false_eq_true, Option.isNone_none, if_false, if_true]
  rw [hdrained, pmTry_sleep s (n + 4) .off rfl hq hu hr ho]
  exact ⟨rfl, congrArg Dom.req (dom_modDom _ _ _)⟩

/-! ### Tests -/

/-- A slice in TEST that has been seeded has run its test. -/
theorem slTested_test (s : State) (n : Nat) (pass : Bool) (hst : (s.sl n).st = .test) (hm : n ∉ s.sys.maskLate) :
    s.slTested n pass false = if pass then s.slPassed n else s.slFailed n := by
  unfold State.slTested
  simp [hst, hm]
theorem slPassed_summer (s : State) (n : Nat) (hst : (s.sl n).st = .test) (hv : (s.sl n).svcOut = false)
    (hb : (s.sl n).byTestRun = false) (hw : (s.sl n).testWake = false) : (s.slPassed n).sl n = { s.sl n with
      st := .summer, katPass := true, testAt := some s.sys.aoClk, byTestRun := false, rotPending := false } := by
  have hpassed : s.slPassed n = (s.modSl n (fun c => { c with
      katPass := true, testAt := some s.sys.aoClk, byTestRun := false, rotPending := false, testWake := false })).slEnter n .summer := by
    unfold State.slPassed
    simp only [hst, hv, hb, hw, Bool.and_false, Bool.or_self, Bool.false_eq_true, if_false, Bool.false_and, when_false]
  rw [hpassed, slEnter_sl _ _ _ (fun h => by simp at h), sl_modSl, ← hw]
theorem detect_sl (s : State) (det inst k : Nat) (a b : W32) : (s.detect det inst a b).sl k = s.sl k := by
  unfold State.detect State.detectAs
  dsimp only
  split <;> rfl
theorem slFailed_effect (s : State) (n : Fin 40) (hn : n.val ∉ s.rsv (isIng n.val)) (hr : s.resetOn (.slice n) = false) :
    (s.slFailed n.val).flag (.slice n.val) 0x40 1 = true ∧ (s.slFailed n.val).counted 7 = s.counted 7 + 1 ∧
    (s.slFailed n.val).sl n.val = { s.sl n.val with
      st := .faulted, katPass := false, byTestRun := false, rotPending := false, testWake := false } := by
  obtain ⟨t, ht⟩ : ∃ t, t = s.modSl n.val (fun c => { c with
    katPass := false, byTestRun := false, rotPending := false, testWake := false }) := ⟨_, rfl⟩
  have htn : n.val ∉ t.rsv (isIng n.val) := by
    rw [ht]
    exact hn
  obtain ⟨hu, -⟩ := slEnter_regs t n.val .faulted (.inr htn)
  have hur : (t.slEnter n.val .faulted).resetOn (.slice n) = false := by
    have hregs : (t.slEnter n.val .faulted).regs = t.regs := (congrArg (fun v => v.1.regs) hu :)
    unfold State.resetOn at hr ⊢
    rw [hregs, ht]
    exact hr
  have hdef : s.slFailed n.val = ((t.slEnter n.val .faulted).setFlag (.slice n.val) 0x40 1).detect0 0x08 n.val := by
    unfold State.slFailed
    rw [← ht, Fin.ofNat_val_eq_self]
    simp only [hr, hur, Bool.not_false, when_true, when_false]
  rw [hdef]
  refine ⟨detect_keeps_flag _ _ _ _ _ _ _ _ (flag_setFlag _ _ _ _ (by decide)), ?_, ?_⟩
  · refine (counted_detect0 _ 0x08 n.val).trans (congrArg (· + 1) ?_)
    refine (counted_of_unpowered t _ 7 (by decide) hu :).trans ?_
    rw [ht]
    rfl
  · refine (detect_sl _ _ _ _ _ _).trans ((slEnter_sl t n.val .faulted (fun _ => htn)).trans ?_)
    rw [ht, sl_modSl]
theorem rotTry_summer (s : State) (n : Nat) (hst : (s.sl n).st = .summer) : (s.rotTry n).sl n =
    if s.rotAllowed n = true ∧ s.rotBusy (isIng n) = false
      then { s.sl n with st := .drain, rotPending := true, postponed := none }
      else { s.sl n with postponed := some ((s.sl n).postponed.getD s.sys.aoClk) } := by
  unfold State.rotTry
  rw [if_neg (by rw [hst]; simp), if_neg (by rw [hst]; simp)]
  split
  · exact sl_modSl _ _ _
  · exact sl_modSl _ _ _

/-! ### SL_CTL -/

theorem slCtl_row (n : Fin 40) : rowAt (.slice n.val) 0x80 = some { off := 0x80, rw := 0x1, w1s := 0x4, wo := 0x2 } := by
  revert n
  decide
/-- A write of SL_CTL that nothing stands against is answered and carried out. -/
theorem slCtl_through (n : Fin 40) (data : W32) (s : State) (hf : s.free (.slice n.val) = true) :
    (s.begin).through (.slice n.val) 0x80 data (·.slCtl n.val data) = (s.begin.emit (.cpDone false)).slCtl n.val data :=
  through_plain s.begin (.slice n.val) 0x80 data _ _ (slCtl_row n) hf rfl rfl rfl rfl rfl
theorem exec_svcOut (n : Fin 40) (data : W32) (s : State) (hf : s.free (.slice n.val) = true) (h0 : bit data 0 = true)
    (h2 : bit data 2 = false) :
    exec (.svcOut n data) s = .next ((s.begin.emit (.cpDone false)).svcSet n.val (bit data 1)).settle := by
  change execSvcOut n data s = _
  unfold execSvcOut
  rw [slCtl_through n data s hf]
  unfold State.slCtl
  simp only [h0, h2, if_true, Bool.false_and, when_false]
theorem svcSet_drain (s : State) (n : Nat) (f : Bool) (hv : (s.sl n).svcOut = false) (hr : s.svcRefused n f = false)
    (hst : (s.sl n).st = .summer) :
    (s.svcSet n f).sl n = { s.sl n with svcOut := true, st := .drain } ∧ (s.svcSet n f).out = s.out := by
  obtain ⟨t, ht⟩ : ∃ t, t = s.modSl n (fun c => { c with svcOut := true }) := ⟨_, rfl⟩
  have hsl : t.sl n = { s.sl n with svcOut := true } := by rw [ht, sl_modSl]
  have hset : s.svcSet n f = t.slEnter n .drain := by
    unfold State.svcSet
    simp only [hv, hr, ← ht, hsl, hst, Bool.false_eq_true, if_false]
  rw [hset, slEnter_sl t n .drain (fun h => by simp at h), hsl]
  refine ⟨rfl, (slEnter_regs t n .drain (.inl (by decide))).2.trans ?_⟩
  rw [ht]
  rfl
theorem svcSet_refused (s : State) (n : Nat) (f : Bool) (hv : (s.sl n).svcOut = false) (hr : s.svcRefused n f = true) :
    s.svcSet n f = s.setFlag (.slice n) 0x40 0 := by
  unfold State.svcSet
  simp only [hv, hr, Bool.false_eq_true, if_false, if_true]
theorem exec_testRun (n : Fin 40) (data : W32) (s : State) (hf : s.free (.slice n.val) = true) (h0 : bit data 0 = true)
    (hv : (s.sl n.val).svcOut = true) (hst : (s.sl n.val).st = .held) :
    exec (.testRun n data) s = .next ((s.begin.emit (.cpDone false)).enterTest n.val true).settle := by
  obtain ⟨t, ht⟩ : ∃ t, t = s.begin.emit (.cpDone false) := ⟨_, rfl⟩
  have hsl : t.sl n.val = s.sl n.val := by rw [ht]; rfl
  have hbits : bit (data ||| 4) 0 = true ∧ bit (data ||| 4) 2 = true := by
    unfold bit at h0 ⊢
    simp [h0]
  change execTestRun n data s = _
  unfold execTestRun
  rw [slCtl_through n (data ||| 4) s hf, ← ht]
  unfold State.slCtl State.svcSet
  simp only [hbits, hsl, hv, hst, if_true, decide_true, Bool.and_self, when_true]
theorem enterTest_effect (s : State) (n : Nat) (b : Bool) :
    (s.enterTest n b).sl n = { s.sl n with st := .test, byTestRun := b, rotPending := false } ∧ (s.enterTest n b).out = s.out ∧
    (s.enterTest n b).regs = s.regs := by
  obtain ⟨t, ht⟩ : ∃ t, t = s.modSl n (fun c => { c with byTestRun := b, rotPending := false }) := ⟨_, rfl⟩
  obtain ⟨hu, ho⟩ := slEnter_regs t n .test (.inl (by decide))
  have hdef : s.enterTest n b = (t.slEnter n .test).seedTest n := by rw [ht]; rfl
  have hseed : ∀ u : State, (u.seedTest n).out = u.out ∧ (u.seedTest n).regs = u.regs := fun u => by
    have hgen : (u.seedGen n).out = u.out ∧ (u.seedGen n).regs = u.regs := by
      unfold State.seedGen State.seedGenFrom
      split <;> exact ⟨rfl, rfl⟩
    exact ⟨(when_keeps State.out (·.evt 120 1) (fun _ => rfl) _ _).trans hgen.1,
      (when_keeps State.regs (·.evt 120 1) (fun _ => rfl) _ _).trans hgen.2⟩
  rw [hdef, seedTest_sl, slEnter_sl t n .test (fun h => by simp at h)]
  refine ⟨?_, (hseed _).1.trans (ho.trans ?_), (hseed _).2.trans ((congrArg (fun v => v.1.regs) hu :).trans ?_)⟩
  · rw [ht, sl_modSl]
  · rw [ht]
    rfl
  · rw [ht]
    rfl

/-- Settles O35: each event of a slice by the lemma about the function that carries it out. -/
theorem slicesServed : Obligations.SlicesServed := by
  unfold Obligations.SlicesServed
  refine ⟨?_, ?_, ?_, ?_, ?_, ?_, ?_, ?_, ?_⟩
  · exact fun n s he hst hm hv hr => ⟨s.begin.slDrained n.val, rfl, slDrained_test s.begin n.val he hst hm hv hr⟩
  · exact fun n s he hst hq hu hr ho => ⟨s.begin.slDrained n.val, rfl, slDrained_off s.begin n.val he hst hq hu hr ho⟩
  · intro n s hst hv hb hw hm
    refine ⟨s.begin.slTested n.val true false, rfl, ?_⟩
    rw [slTested_test s.begin n.val true hst hm]
    exact slPassed_summer s.begin n.val hst hv hb hw
  · intro n s hst hn hm hr
    refine ⟨s.begin.slTested n.val false false, rfl, ?_⟩
    rw [slTested_test s.begin n.val false hst hm]
    exact slFailed_effect s.begin n hn hr
  · exact fun n s hst => ⟨s.begin.rotTry n.val, rfl, rotTry_summer s.begin n.val hst⟩
  · intro n s hst ht
    refine ⟨s.begin.detect0 0x0A n.val, ?_, counted_detect0 s.begin 0x0A n.val⟩
    change execTestLate n s = _
    unfold execTestLate
    simp only [show decide ((s.begin.sl n.val).st ≠ .winter) = true from decide_eq_true hst,
      show (s.begin.sl n.val).testAt.isSome = true from ht, Bool.and_self, if_true]
  · intro n data s hf h0 h2 hv hr hst
    obtain ⟨hsl, hout⟩ := svcSet_drain (s.begin.emit (.cpDone false)) n.val (bit data 1) hv hr hst
    exact ⟨_, exec_svcOut n data s hf h0 h2, hout, hsl⟩
  · intro n data s hf h0 h2 hv hr
    refine ⟨_, exec_svcOut n data s hf h0 h2, ?_⟩
    rw [svcSet_refused (s.begin.emit (.cpDone false)) n.val (bit data 1) hv hr]
    exact ⟨rfl, rfl, flag_setFlag _ _ _ _ (by decide)⟩
  · intro n data s hf h0 hv hst
    obtain ⟨hsl, hout, -⟩ := enterTest_effect (s.begin.emit (.cpDone false)) n.val true
    exact ⟨_, exec_testRun n data s hf h0 hv hst, hout, hsl⟩

end Sys2Proof.Machine
end

section
/-! PROOFS. Faults of a slice: the slice goes to FAULTED and voids its frames, a masking fault drains it, the automatic repair
resets it (R20, R129, R132, R134, R138, R311). -/
namespace Sys2Proof.Machine

/-! ### What the end of frames does to slices and their frames -/

/-- A frame of a number works in a slice. -/
def State.working (s : State) (n id : Nat) : Prop := ∃ f ∈ s.dp.frames, f.id = id ∧ f.inSl n = true ∧ f.void_ = false
/-- No further frame works in the slice, slices have changed in their suspended contexts only, and the reserve role has stayed. -/
def State.eases (n : Nat) (s t : State) : Prop :=
  t.rsv = s.rsv ∧ (∀ k, { t.sl k with susp := none } = { s.sl k with susp := none }) ∧ ∀ id, t.working n id → s.working n id
theorem eases_refl (n : Nat) (s : State) : s.eases n s := ⟨rfl, fun _ => rfl, fun _ h => h⟩
theorem State.eases.trans {n : Nat} {s t u : State} (h : s.eases n t) (k : t.eases n u) : s.eases n u :=
  ⟨k.1.trans h.1, fun i => (k.2.1 i).trans (h.2.1 i), fun id w => h.2.2 id (k.2.2 id w)⟩
/-- Frames that are left out. -/
theorem eases_of_mem (n : Nat) (s t : State) (hs : t.slices = s.slices) (hf : ∀ f ∈ t.dp.frames, f ∈ s.dp.frames) :
    s.eases n t :=
  ⟨by unfold State.rsv; rw [hs], fun k => by rw [sl_of_slices s t k hs], fun _ ⟨f, hm, h⟩ => ⟨f, hf f hm, h⟩⟩
theorem eases_of_frames (n : Nat) (s t : State) (hs : t.slices = s.slices) (hf : t.dp.frames = s.dp.frames) : s.eases n t :=
  eases_of_mem n s t hs (fun _ hm => hf ▸ hm)
/-- A change of each frame after which it works in the slice only if it did before. -/
theorem eases_modAll (n : Nat) (s : State) (g : Frame → Frame) (hg : ∀ f, (g f).id = f.id ∧
    ((g f).inSl n = true → (g f).void_ = false → f.inSl n = true ∧ f.void_ = false)) :
    s.eases n (s.modDp (fun d => { d with frames := d.frames.map g })) := by
  refine ⟨rfl, fun _ => rfl, ?_⟩
  rintro id ⟨f, hm, hid, hin, hv⟩
  obtain ⟨x, hx, rfl⟩ := List.mem_map.mp hm
  obtain ⟨hin', hv'⟩ := (hg x).2 hin hv
  exact ⟨x, hx, (hg x).1.symm.trans hid, hin', hv'⟩
theorem eases_modFrame (n : Nat) (s : State) (id : Nat) (g : Frame → Frame) (hg : ∀ f, (g f).id = f.id ∧
    ((g f).inSl n = true → (g f).void_ = false → f.inSl n = true ∧ f.void_ = false)) : s.eases n (s.modFrame id g) := by
  refine eases_modAll n s (fun f => if f.id = id then g f else f) (fun f => ?_)
  by_cases hid : f.id = id
  · simp only [hid, if_true]
    exact hid ▸ hg f
  · simp only [hid, if_false]
    exact ⟨trivial, fun h k => ⟨h, k⟩⟩
theorem eases_forEach {α : Type} (n : Nat) (f : State → α → State) (h : ∀ (s : State) a, s.eases n (f s a)) (l : List α) (s : State) :
    s.eases n (s.forEach l f) := forEach_inv (s.eases n ·) f (fun t a ht => ht.trans (h t a)) l s (eases_refl n s)
theorem eases_when (n : Nat) (s : State) (c : Bool) (f : State → State) (h : ∀ s : State, s.eases n (f s)) : s.eases n (s.when c f) := by
  cases c
  · exact eases_refl n s
  · exact h s
theorem eases_rseReturn (n : Nat) (s : State) (f : Frame) : s.eases n (s.rseReturn f) := by
  unfold State.rseReturn
  split
  · refine (eases_modFrame n s f.id (fun g => { g with paid := max g.paid f.segsIn }) (fun g => ⟨rfl, fun h k => ⟨h, k⟩⟩)).trans ?_
    unfold State.payRse
    split <;> exact eases_of_frames _ _ _ rfl rfl
  · exact eases_refl n s
theorem eases_sendTicket (n : Nat) (s : State) (f : Frame) (k : Nat) (v : Bool) : s.eases n (s.sendTicket f k v) := by
  unfold State.sendTicket
  split <;> exact eases_of_frames _ _ _ rfl rfl
theorem eases_passTry (n : Nat) (s : State) (f : Frame) : s.eases n (s.passTry f) := by
  unfold State.passTry
  split
  · refine ((eases_modFrame n s f.id (fun g => { g with stage := .written }) (fun _ => ⟨rfl, fun h => ?_⟩)).trans
      (eases_sendTicket n _ f 63 false)).trans (eases_rseReturn n _ f)
    exact absurd h Bool.false_ne_true
  · exact eases_refl n s
theorem eases_passAll (n : Nat) (s : State) (p : Frame → Bool) : s.eases n (s.passAll p) := by
  unfold State.passAll
  refine eases_forEach n _ (fun s id => ?_) _ s
  split
  · exact eases_passTry n s _
  · exact eases_refl n s
theorem eases_setTicket (n : Nat) (s : State) (id k : Nat) : s.eases n (s.setTicket id k) :=
  (eases_modFrame n s id (fun f => { f with ticket := some (Tab.get 0 s.dp.ticketNext k % 4096) })
    (fun _ => ⟨rfl, fun h k => ⟨h, k⟩⟩)).trans (eases_of_frames n _ _ rfl rfl)
theorem eases_nextTicket (n : Nat) (s : State) (k : Nat) : s.eases n (s.nextTicket k) := by
  unfold State.nextTicket
  refine eases_forEach n _ (fun s id => ?_) _ s
  dsimp only
  split
  · split
    · exact (eases_setTicket n s id k).trans (eases_passTry n _ _)
    · exact eases_setTicket n s id k
  · exact eases_refl n s
theorem mem_sweepVoid (k : Nat) (l : List Frame) (f : Frame) (h : f ∈ sweepVoid k l) : f ∈ l := by
  induction l with
  | nil => exact h
  | cons a l ih =>
    unfold sweepVoid at h
    split at h
    · split at h
      · exact List.mem_cons_of_mem _ (ih h)
      · exact h
    · exact (List.mem_cons.mp h).elim (fun e => e ▸ List.mem_cons_self) (fun h => List.mem_cons_of_mem _ (ih h))
/-- After tickets have been released the next frames take them and go on. -/
theorem eases_after (n : Nat) (s : State) (k : Nat) (c : Bool) (p : Frame → Bool) : s.eases n ((s.nextTicket k).when c (·.passAll p)) :=
  (eases_nextTicket n s k).trans (eases_when n _ c (fun s => s.passAll p) (fun s => eases_passAll n s p))
/-- A frame that is removed works no more. -/
theorem removeFrame_eases (n : Nat) (s : State) (f : Frame) : s.eases n (s.removeFrame f) ∧ ¬ (s.removeFrame f).working n f.id := by
  obtain ⟨t, ht⟩ : ∃ t, t = s.modDp (fun d => { d with
    frames := sweepVoid f.key_ (d.frames.filter (fun g => decide (g.id ≠ f.id))) }) := ⟨_, rfl⟩
  have hmem : ∀ g ∈ t.dp.frames, g ∈ s.dp.frames ∧ g.id ≠ f.id := fun g hg => by
    rw [ht] at hg
    have hin := List.mem_filter.mp (mem_sweepVoid _ _ _ hg)
    exact ⟨hin.1, of_decide_eq_true hin.2⟩
  have hst : s.eases n t := eases_of_mem n s t (by rw [ht]; rfl) (fun g hg => (hmem g hg).1)
  have hend : t.eases n (s.removeFrame f) := by
    unfold State.removeFrame
    rw [← ht]
    exact eases_after n t _ _ _
  refine ⟨hst.trans hend, fun hw => ?_⟩
  obtain ⟨g, hg, hid, -⟩ := hend.2.2 _ hw
  exact (hmem g hg).2 hid
/-- So does one that is voided. -/
theorem voidFrame_eases (n : Nat) (s : State) (f : Frame) : s.eases n (s.voidFrame f) ∧ ¬ (s.voidFrame f).working n f.id := by
  unfold State.voidFrame
  extract_lets src t
  split
  · exact removeFrame_eases n s f
  · have ht : s.eases n t := (eases_sendTicket n s f src true).trans (eases_modFrame n _ f.id _ (fun g => ⟨rfl, fun _ h => by simp at h⟩))
    have hno : ¬ t.working n f.id := by
      rintro ⟨g, hg, hid, hin, hv⟩
      obtain ⟨x, -, rfl⟩ := List.mem_map.mp hg
      by_cases hx : x.id = f.id
      · simp only [hx, if_true] at hv
        exact absurd hv (by decide)
      · simp only [hx, if_false] at hid
    have hsweep : t.eases n (t.modDp (fun d => { d with frames := sweepVoid f.key_ d.frames })) :=
      eases_of_mem n _ _ rfl (fun g hg => mem_sweepVoid _ _ _ hg)
    have hend := hsweep.trans (eases_after n _ f.key_ (decide (f.dir = .ingress)) (fun g => decide (g.dir = .ingress)))
    exact ⟨ht.trans hend, fun hw => hno (hend.2.2 _ hw)⟩
theorem eases_leaveSlice (n : Nat) (s : State) (f : Frame) : s.eases n (s.leaveSlice f) := by
  unfold State.leaveSlice
  split
  · split
    · next k _ _ _ =>
      unfold State.resume
      extract_lets back
      refine State.eases.trans (t := s.modSl k (fun c => { c with susp := none })) ⟨rfl, fun j => ?_, fun _ h => h⟩ ?_
      · by_cases hj : j = k
        · rw [hj, sl_modSl]
        · rw [sl_modSl_ne _ _ _ _ hj]
      · refine eases_modAll n _ (fun g => if g.inSl k then { g with suspended := false, issued := back g } else g) (fun g => ?_)
        by_cases hg : g.inSl k = true
        · simp only [hg, if_true]
          exact ⟨trivial, fun h j => ⟨h, j⟩⟩
        · simp only [hg, Bool.false_eq_true, if_false]
          exact ⟨trivial, fun h j => ⟨h, j⟩⟩
    · exact eases_refl n s
  · exact eases_refl n s
theorem eases_addStub (n : Nat) (s : State) (f : Frame) : s.eases n (s.addStub f) := by
  unfold State.addStub
  split <;> exact eases_of_frames n _ _ rfl rfl
theorem eases_sendEof (n : Nat) (s : State) (f : Frame) (b : Bytes) (c : Code) : s.eases n (s.sendEof f b c) := by
  unfold State.sendEof
  split <;> exact eases_of_frames n _ _ rfl rfl
/-- A frame that is ended works no more. -/
theorem endFrame_eases (n : Nat) (s : State) (f : Frame) (c : Code) (ctr : Option Nat) :
    s.eases n (s.endFrame f c ctr) ∧ ¬ (s.endFrame f c ctr).working n f.id := by
  unfold State.endFrame
  extract_lets s1 s2 s3 k
  have h1 : s.eases n s1 := by
    simp only [s1]
    split <;> exact eases_of_frames n _ _ rfl rfl
  have h2 : s1.eases n s2 := eases_when n s1 _ (fun s => s.rseReturn f) (fun s => eases_rseReturn n s f)
  have h3 : s2.eases n s3 := (eases_leaveSlice n s2 f).trans (eases_addStub n _ f)
  have h := h1.trans (h2.trans h3)
  clear_value s3
  split
  · obtain ⟨hr, hno⟩ := removeFrame_eases n (s3.draw.refund f k) f
    have he := eases_sendEof n ((s3.draw.refund f k).removeFrame f) f [] c
    exact ⟨h.trans ((eases_of_frames n s3 _ rfl rfl).trans (hr.trans he)), fun hw => hno (he.2.2 _ hw)⟩
  · obtain ⟨hv, hno⟩ := voidFrame_eases n s3 f
    exact ⟨h.trans hv, hno⟩
/-- A slice whose frames are stomped has none that works. -/
theorem stomp_slice (s : State) (n : Nat) : s.eases n (s.stomp (fun f => f.inSl n)) ∧
    ∀ f ∈ (s.stomp (fun f => f.inSl n)).dp.frames, f.inSl n = true → f.void_ = true := by
  have hloop : ∀ (l : List Nat) (s : State), (∀ id, s.working n id → id ∈ l) →
      s.eases n (s.forEach l (fun s id => match s.frame id with | some f => s.endFrame f .fault (faultCtr f) | none => s)) ∧
      ∀ id, ¬ (s.forEach l (fun s id => match s.frame id with
        | some f => s.endFrame f .fault (faultCtr f) | none => s)).working n id := by
    intro l
    induction l with
    | nil => exact fun s h => ⟨eases_refl n s, fun id hw => List.not_mem_nil (h id hw)⟩
    | cons a l ih =>
      intro s h
      have hstep : s.eases n (match s.frame a with | some f => s.endFrame f .fault (faultCtr f) | none => s) ∧
          ¬ (match s.frame a with | some f => s.endFrame f .fault (faultCtr f) | none => s).working n a := by
        split
        · next f hf => exact (frame_some s a f hf).2.1 ▸ endFrame_eases n s f .fault (faultCtr f)
        · next hf =>
          refine ⟨eases_refl n s, ?_⟩
          rintro ⟨g, hg, hid, -, hv⟩
          have hnone := List.find?_eq_none.mp hf g hg
          simp [hid, hv] at hnone
      obtain ⟨he, hno⟩ := ih _ (fun id hw => (List.mem_cons.mp (h id (hstep.1.2.2 id hw))).resolve_left
        fun e => hstep.2 (e ▸ hw))
      exact ⟨hstep.1.trans he, hno⟩
  obtain ⟨he, hno⟩ := hloop ((s.dp.frames.filter (fun f => f.inSl n && !f.void_)).map (·.id)) s (fun id => by
    rintro ⟨f, hf, hid, hin, hv⟩
    exact List.mem_map.mpr ⟨f, List.mem_filter.mpr ⟨hf, by rw [hin, hv]; rfl⟩, hid⟩)
  refine ⟨he, fun f hf hin => ?_⟩
  by_contra hv
  exact hno f.id ⟨f, hf, rfl, hin, Bool.eq_false_iff.mpr hv⟩

/-! ### The slice itself -/

theorem resetOn_of_resetting (s t : State) (q : Part) (h : t.regs.resetting = s.regs.resetting) : t.resetOn q = s.resetOn q := by
  unfold State.resetOn
  rw [h]
/-- A slice that goes down is FAULTED and clear, and its frames are void. -/
theorem sliceDown_effect (s : State) (n : Nat) (hn : n ∉ s.rsv (isIng n)) :
    ((s.sliceDown n).sl n).st = .faulted ∧ ((s.sliceDown n).sl n).susp = none ∧
    ∀ f ∈ (s.sliceDown n).dp.frames, f.inSl n = true → f.void_ = true := by
  obtain ⟨⟨hr, -, -⟩, hv⟩ := stomp_slice s n
  obtain ⟨t, ht⟩ : ∃ t, t = s.stomp (fun f => f.inSl n) := ⟨_, rfl⟩
  obtain ⟨u, hu⟩ : ∃ u, u = t.modSl n (fun c => { c with
    susp := none, maskFault := false, rotPending := false, byTestRun := false }) := ⟨_, rfl⟩
  have hdown : s.sliceDown n = u.slEnter n .faulted := by
    rw [hu, ht]
    rfl
  have hun : n ∉ u.rsv (isIng n) := by
    have hru : u.rsv = t.rsv := by rw [hu]; rfl
    rw [hru, ht, hr]
    exact hn
  have hsl : (u.sl n).susp = none := by rw [hu, sl_modSl]
  have hdp : (u.slEnter n .faulted).dp = t.dp := by
    have hup : (u.slEnter n .faulted).dp = u.dp := (congrArg (fun v => v.1.dp) (slEnter_regs u n .faulted (.inr hun)).1 :)
    rw [hup, hu]
    rfl
  rw [hdown, slEnter_sl u n .faulted (fun _ => hun), hdp, ht]
  exact ⟨rfl, hsl, hv⟩
theorem detectAs_keeps (s : State) (inj : Bool) (det inst : Nat) (a b : W32) : (s.detectAs inj det inst a b).rsv = s.rsv ∧
    (s.detectAs inj det inst a b).regs.resetting = s.regs.resetting ∧ (s.detectAs inj det inst a b).sl = s.sl ∧
    (s.detectAs inj det inst a b).dp = s.dp ∧ (s.detectAs inj det inst a b).pwr = s.pwr := by
  unfold State.detectAs
  dsimp only
  split <;> exact ⟨rfl, rfl, rfl, rfl, rfl⟩
theorem sliceFault_effect (s : State) (n : Fin 40) (det : Nat) (hr : s.resetOn (.slice n) = false)
    (hn : n.val ∉ s.rsv (isIng n.val)) :
    ((s.sliceFault false n.val det).sl n.val).st = .faulted ∧ ((s.sliceFault false n.val det).sl n.val).susp = none ∧
    ∀ f ∈ (s.sliceFault false n.val det).dp.frames, f.inSl n.val = true → f.void_ = true := by
  unfold State.sliceFault
  extract_lets t u
  obtain ⟨hrsv, hreset, -⟩ := detectAs_keeps s false det n.val (BitVec.ofNat 32 (s.slRecords n.val)) 0
  have hu : u.rsv = t.rsv ∧ u.regs.resetting = t.regs.resetting := by
    simp only [u]
    cases decide (det = 8) <;> exact ⟨rfl, rfl⟩
  have hur : u.resetOn (.slice (Fin.ofNat 40 n.val)) = false := by
    rw [resetOn_of_resetting _ _ _ (hu.2.trans hreset), Fin.ofNat_val_eq_self]
    exact hr
  rw [hur]
  exact sliceDown_effect u n.val (by rw [hu.1, hrsv]; exact hn)
theorem exec_sliceFault (n : Fin 40) (det : BitVec 8) (s : State)
    (hd : (1 ≤ det.toNat ∧ det.toNat ≤ 6) ∨ det.toNat = 8 ∨ det.toNat = 9) :
    exec (.sliceFault n det) s = .next (s.begin.sliceFault false n.val det.toNat).settle := by
  change execSliceFault n det s = _
  unfold execSliceFault
  dsimp only
  rw [if_pos hd]

/-! ### A masking fault -/

theorem maskDrain_serving (s : State) (n : Nat) (h : (s.sl n).st ∈ [SlState.summer, .autumn, .test, .drain]) :
    s.maskDrain n = (s.modSl n (fun c => { c with maskFault := true })).slEnter n .drain := by
  unfold State.maskDrain
  simp only [List.mem_cons, List.not_mem_nil, or_false] at h
  rcases h with e | e | e | e <;> rw [e]
theorem maskHalt_effect (s : State) (n : Fin 40) (hst : (s.sl n.val).st ∈ [SlState.summer, .autumn, .test, .drain])
    (hr : s.resetOn (.slice n) = false) :
    (s.maskHalt false n.val).sl n.val = { s.sl n.val with st := .drain, maskFault := true } ∧
    (s.maskHalt false n.val).flag (.slice n.val) 0x40 2 = true ∧ (s.maskHalt false n.val).counted 6 = s.counted 6 + 1 ∧
    (s.maskHalt false n.val).dp = s.dp := by
  obtain ⟨-, hreset, hsl, hdp, -⟩ := detectAs_keeps s false 0x07 n.val 0 0
  have hcnt : (s.detectAs false 0x07 n.val 0 0).counted 6 = s.counted 6 + 1 := counted_detect s false 0x07 n.val 0 0
  obtain ⟨t, ht⟩ : ∃ t, t = (s.detectAs false 0x07 n.val 0 0).setFlag (.slice n.val) 0x40 2 := ⟨_, rfl⟩
  have htsl : t.sl = s.sl := by
    rw [ht]
    exact hsl
  have htr : t.resetOn (.slice (Fin.ofNat 40 n.val)) = false := by
    rw [Fin.ofNat_val_eq_self, resetOn_of_resetting s t _ (by rw [ht]; exact hreset)]
    exact hr
  have htf : t.flag (.slice n.val) 0x40 2 = true := by
    rw [ht]
    exact flag_setFlag _ _ _ _ (by decide)
  obtain ⟨u, hu⟩ : ∃ u, u = t.modSl n.val (fun c => { c with maskFault := true }) := ⟨_, rfl⟩
  have hhalt : s.maskHalt false n.val = u.slEnter n.val .drain := by
    unfold State.maskHalt
    dsimp only
    rw [← ht, htr, hu, maskDrain_serving t n.val (by rw [htsl]; exact hst)]
    rfl
  have hp : (u.slEnter n.val .drain).unpowered = t.unpowered := (slEnter_regs u n.val .drain (.inl (by decide))).1.trans (by
    rw [hu]
    rfl)
  have husl : u.sl n.val = { s.sl n.val with maskFault := true } := by rw [hu, sl_modSl, htsl]
  rw [hhalt, slEnter_sl u n.val .drain (fun h => by simp at h), husl]
  refine ⟨rfl, (flag_of_regs t _ _ _ _ (congrArg (fun v => v.1.regs) hp :)).trans htf,
    (counted_of_unpowered t _ 6 (by decide) hp).trans ?_, (congrArg (fun v => v.1.dp) hp :).trans ?_⟩
  · rw [ht]
    exact hcnt
  · rw [ht]
    exact hdp

/-! ### The automatic repair -/

theorem get_filter {α : Type} (d : α) (m : Tab α) (p : Nat → Bool) (k : Nat) (hk : p k = true) :
    Tab.get d (m.filter (fun x => p x.1)) k = Tab.get d m k := by
  induction m with
  | nil => rfl
  | cons q m ih =>
    obtain ⟨a, v⟩ := q
    by_cases ha : k = a
    · subst ha
      rw [List.filter_cons_of_pos (by exact hk)]
      unfold Tab.get
      rw [if_pos rfl, if_pos rfl]
    · rw [List.filter_cons]
      split
      · unfold Tab.get
        rw [if_neg ha, if_neg ha]
        exact ih
      · rw [ih]
        conv_rhs => unfold Tab.get
        rw [if_neg ha]
/-- A register that the Clear phase keeps has its value after it. -/
theorem clearPages_cfg (s : State) (q : Part) (p : Page) (off : Nat) (h : keptAddr s.store.march.split (p.at off) = true) :
    (s.clearPages q).cfg p off = s.cfg p off := by
  unfold State.clearPages
  extract_lets split stays t u
  have hstay : stays (p.at off) = true := by
    simp only [stays, split, h, Bool.or_true]
  have hu : ∀ l, ((u.forEach l (fun s p => s.modHdr p (fun h => { epoch := h.epoch }))).regs.cfg = u.regs.cfg ∧
      (u.forEach l (fun s p => s.modHdr p (fun h => { epoch := h.epoch }))).regs.parBad = u.regs.parBad) := fun l => by
    refine ⟨forEach_keeps (fun s => s.regs.cfg) (fun s p => s.modHdr p (fun h => { epoch := h.epoch })) (fun s p => rfl) l u,
      forEach_keeps (fun s => s.regs.parBad) (fun s p => s.modHdr p (fun h => { epoch := h.epoch })) (fun s p => rfl) l u⟩
  have hc : u.regs.cfg = s.regs.cfg.filter (fun x => stays x.1) := rfl
  have hb : u.regs.parBad = s.regs.parBad.filter stays := rfl
  unfold State.cfg
  dsimp only
  rw [(hu _).1, (hu _).2, hc, hb, get_filter _ _ stays _ hstay]
  simp only [List.mem_filter, hstay, and_true]
theorem budget_kept (n : Fin 40) (split : Bool) : keptAddr split ((Page.slice n.val).at 0x88) = true := by
  revert n split
  decide
theorem clearPages_sl (s : State) (q : Part) : (s.clearPages q).slices = s.slices ∧ (s.clearPages q).pwr = s.pwr ∧
    (s.clearPages q).regs.resetting = s.regs.resetting := by
  unfold State.clearPages
  extract_lets split stays t u
  refine ⟨?_, ?_, ?_⟩
  · exact forEach_keeps State.slices (fun s p => s.modHdr p (fun h => { epoch := h.epoch })) (fun s p => rfl) _ u
  · exact forEach_keeps State.pwr (fun s p => s.modHdr p (fun h => { epoch := h.epoch })) (fun s p => rfl) _ u
  · exact forEach_keeps (fun s => s.regs.resetting) (fun s p => s.modHdr p (fun h => { epoch := h.epoch })) (fun s p => rfl) _ u
/-- The reset of a FAULTED slice leads to TEST and keeps its repair budget (R138, R309). -/
theorem resetSlice_faulted (s : State) (n : Fin 40) (hst : (s.sl n.val).st = .faulted) :
    ((s.resetSlice n.val).sl n.val).st = .test ∧ (s.resetSlice n.val).regs.resetting = s.regs.resetting ∧
    (s.resetSlice n.val).cfg (.slice n.val) 0x88 = s.cfg (.slice n.val) 0x88 := by
  obtain ⟨⟨-, hsl, -⟩, -⟩ := stomp_slice s n.val
  have hboard : (s.stomp (fun f => f.inSl n.val)).regs = s.regs := (congrArg Prod.fst (endFrames_board s _ _ _) :)
  obtain ⟨t, ht⟩ : ∃ t, t = (s.stomp (fun f => f.inSl n.val)).clearPages (.slice n) := ⟨_, rfl⟩
  obtain ⟨hcs, -, hcr⟩ := clearPages_sl (s.stomp (fun f => f.inSl n.val)) (.slice n)
  have htst : (t.sl n.val).st = .faulted := by
    rw [ht, sl_of_slices _ _ _ hcs]
    exact (congrArg Slice.st (hsl n.val) :).trans hst
  have hreset : s.resetSlice n.val = (t.modSl n.val (fun c => { st := c.st, winterAt := c.winterAt })).enterTest n.val false := by
    unfold State.resetSlice
    dsimp only
    rw [Fin.ofNat_val_eq_self, ← ht, if_neg (by rw [htst]; simp)]
  obtain ⟨he, -, hreg⟩ := enterTest_effect (t.modSl n.val (fun c => { st := c.st, winterAt := c.winterAt })) n.val false
  have htregs : (s.resetSlice n.val).regs = t.regs := by
    rw [hreset, hreg]
    rfl
  refine ⟨?_, ?_, ?_⟩
  · rw [hreset, he]
  · rw [htregs, ht, hcr, hboard]
  · have hcfg : (s.resetSlice n.val).cfg (.slice n.val) 0x88 = t.cfg (.slice n.val) 0x88 := by
      unfold State.cfg
      rw [htregs]
    rw [hcfg, ht, clearPages_cfg _ _ _ _ (budget_kept n _)]
    unfold State.cfg
    rw [hboard]
/-- A reset that nothing stands against begins at once (R311). -/
theorem askReset_begins (s : State) (q : Part) (hq : q ≠ .glob) (hr : s.resetOn q = false) (hg : .glob ∉ s.regs.resetting)
    (hw : .glob ∉ s.regs.resetWait) : s.askReset q = s.resetBegin q := by
  unfold State.askReset
  rw [if_neg (not_or_intro (by rw [hr]; decide) (not_or_intro hg hw)), if_neg (fun h => hq h.1)]
theorem exec_sliceAutoRepair (n : Fin 40) (s : State) (hst : (s.sl n.val).st = .faulted)
    (hb : fld (s.cfg (.slice n.val) 0x88) 3 0 ≠ 0) (hr : s.resetOn (.slice n) = false) (hg : .glob ∉ s.regs.resetting)
    (hw : .glob ∉ s.regs.resetWait) :
    exec (.sliceAutoRepair n) s = .next (((s.begin.setCfg (.slice n.val) 0x88
      (BitVec.ofNat 32 (fld (s.cfg (.slice n.val) 0x88) 3 0 - 1))).resetBegin (.slice n)).setFlag (.slice n.val) 0x40 4).settle := by
  have hask := askReset_begins (s.begin.setCfg (.slice n.val) 0x88 (BitVec.ofNat 32 (fld (s.cfg (.slice n.val) 0x88) 3 0 - 1)))
    (.slice n) (fun h => nomatch h) hr hg hw
  change execSliceAutoRepair n s = _
  unfold execSliceAutoRepair
  simp only [show (s.begin.sl n.val).st = .faulted from hst, show s.begin.cfg (.slice n.val) 0x88 = s.cfg (.slice n.val) 0x88 from rfl,
    hb, show s.begin.resetOn (.slice n) = false from hr, show Part.glob ∉ s.begin.regs.resetting from hg,
    show Part.glob ∉ s.begin.regs.resetWait from hw, ne_eq, not_false_eq_true, decide_true, decide_false, Bool.not_false,
    Bool.and_self, if_true]
  rw [← hask]

/-- Settles O36: a fault by the stomp of the slice's frames, a masking fault by the entry into DRAIN, the repair by the reset. -/
theorem sliceFaults : Obligations.SliceFaults := by
  unfold Obligations.SliceFaults
  refine ⟨?_, ?_, ?_⟩
  · exact fun n det s hd hr hn => ⟨_, exec_sliceFault n det s hd, sliceFault_effect s.begin n det.toNat hr hn⟩
  · exact fun n s hst hr => ⟨s.begin.maskHalt false n.val, rfl, maskHalt_effect s.begin n hst hr⟩
  · intro n s hst hb hr hg hw
    refine ⟨_, exec_sliceAutoRepair n s hst hb hr hg hw, ?_⟩
    obtain ⟨t, ht⟩ : ∃ t, t = s.begin.setCfg (.slice n.val) 0x88 (BitVec.ofNat 32 (fld (s.cfg (.slice n.val) 0x88) 3 0 - 1)) := ⟨_, rfl⟩
    obtain ⟨v, hv⟩ : ∃ v, v = (t.modRegs (fun r => { r with resetting := r.resetting ++ [.slice n] })).modFlt (fun f => { f with
      held := f.held.filter (· ≠ .slice n) }) := ⟨_, rfl⟩
    have hbegin : t.resetBegin (.slice n) = v.resetSlice n.val := by
      rw [hv]
      rfl
    have hvst : (v.sl n.val).st = .faulted := by
      rw [hv, ht]
      exact hst
    have hvon : v.resetOn (.slice n) = true := by
      rw [hv]
      exact decide_eq_true (List.mem_append_right _ (List.mem_singleton_self _))
    have hvcfg : v.cfg (.slice n.val) 0x88 = BitVec.ofNat 32 (fld (s.cfg (.slice n.val) 0x88) 3 0 - 1) := by
      rw [hv]
      exact (congrArg (fun u => State.cfg u (.slice n.val) 0x88) ht).trans (cfg_setCfg _ _ _ _)
    obtain ⟨hst', hreset, hcfg⟩ := resetSlice_faulted v n hvst
    rw [← ht, hbegin]
    obtain ⟨w, hweq⟩ : ∃ w, w = v.resetSlice n.val := ⟨_, rfl⟩
    rw [← hweq] at hst' hreset hcfg ⊢
    have hon : (w.setFlag (.slice n.val) 0x40 4).resetOn (.slice n) = w.resetOn (.slice n) := rfl
    rw [hon, resetOn_of_resetting v w _ hreset, setFlag_cfg, hcfg]
    exact ⟨hvon, hst', flag_setFlag _ _ _ _ (by decide), hvcfg⟩

end Sys2Proof.Machine
end

section
/-! PROOFS. Memory and parity errors: corrected and uncorrectable words, key slots, and registers whose parity fails (R149, R151,
R298, R299, R355, R382, R386). -/
namespace Sys2Proof.Machine

/-! ### Errors of memories -/

theorem counted_sramUe (s : State) (dom : Nat) (addr : W32) (x : Option Nat) : (s.sramUe dom addr x).counted 0x20 = s.counted 0x20 + 1 :=
  counted_detect s false 0x21 dom addr _
/-- A detection counts its own event only. -/
theorem counted_detect_ne (s : State) (det inst n : Nat) (a b : W32) (h : n ≠ det - 1) :
    (s.detect det inst a b).counted n = s.counted n := by
  unfold State.detect State.detectAs
  dsimp only
  split <;> exact counted_evt_ne _ _ _ _ h
theorem sramCe_effect (d : Fin 54) (addr : W32) (ct : Bool) (s : State) :
    ∃ t : State, exec (.sramCe d addr ct) s = .next t ∧ t.counted 0x1F = s.counted 0x1F + 1 ∧
      t.counted 240 = s.counted 240 + b2n ct := by
  obtain ⟨x, hx⟩ : ∃ x, x = (Config.sramOwner d.val addr).bind s.begin.chanOf := ⟨_, rfl⟩
  obtain ⟨t, ht⟩ : ∃ t, t = s.begin.detect 0x20 d.val addr (chixInfo x.isSome (x.getD 0)) := ⟨_, rfl⟩
  have h1F : t.counted 0x1F = s.counted 0x1F + 1 := by
    rw [ht]
    exact counted_detect s.begin false 0x20 d.val addr _
  have h240 : t.counted 240 = s.counted 240 := by
    rw [ht]
    exact counted_detect_ne s.begin 0x20 d.val 240 addr _ (by decide)
  refine ⟨t.when ct (·.evt 240 1), ?_, ?_⟩
  · change execSramCe d addr ct s = _
    unfold execSramCe
    dsimp only
    rw [← hx, ← ht]
  · cases ct
    · exact ⟨h1F, h240⟩
    · exact ⟨(counted_evt_ne _ _ _ _ (by decide)).trans h1F, (counted_evt _ _ _).trans (congrArg (· + 1) h240)⟩
theorem kekUe_effect (s : State) (n : Nat) (hn : n ≠ 63) (hr : s.sys.rootKey = none) :
    (s.kekUe n).sys = { s.sys with keks := Tab.del s.sys.keks n } ∧ (s.kekUe n).counted 0x22 = s.counted 0x22 + 1 := by
  obtain ⟨t, ht⟩ : ∃ t, t = s.detect 0x23 1 (BitVec.ofNat 32 n) 0 := ⟨_, rfl⟩
  have hsys : t.sys = s.sys := by
    rw [ht]
    exact detect_sys _ _ _ _ _
  have hkek : s.kekUe n = t.modSys (fun y => { y with keks := Tab.del y.keks n }) := by
    unfold State.kekUe State.kekAgain
    dsimp only
    rw [← ht, if_neg hn, if_neg]
    rw [modSys_sys, hsys, hr]
    simp
  rw [hkek]
  refine ⟨?_, ?_⟩
  · rw [modSys_sys, hsys]
  · refine Eq.trans (?_ : _ = t.counted 0x22) ?_
    · rfl
    · rw [ht]
      exact counted_detect s false 0x23 1 _ 0
theorem rootUe_effect (s : State) : s.rootUe.sys = { s.sys with rootKey := none } ∧ s.rootUe.counted 0x22 = s.counted 0x22 + 1 := by
  unfold State.rootUe
  refine ⟨?_, ?_⟩
  · rw [modSys_sys, detect_sys]
  · exact counted_detect s false 0x23 1 (atBit true 8) 0
theorem evcUe_effect (s : State) (n : Nat) : Tab.get 0 (s.evcUe n).cnt.evc n = 0 ∧ n ∈ (s.evcUe n).cnt.evcPoison ∧
    (s.evcUe n).counted 241 = s.counted 241 + 1 ∧ (s.evcUe n).counted 0x20 = s.counted 0x20 + 1 := by
  obtain ⟨t, ht⟩ : ∃ t, t = s.sramUe 2 (Config.sramWord 5 n) none := ⟨_, rfl⟩
  have h20 : t.counted 0x20 = s.counted 0x20 + 1 := by
    rw [ht]
    exact counted_sramUe s 2 _ none
  have h241 : t.counted 241 = s.counted 241 := by
    rw [ht]
    exact counted_detect_ne s 0x21 2 241 _ _ (by decide)
  have hdef : s.evcUe n = (t.evt 241 1).modCnt (fun c => { c with
      evc := Tab.set 0 c.evc n 0, evcPoison := insNat c.evcPoison n }) := by
    rw [ht]
    rfl
  have hcount : ∀ k, (s.evcUe n).counted k = (t.evt 241 1).counted k := fun k => by rw [hdef]; rfl
  rw [hcount, hcount, hdef, counted_evt, counted_evt_ne _ _ _ _ (by decide), h20, h241]
  exact ⟨Tab.get_set 0 _ n 0, mem_insNat _ n, rfl, rfl⟩
theorem bypassUe_effect (s : State) (n : Nat) : (Tab.get 0 (s.bypassUe n).dp.byp n).getLsbD 127 = false ∧
    (s.bypassUe n).counted 0x20 = s.counted 0x20 + 1 := by
  unfold State.bypassUe
  refine ⟨?_, counted_sramUe s 53 _ none⟩
  rw [modRegs_dp, modDp_dp, Tab.get_modify]
  simp
theorem calendarUe_effect (s : State) (n : Nat) : ((s.sramUe 53 (Config.sramWord 11 n) none).setCal n 0).calEntry n = 0 ∧
    ((s.sramUe 53 (Config.sramWord 11 n) none).setCal n 0).counted 0x20 = s.counted 0x20 + 1 :=
  ⟨Tab.get_set 0 _ n 0, counted_sramUe s 53 _ none⟩

/-! ### A key slot that is lost -/

theorem vslotOf_half (v : Nat) : vslotOf (v / 2) (decide (v % 2 = 1)) = v := by
  unfold vslotOf b2n
  split <;> rename_i h <;> simp only [decide_eq_true_eq] at h <;> omega
theorem loseSlot_live (s : State) (e : Nat) (b : Bool) (h : (s.slot (vslotOf e b)).st = .live) :
    ((s.loseSlot e b).slot (vslotOf e b)).st = .erased ∧ ((s.loseSlot e b).slot (vslotOf e b)).vaultErr = true ∧
    ((s.loseSlot e b).slot (vslotOf e b)).key = [] ∧
    ((s.loseSlot e b).slot (vslotOf e b)).gen = (s.slot (vslotOf e b)).gen := by
  obtain ⟨t, ht⟩ : ∃ t, t = (s.schedOnSlot e b .lost).endLease (vslotOf e b) := ⟨_, rfl⟩
  have hstay : t.stay = s.stay := by
    rw [ht]
    exact (endLease_stay _ _).trans (stay_of_plain _ _ (schedOnSlot_plain s e b .lost))
  have hgen : (t.slot (vslotOf e b)).gen = (s.slot (vslotOf e b)).gen :=
    congrFun (congrArg (fun x => x.2.2.2.2.2.2) hstay :) (vslotOf e b)
  have hlose : s.loseSlot e b = (t.modSlot (vslotOf e b) (fun o => {
      st := .erased, an := o.an, gen := o.gen, vaultErr := true, clearing := false })).slotChanged e b := by
    unfold State.loseSlot
    dsimp only
    rw [if_pos h, ← ht]
  rw [hlose, slot_of_ch _ _ _ (slotChanged_ch _ _ _), slot_modSlot]
  exact ⟨rfl, rfl, rfl, hgen⟩
theorem endFrame_ch (s : State) (f : Frame) (c : Code) (n : Option Nat) : (s.endFrame f c n).ch = s.ch :=
  (congrArg (fun r => r.2.1) (endFrame_rest s f c n) :)
theorem keyGone_ch (s : State) (f : Frame) : (s.keyGone f).ch = s.ch := by
  unfold State.keyGone State.dropStat State.outcome
  rw [modCnt_ch, endFrame_ch]
/-- A frame of a slot that has been lost ends. -/
def State.vaultEnd (s : State) (f : Frame) : State :=
  match s.frame f.id with
  | some f => if f.sofOut then s.endFrame f .fault (faultCtr f) else s.keyGone f
  | none => s
theorem vaultEnd_ch (s : State) (f : Frame) : (s.vaultEnd f).ch = s.ch := by
  unfold State.vaultEnd
  split
  · split
    · exact endFrame_ch _ _ _ _
    · exact keyGone_ch _ _
  · rfl
/-- A vault error takes the slot; the frames that end do not touch it further. -/
theorem vaultUe_effect (s : State) (v : Nat) (h : (s.slot v).st = .live) : ((s.vaultUe v).slot v).st = .erased ∧
    ((s.vaultUe v).slot v).vaultErr = true ∧ ((s.vaultUe v).slot v).key = [] ∧ ((s.vaultUe v).slot v).gen = (s.slot v).gen := by
  obtain ⟨t, ht⟩ : ∃ t, t = s.detect 0x22 1 (BitVec.ofNat 32 v) (chixInfo (s.chanOf (v / 2)).isSome ((s.chanOf (v / 2)).getD 0)) :=
    ⟨_, rfl⟩
  obtain ⟨u, hu⟩ : ∃ u, u = t.loseSlot (v / 2) (decide (v % 2 = 1)) := ⟨_, rfl⟩
  have hdef : s.vaultUe v = u.forEach (u.vaultFrames v (t.slot v).gen) (fun s f => s.vaultEnd f) := by
    rw [hu, ht]
    rfl
  have hslot : t.slot = s.slot := by
    have hch : t.ch = s.ch := by
      rw [ht]
      unfold State.detect State.detectAs
      dsimp only
      split <;> rfl
    unfold State.slot
    rw [hch]
  have hlost := loseSlot_live t (v / 2) (decide (v % 2 = 1)) (by rw [vslotOf_half, hslot]; exact h)
  rw [vslotOf_half, hslot, ← hu] at hlost
  rw [hdef, slot_of_ch _ _ _ (forEach_keeps State.ch (fun s f => s.vaultEnd f) vaultEnd_ch _ u)]
  exact hlost

/-! ### A register whose parity fails -/

theorem rsvLeave_unpowered (s : State) (n : Nat) : (s.rsvLeave n).unpowered = s.unpowered := by
  unfold State.rsvLeave
  dsimp only
  split
  · split
    · exact setRsv_unpowered _ _ _
    · split
      · rw [when_unpowered _ _ _ (wakeSlice_unpowered _ _), setRsv_unpowered]
      · rfl
  · rfl
theorem slEnter_unpowered (s : State) (n : Nat) (st : SlState) : (s.slEnter n st).unpowered = s.unpowered := by
  unfold State.slEnter
  dsimp only
  cases st
  case summer => exact rsvReturn_unpowered _ _
  case held => exact rsvLeave_unpowered _ _
  case faulted => exact rsvLeave_unpowered _ _
  all_goals rfl
theorem regs_of_unpowered (s t : State) (h : t.unpowered = s.unpowered) : t.regs = s.regs := (congrArg (fun v => v.1.regs) h :)
theorem sliceDown_regs (s : State) (n : Nat) : (s.sliceDown n).regs = s.regs :=
  (regs_of_unpowered _ _ (slEnter_unpowered _ _ _)).trans (congrArg Prod.fst (endFrames_board s _ _ _) :)
theorem detectAs_parBad (s : State) (inj : Bool) (det inst : Nat) (a b : W32) :
    (s.detectAs inj det inst a b).regs.parBad = s.regs.parBad := by
  unfold State.detectAs
  dsimp only
  split <;> rfl
theorem sliceFault_parBad (s : State) (inj : Bool) (n det : Nat) : (s.sliceFault inj n det).regs.parBad = s.regs.parBad := by
  unfold State.sliceFault
  extract_lets t u
  have ht : t.regs.parBad = s.regs.parBad := detectAs_parBad s inj det n _ 0
  have hu : u.regs.parBad = t.regs.parBad := by
    simp only [u]
    cases decide (det = 8) <;> rfl
  split
  · exact hu.trans ht
  · rw [sliceDown_regs]
    exact hu.trans ht
theorem restartLease_regs (s : State) (v : Nat) : (s.restartLease v).regs = s.regs := by
  unfold State.restartLease
  split
  · rfl
  · dsimp only
    split
    · rfl
    · exact (congrArg (·.1) (startLease_look _ v) :)
theorem toUnpaired_regs (s : State) : s.toUnpaired.regs = s.regs := by
  have hsess : s.sessionEnd.regs = s.regs := (sessionEnd_effect s).2.2.1
  unfold State.toUnpaired
  extract_lets was t u
  have hu : u.regs = s.regs := hsess
  split
  · exact (forEach_keeps State.regs _ (fun s v => (congrArg (·.1) (clearCause_look s .blind v) :)) _ u).trans hu
  · split
    · exact hu
    · exact (forEach_keeps State.regs _ restartLease_regs _ u).trans hu
theorem pairCfgApplied_regs (s was : State) : (s.pairCfgApplied was).regs = s.regs := by
  unfold State.pairCfgApplied
  split
  · rfl
  · extract_lets t
    have ht : t.regs = s.regs := when_keeps State.regs (fun s => s.pairKeys) (fun _ => rfl) _ _
    refine (congrArg (·.1) (pairSince_face _ was) :).trans ?_
    split
    · split <;> exact ht
    · exact (toUnpaired_regs t).trans ht
theorem rsvApply_unpowered (s : State) (ing : Bool) : (s.rsvApply ing).unpowered = s.unpowered := by
  unfold State.rsvApply
  split
  · rw [when_unpowered, setRsv_unpowered]
    rw [wakeSlice_unpowered, wakeSlice_unpowered]
  · rfl
theorem cfgActs_parBad (s was : State) (p : Page) : (s.cfgActs was p).regs.parBad = s.regs.parBad := by
  unfold State.cfgActs
  split
  · refine (when_keeps (fun s => s.regs.parBad) _ (fun s => ?_) _ _).trans ?_
    · rfl
    · unfold State.portSwitched State.rseInit
      (repeat' split) <;> rfl
  · split
    · rw [regs_of_unpowered _ _ (rsvApply_unpowered _ _), regs_of_unpowered _ _ (rsvApply_unpowered _ _)]
    · rfl
  · exact when_keeps (fun s => s.regs.parBad) (fun s => (s.modPair (fun q => { q with cfgStaged := false })).pairCfgApplied was)
      (fun s => congrArg Regs.parBad (pairCfgApplied_regs _ was)) _ s
  · rfl
theorem cfgPar_parBad (s : State) (p : Page) (off : Nat) : p.at off ∈ (s.cfgPar p off).regs.parBad := by
  unfold State.cfgPar
  extract_lets t u v
  have ht : p.at off ∈ t.regs.parBad := mem_insNat _ _
  have hu : u.regs.parBad = t.regs.parBad := by
    simp only [u]
    split
    · rw [sliceFault_parBad]
      exact when_keeps (fun s => s.regs.parBad) (fun t => t.modSl _ (fun c => { c with svcOut := false })) (fun _ => rfl) _ t
    · exact detectAs_parBad _ _ _ _ _ _
  have hv : v.regs.parBad = u.regs.parBad := when_keeps (fun s => s.regs.parBad) (·.modPair (fun q => { q with cfgStaged := true }))
    (fun _ => rfl) _ u
  rw [cfgActs_parBad, hv, hu]
  exact ht
/-- A register whose parity has failed acts as its reset value, in both copies. -/
theorem parBad_reset (s : State) (p : Page) (off : Nat) (h : p.at off ∈ s.regs.parBad) :
    s.cfg p off = regReset (p.at off) ∧ s.stg p off = regReset (p.at off) := by
  unfold State.cfg State.stg
  dsimp only
  rw [if_pos h, if_pos h]
  exact ⟨rfl, rfl⟩

/-- Settles O37: each error by the function that the contents of its word call. -/
theorem memoryErrors : Obligations.MemoryErrors := by
  unfold Obligations.MemoryErrors
  refine ⟨sramCe_effect, ?_, ?_, ?_, ?_, ?_, fun _ _ => rfl, ?_, ?_⟩
  · intro n s hn hr
    refine ⟨s.begin.kekUe n.toNat, rfl, kekUe_effect s.begin n.toNat (fun h => hn ?_) hr⟩
    exact BitVec.eq_of_toNat_eq h
  · exact fun s => ⟨s.begin.rootUe, rfl, rootUe_effect s.begin⟩
  · exact fun n s => ⟨s.begin.evcUe n.toNat, rfl, evcUe_effect s.begin n.toNat⟩
  · exact fun n s => ⟨s.begin.bypassUe n.toNat, rfl, bypassUe_effect s.begin n.toNat⟩
  · exact fun n s => ⟨_, rfl, calendarUe_effect s.begin n.toNat⟩
  · exact fun v s h => ⟨s.begin.vaultUe v.toNat, rfl, vaultUe_effect s.begin v.toNat h⟩
  · intro page off p s hp hh
    have hbad := cfgPar_parBad s.begin p off.toNat
    refine ⟨s.begin.cfgPar p off.toNat, ?_, hbad, parBad_reset _ p off.toNat hbad⟩
    change execCfgPar page off s = _
    unfold execCfgPar
    dsimp only
    rw [hp]
    dsimp only
    rw [if_pos hh]

end Sys2Proof.Machine
end

section
/-! PROOFS. Faults of units, KEYX cores and mask generators, and automatic resets (R163, R297, R307). -/
namespace Sys2Proof.Machine

/-! ### What the ends of commands and page moves leave alone -/

/-- The automatic resets under way, and the KEYX cores with their jobs. -/
def State.crew (s : State) := (s.flt.autoNow, s.keyx.cores, s.keyx.removed)
theorem endFrame_crew (s : State) (f : Frame) (c : Code) (n : Option Nat) : (s.endFrame f c n).crew = s.crew :=
  (congrArg (fun r => (r.2.2.2.2.2.2.2.1.autoNow, r.2.2.2.2.1.cores, r.2.2.2.2.1.removed)) (endFrame_rest s f c n) :)
theorem endFrames_crew (s : State) (p : Frame → Bool) (c : Code) (n : Frame → Option Nat) : (s.endFrames p c n).crew = s.crew := by
  unfold State.endFrames
  refine forEach_keeps State.crew _ (fun s a => ?_) _ _
  split
  · exact endFrame_crew s _ _ _
  · rfl
theorem detectAs_crew (s : State) (inj : Bool) (det inst : Nat) (a b : W32) : (s.detectAs inj det inst a b).crew = s.crew := by
  unfold State.detectAs
  dsimp only
  split <;> rfl
theorem wholeEnd_crew (s : State) (r : SReq) (f : FinRes) : (s.wholeEnd r f).crew = s.crew := by
  unfold State.wholeEnd
  (repeat' split) <;> rfl
theorem forgetReqs_crew (s : State) (p : Req → Bool) : (s.forgetReqs p).crew = s.crew := by
  unfold State.forgetReqs
  refine (forEach_keeps State.crew _ (fun s r => ?_) _ _).trans rfl
  exact when_keeps State.crew (fun s => s.wholeEnd r .bus) (fun s => wholeEnd_crew s r .bus) _ _
theorem dropIn_crew (s : State) (x : Nat) : (s.dropIn x).crew = s.crew := forgetReqs_crew s _
theorem dropOut_crew (s : State) (x : Nat) : (s.dropOut x).crew = s.crew := forgetReqs_crew s _
theorem sawDone_crew (s : State) (code detail : Nat) : (s.sawDone code detail).crew = s.crew := by
  have hcount : ∀ c, ((s.evt 110 1).when c (·.evt 111 1)).crew = s.crew := fun c => by cases c <;> rfl
  exact hcount _
theorem keywDone_crew (s : State) (code gen : Nat) : (s.keywDone code gen).crew = s.crew := by
  have hflt : (s.keywDone code gen).flt = s.flt := by
    unfold State.keywDone
    extract_lets op t u
    have ht : t.flt = s.flt := by
      simp only [t]
      split
      · exact forEach_keeps State.flt (fun s i => s.setCfg .keyw (0x100 + 4 * i) 0) (fun _ _ => rfl) _ s
      · rfl
    have hu : u.flt = t.flt := when_keeps State.flt (·.evt (80 + code) 1) (fun _ => rfl) _ t
    exact hu.trans ht
  unfold State.crew
  rw [hflt, (keywDone_keyx s code gen).1]
theorem pageCmdsFail_crew (s : State) (x code : Nat) : (s.pageCmdsFail x code).crew = s.crew := by
  have hsaw : (s.when (s.sawOn [0x01, 0x04, 0x10, 0x11] x) (·.sawDone code 0)).crew = s.crew :=
    when_keeps State.crew (fun s => s.sawDone code 0) (fun s => sawDone_crew s code 0) _ _
  unfold State.pageCmdsFail
  dsimp only
  split
  · split
    · exact (keywDone_crew _ _ _).trans hsaw
    · exact hsaw
  · exact hsaw
theorem jobCheck_crew (s : State) : s.jobCheck.crew = s.crew := by
  unfold State.jobCheck
  split <;> rfl
theorem mirrorFail_crew (s : State) (x : Nat) : (s.mirrorFail x).crew = s.crew := by
  refine forEach_keeps State.crew _ (fun s q => ?_) _ _
  unfold State.mirrorLose State.skew
  split <;> rfl
theorem dropFrame_crew (s : State) (f : Frame) (n : Nat) : (s.dropFrame f n).crew = s.crew := endFrame_crew s f .none (some n)
theorem portFlag_crew (s : State) (p n : Nat) : (s.portFlag p n).crew = s.crew := rfl
theorem missFail_crew (s : State) (p : Frame → Bool) : (s.missFail p).crew = s.crew := by
  refine forEach_keeps State.crew _ (fun s id => ?_) _ _
  split
  · rw [portFlag_crew, dropFrame_crew]
  · rfl
theorem startedIn_crew (s : State) (c : Bool) (e : Nat) : (s.when c (·.freeEntry e)).crew = s.crew :=
  when_keeps State.crew (fun s => s.freeEntry e) (fun _ => rfl) _ _
theorem pageFail_crew (s : State) (x reason : Nat) (fresh : Bool) : (s.pageFail x reason fresh).crew = s.crew := by
  unfold State.pageFail
  extract_lets t u v w
  have ht : t.crew = s.crew := by
    simp only [t]
    split
    · exact (when_keeps State.crew (fun s => s.dropOut x) (fun s => dropOut_crew s x) _ _).trans
        ((dropIn_crew _ x).trans (startedIn_crew s _ _))
    · rfl
  have hw : w.crew = v.crew := when_keeps State.crew (fun s => s.detect 0x2D 0 (BitVec.ofNat 32 x) (BitVec.ofNat 32 reason))
    (fun s => detectAs_crew s _ _ _ _ _) _ v
  have hws : w.crew = s.crew := hw.trans ht
  clear_value w
  rw [jobCheck_crew, pageCmdsFail_crew, mirrorFail_crew, missFail_crew, hws]
theorem outFail_crew (s : State) (x : Nat) : (s.outFail x).crew = s.crew := by
  unfold State.outFail
  extract_lets t u
  have ht : t.crew = s.crew := by
    simp only [t]
    split <;> rfl
  have hu : u.crew = t.crew := by
    simp only [u]
    split
    · exact when_keeps State.crew (fun s => s.dropIn x) (fun s => dropIn_crew s x) _ t
    · rfl
  rw [jobCheck_crew]
  exact (when_keeps State.crew (fun s => s.sawDone 0x09 0) (fun s => sawDone_crew s 0x09 0) _ _).trans
    ((dropOut_crew _ x).trans (hu.trans ht))

/-! ### A unit that is held (R307) -/

theorem held_of_regView (s t : State) (q : Part) (h : t.regView = s.regView) : t.held q = s.held q := by
  have hheld : t.flt.held = s.flt.held := congrArg (·.2) h
  unfold State.held
  rw [hheld]
/-- A partition that is not in reset is held once its unit has failed. -/
theorem holdUnit_holds (s : State) (q : Part) (hr : s.resetOn q = false) : (s.holdUnit q).held q = true := by
  unfold State.holdUnit
  rw [hr]
  simp only [Bool.false_eq_true, if_false]
  split
  · assumption
  · have hhold : (s.modFlt (fun f => { f with held := f.held ++ [q] })).held q = true :=
      decide_eq_true (List.mem_append_right _ (List.mem_singleton_self q))
    cases q with
    | port n => exact (held_of_regView _ _ _ (stomp_rv _ _)).trans hhold
    | pager => exact (held_of_regView _ _ _ (pagerEnd_rv _)).trans hhold
    | store => exact (held_of_regView _ _ _ (storeEnd_rv _)).trans hhold
    | march => exact (held_of_regView _ _ _ (marchHold_rv _)).trans hhold
    | lease => exact (held_of_regView _ _ _ (leaseHeld_rv _)).trans hhold
    | sec => exact hhold
    | slice n => exact hhold
    | pair => exact hhold
    | ao => exact hhold
    | glob => exact hhold
/-- A detection leaves resets and holds as they are. -/
theorem unitFault_holds (s : State) (q : Part) (inst : Nat) (hr : s.resetOn q = false)
    (hq : q = .pager ∨ q = .store ∨ q = .march ∨ q = .lease ∨ q = .sec ∨ ∃ n, q = .port n) :
    (s.unitFault false q inst).held q = true := by
  have hdet : ∀ det i a b, ((s.detectAs false det i a b).holdUnit q).held q = true := fun det i a b =>
    holdUnit_holds _ q ((resetOn_of_resetting _ _ q (detectAs_keeps s false det i a b).2.1).trans hr)
  rcases hq with rfl | rfl | rfl | rfl | rfl | ⟨n, rfl⟩ <;> exact hdet _ _ _ _

/-! ### KEYX cores and mask generators -/

theorem jobFail_crew (s : State) (j : Option KJob) : (s.jobFail j).crew = s.crew := by
  unfold State.jobFail
  split
  · exact keywDone_crew s _ _
  · exact pageFail_crew s _ _ _
  · exact outFail_crew s _
  · rfl
/-- A core that fails loses its job; with two faults within a second already it is removed (R163, R297). -/
theorem keyxFault_effect (s : State) (c : Nat) : (s.keyxFault false c).core c = none ∧
    (2 ≤ (lately s.sys.aoClk (Tab.get [] s.keyx.faults c)).length → c ∈ (s.keyxFault false c).keyx.removed) := by
  unfold State.keyxFault
  extract_lets j t l gone u
  have hcores : ∀ v : State, v.crew = u.crew → v.core c = u.core c ∧ v.keyx.removed = u.keyx.removed := fun v h =>
    ⟨(congrArg (fun r => Tab.get none r.2.1 c) h :), (congrArg (fun r => r.2.2) h :)⟩
  obtain ⟨hcore, hremoved⟩ := hcores _ (jobFail_crew u j)
  rw [hcore, hremoved]
  refine ⟨Tab.get_set none _ c none, fun h2 => ?_⟩
  have hsys : t.sys = s.sys := detectAs_sys _ _ _ _ _ _
  have hkeyx : t.keyx = s.keyx := by
    simp only [t, State.detectAs]
    split <;> rfl
  have hgone : gone = true := by
    refine decide_eq_true ?_
    simp only [l, hsys, hkeyx, List.length_cons]
    omega
  show c ∈ (if gone then insNat (t.setCore c none).keyx.removed c else (t.setCore c none).keyx.removed)
  rw [if_pos hgone]
  exact mem_insNat _ _
/-- A generator that fires for the first time within a second takes two seed words. -/
theorem maskHltX_first (s : State) (g : Nat) (a b : W128) (rest : List W128)
    (hl : lately s.sys.aoClk (Tab.get [] s.keyx.maskFires g) = []) (hf : s.seedsFree = a :: b :: rest) :
    (s.maskHltX false g false).counted 0x36 = s.counted 0x36 + 1 ∧
    Tab.get 0 (s.maskHltX false g false).sys.maskSeed (40 + g) = b ++ a ∧
    (s.maskHltX false g false).sys.seeds = s.sys.seeds.drop 2 ∧
    Tab.get [] (s.maskHltX false g false).keyx.maskFires g = [s.sys.aoClk] := by
  obtain ⟨t, ht⟩ : ∃ t, t = s.detectAs false 0x37 g 0 0 := ⟨_, rfl⟩
  have hcnt : t.counted 0x36 = s.counted 0x36 + 1 := by
    rw [ht]
    exact counted_detect s false 0x37 g 0 0
  have hsys : t.sys = s.sys := by
    rw [ht]
    exact detectAs_sys _ _ _ _ _ _
  have hkeyx : t.keyx = s.keyx := by
    rw [ht]
    unfold State.detectAs
    dsimp only
    split <;> rfl
  have hfree : t.seedsFree = a :: b :: rest := by
    rw [← hf]
    unfold State.seedsFree State.seedsHeld
    rw [hsys, ht, (detectAs_keeps s false 0x37 g 0 0).2.2.2.2]
  obtain ⟨u, hu⟩ : ∃ u, u = t.seedGen (40 + g) := ⟨_, rfl⟩
  have hus : u.keyx = t.keyx ∧ u.counted = t.counted ∧ u.sys.aoClk = t.sys.aoClk := by
    rw [hu]
    unfold State.seedGen State.seedGenFrom
    split <;> exact ⟨rfl, rfl, rfl⟩
  have hseeds : u.sys.seeds = s.sys.seeds.drop 2 ∧ Tab.get 0 u.sys.maskSeed (40 + g) = b ++ a := by
    rw [hu]
    unfold State.seedGen State.seedGenFrom
    rw [hfree, ← hsys]
    exact ⟨rfl, Tab.get_set 0 _ (40 + g) _⟩
  have hfires : s.maskHltX false g false = u.modKeyx (fun k => { k with maskFires := Tab.set [] k.maskFires g [u.sys.aoClk] }) := by
    unfold State.maskHltX
    dsimp only
    rw [← ht, ← hu, hus.1, hus.2.2, hkeyx, hsys, hl]
    rfl
  rw [hfires]
  refine ⟨(congrFun hus.2.1 0x36).trans hcnt, hseeds.2, hseeds.1, ?_⟩
  rw [modKeyx_keyx, Tab.get_set, hus.2.2, hsys]
/-- A generator of a KEYX core that fires again within a second takes its core along. -/
theorem maskHltX_again (s : State) (g : Nat) (hg : g < 4) : g ∈ (s.maskHltX false g true).keyx.removed ∧
    (s.maskHltX false g true).counted 0x36 = s.counted 0x36 + 1 := by
  unfold State.maskHltX
  extract_lets t l
  have ht : t.counted = (s.detectAs false 0x37 g 0 0).counted := by
    simp only [t, State.seedGen, State.seedGenFrom]
    split <;> rfl
  have hcnt : t.counted 0x36 = s.counted 0x36 + 1 := (congrFun ht 0x36).trans (counted_detect s false 0x37 g 0 0)
  clear_value l t
  rw [Bool.true_or, if_pos rfl]
  unfold State.genRemoved
  rw [if_pos hg]
  exact ⟨mem_insNat _ g, hcnt⟩

/-! ### Automatic resets -/

theorem clearPages_crew (s : State) (q : Part) : (s.clearPages q).crew = s.crew := by
  unfold State.clearPages
  extract_lets split stays t u
  exact forEach_keeps State.crew (fun s p => s.modHdr p (fun h => { epoch := h.epoch })) (fun _ _ => rfl) _ u
theorem resetPort_crew (s : State) (n : Nat) : (s.resetPort n).crew = s.crew := by
  unfold State.resetPort
  extract_lets lanes t keys u
  have ht : t.crew = s.crew := (endFrames_crew _ _ _ _).trans (clearPages_crew s _)
  have hu : u.crew = t.crew := rfl
  rw [← ht, ← hu]
  clear_value u
  exact (forEach_keeps State.crew (fun s l => s.emit (.laneCtl l .reset)) (fun _ _ => rfl) _ _).trans rfl
theorem pagerEnd_crew (s : State) : s.pagerEnd.crew = s.crew := by
  unfold State.pagerEnd
  extract_lets t u
  have ht : t.crew = s.crew := forEach_keeps State.crew (fun s x => s.outFail x) outFail_crew _ s
  have hu : u.crew = t.crew := by
    refine forEach_keeps State.crew _ (fun s p => ?_) _ _
    exact (pageCmdsFail_crew _ _ _).trans ((mirrorFail_crew _ _).trans ((dropIn_crew _ _).trans (startedIn_crew s _ _)))
  exact (jobCheck_crew _).trans ((missFail_crew _ _).trans (hu.trans ht))
theorem resetPager_crew (s : State) : s.resetPager.crew = s.crew := (clearPages_crew _ _).trans (pagerEnd_crew s)
theorem writeBack_crew (s : State) (w : Wcb) : (s.writeBack w).crew = s.crew := by
  unfold State.writeBack State.issueWrite
  dsimp only
  split <;> rfl
theorem resetStore_crew (s : State) : s.resetStore.crew = s.crew := by
  unfold State.resetStore
  extract_lets t dirty u
  have ht : t.crew = s.crew := forgetReqs_crew s _
  exact (clearPages_crew _ _).trans ((forEach_keeps State.crew (fun s w => s.writeBack w) writeBack_crew _ t).trans ht)
theorem marchHold_crew (s : State) : s.marchHold.crew = s.crew := by
  unfold State.marchHold State.marchAbandon
  extract_lets ws t
  have ht : t.crew = s.crew := forEach_keeps State.crew
    (fun s r => s.modWcb r.line (fun w => if w.writing then { w with writing := false, dirty := fullMask } else w)) (fun _ _ => rfl) ws s
  exact (forgetReqs_crew t _).trans ht
theorem resetMarch_crew (s : State) : s.resetMarch.crew = s.crew := by
  have hdrop : s.marchDrop.crew = s.crew := by
    unfold State.marchDrop
    split <;> exact marchHold_crew s
  exact (when_keeps State.crew (fun s => s.modMarch (fun _ => {})) (fun _ => rfl) _ _).trans ((clearPages_crew _ _).trans hdrop)
theorem startScan_crew (s : State) : s.startScan.crew = s.crew := by
  have hask : ∀ s : State, s.scanAsk1.crew = s.crew := fun s => by
    unfold State.scanAsk1
    dsimp only
    split
    · split <;> rfl
    · rfl
  have hfour : ∀ (l : List Nat) (s : State), (l.foldl (fun s _ => s.scanAsk1) s).crew = s.crew := fun l s =>
    forEach_keeps State.crew (fun s _ => s.scanAsk1) (fun s _ => hask s) l s
  exact (hfour _ _).trans rfl
theorem resetLease_crew (s : State) : s.resetLease.crew = s.crew := (startScan_crew _).trans (clearPages_crew s .lease)
theorem portPage_mem (n : Fin 32) : Page.port n.val ∈ allPages ∧ (Page.port n.val).part = .port n := by
  revert n
  decide
/-- The reset of a partition that may be reset automatically begins: it is in reset and not held. -/
theorem resetBegin_auto (s : State) (q : Part) (hq : (autoBit q).isSome = true) :
    (s.resetBegin q).resetOn q = true ∧ (s.resetBegin q).held q = false ∧ (s.resetBegin q).flt.autoNow = s.flt.autoNow := by
  have hpage : ∀ p : Page, p ∈ allPages → p.part = q → p.aoPosted = false → q ≠ .glob →
      (s.resetBegin q).resetOn q = true ∧ (s.resetBegin q).held q = false := fun p hp hpq ha hg => by
    obtain ⟨hon, -, hh⟩ := resetBegin_inReset s p (List.mem_filter.mpr ⟨hp, decide_eq_true rfl⟩) (hpq ▸ hg) ha
    exact ⟨hpq ▸ hon, hpq ▸ hh⟩
  have hcrew : ∀ t u : State, t.flt.autoNow = s.flt.autoNow → u.crew = t.crew → u.flt.autoNow = s.flt.autoNow := fun t u ht hu =>
    (congrArg (·.1) hu :).trans ht
  cases q with
  | port n =>
    obtain ⟨hin, hpart⟩ := portPage_mem n
    obtain ⟨hon, hh⟩ := hpage (.port n.val) hin hpart rfl (fun h => nomatch h)
    exact ⟨hon, hh, hcrew _ _ rfl (resetPort_crew _ _)⟩
  | pager =>
    obtain ⟨hon, hh⟩ := hpage .pager (by decide) rfl rfl (by decide)
    exact ⟨hon, hh, hcrew _ _ rfl (resetPager_crew _)⟩
  | store =>
    obtain ⟨hon, hh⟩ := hpage .store (by decide) rfl rfl (by decide)
    exact ⟨hon, hh, hcrew _ _ rfl (resetStore_crew _)⟩
  | march =>
    obtain ⟨hon, hh⟩ := hpage .march (by decide) rfl rfl (by decide)
    exact ⟨hon, hh, hcrew _ _ rfl (resetMarch_crew _)⟩
  | lease =>
    obtain ⟨hon, hh⟩ := hpage .lease (by decide) rfl rfl (by decide)
    exact ⟨hon, hh, hcrew _ _ rfl (resetLease_crew _)⟩
  | sec => cases hq
  | slice n => cases hq
  | pair => cases hq
  | ao => cases hq
  | glob => cases hq
theorem exec_autoPartitionReset (q : Part) (s : State) (ha : s.autoMay q = true) (hr : s.resetOn q = false)
    (hg : .glob ∉ s.regs.resetting) (hw : .glob ∉ s.regs.resetWait) (hq : q ≠ .glob) :
    exec (.autoPartitionReset q) s = .next ((s.begin.modFlt (fun f => { f with
      autoAt := (q, s.sys.aoClk) :: f.autoAt.filter (fun a => decide (a.1 ≠ q)), autoNow := f.autoNow ++ [q] })).resetBegin q).settle := by
  have hask := askReset_begins (s.begin.modFlt (fun f => { f with
    autoAt := (q, s.sys.aoClk) :: f.autoAt.filter (fun a => decide (a.1 ≠ q)), autoNow := f.autoNow ++ [q] })) q hq hr hg hw
  change execAutoPartitionReset q s = _
  unfold execAutoPartitionReset
  simp only [show s.begin.autoMay q = true from ha, show s.begin.resetOn q = false from hr,
    show Part.glob ∉ s.begin.regs.resetting from hg, show Part.glob ∉ s.begin.regs.resetWait from hw, decide_false, Bool.not_false,
    Bool.and_self, if_true]
  rw [← hask]
  rfl

/-- Settles O38: a hold by `State.holdUnit`, the fault of a core by the end of its job, a generator by its seed words, an automatic
reset by the start of the reset. -/
theorem unitFaults : Obligations.UnitFaults := by
  unfold Obligations.UnitFaults
  refine ⟨?_, ?_, ?_, ?_, ?_⟩
  · intro q s hq hr
    by_cases hst : q = .store
    · refine ⟨s.begin.draw.unitFault false q (Config.freePipe s.begin.freeCtr % 2), ?_, unitFault_holds s.begin.draw q _ hr hq⟩
      change execUnitFaultHold q s = _
      unfold execUnitFaultHold
      dsimp only
      rw [if_pos hst]
    · refine ⟨s.begin.unitFault false q 0, ?_, unitFault_holds s.begin q 0 hr hq⟩
      change execUnitFaultHold q s = _
      unfold execUnitFaultHold
      dsimp only
      rw [if_neg hst]
  · exact fun c s => ⟨s.begin.keyxFault false c.val, rfl, keyxFault_effect s.begin c.val⟩
  · exact fun g a b rest s hl hf => ⟨s.begin.maskHltX false g.val false, rfl, maskHltX_first s.begin g.val a b rest hl hf⟩
  · exact fun g s hg => ⟨s.begin.maskHltX false g.val true, rfl, maskHltX_again s.begin g.val hg⟩
  · intro q s ha hr hg hw
    have hbit : (autoBit q).isSome = true := by
      unfold State.autoMay at ha
      cases hb : autoBit q with
      | none => simp [hb] at ha
      | some b => rfl
    have hq : q ≠ .glob := fun h => by
      rw [h] at hbit
      cases hbit
    obtain ⟨hon, hh, hnow⟩ := resetBegin_auto (s.begin.modFlt (fun f => { f with
      autoAt := (q, s.sys.aoClk) :: f.autoAt.filter (fun a => decide (a.1 ≠ q)), autoNow := f.autoNow ++ [q] })) q hbit
    refine ⟨_, exec_autoPartitionReset q s ha hr hg hw hq, hon, hh, ?_⟩
    rw [hnow]
    exact List.mem_append_right _ (List.mem_singleton_self q)

end Sys2Proof.Machine
end

section
/-! PROOFS. Latent tests, the lockstep of the always-on partition, fault records and injection (R13, R302 to R306). -/
namespace Sys2Proof.Machine

/-! ### Latent tests (R305, R306) -/

theorem unitFault_sec (s : State) (hr : s.resetOn .sec = false) : (s.unitFault false .sec 0).held .sec = true ∧
    (s.unitFault false .sec 0).counted 0x30 = s.counted 0x30 + 1 := by
  refine ⟨unitFault_holds s .sec 0 hr (by simp), ?_⟩
  have hhold : ∀ t : State, (t.holdUnit .sec).counted = t.counted := fun t => by
    unfold State.holdUnit
    split
    · rfl
    · split <;> rfl
  exact (congrFun (hhold _) 0x30).trans (counted_detect s false 0x31 0 0 0)
theorem exec_latentFailed (i : BitVec 9) (s : State) :
    exec (.latentTest 3 i false) s = .next (s.begin.unitFault false .sec 0).settle := rfl
theorem exec_latentLate (t : Fin 8) (s : State) (ht : t.val ≠ 0) (hd : ∀ d, latentDom t.val = some d → s.domUp d = true)
    (hl : t.val ∉ s.flt.latentLate) :
    exec (.latentLate t) s =
      .next ((s.begin.modFlt (fun f => { f with latentLate := insNat f.latentLate t.val })).detect0 0x47 t.val) := by
  have hon : (match latentDom t.val with | some d => s.begin.domUp d | none => true) = true := by
    split
    · next d h => exact hd d h
    · rfl
  change execLatentLate t s = _
  unfold execLatentLate
  dsimp only
  rw [if_pos]
  simp only [Bool.and_eq_true, decide_eq_true_eq, Bool.not_eq_true', decide_eq_false_iff_not]
  exact ⟨⟨ht, hon⟩, hl⟩
theorem latentLate_effect (s : State) (t : Nat) :
    t ∈ ((s.modFlt (fun f => { f with latentLate := insNat f.latentLate t })).detect0 0x47 t).flt.latentLate ∧
    ((s.modFlt (fun f => { f with latentLate := insNat f.latentLate t })).detect0 0x47 t).counted 0x46 = s.counted 0x46 + 1 := by
  refine ⟨?_, counted_detect0 _ 0x47 t⟩
  unfold State.detect0 State.detect State.detectAs
  dsimp only
  split <;> exact mem_insNat s.flt.latentLate t
theorem quietDrop_keeps (s : State) : s.quietDrop.dp.quiet = s.dp.quiet ∧ s.quietDrop.flt = s.flt ∧ s.quietDrop.pair = s.pair ∧
    s.quietDrop.counted = s.counted := by
  unfold State.quietDrop
  split
  · refine ⟨forEach_keeps (fun s => s.dp.quiet) (fun s f => s.removeFrame f) removeFrame_quiet _ s,
      forEach_keeps State.flt (fun s f => s.removeFrame f) (fun s f => (congrArg Prod.snd (removeFrame_board s f) :)) _ s,
      forEach_keeps State.pair (fun s f => s.removeFrame f)
        (fun s f => (congrArg (fun r => r.2.2.2.2.2.2.2.2.1) (removeFrame_rest s f) :)) _ s,
      forEach_keeps State.counted (fun s f => s.removeFrame f) (fun s f => ?_) _ s⟩
    funext n
    exact counted_acc _ _ n (removeFrame_acc s f)
  · exact ⟨rfl, rfl, rfl, rfl⟩
/-- The loss of lockstep silences the unit for good (R13, R306). -/
theorem aoLock_effect (s : State) (i : Nat) : (s.aoLock i).dp.quiet = true ∧ (s.aoLock i).alarm = true ∧
    (s.aoLock i).flt.silent = true ∧ (s.aoLock i).pair.role = .silent ∧ (s.aoLock i).counted 0x4F = s.counted 0x4F + 1 := by
  unfold State.aoLock
  extract_lets gate t
  have ht : t.dp.quiet = true ∧ t.flt.alarmHard = true ∧ t.flt.silent = true ∧ t.counted 0x4F = s.counted 0x4F + 1 :=
    ⟨rfl, rfl, rfl, counted_detect0 s 0x50 i⟩
  obtain ⟨hq, hh, hs, hc⟩ := ht
  clear_value t
  obtain ⟨kq, kf, kp, kc⟩ := quietDrop_keeps (t.modPair (fun p => { p with role := .silent, silentOpen := gate }))
  unfold State.alarm
  rw [kq, kf, kp, kc]
  refine ⟨hq, ?_, hs, rfl, hc⟩
  show (t.flt.alarmHard || t.flt.alarmOvf || _) = true
  rw [hh]
  rfl

/-- Settles O39: each latent test by its branch of `State.latentFailed`, the lockstep by `State.aoLock`. -/
theorem latentTests : Obligations.LatentTests := by
  unfold Obligations.LatentTests
  refine ⟨?_, ?_, ?_, ?_⟩
  · intro t i s ht
    change execLatentTest t i true s = _
    unfold execLatentTest
    dsimp only
    rw [if_neg ht]
    rfl
  · exact fun i s hr => ⟨_, exec_latentFailed i s, unitFault_sec s.begin hr⟩
  · exact fun t s ht hd hl => ⟨_, exec_latentLate t s ht hd hl, latentLate_effect s.begin t.val⟩
  · exact fun i s => ⟨s.begin.aoLock i.val, rfl, aoLock_effect s.begin i.val⟩

/-! ### Records (R301 to R304) -/

theorem rec_setRec (s : State) (i : Nat) (r : Option FRec) : (s.setRec i r).rec_ i = r := Tab.get_set none _ i r
theorem rec_setRec_ne (s : State) (i j : Nat) (r : Option FRec) (h : j ≠ i) : (s.setRec i r).rec_ j = s.rec_ j :=
  Tab.get_set_ne none none _ i j r h
theorem recNoted_flt (s : State) (e : FEvent) : (s.recNoted e).flt = s.flt :=
  when_keeps State.flt (·.setFlag .flt 0x40 7) (fun _ => rfl) _ s
theorem rec_of_flt (s t : State) (i : Nat) (h : t.flt.recs = s.flt.recs) : t.rec_ i = s.rec_ i := by
  unfold State.rec_
  rw [h]
theorem exec_faultEvent (e : FEvent) (rest : List FEvent) (s : State) (hq : s.flt.queue = e :: rest) :
    exec .faultEvent s = .next ((s.begin.modFlt (fun f => { f with queue := rest })).takeEvent e) := by
  change execFaultEvent s = _
  unfold execFaultEvent
  dsimp only
  rw [show s.begin.flt.queue = e :: rest from hq]
theorem putRec_effect (s : State) (i : Nat) (e : FEvent) : (s.putRec i e).flt.queue = s.flt.queue ∧
    (s.putRec i e).rec_ i = some { ev := e, count := 1, serial := s.flt.serial } := by
  unfold State.putRec
  rw [rec_of_flt _ _ i (congrArg Faults.recs (recNoted_flt _ e)), recNoted_flt]
  have hrec : (s.setRec i (some { ev := e, count := 1, serial := s.flt.serial })).rec_ i =
    some { ev := e, count := 1, serial := s.flt.serial } := rec_setRec s i _
  exact ⟨rfl, hrec⟩
theorem takeEvent_new (s : State) (e : FEvent) (i : Nat) (hm : s.recMasked e = false)
    (hf : s.recsValid.find? (fun p => p.2.ev.same e) = none) (hi : s.recFree = some i) : s.takeEvent e = s.putRec i e := by
  unfold State.takeEvent
  simp only [hm, hf, hi, Bool.false_eq_true, if_false]
theorem takeEvent_same (s : State) (e : FEvent) (i : Nat) (r : FRec) (hm : s.recMasked e = false)
    (hf : s.recsValid.find? (fun p => p.2.ev.same e) = some (i, r)) :
    s.takeEvent e = (s.setRec i (some { r with count := min 255 (r.count + 1) })).recNoted e := by
  unfold State.takeEvent
  simp only [hm, hf, Bool.false_eq_true, if_false]
theorem takeEvent_masked (s : State) (e : FEvent) (hm : s.recMasked e = true) : s.takeEvent e = s := by
  unfold State.takeEvent
  rw [if_pos hm]

/-! ### The window of the records (R304) -/

/-- A row of result registers that are loaded one after the other. -/
theorem roW_loaded (p : Page) (off : Nat) (w : Nat → W32) (n i : Nat) (s : State) (hi : i < n) :
    (s.forEach (List.range n) (fun s i => s.setRo p (off + 4 * i) (w i))).roW p (off + 4 * i) = w i := by
  induction n with
  | zero => omega
  | succ n ih =>
    unfold State.forEach at ih ⊢
    rw [List.range_succ, List.foldl_append]
    by_cases h : i = n
    · rw [h]
      exact roW_setRo _ _ _ _
    · refine (roW_setRo_ne _ p p _ _ _ (at_ne p _ _ (by omega))).trans (ih (by omega))
theorem recLoad_roW (s : State) (i : Nat) (hi : i < 5) :
    s.recLoad.roW .flt (0x88 + 4 * i) = (recWords (s.rec_ s.recSel)).getD i 0 :=
  roW_loaded .flt 0x88 (fun i => (recWords (s.rec_ s.recSel)).getD i 0) 5 i s hi
theorem recLoad_keeps (s : State) : s.recLoad.flt = s.flt ∧ s.recLoad.cfg = s.cfg ∧ s.recLoad.hdr = s.hdr := by
  unfold State.recLoad
  exact ⟨forEach_keeps State.flt (fun s i => s.setRo .flt (0x88 + 4 * i) ((recWords _).getD i 0)) (fun _ _ => rfl) _ s,
    forEach_keeps State.cfg (fun s i => s.setRo .flt (0x88 + 4 * i) ((recWords _).getD i 0)) (fun _ _ => rfl) _ s,
    forEach_keeps State.hdr (fun s i => s.setRo .flt (0x88 + 4 * i) ((recWords _).getD i 0)) (fun _ _ => rfl) _ s⟩
theorem recWords_none (i : Nat) : (recWords none).getD i 0 = 0 := by
  unfold recWords
  rcases i with _ | _ | _ | _ | _ | i <;> rfl

/-- A write of a register of the FLT page that is neither locked nor written once: it is posted (R346). -/
theorem through_flt (s : State) (off : Nat) (data : W32) (act : State → State) (r : RegRow) (hr : rowAt .flt off = some r)
    (hf : s.free .flt = true) (hi : r.inert data = false) (hl : r.l = 0) (ho : r.o = 0) (hs : r.s = 0) :
    s.begin.through .flt off data act = (act (s.begin.emit (.cpDone false))).setBusy .flt true := by
  have huse : (s.begin.emit (.cpDone false)).useOnce .flt off = s.begin.emit (.cpDone false) := by
    unfold State.useOnce
    rw [hr]
    simp only [ho, if_true]
  rw [through_ok s.begin .flt off data act r hr hf hi (.inl hl) (.inl ho) (.inl hs)]
  simp only [hl, ne_eq, not_true_eq_false, decide_false, when_false, huse]
  rfl
theorem setBusy_busy (s : State) (p : Page) (b : Bool) : ((s.setBusy p b).hdr p).busy = b := by
  unfold State.setBusy
  rw [hdr_modHdr]
theorem exec_fltRecSel (data : W32) (s : State) (hf : s.free .flt = true) : exec (.fltRecSel data) s =
    .next (((s.begin.emit (.cpDone false)).setCfg .flt 0x84 (BitVec.ofNat 32 (fld data 5 0))).recLoad.setBusy .flt true) :=
  congrArg Host.Outcome.next (through_flt s 0x84 data _ { off := 0x84, rw := 0x3F } rfl hf rfl rfl rfl rfl)
theorem recClr_through (k : W32) (s : State) (hf : s.free .flt = true)
    (hi : ({ off := 0x9C, w1s := 0x3 } : RegRow).inert k = false) :
    s.begin.through .flt 0x9C k (·.recClr k) = ((s.begin.emit (.cpDone false)).recClr k).setBusy .flt true :=
  through_flt s 0x9C k _ { off := 0x9C, w1s := 0x3 } rfl hf hi rfl rfl rfl
theorem exec_fltRecClrOne (s : State) (hf : s.free .flt = true) :
    exec .fltRecClrOne s = .next (((s.begin.emit (.cpDone false)).recClr 1).setBusy .flt true) := by
  change execFltRecClrOne s = _
  unfold execFltRecClrOne
  rw [recClr_through 1 s hf (by decide)]
theorem exec_fltRecClrAll (s : State) (hf : s.free .flt = true) :
    exec .fltRecClrAll s = .next (((s.begin.emit (.cpDone false)).recClr 2).setBusy .flt true) := by
  change execFltRecClrAll s = _
  unfold execFltRecClrAll
  rw [recClr_through 2 s hf (by decide)]
theorem recLet_flt (s was : State) : (s.recLet was).flt.recs = s.flt.recs ∧ (s.recLet was).cfg = s.cfg :=
  ⟨when_keeps (fun s => s.flt.recs) (·.modFlt (fun f => { f with alarmOvf := true })) (fun _ => rfl) _ s,
    when_keeps State.cfg (·.modFlt (fun f => { f with alarmOvf := true })) (fun _ => rfl) _ s⟩
/-- The selected record is cleared: it shows zeros, and the others stay (R303). -/
theorem recClr_one (s : State) : (s.recClr 1).rec_ s.recSel = none ∧ (∀ j, j ≠ s.recSel → (s.recClr 1).rec_ j = s.rec_ j) ∧
    ∀ i, i < 5 → (s.recClr 1).roW .flt (0x88 + 4 * i) = 0 := by
  obtain ⟨t, ht⟩ : ∃ t, t = (s.setRec s.recSel none).recLet s := ⟨_, rfl⟩
  have hdef : s.recClr 1 = t.recLoad := by
    rw [ht]
    rfl
  obtain ⟨hrecs, hcfg⟩ := recLet_flt (s.setRec s.recSel none) s
  have hrec : ∀ j, t.rec_ j = (s.setRec s.recSel none).rec_ j := fun j => rec_of_flt _ _ j (by rw [ht]; exact hrecs)
  have hsel : t.recSel = s.recSel := by
    unfold State.recSel
    rw [ht, hcfg]
    rfl
  have hload : ∀ j, (s.recClr 1).rec_ j = t.rec_ j := fun j =>
    rec_of_flt _ _ j (by rw [hdef]; exact congrArg Faults.recs (recLoad_keeps t).1)
  refine ⟨?_, fun j hj => ?_, fun i hi => ?_⟩
  · rw [hload, hrec, rec_setRec]
  · rw [hload, hrec, rec_setRec_ne _ _ _ _ hj]
  · rw [hdef, recLoad_roW t i hi, hsel, hrec, rec_setRec, recWords_none]
/-- Every record is cleared. -/
theorem recClr_all (s : State) : (s.recClr 2).flt.recs = [] ∧ ∀ i, i < 5 → (s.recClr 2).roW .flt (0x88 + 4 * i) = 0 := by
  obtain ⟨t, ht⟩ : ∃ t, t = (s.modFlt (fun f => { f with recs := [] })).recLet s := ⟨_, rfl⟩
  have hdef : s.recClr 2 = t.recLoad := by
    rw [ht]
    rfl
  have hrecs : t.flt.recs = [] := by
    rw [ht]
    exact (recLet_flt _ s).1
  refine ⟨?_, fun i hi => ?_⟩
  · rw [hdef, (recLoad_keeps t).1, hrecs]
  · have hnone : t.rec_ t.recSel = none := by
      unfold State.rec_
      rw [hrecs]
      rfl
    rw [hdef, recLoad_roW t i hi, hnone, recWords_none]

/-! ### Injection (R304) -/

/-- A write of FLT_INJECT on an unlocked page uses up the unlock, and is posted. -/
theorem exec_fltInject (data : W32) (s : State) (hf : s.free .flt = true) (hu : (s.hdr .flt).unlocked = true) :
    exec (.fltInject data) s =
      .next ((((s.begin.emit (.cpDone false)).setUnlocked .flt false).inject data).setBusy .flt true) :=
  congrArg Host.Outcome.next (through_ok s.begin .flt 0xA8 data _ { off := 0xA8, l := 0x7FFFC01, wo := 0x7FFFC01 } rfl hf rfl
    (.inr hu) (.inl rfl) (.inl rfl))
/-- An injection into a detector without a unit of its own makes the record and the count. -/
theorem injectNow_record (s : State) (det inst : Nat)
    (h : det ∈ [0x0A, 0x10, 0x11, 0x12, 0x13, 0x14, 0x16, 0x18, 0x20, 0x21, 0x22, 0x23, 0x28, 0x29, 0x2B, 0x2D, 0x32, 0x33,
      0x34, 0x35, 0x36, 0x38, 0x40, 0x41, 0x42, 0x43, 0x45, 0x46, 0x47]) : s.injectNow det inst = s.detectAs true det inst 0 0 := by
  simp only [List.mem_cons, List.not_mem_nil, or_false] at h
  unfold State.injectNow
  rw [if_neg (by omega), if_neg (by omega), if_neg (by omega), if_neg (by omega), if_neg (by omega), if_neg (by omega),
    if_neg (by omega), if_neg (by omega), if_neg (by omega), if_neg (by omega)]
theorem detectAs_hdr (s : State) (inj : Bool) (det inst : Nat) (a b : W32) : (s.detectAs inj det inst a b).hdr = s.hdr := by
  unfold State.detectAs
  dsimp only
  split <;> rfl

/-- Settles O40: an event by `State.takeEvent`, the window by `State.recLoad`, an injection by the detection it makes. -/
theorem faultRecords : Obligations.FaultRecords := by
  unfold Obligations.FaultRecords
  refine ⟨?_, ?_, ?_, ?_, ?_, ?_, ?_, ?_⟩
  · intro e rest i s hq hm hf hi
    have h := exec_faultEvent e rest s hq
    rw [takeEvent_new (s.begin.modFlt (fun f => { f with queue := rest })) e i hm hf hi] at h
    exact ⟨_, h, putRec_effect (s.begin.modFlt (fun f => { f with queue := rest })) i e⟩
  · intro e rest i r s hq hm hf
    have h := exec_faultEvent e rest s hq
    rw [takeEvent_same (s.begin.modFlt (fun f => { f with queue := rest })) e i r hm hf] at h
    refine ⟨_, h, ?_⟩
    rw [rec_of_flt _ _ i (congrArg Faults.recs (recNoted_flt _ e)), rec_setRec, recNoted_flt]
    exact ⟨rfl, rfl⟩
  · intro e rest s hq hm
    have h := exec_faultEvent e rest s hq
    rw [takeEvent_masked (s.begin.modFlt (fun f => { f with queue := rest })) e hm] at h
    exact h
  · intro data s hf
    obtain ⟨t, ht⟩ : ∃ t, t = (s.begin.emit (.cpDone false)).setCfg .flt 0x84 (BitVec.ofNat 32 (fld data 5 0)) := ⟨_, rfl⟩
    have hsel : t.recSel = fld data 5 0 := by
      unfold State.recSel
      rw [ht, cfg_setCfg, fld_ofNat_fld data 5 (by decide)]
    have hrec : t.rec_ = s.rec_ := by
      rw [ht]
      rfl
    have h := exec_fltRecSel data s hf
    rw [← ht] at h
    obtain ⟨v, hv⟩ : ∃ v, v = t.recLoad := ⟨_, rfl⟩
    have hvsel : v.recSel = fld data 5 0 := by
      unfold State.recSel
      rw [hv, (recLoad_keeps t).2.1]
      exact hsel
    have hshow : ∀ i, i < 5 → v.roW .flt (0x88 + 4 * i) = (recWords (s.rec_ (fld data 5 0))).getD i 0 := fun i hi => by
      rw [hv, recLoad_roW t i hi, hsel, hrec]
    rw [← hv] at h
    exact ⟨_, h, hvsel, setBusy_busy _ _ _, hshow⟩
  · intro s hf
    obtain ⟨hnone, hother, hshow⟩ := recClr_one (s.begin.emit (.cpDone false))
    have h := exec_fltRecClrOne s hf
    obtain ⟨t, ht⟩ : ∃ t, t = (s.begin.emit (.cpDone false)).recClr 1 := ⟨_, rfl⟩
    have hsel : (s.begin.emit (.cpDone false)).recSel = s.recSel := rfl
    rw [← ht] at h hnone hother hshow
    rw [hsel] at hnone hother
    exact ⟨_, h, hnone, setBusy_busy _ _ _, hother, hshow⟩
  · intro s hf
    obtain ⟨hrecs, hshow⟩ := recClr_all (s.begin.emit (.cpDone false))
    have h := exec_fltRecClrAll s hf
    obtain ⟨t, ht⟩ : ∃ t, t = (s.begin.emit (.cpDone false)).recClr 2 := ⟨_, rfl⟩
    rw [← ht] at h hrecs hshow
    exact ⟨_, h, hrecs, setBusy_busy _ _ _, hshow⟩
  · intro data s hf hu hgo hcls hin hdet
    obtain ⟨t, ht⟩ : ∃ t, t = (s.begin.emit (.cpDone false)).setUnlocked .flt false := ⟨_, rfl⟩
    have hinj : t.inject data = (t.detectAs true (fld data 26 19) (fld data 18 10) 0 0).settle := by
      unfold State.inject
      dsimp only
      rw [hgo, if_neg (by decide), if_neg, injectNow_record _ _ _ hdet]
      rw [hin]
      simp only [hcls, false_or, Bool.true_eq_false, or_false]
      intro h
      rw [h] at hdet
      exact absurd hdet (by decide)
    have h := exec_fltInject data s hf hu
    rw [← ht, hinj] at h
    refine ⟨_, h, ?_, ?_, ?_, ?_⟩
    · rw [detectAs_hdr, ht]
      exact setUnlocked_unlocked _ _ _
    · rw [counted_detect, ht]
      rfl
    · rw [(detectAs_keeps t true _ _ 0 0).2.2.2.1, ht]
      rfl
    · rw [detectAs_sys, ht]
      rfl
  · intro data s hf hu hgo hin
    obtain ⟨t, ht⟩ : ∃ t, t = (s.begin.emit (.cpDone false)).setUnlocked .flt false := ⟨_, rfl⟩
    have hinj : t.inject data = t.accessErr .flt := by
      unfold State.inject
      dsimp only
      rw [hgo, if_neg (by decide), if_pos (.inr (.inr hin))]
    have h := exec_fltInject data s hf hu
    rw [← ht, hinj] at h
    refine ⟨_, h, ?_, ?_, ?_⟩
    · unfold State.setBusy State.accessErr
      rw [hdr_modHdr]
      show (((t.modHdr .flt (fun h => { h with accessErr := true })).hdr .flt).accessErr) = true
      rw [hdr_modHdr]
    · refine (counted_evt (t.modHdr .flt (fun h => { h with accessErr := true })) 114 1).trans ?_
      rw [ht]
      rfl
    · rw [ht]
      rfl

end Sys2Proof.Machine
end

section
/-! PROOFS. Commits of pages and the digest of all pages (R349, R350, R358). -/
namespace Sys2Proof.Machine

/-! ### A write of COMMIT -/

/-- A write of COMMIT that nothing stands against is carried out; a posted page stays busy (R345, R346). -/
theorem pgCommit_through (page : BitVec 8) (p : Page) (s : State) (hp : pageOf page.toNat = some p) (hf : s.free p = true) :
    exec (.pgCommit page) s =
      .next (((s.begin.emit (.cpDone false)).commitWrite p).settle.when p.aoPosted (·.setBusy p true)) := by
  have hthrough : s.begin.through p 0x08 1 (fun s => (s.commitWrite p).settle) =
      ((s.begin.emit (.cpDone false)).commitWrite p).settle.when p.aoPosted (·.setBusy p true) :=
    through_ok s.begin p 0x08 1 (fun s => (s.commitWrite p).settle) { off := 0x08, w1s := 1 } rfl hf (by decide) (.inl rfl)
      (.inl rfl) (.inl rfl)
  change execPgCommit page s = _
  unfold execPgCommit
  simp only [hp, hthrough]
theorem commitWrite_pending (s : State) (p : Page) (hp : (s.hdr p).pending = false) (hd : (s.hdr p).dirty = true)
    (hr : s.commitRefuses p = false) :
    s.commitWrite p = s.modHdr p (fun h => { h with pending := true, waits := s.commitFrames p }) := by
  unfold State.commitWrite
  simp only [hp, hd, hr, Bool.false_eq_true, Bool.not_true, if_false]
theorem commitWrite_clean (s : State) (p : Page) (hp : (s.hdr p).pending = false) (hd : (s.hdr p).dirty = false) :
    s.commitWrite p = s := by
  unfold State.commitWrite
  simp only [hp, hd, Bool.false_eq_true, Bool.not_false, if_false, if_true]

/-! ### The staged fields of a page -/

/-- The offsets of a row that has staged fields, with the mask of those fields. -/
def RegRow.fields (r : RegRow) : List (Nat × W32) :=
  if r.rw &&& r.s = 0 then [] else (List.range r.n).map (fun i => (r.off + i * r.step, r.s))
/-- The staged fields of a register take effect. -/
def State.applyField (s : State) (p : Page) (q : Nat × W32) : State :=
  s.setCfg p q.1 (mergeBits q.2 (s.stg p q.1) (s.cfg p q.1))
theorem forEach_flatMap {α β : Type} (f : State → β → State) (g : α → List β) (l : List α) (s : State) :
    s.forEach l (fun s a => s.forEach (g a) f) = s.forEach (l.flatMap g) f := by
  induction l generalizing s with
  | nil => rfl
  | cons a l ih =>
    rw [forEach_cons, ih, List.flatMap_cons]
    exact List.foldl_append.symm
theorem applyRows_fields (s : State) (p : Page) :
    s.applyRows p = s.forEach ((rowsOf p).flatMap RegRow.fields) (fun s q => s.applyField p q) := by
  rw [← forEach_flatMap]
  unfold State.applyRows
  congr 1
  funext s r
  unfold RegRow.fields
  split
  · rfl
  · show s.forEach (List.range r.n) _ = _
    unfold State.forEach
    rw [List.foldl_map]
    rfl
/-- Another register of the page is left as it was. -/
theorem setCfg_other (s : State) (p : Page) (a b : Nat) (v : W32) (h : b ≠ a) :
    (s.setCfg p a v).cfg p b = s.cfg p b ∧ (s.setCfg p a v).stg p b = s.stg p b := by
  have hat : p.at b ≠ p.at a := at_ne p b a h
  have hbad : p.at b ∈ (s.setCfg p a v).regs.parBad ↔ p.at b ∈ s.regs.parBad := by
    show p.at b ∈ delNat s.regs.parBad (p.at a) ↔ _
    unfold delNat
    simp [hat]
  have hcfg : Tab.get (regReset (p.at b)) (s.setCfg p a v).regs.cfg (p.at b) = Tab.get (regReset (p.at b)) s.regs.cfg (p.at b) :=
    Tab.get_set_ne _ _ _ _ _ _ hat
  have hc : (s.setCfg p a v).cfg p b = s.cfg p b := by
    unfold State.cfg
    simp only [hbad, hcfg]
  refine ⟨hc, ?_⟩
  unfold State.stg
  simp only [hbad]
  rfl
/-- Each staged field comes into force beside the other bits of its register. -/
theorem applyFields_cfg (p : Page) (l : List (Nat × W32)) (s : State) (q : Nat × W32) (hn : (l.map Prod.fst).Nodup) (hq : q ∈ l) :
    (s.forEach l (fun s q => s.applyField p q)).cfg p q.1 = mergeBits q.2 (s.stg p q.1) (s.cfg p q.1) := by
  have hlater : ∀ (l : List (Nat × W32)) (s : State), q.1 ∉ l.map Prod.fst →
      (s.forEach l (fun s q => s.applyField p q)).cfg p q.1 = s.cfg p q.1 := by
    intro l
    induction l with
    | nil => exact fun _ _ => rfl
    | cons a l ih =>
      intro s h
      rw [List.map_cons, List.mem_cons, not_or] at h
      rw [forEach_cons, ih _ h.2]
      exact (setCfg_other s p a.1 q.1 _ h.1).1
  induction l generalizing s with
  | nil => cases hq
  | cons a l ih =>
    rw [List.map_cons, List.nodup_cons] at hn
    rw [forEach_cons]
    rcases List.mem_cons.mp hq with rfl | hin
    · rw [hlater l _ hn.1]
      exact cfg_setCfg s p q.1 _
    · have hne : q.1 ≠ a.1 := fun e => hn.1 (e ▸ List.mem_map_of_mem hin)
      obtain ⟨hc, hs⟩ := setCfg_other s p a.1 q.1 (mergeBits a.2 (s.stg p a.1) (s.cfg p a.1)) hne
      rw [ih _ hn.2 hin]
      unfold State.applyField
      rw [hc, hs]
theorem portFields (n : Nat) : (((rowsOf (.port n)).flatMap RegRow.fields).map Prod.fst).Nodup ∧
    (0x80, 0x107) ∈ (rowsOf (.port n)).flatMap RegRow.fields ∧ (0x84, 0x7FFF007F) ∈ (rowsOf (.port n)).flatMap RegRow.fields := by
  have hrows : rowsOf (.port n) = if n = 0 then rowsPort else rowsPort.filter (fun r => r.off ≠ 0x094) := rfl
  rw [hrows]
  split
  · decide
  · decide

/-! ### The application of a commit -/

/-- What follows a change of a port's configuration leaves configuration, headers and counts. -/
theorem cfgActs_port (s was : State) (n : Nat) : (s.cfgActs was (.port n)).cfg = s.cfg ∧ (s.cfgActs was (.port n)).hdr = s.hdr ∧
    (s.cfgActs was (.port n)).counted = s.counted := by
  have hsw : ∀ b, (s.portSwitched n b).regs = s.regs ∧ (s.portSwitched n b).cnt = s.cnt := fun b => by
    unfold State.portSwitched State.rseInit
    (repeat' split) <;> exact ⟨rfl, rfl⟩
  obtain ⟨hr, hc⟩ := hsw (was.portEn n)
  unfold State.cfgActs
  dsimp only
  refine ⟨(when_keeps State.cfg (·.portBFlag n 1) (fun _ => rfl) _ _).trans ?_,
    (when_keeps State.hdr (·.portBFlag n 1) (fun _ => rfl) _ _).trans ?_,
    (when_keeps State.counted (·.portBFlag n 1) (fun _ => rfl) _ _).trans ?_⟩
  · unfold State.cfg
    rw [hr]
  · unfold State.hdr
    rw [hr]
  · unfold State.counted
    rw [hc]
theorem applyRows_keeps (s : State) (p : Page) : (s.applyRows p).hdr = s.hdr ∧ (s.applyRows p).counted = s.counted := by
  rw [applyRows_fields]
  exact ⟨forEach_keeps State.hdr (fun s q => s.applyField p q) (fun _ _ => rfl) _ s,
    forEach_keeps State.counted (fun s q => s.applyField p q) (fun _ _ => rfl) _ s⟩
/-- At its boundary the commit of a port is applied (R350). -/
theorem commitApply_port (s : State) (n : Nat) : ((s.commitApply (.port n)).hdr (.port n)).pending = false ∧
    ((s.commitApply (.port n)).hdr (.port n)).epoch = (s.hdr (.port n)).epoch + 1 ∧
    (s.commitApply (.port n)).counted 116 = s.counted 116 + 1 ∧
    (s.commitApply (.port n)).cfg (.port n) 0x80 = mergeBits 0x107 (s.stg (.port n) 0x80) (s.cfg (.port n) 0x80) ∧
    (s.commitApply (.port n)).cfg (.port n) 0x84 = mergeBits 0x7FFF007F (s.stg (.port n) 0x84) (s.cfg (.port n) 0x84) := by
  obtain ⟨a, ha⟩ : ∃ a, a = s.applyRows (.port n) := ⟨_, rfl⟩
  obtain ⟨t, ht⟩ : ∃ t, t = a.modHdr (.port n) (fun h => { h with pending := false, dirty := false, waits := [] }) := ⟨_, rfl⟩
  have hdef : s.commitApply (.port n) = ((t.bumpEpoch (.port n)).evt 116 1).cfgActs s (.port n) := by
    unfold State.commitApply
    rw [decide_eq_false (fun h => nomatch h), when_false, ← ha, ht]
  obtain ⟨hcfg, hhdr, hcnt⟩ := cfgActs_port ((t.bumpEpoch (.port n)).evt 116 1) s n
  obtain ⟨khdr, kcnt⟩ := applyRows_keeps s (.port n)
  have hh : t.hdr (.port n) = { s.hdr (.port n) with pending := false, dirty := false, waits := [] } := by
    rw [ht, hdr_modHdr, ha, khdr]
  have hc : ∀ q ∈ (rowsOf (.port n)).flatMap RegRow.fields,
      ((t.bumpEpoch (.port n)).evt 116 1).cfg (.port n) q.1 = mergeBits q.2 (s.stg (.port n) q.1) (s.cfg (.port n) q.1) := by
    intro q hq
    have hta : ((t.bumpEpoch (.port n)).evt 116 1).cfg = a.cfg := by
      rw [ht]
      rfl
    rw [hta, ha, applyRows_fields]
    exact applyFields_cfg (.port n) _ s q (portFields n).1 hq
  rw [hdef, hcfg, hhdr, hcnt]
  refine ⟨?_, ?_, ?_, hc _ (portFields n).2.1, hc _ (portFields n).2.2⟩
  · refine Eq.trans (congrArg Hdr.pending (hdr_modHdr t (.port n) (fun h => { h with epoch := h.epoch + 1 }) :)) ?_
    rw [hh]
  · refine (hdr_bumpEpoch_same t (.port n)).trans ?_
    rw [hh]
  · refine (counted_evt _ 116 1).trans (congrArg (· + 1) ?_)
    rw [← kcnt, ← ha]
    show t.counted 116 = _
    rw [ht]
    rfl
theorem exec_commitApply (page : BitVec 8) (p : Page) (s : State) (hp : pageOf page.toNat = some p)
    (hpend : (s.hdr p).pending = true) (ho : s.resetOn p.part = false) (hb : s.commitReady p = true)
    (hr : s.commitRefuses p = false) : exec (.commitApply page) s = .next (s.begin.commitApply p).settle := by
  have hdue : ((s.begin.hdr p).pending && !s.begin.resetOn p.part && s.begin.commitReady p) = true := by
    change ((s.hdr p).pending && !s.resetOn p.part && s.commitReady p) = true
    rw [hpend, ho, hb]
    rfl
  have hr' : s.begin.commitRefuses p = false := hr
  change execCommitApply page s = _
  unfold execCommitApply
  simp only [hp, hdue, hr', if_true, Bool.false_eq_true, if_false]

/-! ### The digest of all pages -/

theorem glbRecompute_effect (s : State) : s.glbRecompute.regs.glbDigest = s.glbDigestNow ∧
    s.glbRecompute.regs.glbDigCnt = s.regs.glbDigCnt + 1 ∧ s.glbRecompute.regs.digestStale = false ∧
    (s.glbDigestNow ≠ s.regs.glbDigest → s.glbRecompute.flag .glb 0x40 3 = true ∧
      s.glbRecompute.counted 124 = s.counted 124 + 1) := by
  obtain ⟨d, hd⟩ : ∃ d, d = s.glbDigestNow := ⟨_, rfl⟩
  obtain ⟨t, ht⟩ : ∃ t, t = s.when (decide (d ≠ s.regs.glbDigest)) (fun s => (s.setFlag .glb 0x40 3).evt 124 1) := ⟨_, rfl⟩
  have hdef : s.glbRecompute =
      t.modRegs (fun r => { r with glbDigest := d, glbDigCnt := r.glbDigCnt + 1, digestStale := false }) := by
    rw [ht, hd]
    rfl
  have hcnt : t.regs.glbDigCnt = s.regs.glbDigCnt := by
    rw [ht]
    exact when_keeps (fun s => s.regs.glbDigCnt) (fun s => (s.setFlag .glb 0x40 3).evt 124 1) (fun _ => rfl) _ s
  rw [hdef, ← hd]
  refine ⟨rfl, congrArg (· + 1) hcnt, rfl, fun h => ?_⟩
  have hte : t = (s.setFlag .glb 0x40 3).evt 124 1 := by
    rw [ht, decide_eq_true h]
    rfl
  have hflag : t.flag .glb 0x40 3 = true := by
    rw [hte]
    exact (flag_of_regs (s.setFlag .glb 0x40 3) _ _ _ _ rfl).trans (flag_setFlag s .glb 0x40 3 (by decide))
  have hcount : t.counted 124 = s.counted 124 + 1 := by
    rw [hte, counted_evt]
    rfl
  exact ⟨hflag, hcount⟩

/-- Settles O57: a write of COMMIT by `State.commitWrite`, the application register by register, the digest as computed. -/
theorem pagesCommit : Obligations.PagesCommit := by
  unfold Obligations.PagesCommit
  refine ⟨?_, ?_, ?_, ?_⟩
  · intro page p s hp hf hpend hd hr
    refine ⟨_, pgCommit_through page p s hp hf, ?_⟩
    rw [commitWrite_pending (s.begin.emit (.cpDone false)) p hpend hd hr, hdr_modHdr]
    exact ⟨rfl, rfl, rfl, rfl⟩
  · intro page p s hp hf hpend hd
    refine ⟨_, pgCommit_through page p s hp hf, ?_⟩
    rw [commitWrite_clean (s.begin.emit (.cpDone false)) p hpend hd]
    rfl
  · intro page n s hp hpend ho hb hr
    exact ⟨_, exec_commitApply page (.port n) s hp hpend ho hb hr, commitApply_port s.begin n⟩
  · intro s hst hph hr
    refine ⟨s.begin.glbRecompute, ?_, glbRecompute_effect s.begin⟩
    change execGlbDigestRecompute s = _
    unfold execGlbDigestRecompute
    dsimp only
    rw [show s.begin.regs.digestStale = true from hst, show s.begin.resetOn .glob = false from hr,
      decide_eq_true (show 4 ≤ s.begin.sys.phase from hph)]
    rfl

end Sys2Proof.Machine
end

section
/-! PROOFS. Writes of registers with an effect of their own (R241, R349, R363, R370, R372). -/
namespace Sys2Proof.Machine

/-! ### Rows of the pages that repeat -/

theorem rowAt_pcntClr (n : Nat) : rowAt (.port n) 0xAC = some { off := 0xAC, w1s := 0x3 } := by
  have hrows : rowsOf (.port n) = if n = 0 then rowsPort else rowsPort.filter (fun r => r.off ≠ 0x094) := rfl
  unfold rowAt
  rw [hrows]
  split
  · rfl
  · rfl
theorem rowAt_portCfg (n : Nat) : rowAt (.port n) 0x80 = some { off := 0x80, rw := 0x107, s := 0x107, q := 0x7 } := by
  have hrows : rowsOf (.port n) = if n = 0 then rowsPort else rowsPort.filter (fun r => r.off ≠ 0x094) := rfl
  unfold rowAt
  rw [hrows]
  split
  · rfl
  · rfl
theorem rowAt_evcHi (e k : Nat) (hk : k < 64) :
    rowAt (.evc e) (0x104 + 8 * k) = some { off := 0x104, n := 64, step := 8, rw := 0xFFFF } := by
  have hall : ∀ i : Fin 64, rowAt (.evc 0) (0x104 + 8 * i.val) = some { off := 0x104, n := 64, step := 8, rw := 0xFFFF } := by
    decide
  exact hall ⟨k, hk⟩

/-! ### Port counters -/

theorem get_filter_out {α : Type} (d : α) (m : Tab α) (p : Nat → Bool) (k : Nat) (hk : p k = false) :
    Tab.get d (m.filter (fun x => p x.1)) k = d := by
  induction m with
  | nil => rfl
  | cons q m ih =>
    obtain ⟨a, v⟩ := q
    rw [List.filter_cons]
    split
    · next ha =>
      have hne : k ≠ a := fun e => Bool.false_ne_true (hk.symm.trans (e ▸ ha))
      unfold Tab.get
      rw [if_neg hne, ih]
    · exact ih

/-! ### Windows of four words -/

/-- Four words of 32 bits make up the 128 bits that they were cut from. -/
theorem join_words (w : W128) : BitVec.ofNat 128 ((BitVec.ofNat 32 (w.toNat / 2 ^ (32 * 0))).toNat +
    (BitVec.ofNat 32 (w.toNat / 2 ^ (32 * 1))).toNat * 2 ^ 32 + (BitVec.ofNat 32 (w.toNat / 2 ^ (32 * 2))).toNat * 2 ^ 64 +
    (BitVec.ofNat 32 (w.toNat / 2 ^ (32 * 3))).toNat * 2 ^ 96) = w := by
  apply BitVec.eq_of_toNat_eq
  have hw := w.isLt
  simp only [BitVec.toNat_ofNat]
  omega
theorem cfg_putWords (s : State) (p : Page) (off : Nat) (w : W128) (i : Nat) (hi : i < 4) :
    (s.putWords p off w).cfg p (off + 4 * i) = BitVec.ofNat 32 (w.toNat / 2 ^ (32 * i)) :=
  cfg_forEach_setCfg s p off 4 i (fun i => BitVec.ofNat 32 (w.toNat / 2 ^ (32 * i))) hi
theorem cfg_putWords_below (s : State) (p : Page) (off a : Nat) (w : W128) (ha : a < off) :
    (s.putWords p off w).cfg p a = s.cfg p a :=
  forEach_keeps (fun s => s.cfg p a) (fun s i => s.setCfg p (off + 4 * i) (BitVec.ofNat 32 (w.toNat / 2 ^ (32 * i))))
    (fun s i => (setCfg_other s p (off + 4 * i) a _ (by omega)).1) _ s
theorem putWords_keeps (s : State) (p : Page) (off : Nat) (w : W128) : (s.putWords p off w).pager = s.pager ∧
    (s.putWords p off w).dp = s.dp ∧ (s.putWords p off w).pwr = s.pwr := by
  refine ⟨?_, ?_, ?_⟩
  · exact forEach_keeps State.pager (fun s i => s.setCfg p (off + 4 * i) (BitVec.ofNat 32 (w.toNat / 2 ^ (32 * i))))
      (fun _ _ => rfl) _ s
  · exact forEach_keeps State.dp (fun s i => s.setCfg p (off + 4 * i) (BitVec.ofNat 32 (w.toNat / 2 ^ (32 * i))))
      (fun _ _ => rfl) _ s
  · exact forEach_keeps State.pwr (fun s i => s.setCfg p (off + 4 * i) (BitVec.ofNat 32 (w.toNat / 2 ^ (32 * i))))
      (fun _ _ => rfl) _ s

/-- While its domain serves, a selection of the calendar shows the entry in CAL_DATA (R241). -/
theorem calLoad_up (s : State) (n : Nat) (hd : s.domUp 53 = true) (hn : fld (BitVec.ofNat 32 n) 7 0 = n) :
    (s.calLoad n).pager = s.pager ∧ (s.calLoad n).cfg .pager 0xC0 = BitVec.ofNat 32 n ∧ (s.calLoad n).calData = s.calEntry n := by
  obtain ⟨t, ht⟩ : ∃ t, t = s.setCfg .pager 0xC0 (BitVec.ofNat 32 n) := ⟨_, rfl⟩
  have hsel : t.cfg .pager 0xC0 = BitVec.ofNat 32 n := by
    rw [ht]
    exact cfg_setCfg s .pager 0xC0 _
  have hpg : t.pager = s.pager := by
    rw [ht]
    rfl
  have hentry : t.calEntry n = s.calEntry n := by
    unfold State.calEntry
    rw [hpg]
  have hdef : s.calLoad n = t.putWords .pager 0xC4 (s.calEntry n) := by
    have hup : t.domUp 53 = true := by
      rw [ht]
      exact hd
    unfold State.calLoad
    rw [← ht]
    dsimp only
    rw [hup, if_pos rfl]
    unfold State.calShow
    rw [hsel, hn, hentry]
  rw [hdef]
  refine ⟨(putWords_keeps t _ _ _).1.trans hpg, (cfg_putWords_below t .pager 0xC4 0xC0 _ (by decide)).trans hsel, ?_⟩
  unfold State.calData
  refine Eq.trans ?_ (join_words (s.calEntry n))
  rw [← cfg_putWords t .pager 0xC4 (s.calEntry n) 0 (by decide), ← cfg_putWords t .pager 0xC4 (s.calEntry n) 1 (by decide),
    ← cfg_putWords t .pager 0xC4 (s.calEntry n) 2 (by decide), ← cfg_putWords t .pager 0xC4 (s.calEntry n) 3 (by decide)]
/-- A selection of the bypass table shows the staged copy of the entry in BYP_DATA (R370). -/
theorem bypLoad_effect (s : State) (n : Nat) : (s.bypLoad n).dp = s.dp ∧ (s.bypLoad n).cfg .byp 0x80 = BitVec.ofNat 32 n ∧
    (s.bypLoad n).bypData = bypMask (s.bypCopy n) := by
  obtain ⟨t, ht⟩ : ∃ t, t = s.setCfg .byp 0x80 (BitVec.ofNat 32 n) := ⟨_, rfl⟩
  have hsel : t.cfg .byp 0x80 = BitVec.ofNat 32 n := by
    rw [ht]
    exact cfg_setCfg s .byp 0x80 _
  have hdp : t.dp = s.dp := by
    rw [ht]
    rfl
  have hdef : s.bypLoad n = t.putWords .byp 0x84 (s.bypCopy n) := by
    rw [ht]
    rfl
  rw [hdef]
  refine ⟨(putWords_keeps t _ _ _).2.1.trans hdp, (cfg_putWords_below t .byp 0x84 0x80 _ (by decide)).trans hsel, ?_⟩
  unfold State.bypData
  refine congrArg bypMask (Eq.trans ?_ (join_words (s.bypCopy n)))
  rw [← cfg_putWords t .byp 0x84 (s.bypCopy n) 0 (by decide), ← cfg_putWords t .byp 0x84 (s.bypCopy n) 1 (by decide),
    ← cfg_putWords t .byp 0x84 (s.bypCopy n) 2 (by decide), ← cfg_putWords t .byp 0x84 (s.bypCopy n) 3 (by decide)]
/-- A write of BYP_WR puts BYP_DATA into the staged copy of the selected entry (R370). -/
theorem bypStage_effect (s : State) : s.bypStage.bypCopy (fld (s.cfg .byp 0x80) 7 0) = s.bypData ∧
    s.bypStage.dp.byp = s.dp.byp ∧ (s.bypStage.hdr .byp).unlocked = (s.hdr .byp).unlocked ∧
    (s.bypStage.hdr .byp).dirty = true := by
  have hhdr : s.bypStage.hdr .byp = { s.hdr .byp with dirty := true } :=
    hdr_modHdr (s.modDp (fun d => { d with bypStaged := Tab.set none d.bypStaged (fld (s.cfg .byp 0x80) 7 0) (some s.bypData) }))
      .byp (fun h => { h with dirty := true })
  refine ⟨?_, rfl, ?_, ?_⟩
  · unfold State.bypCopy
    have hget : Tab.get none s.bypStage.dp.bypStaged (fld (s.cfg .byp 0x80) 7 0) = some s.bypData :=
      Tab.get_set none s.dp.bypStaged (fld (s.cfg .byp 0x80) 7 0) (some s.bypData)
    rw [hget]
    rfl
  · rw [hhdr]
  · rw [hhdr]

/-! ### Writes by address -/

theorem stageWrite_port (s : State) (n off : Nat) (m data : W32) :
    (s.stageWrite (.port n) off m data).stg (.port n) off = mergeBits m data (s.stg (.port n) off) ∧
    (s.stageWrite (.port n) off m data).regs.cfg = s.regs.cfg ∧
    ((s.stageWrite (.port n) off m data).hdr (.port n)).dirty = true ∧ (s.stageWrite (.port n) off m data).out = s.out := by
  obtain ⟨t, ht⟩ : ∃ t, t = s.setStaged (.port n) off (mergeBits m data (s.stg (.port n) off)) := ⟨_, rfl⟩
  have hdef : s.stageWrite (.port n) off m data = t.modHdr (.port n) (fun h => { h with dirty := true }) := by
    rw [ht]
    rfl
  have hstg : t.stg (.port n) off = mergeBits m data (s.stg (.port n) off) := by
    have hbad : (Page.port n).at off ∉ t.regs.parBad := by
      rw [ht]
      exact not_mem_delNat _ _
    unfold State.stg
    rw [if_neg hbad, ht]
    exact Tab.get_set _ _ _ _
  have hkeep : t.regs.cfg = s.regs.cfg ∧ t.out = s.out := by
    rw [ht]
    exact ⟨rfl, rfl⟩
  rw [hdef]
  exact ⟨hstg, hkeep.1, congrArg Hdr.dirty (hdr_modHdr t (.port n) _), hkeep.2⟩
/-- A write of PORT_CFG that nothing stands against is staged (R349). -/
theorem writeReg_portCfg (s : State) (n : Nat) (data : W32) (hf : s.free (.port n) = true)
    (hp : (s.hdr (.port n)).pending = false) : s.writeReg (.port n) 0x80 data = s.stageWrite (.port n) 0x80 0x107 data := by
  obtain ⟨_, hr, hb⟩ := free_parts s _ hf
  have hg := gate_ok s (.port n) 0x80 data _ (rowAt_portCfg n) hr hb rfl (.inl rfl) (.inl rfl) (.inr hp)
  have hact : ∀ t : State, t.writeAct (.port n) 0x80 data = t.stageWrite (.port n) 0x80 0x107 data := fun t => by
    change t.fieldWrite (.port n) 0x80 data = _
    unfold State.fieldWrite
    rw [rowAt_portCfg]
    rfl
  have honce : s.useOnce (.port n) 0x80 = s := by
    unfold State.useOnce
    rw [rowAt_portCfg]
    rfl
  unfold State.writeReg State.gated
  rw [hg]
  change State.writeAct (s.useOnce (.port n) 0x80) (.port n) 0x80 data = _
  rw [honce, hact]
theorem exec_registerWrite_word (addr : BitVec 21) (n : Nat) (data : W64) (s : State)
    (hpage : pageOf (addr.toNat / 0x1000) = some (.port n)) (hoff : addr.toNat % 0x1000 = 0x80) (hlow : addr.toNat < 0x100000)
    (hf : s.free (.port n) = true) (hp : (s.hdr (.port n)).pending = false) :
    exec (.registerWrite addr 2 data) s =
      .next ((s.begin.emit (.cpDone false)).stageWrite (.port n) 0x80 0x107 (lo32 data.toNat)).settle := by
  have hal : ¬ addr.toNat % 2 ^ 2 ≠ 0 := by omega
  have hw : (s.begin.emit (.cpDone false)).writeAt addr.toNat (lo32 data.toNat) =
      (s.begin.emit (.cpDone false)).stageWrite (.port n) 0x80 0x107 (lo32 data.toNat) := by
    unfold State.writeAt
    rw [if_pos hlow, hpage, hoff]
    exact writeReg_portCfg (s.begin.emit (.cpDone false)) n _ hf hp
  change execRegisterWrite addr 2 data s = _
  unfold execRegisterWrite
  dsimp only
  rw [show s.begin.cpUp = true from (free_parts s _ hf).1, if_pos rfl]
  unfold State.cpWrite
  rw [show (2 : BitVec 2).toNat = 2 from rfl, if_neg hal]
  change Host.Outcome.next ((s.begin.emit (.cpDone false)).writeAt addr.toNat (lo32 data.toNat)).settle = _
  rw [hw]
theorem exec_registerWrite_misaligned (addr : BitVec 21) (size : BitVec 2) (data : W64) (s : State) (hc : s.cpUp = true)
    (hal : addr.toNat % 2 ^ size.toNat ≠ 0) : exec (.registerWrite addr size data) s = .next (s.begin.answer true).settle := by
  change execRegisterWrite addr size data s = _
  unfold execRegisterWrite
  dsimp only
  rw [show s.begin.cpUp = true from hc, if_pos rfl]
  unfold State.cpWrite
  rw [if_pos hal]

/-- Settles O58: each register's effect once its write has passed the gate. -/
theorem registersWritten : Obligations.RegistersWritten := by
  unfold Obligations.RegistersWritten
  refine ⟨?_, ?_, ?_, ?_, ?_, ?_, ?_, ?_, ?_, ?_, ?_, ?_⟩
  · intro port s hf
    change Host.Outcome.next (s.begin.through _ _ _ _) = _
    rw [through_plain s.begin (.port port.val) 0xAC 1 _ _ (rowAt_pcntClr port.val) hf rfl rfl rfl rfl rfl]
    rfl
  · intro port s hf
    refine ⟨(s.begin.emit (.cpDone false)).pcntClearAll port.val, ?_, ?_, ?_⟩
    · change Host.Outcome.next (s.begin.through _ _ _ _) = _
      rw [through_plain s.begin (.port port.val) 0xAC 2 _ _ (rowAt_pcntClr port.val) hf rfl rfl rfl rfl rfl]
    · intro k hk
      exact get_filter_out 0 s.cnt.port (fun q => decide (q / 128 ≠ port.val)) _ (decide_eq_false (by omega))
    · intro k hk
      have hzero : (k / 128).val = 0 := Nat.div_zero k.val
      have hother : k.val / 128 ≠ port.val := fun e => hk (Fin.ext (by omega))
      exact get_filter 0 s.cnt.port (fun q => decide (q / 128 ≠ port.val)) _ (decide_eq_true hother)
  · intro s hf hj
    change Host.Outcome.next (s.begin.through _ _ _ _) = _
    rw [through_plain s.begin .pager 0xAC 1 _ { off := 0xAC, w1s := 0x1 } rfl hf rfl rfl rfl rfl rfl]
    refine congrArg (fun t : State => Host.Outcome.next t.settle) ?_
    exact if_pos hj
  · intro s hf hd
    change Host.Outcome.next (s.begin.through _ _ _ _) = _
    rw [through_plain s.begin .pager 0xD4 1 _ { off := 0xD4, w1s := 0x1 } rfl hf rfl rfl rfl rfl rfl]
    exact congrArg Host.Outcome.next (if_pos hd)
  · intro s hf hd
    change Host.Outcome.next (s.begin.through _ _ _ _) = _
    rw [through_plain s.begin .pager 0xD4 1 _ { off := 0xD4, w1s := 0x1 } rfl hf rfl rfl rfl rfl rfl]
    exact congrArg Host.Outcome.next (if_neg (fun h => Bool.false_ne_true (hd.symm.trans h)))
  · intro data s hf hd
    refine ⟨((s.begin.emit (.cpDone false)).setCfg .pager 0xC0 (BitVec.ofNat 32 (fld data 7 0))).modPager
      (fun p => { p with calRead := true }), ?_, rfl, cfg_setCfg (s.begin.emit (.cpDone false)) .pager 0xC0 _⟩
    change Host.Outcome.next (s.begin.through _ _ _ _) = _
    rw [through_plain s.begin .pager 0xC0 data _ { off := 0xC0, rw := 0xFF } rfl hf rfl rfl rfl rfl rfl]
    exact congrArg Host.Outcome.next (if_neg (fun h => Bool.false_ne_true (hd.symm.trans h)))
  · intro data s hf hd
    refine ⟨(s.begin.emit (.cpDone false)).calLoad (fld data 7 0), ?_,
      calLoad_up (s.begin.emit (.cpDone false)) _ hd (fld_ofNat_fld data 7 (by decide))⟩
    change Host.Outcome.next (s.begin.through _ _ _ _) = _
    rw [through_plain s.begin .pager 0xC0 data _ { off := 0xC0, rw := 0xFF } rfl hf rfl rfl rfl rfl rfl]
  · intro data s hf
    refine ⟨(s.begin.emit (.cpDone false)).bypLoad (fld data 7 0), ?_, bypLoad_effect (s.begin.emit (.cpDone false)) _⟩
    change Host.Outcome.next (s.begin.through _ _ _ _) = _
    rw [through_plain s.begin .byp 0x80 data _ { off := 0x80, rw := 0xFF } rfl hf rfl rfl rfl rfl rfl]
  · intro s hf hu hp
    obtain ⟨hcopy, hbyp, hunl, hdirty⟩ := bypStage_effect ((s.begin.emit (.cpDone false)).setUnlocked .byp false)
    refine ⟨((s.begin.emit (.cpDone false)).setUnlocked .byp false).bypStage, ?_, hcopy, hbyp,
      hunl.trans (setUnlocked_unlocked _ _ _), hdirty⟩
    change Host.Outcome.next (s.begin.through _ _ _ _) = _
    rw [through_ok s.begin .byp 0x94 1 _ { off := 0x94, s := 0x1, l := 0x1, w1s := 0x1 } rfl hf rfl (.inr hu) (.inl rfl)
      (.inr hp)]
    rfl
  · intro ctr data s hf
    refine ⟨(s.begin.emit (.cpDone false)).presetCtr ctr.toNat data, ?_, rfl, Tab.get_set none s.cnt.preset ctr.toNat (some _)⟩
    change Host.Outcome.next (s.begin.through _ _ _ _) = _
    rw [through_plain s.begin (evcPage ctr.toNat) _ data _ _ (rowAt_evcHi _ _ (Nat.mod_lt _ (by decide))) hf rfl rfl rfl rfl
      rfl]
  · intro addr n data s hpage hoff hlow hf hp
    obtain ⟨hstg, hcfg, hdirty, hout⟩ := stageWrite_port (s.begin.emit (.cpDone false)) n 0x80 0x107 (lo32 data.toNat)
    exact ⟨_, exec_registerWrite_word addr n data s hpage hoff hlow hf hp, hout, hstg, hcfg, hdirty⟩
  · intro addr size data s hc hal
    exact ⟨_, exec_registerWrite_misaligned addr size data s hc hal, rfl, rfl, counted_evt s.begin 117 1⟩

end Sys2Proof.Machine
end

section
/-! PROOFS. Reads with side effects and the locks of pages (R220, R344, R346, R347, R353). -/
namespace Sys2Proof.Machine

/-! ### LO/HI pairs -/

theorem rows_hi_next (p : Page) : ∀ r ∈ rowsHdr ++ rowsOf p, r.hi = 0 ∨ r.hi = r.off + 4 := by
  cases p
  case port n =>
    have hall : ∀ r ∈ rowsHdr ++ rowsPort, r.hi = 0 ∨ r.hi = r.off + 4 := by decide
    have hrows : rowsOf (.port n) = if n = 0 then rowsPort else rowsPort.filter (fun r => r.off ≠ 0x094) := rfl
    rw [hrows]
    split
    · exact hall
    · exact fun r hr => hall r ((List.Sublist.append (List.Sublist.refl _) List.filter_sublist).subset hr)
  case slice n =>
    have hall : ∀ r ∈ rowsHdr ++ rowsSlice, r.hi = 0 ∨ r.hi = r.off + 4 := by decide
    have hrows : rowsOf (.slice n) = if n = 0 then rowsSlice else rowsSlice.filter (fun r => r.off < 0x100) := rfl
    rw [hrows]
    split
    · exact hall
    · exact fun r hr => hall r ((List.Sublist.append (List.Sublist.refl _) List.filter_sublist).subset hr)
  case evc n =>
    exact (by decide : ∀ r ∈ rowsHdr ++ rowsEvc, r.hi = 0 ∨ r.hi = r.off + 4)
  all_goals decide
/-- The HI register of a pair follows its LO register. -/
theorem hiOf_next (p : Page) (off h : Nat) (hh : hiOf p off = some h) : h = off + 4 := by
  unfold hiOf at hh
  split at hh
  · next r hr =>
    have hmem : r ∈ rowsHdr ++ rowsOf p := List.mem_of_find?_eq_some hr
    have hcov : r.covers off = true := List.find?_some (p := fun r : RegRow => r.covers off) (l := rowsHdr ++ rowsOf p) hr
    have hle : r.off ≤ off := by
      unfold RegRow.covers at hcov
      simp only [Bool.and_eq_true, decide_eq_true_eq] at hcov
      exact hcov.1.1
    split at hh
    · exact nomatch hh
    · next hne =>
      have hnext := (rows_hi_next p r hmem).resolve_left hne
      have hsome := Option.some.inj hh
      omega
  · exact nomatch hh

/-! ### Side effects of a read -/

/-- A read of a LO register latches its HI register (R347). -/
def State.latchHi (s : State) (p : Page) (off : Nat) : State :=
  match hiOf p off with
  | some h => s.modRegs (·.setLatch (p.at h) (s.value p h))
  | none => s
theorem poisonRead_latch (s : State) (p : Page) (off : Nat) :
    (s.poisonRead p off).regs.latch = s.regs.latch ∧ (s.poisonRead p off).out = s.out := by
  unfold State.poisonRead
  dsimp only
  split
  · split
    · exact ⟨rfl, rfl⟩
    · exact ⟨rfl, rfl⟩
  · split
    · exact ⟨rfl, rfl⟩
    · exact ⟨rfl, rfl⟩
  · exact ⟨rfl, rfl⟩
/-- The latches and the answers after a read are those that its LO register leaves. -/
theorem readActs_latchHi (s : State) (p : Page) (off : Nat) :
    (s.readActs p off).regs.latch = (s.latchHi p off).regs.latch ∧ (s.readActs p off).out = (s.latchHi p off).out := by
  have hpr := poisonRead_latch (s.latchHi p off) p off
  unfold State.readActs
  dsimp only
  split
  · exact hpr
  · exact hpr
  · exact hpr
  · exact hpr
  · exact hpr
theorem readActs_out (s : State) (p : Page) (off : Nat) : (s.readActs p off).out = s.out := by
  rw [(readActs_latchHi s p off).2]
  unfold State.latchHi
  split
  · rfl
  · rfl
theorem readActs_latch_hi (s : State) (p : Page) (off h : Nat) (hh : hiOf p off = some h) :
    Tab.get 0 (s.readActs p off).regs.latch (p.at h) = s.value p h := by
  rw [(readActs_latchHi s p off).1]
  unfold State.latchHi
  rw [hh]
  exact Tab.get_set 0 s.regs.latch _ _
/-- The latch of the next register is set by a read of its own LO register only. -/
theorem readActs_latch_keeps (s : State) (p : Page) (off k : Nat) (hk : k ≠ off + 4) :
    Tab.get 0 (s.readActs p off).regs.latch (p.at k) = Tab.get 0 s.regs.latch (p.at k) := by
  rw [(readActs_latchHi s p off).1]
  unfold State.latchHi
  split
  · next h hh =>
    have hne : k ≠ h := fun e => hk (e.trans (hiOf_next p off h hh))
    exact Tab.get_set_ne 0 0 s.regs.latch _ _ _ (at_ne p k h hne)
  · rfl

/-! ### Reads by address -/

theorem readAt_low (s : State) (a : Nat) (p : Page) (ha : a < 0x100000) (hp : pageOf (a / 0x1000) = some p) :
    s.readAt a = (s.readReg p (a % 0x1000), s.readActs p (a % 0x1000)) := by
  unfold State.readAt
  rw [if_pos ha, hp]
theorem readReg_plain (s : State) (p : Page) (off : Nat) (h : loOf p off = none) : s.readReg p off = s.value p off := by
  unfold State.readReg
  rw [h]
theorem readReg_hi (s : State) (p : Page) (off lo : Nat) (h : loOf p off = some lo) :
    s.readReg p off = Tab.get 0 s.regs.latch (p.at off) := by
  unfold State.readReg
  rw [h]
/-- A read of a LO register answers its addressed bytes; one of 8 B answers the HI register after it (R39, R346). -/
theorem cpRead_aligned (s : State) (a size : Nat) (hal : a % 2 ^ size = 0) :
    s.cpRead a size = if size = 3 then
      (((s.readAt (a / 4 * 4)).2.answerRead false ((s.readAt (a / 4 * 4)).1 &&& laneMask a size)).readAt (a + 4)).2.answerRead
        false (((s.readAt (a / 4 * 4)).2.answerRead false ((s.readAt (a / 4 * 4)).1 &&& laneMask a size)).readAt (a + 4)).1
      else (s.readAt (a / 4 * 4)).2.answerRead false ((s.readAt (a / 4 * 4)).1 &&& laneMask a size) := by
  unfold State.cpRead
  rw [if_neg (fun h => h hal)]
theorem cpRead_narrow (s : State) (a b size : Nat) (p : Page) (hal : a % 2 ^ size = 0) (hs : size ≠ 3) (hb : b = a / 4 * 4)
    (hlow : b < 0x100000) (hp : pageOf (b / 0x1000) = some p) (hlo : loOf p (b % 0x1000) = none) :
    s.cpRead a size =
      (s.readActs p (b % 0x1000)).answerRead false (s.value p (b % 0x1000) &&& laneMask a size) := by
  rw [cpRead_aligned s a size hal, if_neg hs, ← hb, readAt_low s b p hlow hp, readReg_plain s p _ hlo]
theorem cpRead_wide (s : State) (a : Nat) (p : Page) (hal : a % 8 = 0) (hlow : a < 0x100000) (hp : pageOf (a / 0x1000) = some p)
    (hlo : loOf p (a % 0x1000) = none) : ∃ t : State, t = (s.readActs p (a % 0x1000)).answerRead false (s.value p (a % 0x1000)) ∧
      s.cpRead a 3 = (t.readActs p (a % 0x1000 + 4)).answerRead false (t.readReg p (a % 0x1000 + 4)) := by
  obtain ⟨t, ht⟩ : ∃ t, t = (s.readActs p (a % 0x1000)).answerRead false (s.value p (a % 0x1000)) := ⟨_, rfl⟩
  have hfirst : (s.readAt (a / 4 * 4)).2.answerRead false ((s.readAt (a / 4 * 4)).1 &&& laneMask a 3) = t := by
    rw [show a / 4 * 4 = a by omega, readAt_low s a p hlow hp, readReg_plain s p _ hlo, ht]
    exact congrArg (State.answerRead _ false) BitVec.and_allOnes
  have hp4 : pageOf ((a + 4) / 0x1000) = some p := by
    rw [show (a + 4) / 0x1000 = a / 0x1000 by omega]
    exact hp
  refine ⟨t, ht, ?_⟩
  rw [cpRead_aligned s a 3 hal, if_pos rfl, hfirst, readAt_low t (a + 4) p (by omega) hp4,
    show (a + 4) % 0x1000 = a % 0x1000 + 4 by omega]
theorem answerRead_out (s : State) (w : W32) : (s.answerRead false w).out = s.out ++ [.cpData false w] := rfl
theorem exec_loRegisterRead (addr : ReadAt) (s : State) (hc : s.cpUp = true) :
    exec (.loRegisterRead addr) s = .next (s.begin.cpRead addr.addr.toNat addr.size.toNat) :=
  congrArg Host.Outcome.next (if_pos (show s.begin.cpUp = true from hc))
/-- A read of 1, 2 or 4 bytes of a LO register. -/
theorem loRead_narrow (s : State) (a b size h : Nat) (p : Page) (hal : a % 2 ^ size = 0) (hs : size ≠ 3) (hb : b = a / 4 * 4)
    (hlow : b < 0x100000) (hp : pageOf (b / 0x1000) = some p) (hhi : hiOf p (b % 0x1000) = some h)
    (hlo : loOf p (b % 0x1000) = none) : Tab.get 0 (s.cpRead a size).regs.latch (p.at h) = s.value p h ∧
      (s.cpRead a size).out = s.out ++ [.cpData false (s.value p (b % 0x1000) &&& laneMask a size)] := by
  rw [cpRead_narrow s a b size p hal hs hb hlow hp hlo, answerRead_out, readActs_out]
  exact ⟨readActs_latch_hi s p _ h hhi, rfl⟩
/-- A read of 8 bytes of a LO register; the upper ones come from the latch that it has just set. -/
theorem loRead_wide (s : State) (a h : Nat) (p : Page) (hal : a % 8 = 0) (hlow : a < 0x100000)
    (hp : pageOf (a / 0x1000) = some p) (hhi : hiOf p (a % 0x1000) = some h) (hlo : loOf p (a % 0x1000) = none) :
    Tab.get 0 (s.cpRead a 3).regs.latch (p.at h) = s.value p h ∧
      (h = a % 0x1000 + 4 → loOf p h = some (a % 0x1000) →
        (s.cpRead a 3).out = s.out ++ [.cpData false (s.value p (a % 0x1000)), .cpData false (s.value p h)]) := by
  obtain ⟨t, ht, hdef⟩ := cpRead_wide s a p hal hlow hp hlo
  have hnext := hiOf_next p _ h hhi
  have hlatch : Tab.get 0 t.regs.latch (p.at h) = s.value p h := by
    rw [ht]
    exact readActs_latch_hi s p _ h hhi
  have hout : t.out = s.out ++ [.cpData false (s.value p (a % 0x1000))] := by
    rw [ht, answerRead_out, readActs_out]
  rw [hdef, answerRead_out, readActs_out, hout, ← hnext]
  refine ⟨(readActs_latch_keeps t p h h (by omega)).trans hlatch, fun _ hpair => ?_⟩
  rw [readReg_hi t p h _ hpair, hlatch, List.append_assoc]
  rfl

/-! ### The Equinox log -/

theorem value_eqxLogLo (s : State) (hr : s.resetOn .glob = false) : s.value .glb 0x208 = s.logHead.1 := by
  unfold State.value
  rw [show s.resetOn (Page.glb).part = false from hr]
  rfl
theorem value_eqxLogHi (s : State) (hr : s.resetOn .glob = false) (hl : s.ch.eqxLog.isEmpty = false) :
    s.value .glb 0x20C = s.logHead.2 := by
  have hview : s.glbView 0x20C = s.logHead.2 := by
    change (if s.ch.eqxLog.isEmpty then Tab.get 0 s.regs.latch (Page.glb.at 0x20C) else s.logHead.2) = _
    rw [hl, if_neg Bool.false_ne_true]
  unfold State.value
  rw [show s.resetOn (Page.glb).part = false from hr]
  exact hview
theorem exec_eqxLogRead (s : State) (hc : s.cpUp = true) (hr : s.resetOn .glob = false) :
    exec .eqxLogRead s =
      .next ((s.begin.modRegs (·.setLatch (Page.glb.at 0x20C) (s.begin.value .glb 0x20C))).logPop.answerRead false
        s.logHead.1) := by
  have hval : s.begin.value .glb 0x208 = s.logHead.1 := value_eqxLogLo s.begin hr
  rw [← hval]
  exact congrArg Host.Outcome.next (if_pos (show s.begin.cpUp = true from hc))

/-! ### The lock of a page -/

theorem rowAt_unlock (p : Page) : rowAt p 0x0C = some { off := 0xC, wo := 0xFFFFFFFF } := rfl
/-- A write of UNLOCK is taken also while the page is busy or its partition is being reset (R344). -/
theorem through_unlock (s : State) (p : Page) (data : W32) (act : State → State) (hc : s.cpUp = true) :
    s.through p 0x0C data act = (act (s.emit (.cpDone false))).when p.aoPosted (·.setBusy p true) := by
  have hg : (s.emit (.cpDone false)).gate p 0x0C data = .ok false := by
    unfold State.gate
    rw [rowAt_unlock]
    simp only [ne_eq, not_true_eq_false, decide_false, Bool.and_false, Bool.false_and, Bool.false_eq_true, if_false]
    rfl
  unfold State.through State.gated
  rw [if_pos hc, show s.answer false = s.emit (.cpDone false) from rfl, hg]
  rfl
theorem exec_pgUnlock (page : BitVec 8) (data : W32) (p : Page) (s : State) (hc : s.cpUp = true)
    (hp : pageOf page.toNat = some p) : exec (.pgUnlock page data) s =
      .next (((s.begin.emit (.cpDone false)).unlockWrite p data).when p.aoPosted (·.setBusy p true)) := by
  change execPgUnlock page data s = _
  unfold execPgUnlock
  simp only [hp, through_unlock s.begin p data _ hc]
/-- A posted page counts as busy, and nothing else of its header changes. -/
theorem posted_hdr (s : State) (p : Page) (b : Bool) : ((s.when b (·.setBusy p true)).hdr p).unlocked = (s.hdr p).unlocked ∧
    ((s.when b (·.setBusy p true)).hdr p).lockViol = (s.hdr p).lockViol := by
  have hbusy : (s.setBusy p true).hdr p = { s.hdr p with busy := true } := hdr_modHdr s p (fun h => { h with busy := true })
  cases b
  · exact ⟨rfl, rfl⟩
  · exact ⟨(congrArg Hdr.unlocked hbusy :), (congrArg Hdr.lockViol hbusy :)⟩

/-- Settles O59: the reads by the latch that they set, the lock by the write of UNLOCK. -/
theorem registersRead : Obligations.RegistersRead := by
  unfold Obligations.RegistersRead
  refine ⟨?_, ?_, ?_, ?_, ?_, ?_, ?_⟩
  · intro e rest s hc hr hl
    have hhead : s.logHead = e := by
      unfold State.logHead
      rw [hl]
      rfl
    have hhi : s.begin.value .glb 0x20C = e.2 := by
      rw [← hhead]
      exact value_eqxLogHi s.begin hr (by rw [show s.begin.ch.eqxLog = _ from hl]; rfl)
    refine ⟨_, exec_eqxLogRead s hc hr, ?_, ?_, ?_⟩
    · rw [hhead]
      rfl
    · change { s.ch with eqxLog := s.ch.eqxLog.drop 1 } = _
      rw [hl]
      rfl
    · rw [readReg_hi _ .glb 0x20C 0x208 rfl, ← hhi]
      exact Tab.get_set 0 s.regs.latch _ _
  · intro s hc hr hl
    have hhead : s.logHead = (0, 0) := by
      unfold State.logHead
      rw [hl]
      rfl
    refine ⟨_, exec_eqxLogRead s hc hr, ?_, ?_⟩
    · rw [hhead]
      rfl
    · change { s.ch with eqxLog := s.ch.eqxLog.drop 1 } = _
      rw [hl]
      exact congrArg (fun l => { s.ch with eqxLog := l }) hl.symm
  · intro addr a p h s hc hal ha hlow hp hhi hlo
    refine ⟨_, exec_loRegisterRead addr s hc, ?_⟩
    by_cases h3 : addr.size = 3
    · have hsize : addr.size.toNat = 3 := by rw [h3]; rfl
      rw [hsize] at hal ⊢
      have haa : a = addr.addr.toNat := by omega
      subst haa
      obtain ⟨hlatch, hout⟩ := loRead_wide s.begin _ h p hal hlow hp hhi hlo
      refine ⟨hlatch, fun h0 => ?_, fun h1 => ?_, fun h2 => ?_, fun _ => hout⟩
      · exact absurd (h0.symm.trans h3) (by decide)
      · exact absurd (h1.symm.trans h3) (by decide)
      · exact absurd (h2.symm.trans h3) (by decide)
    · have hsize : addr.size.toNat ≠ 3 := fun e => h3 (BitVec.eq_of_toNat_eq e)
      obtain ⟨hlatch, hout⟩ := loRead_narrow s.begin _ a _ h p hal hsize ha hlow hp hhi hlo
      refine ⟨hlatch, fun h0 => ?_, fun h1 => ?_, fun h2 => ?_, fun h => absurd h h3⟩
      · rw [hout, h0]
        rfl
      · rw [hout, h1]
        rfl
      · rw [hout, h2]
        exact congrArg (fun w => [Emit.cpData false w]) BitVec.and_allOnes
  · intro addr s hc hal
    refine ⟨_, exec_loRegisterRead addr s hc, ?_⟩
    have hdef : s.begin.cpRead addr.addr.toNat addr.size.toNat = s.begin.answerRead true 0 := if_pos hal
    rw [hdef]
    exact ⟨rfl, rfl, counted_evt s.begin 117 1⟩
  · intro page p s hc hp
    refine ⟨_, exec_pgUnlock page _ p s hc hp, ?_⟩
    have hdef : (s.begin.emit (.cpDone false)).unlockWrite p (0xC1E00000 + BitVec.ofNat 32 p.num) =
        (s.begin.emit (.cpDone false)).setUnlocked p true := if_pos rfl
    have hhdr : ((s.begin.emit (.cpDone false)).setUnlocked p true).hdr p = { s.hdr p with unlocked := true } :=
      hdr_modHdr (s.begin.emit (.cpDone false)) p (fun h => { h with unlocked := true })
    rw [hdef]
    obtain ⟨hu, hv⟩ := posted_hdr ((s.begin.emit (.cpDone false)).setUnlocked p true) p p.aoPosted
    refine ⟨hu.trans (congrArg Hdr.unlocked hhdr :), hv.trans (congrArg Hdr.lockViol hhdr :), ?_⟩
    exact when_keeps (fun s => s.regs.cfg) (·.setBusy p true) (fun _ => rfl) _ _
  · intro page data p s hc hp hd
    refine ⟨_, exec_pgUnlock page _ p s hc hp, ?_⟩
    have hdef : (s.begin.emit (.cpDone false)).unlockWrite p data = (s.begin.emit (.cpDone false)).lockViol p := if_neg hd
    have hhdr : ((s.begin.emit (.cpDone false)).lockViol p).hdr p = { s.hdr p with lockViol := true } :=
      hdr_modHdr (s.begin.emit (.cpDone false)) p (fun h => { h with lockViol := true })
    rw [hdef]
    obtain ⟨hu, hv⟩ := posted_hdr ((s.begin.emit (.cpDone false)).lockViol p) p p.aoPosted
    refine ⟨hu.trans (congrArg Hdr.unlocked hhdr :), hv.trans (congrArg Hdr.lockViol hhdr :), ?_⟩
    refine (when_keeps (fun s => s.counted 112) (·.setBusy p true) (fun _ => rfl) _ _).trans ?_
    exact counted_evt _ 112 1
  · intro page p s hp
    refine ⟨s.begin.setUnlocked p false, ?_, setUnlocked_unlocked _ _ _, ?_, rfl⟩
    · change execUnlockExpiry page s = _
      unfold execUnlockExpiry
      simp only [hp]
    · exact (congrArg Hdr.epoch (hdr_modHdr s.begin p (fun h => { h with unlocked := false })) :)

end Sys2Proof.Machine
end
